-- ==== Sys2Proof/Word.lean ====
section
/-! DEFINITION. The words the block's registers, buffers and memories are made of, and the sparse table type. -/

namespace Sys2Proof

/-- One byte of memory, of a packet, of a frame or of a flit. -/
abbrev Byte := BitVec 8

/-- A 64-bit register image. -/
abbrev Word := BitVec 64

/-- A 32-bit register image or thread instruction word. -/
abbrev Half := BitVec 32

/-- A sparse table: keys strictly rising, no entry equal to the table's default (kept by `Tbl.set`). -/
abbrev Tbl (α : Type) := List (Nat × α)

end Sys2Proof
end

