-- ==== Sys2Proof/Machine/Data/Common.lean ====
section
/-! DEFINITION. Operand and record types that several blocks share: who asks, what leaves the chip, what an error is. -/

namespace Sys2Proof.Machine

/-- Who performs a register access (R89): a PCIe function, the island, the MMP register path,
or an agent of owner 0 through the DPA mirror of R59. -/
inductive Requester where
  | fn (n : Nat)
  | island
  | mmp
  | mirror
deriving DecidableEq, Repr

/-- The reference clocks in the bit order of ISL_CLK_STATUS. -/
inductive Clk where
  | refclk100 | elk0 | elk1 | islClk25
deriving DecidableEq, Repr

/-- Sources of a chip reset with a level or a duration of their own. -/
inductive ResetSrc where
  | pin | perst | soft | mmp
deriving DecidableEq, Repr

/-- The straps latched at VSTBY qualification (R50). -/
structure Straps where
  pos : Nat
  lead : Bool
  recovery : Bool
  test : Bool
deriving DecidableEq, Repr

/-- How a host-side request ended: data or a successful completion, or Unsupported Request,
Completer Abort or poison (R187, R188). -/
inductive HostEnd where
  | ok | error
deriving DecidableEq, Repr

/-- What ECC found in the units an access reads (R159–R161). -/
inductive Ecc where
  | ok | ce | ue
deriving DecidableEq, Repr

/-- The response a register or window access meets on its own path (R8). -/
inductive Resp where
  | ok (value : Nat) | poisoned (value : Nat) | abort | unsupported | dropped
deriving DecidableEq, Repr

/-- What the host's consumed counts hold at this instant: EV_CONS of each step stream (R269) and DONE_CONS of each
sweep channel (R302). The device reads one only when its own value shows the ring full. -/
structure Cons where
  streams : List Nat := []
  sweeps : List Nat := []
deriving DecidableEq, Repr

/-- A CAN data or remote frame, without its stuffing, CRC and acknowledgement (R388). -/
structure CanFrame where
  ident : Nat
  ide : Bool := false
  rtr : Bool := false
  fdf : Bool := false
  brs : Bool := false
  esi : Bool := false
  dlc : Nat := 8
  data : List Byte := []
deriving DecidableEq, Repr

/-- What leaves the block: the model's own record of outputs, oldest first. -/
inductive Emit where
  /-- A memory write to a host address as function `fn`; `relaxed` is Relaxed Ordering (R208). -/
  | hostWrite (fn addr : Nat) (data : List Byte) (relaxed : Bool)
  /-- A memory write to the host with the PCIe poisoned bit set (R162). -/
  | hostPoison (fn addr : Nat) (data : List Byte)
  /-- A memory read request to a host address; its answer arrives in a later command's operand. -/
  | hostRead (fn addr len : Nat)
  /-- One MSI-X message (R186). -/
  | msix (fn vec : Nat)
  /-- The response of a register or window access. -/
  | answer (r : Requester) (addr : Nat) (resp : Resp)
  /-- PMBus OPERATION on or off to a main-rail regulator (R34, R39). -/
  | operation (rail : Nat) (on : Bool)
  /-- PMBus VOUT_COMMAND, in millivolts (R34, R341). -/
  | vout (rail mv : Nat)
  /-- A 256-byte flit on a link port (R215). -/
  | flit (port : Nat) (bytes : List Byte)
  /-- A handshake or management message on a link port, by type and payload. -/
  | linkMsg (port typ : Nat) (payload : List Byte)
  /-- A frame sent from a transmit buffer, with its start of frame (R397). -/
  | frame (f : CanFrame) (buf sof : Nat)
  /-- An event on island interrupt line 0 or 1 (R413). -/
  | islandIrq (line : Nat)
  /-- A tray SMBus transaction to a target address (R451). -/
  | smbus (target cmd : Nat) (data : List Byte)
  /-- An identity memory read or write on I2C0. -/
  | i2c0 (site : Nat) (write : Bool) (off : Nat) (data : List Byte)
  /-- An MMP packet sent from the management port to an address and port of 16 and 2 bytes (R467). -/
  | mmp (dest payload : List Byte)
  /-- A plain configuration answer of the host port. -/
  | config (fn : Nat) (resp : Resp)
  /-- A phase-locked pulse edge. -/
  | pulse (index : Nat) (active : Bool)
  /-- A fan or pump output's duty in 1/1,024 (R355). -/
  | pwm (chan duty : Nat)
  /-- A valve bridge's period: gate (0 AH, 1 AL, 2 BH, 3 BL), on and off in 5 ns ticks (R361–R363). -/
  | gates (valve : Nat) (schedule : List (Nat × Nat × Nat))
deriving DecidableEq, Repr

/-- Severities (R482). -/
abbrev sevNotice : Nat := 0
abbrev sevCorrected : Nat := 1
abbrev sevDeferred : Nat := 2
abbrev sevContained : Nat := 3
abbrev sevFatal : Nat := 4

/-- What a reporting block hands the error unit. -/
structure ErrEvent where
  cls : Nat
  cause : Nat
  sev : Nat
  status : Nat := 0
  addr : Nat := 0
  addrKind : Nat := 0
  owner : Option Nat := none
  source : Nat := 0
  index : Nat := 0
  tag : Nat := 0
  requester : Option Nat := none
  info : Nat := 0
  agent : Nat := 7
  agentIndex : Nat := 0
  access : Nat := 0
  injected : Bool := false
  /-- R102: the SEQ of the entry this one is SECONDARY to. -/
  secondaryTo : Option Nat := none
deriving DecidableEq, Repr

/-- What a block reports to the error unit: an event of R483's list, or a fault of a part that also acts on it. -/
inductive ErrSource where
  /-- Any reporting block, with the entry's fields. -/
  | event (e : ErrEvent)
  /-- The island's cores disagree. -/
  | lockstep
  /-- An uncorrectable message RAM word of the fluid bus controller, by its offset (R387). -/
  | fbcRam (off : Nat)
  /-- An uncorrectable transmit shadow (R387). -/
  | fbcShadow
deriving DecidableEq, Repr

end Sys2Proof.Machine
end

