-- ==== Sys2Proof/Syntax.lean ====
section
/-! DEFINITION. The commands of the block: one constructor per row of spec/opcode_table.json, in its order. -/

namespace Sys2Proof

open Machine

/-- A command: a register access of one requester, a packet at the head of a ring, an instruction of one thread, an
event of the chip's surroundings, or a unit reaching the point that a row names. Operands are what the chip cannot know
by itself: who asks and what, what arrives, what a check of a signature or of ECC finds. Where a row gives no operand,
the state says everything. -/
inductive Instr where
  /-- REGISTER_WRITE (R6). A write of `width` bytes of `v` by a requester at an offset of its view. -/
  | registerWrite (cons : Cons) (r : Requester) (off width v : Nat)
  /-- SPLIT_READ (R89). A read of `width` bytes by a requester. -/
  | splitRead (r : Requester) (off width : Nat)
  /-- SPLIT_WRITE (R90). A 32-bit write. -/
  | splitWrite (cons : Cons) (r : Requester) (off v : Nat)
  /-- VSTBY_QUALIFIED (R36). The strap levels at that instant. -/
  | vstbyQualified (straps : Straps)
  /-- VSTBY_FALL (R36). -/
  | vstbyFall
  /-- VSTBY_BROWN_OUT (R52). -/
  | vstbyBrownOut
  /-- POWER_UP (R38). The requester that writes the command. -/
  | powerUp (r : Requester)
  /-- AUTO_ON_POWER_UP (R515). -/
  | autoOnPowerUp
  /-- REGULATOR_ACK_TIMEOUT (R39). -/
  | regulatorAckTimeout (rail : Nat)
  /-- RAIL_UP (R39). -/
  | railUp
  /-- POWER_STEP_DELAY (R39). -/
  | powerStepDelay
  /-- POWER_DOWN (R41). The requester that writes the command. -/
  | powerDown (r : Requester)
  /-- QUIESCE_DONE (R41). -/
  | quiesceDone
  /-- QUIESCE_TIMEOUT (R41). -/
  | quiesceTimeout
  /-- RAIL_OFF (R41). -/
  | railOff
  /-- RAIL_OFF_WAIT_EXPIRY (R42). -/
  | railOffWaitExpiry (rail : Nat)
  /-- RAIL_NO_RISE (R42). -/
  | railNoRise (rail : Nat)
  /-- RAIL_LEFT_WINDOW (R42). -/
  | railLeftWindow (rail : Nat)
  /-- LAST_GASP_WRITTEN (R498). -/
  | lastGaspWritten
  /-- RAIL_CLEAR (R44). -/
  | railClear (r : Requester)
  /-- REFCLK_QUALIFIED (R49). -/
  | refclkQualified (clk : Clk)
  /-- REFCLK_LOST (R49). -/
  | refclkLost (cons : Cons) (clk : Clk)
  /-- CLOCK_HOLD_EXIT (R379). -/
  | clockHoldExit
  /-- CHIP_RST_N (R52). -/
  | chipRstN
  /-- PCIE_PERST_N (R52). -/
  | pciePerstN
  /-- CHIP_RESET (R52). -/
  | chipReset (r : Requester)
  /-- CHIP_RESET_RELEASE (R54). The source that lets go. -/
  | chipResetRelease (src : ResetSrc)
  /-- ISLAND_WATCHDOG (R52). -/
  | islandWatchdog
  /-- ISLAND_RESTART (R502). Bit k answers whether the hash and signature of slot k verify. -/
  | islandRestart (sigs : Nat)
  /-- THERMAL_TRIP (R55). -/
  | thermalTrip (sensor : Nat)
  /-- THERMTRIP_CLEAR (R56). -/
  | thermtripClear (r : Requester)
  /-- LEAD_CANDIDATE_TIMEOUT (R457). The ROLE bytes of the positions that answered. -/
  | leadCandidateTimeout (answers : List (Nat × Nat))
  /-- ROLE_POLL (R457). -/
  | rolePoll (pos answer : Nat)
  /-- OWNER_CREATE (R78). -/
  | ownerCreate (ring : Nat)
  /-- OWNER_DESTROY (R83). -/
  | ownerDestroy (cons : Cons) (ring : Nat)
  /-- OWNER_DRAIN_END (R83). -/
  | ownerDrainEnd (o : Nat)
  /-- DRAIN_TIMEOUT (R83). -/
  | drainTimeout (cons : Cons) (o : Nat)
  /-- FRAME_GRANT (R67). -/
  | frameGrant (ring : Nat)
  /-- FRAME_REVOKE (R67). -/
  | frameRevoke (ring : Nat)
  /-- CLUSTER_LEASE (R81). -/
  | clusterLease (ring : Nat)
  /-- CLUSTER_RELEASE (R82). -/
  | clusterRelease (ring : Nat)
  /-- SCRATCH_CLEAR_DONE (R81). -/
  | scratchClearDone (c : Nat)
  /-- MAP (R72). -/
  | map (ring : Nat)
  /-- UNMAP (R72). -/
  | unmap (ring : Nat)
  /-- RESUME (R76). -/
  | resume (cons : Cons) (ring : Nat)
  /-- WINDOW_READ (R85). -/
  | windowRead (off n : Nat) (ecc : Ecc)
  /-- WINDOW_WRITE (R85). -/
  | windowWrite (cons : Cons) (off : Nat) (bs : List Byte)
  /-- REMOTE_REQUEST (R235). A request message on a port; `ecc` is what ECC finds at the target. -/
  | remoteRequest (cons : Cons) (port : Nat) (ecc : Ecc) (bytes : List Byte)
  /-- REMOTE_ANSWER (R234). -/
  | remoteAnswer (cons : Cons) (port : Nat) (bytes : List Byte)
  /-- REQUEST_TIMEOUT (R236). -/
  | requestTimeout (cons : Cons) (tag : Nat)
  /-- LAUNCH (R98). -/
  | launch (ring : Nat)
  /-- GROUP_PLACE (R99). -/
  | groupPlace (o : Nat)
  /-- GROUP_END (R101). -/
  | groupEnd (gid : Nat)
  /-- THREAD_LOAD (R113). Thread by cluster and slot; `sg` sign-extends, `fp` names an F register, `len` is the
  instruction's length in bytes. -/
  | threadLoad (c slot rd rs1 : Nat) (imm : Int) (size : Nat) (sg fp : Bool) (len : Nat) (ecc : Ecc)
  /-- THREAD_STORE (R112). -/
  | threadStore (c slot rs2 rs1 : Nat) (imm : Int) (size : Nat) (fp : Bool) (len : Nat)
  /-- INSTRUCTION_FETCH (R117). `hit`: the core's instruction cache holds the lines. -/
  | instructionFetch (c slot : Nat) (hit : Bool) (ecc : Ecc)
  /-- FENCE_I (R117). -/
  | fenceI (c slot : Nat)
  /-- THREAD_FENCE (R114). -/
  | threadFence (c slot : Nat)
  /-- ECALL (R95). `kind` 0 is ECALL, 1 EBREAK, any other a privileged instruction. -/
  | ecall (c slot kind : Nat)
  /-- CSR_ACCESS (R96). `f3` is funct3; `rs1` is the register number or the immediate. -/
  | csrAccess (c slot f3 csr rd rs1 : Nat)
  /-- PAUSE (R93). -/
  | pause (c slot : Nat)
  /-- UBAR_INIT (R106). -/
  | ubarInit (c slot rs1 rs2 : Nat)
  /-- UBAR_ARRIVE (R106). -/
  | ubarArrive (c slot rd rs1 : Nat)
  /-- UBAR_WAIT (R106). -/
  | ubarWait (c slot rs1 rs2 : Nat)
  /-- UBAR_SYNC (R106). -/
  | ubarSync (c slot rs1 : Nat)
  /-- UCOPY (R108). -/
  | ucopy (c slot rs1 rs2 : Nat)
  /-- UCWAIT (R108). -/
  | ucwait (c slot rd rs1 rs2 : Nat)
  /-- UCREAD (R108). -/
  | ucread (c slot rd rs1 : Nat)
  /-- UCSET (R108). -/
  | ucset (c slot rs1 rs2 : Nat)
  /-- UEND (R101). -/
  | uend (c slot : Nat)
  /-- UYIELD (R109). -/
  | uyield (c slot : Nat)
  /-- UPARK (R110). -/
  | upark (c slot rd rs1 rs2 : Nat) (ecc : Ecc)
  /-- UPARK_TIMEOUT (R110). -/
  | uparkTimeout (c slot : Nat)
  /-- UWAKE (R110). -/
  | uwake (c slot rs1 : Nat)
  /-- UGRID_ACQ (R105). -/
  | ugridAcq (c slot : Nat)
  /-- UGRID_REL (R105). -/
  | ugridRel (c slot : Nat)
  /-- UGRID_TRY (R105). -/
  | ugridTry (c slot rd : Nat)
  /-- UFENCE_G (R114). -/
  | ufenceG (c slot : Nat)
  /-- UAMO (R111). -/
  | uamo (c slot op rd rs1 rs2 : Nat) (dword aq rl : Bool) (ecc : Ecc)
  /-- UCAS (R111). -/
  | ucas (c slot rd rs1 rs2 rs3 : Nat) (dword aq rl : Bool) (ecc : Ecc)
  /-- LR (R115). -/
  | lr (c slot rd rs1 : Nat) (dword aq rl : Bool) (ecc : Ecc)
  /-- SC (R115). -/
  | sc (c slot rd rs1 rs2 : Nat) (dword aq rl : Bool)
  /-- LR_RESERVATION_EXPIRY (R115). -/
  | lrReservationExpiry (c slot : Nat)
  /-- SUSPEND (R120). -/
  | suspend (ring : Nat)
  /-- SUSPEND_SAVE_DONE (R120). -/
  | suspendSaveDone (o tag : Nat)
  /-- CONTINUE (R122). -/
  | contin (ring : Nat)
  /-- CONTINUE_PLACE (R122). -/
  | continuePlace (o tag : Nat)
  /-- UTSET (R141). -/
  | utset (c slot rs1 rs2 : Nat)
  /-- UTGET (R140). -/
  | utget (c slot rd rs1 : Nat)
  /-- UTLDW (R142). -/
  | utldw (c slot rs1 rs2 : Nat)
  /-- UTMMA (R137). -/
  | utmma (c slot rs1 rs2 : Nat)
  /-- UTST (R142). -/
  | utst (c slot rs1 rs2 : Nat)
  /-- UTLDACC (R142). -/
  | utldacc (c slot rs1 rs2 : Nat)
  /-- UTZERO (R142). -/
  | utzero (c slot rs1 rs2 : Nat)
  /-- UTCVT (R130). -/
  | utcvt (c slot rs1 rs2 : Nat)
  /-- UTWAIT (R145). -/
  | utwait (c slot : Nat)
  /-- UTFLAGS (R139). -/
  | utflags (c slot rd : Nat)
  /-- TENSOR_ENTRY_START (R143). -/
  | tensorEntryStart (c : Nat)
  /-- TENSOR_ENTRY_COMPLETE (R143). `pos` is the entry's place in the queue. -/
  | tensorEntryComplete (c pos : Nat) (ecc : Ecc)
  /-- DESCRIPTOR_START (R166). Mover channels 0–511 are the clusters', 512 and up the bulk movers. -/
  | descriptorStart (ch : Nat)
  /-- MOVER_STEP (R166). `host` is what a host source answers, none for an error. -/
  | moverStep (ch : Nat) (ecc : Ecc) (host : Option (List Byte))
  /-- DESCRIPTOR_END (R168). -/
  | descriptorEnd (ch : Nat)
  /-- MOVER_CHAIN_COMPLETE (R108). -/
  | moverChainComplete (ch : Nat)
  /-- CE_WRITEBACK (R160). -/
  | ceWriteback (line : Nat)
  /-- TC0_WINDOW_EXPIRY (R156). -/
  | tc0WindowExpiry (res : Nat)
  /-- PATROL_READ (R172). -/
  | patrolRead (tier : Bool) (ecc : Ecc)
  /-- PATROL_PERIOD_EXPIRY (R172). -/
  | patrolPeriodExpiry (tier : Bool)
  /-- HBM_STACK_FAIL (R155). -/
  | hbmStackFail (k : Nat)
  /-- TELEMETRY_SAMPLE (R174). -/
  | telemetrySample
  /-- FLASH_ERASE (R173). -/
  | flashErase (ok : Bool)
  /-- HOST_LINK_UP (R177). `rates` is the partner's rate mask. -/
  | hostLinkUp (rates lanes : Nat)
  /-- FLR (R179). -/
  | flr (fn : Nat)
  /-- D3HOT_ENTRY (R180). -/
  | d3hotEntry (fn : Nat)
  /-- D0_RETURN (R180). -/
  | d0Return (fn : Nat)
  /-- BAR2_RESIZE (R184). -/
  | bar2Resize (code : Nat)
  /-- VECTOR_UNMASK (R186). Mask 0 is written to the vector control word of a function's vector. -/
  | vectorUnmask (fn vec : Nat)
  /-- ATS_INVALIDATION (R187). -/
  | atsInvalidation (fn : Nat)
  /-- RING_ENABLE (R190). `k` is the local ring number, `v` the other bits of CMD_RING_CTRL. -/
  | ringEnable (r : Requester) (k v : Nat)
  /-- RING_DISABLE (R194). -/
  | ringDisable (r : Requester) (k v : Nat)
  /-- DOORBELL (R191). -/
  | doorbell (r : Requester) (k tail : Nat)
  /-- RING_FETCH (R193). -/
  | ringFetch
  /-- RING_FETCH_COMPLETE (R194). -/
  | ringFetchComplete (ring : Nat) (e : HostEnd) (bs : List Byte)
  /-- CQ_HEAD_WRITE (R210). -/
  | cqHeadWrite (r : Requester) (k v : Nat)
  /-- NOP (R199). -/
  | nop (ring : Nat)
  /-- FENCE (R199). -/
  | fence (ring : Nat)
  /-- SIGNAL (R199). -/
  | signal (ring : Nat)
  /-- WAIT (R200). -/
  | wait (ring : Nat)
  /-- WAIT_POLL (R200). -/
  | waitPoll (ring : Nat) (e : HostEnd) (v : Nat)
  /-- WAIT_TIMEOUT (R200). -/
  | waitTimeout (ring : Nat)
  /-- TIMESTAMP (R199). -/
  | timestamp (ring : Nat)
  /-- COPY (R201). -/
  | copy (ring : Nat)
  /-- FILL (R201). -/
  | fill (ring : Nat)
  /-- INLINE_WRITE (R201). -/
  | inlineWrite (ring : Nat)
  /-- FLUSH_READ_COMPLETE (R188). `id` is the model's number of the packet in flight. -/
  | flushReadComplete (id : Nat) (e : HostEnd)
  /-- LOG_COPY (R204). -/
  | logCopy (ring : Nat)
  /-- ERR_INJECT (R503). -/
  | errInject (ring : Nat)
  /-- PORT_ENABLE (R227). -/
  | portEnable (r : Requester) (cons : Cons) (port : Nat)
  /-- PORT_DISABLE (R227). -/
  | portDisable (r : Requester) (cons : Cons) (port : Nat)
  /-- PHY_TRAINED (R216). `lanes` is the mask of half-ports that pass. -/
  | phyTrained (cons : Cons) (port lanes : Nat)
  /-- LINK_STATE_TIMEOUT (R227). -/
  | linkStateTimeout (cons : Cons) (port : Nat)
  /-- BACKOFF_EXPIRY (R227). -/
  | backoffExpiry (port : Nat)
  /-- HELLO (R231). -/
  | hello (port serial peerPort id : Nat) (hasId : Bool)
  /-- KEY (R228). `sig`: the KEY's signature verifies under the DEVKEY listed. -/
  | key (cons : Cons) (port : Nat) (key : List Byte) (sig : Bool)
  /-- FINISHED (R228). -/
  | finished (cons : Cons) (port digest : Nat) (tagOk : Bool)
  /-- REDIGEST (R230). -/
  | redigest (cons : Cons) (port digest : Nat) (sig : Bool)
  /-- FLIT_RECEIVE (R220). Header, decrypted payload, whether the tag verifies, uncorrectable codewords. -/
  | flitReceive (cons : Cons) (port head : Nat) (payload : List Byte) (tagOk : Bool) (uncorr : Nat) (ecc : Ecc) (sig : Bool)
  /-- FLIT_TRANSMIT (R222). -/
  | flitTransmit (port : Nat)
  /-- REPLAY_TIMEOUT (R220). -/
  | replayTimeout (cons : Cons) (port : Nat)
  /-- ACK_TIMER (R220). -/
  | ackTimer (port : Nat)
  /-- IDLE_TIMEOUT (R227). -/
  | idleTimeout (cons : Cons) (port : Nat)
  /-- NO_SIGNAL (R227). -/
  | noSignal (cons : Cons) (port : Nat)
  /-- PROBE (R231). -/
  | probe (cons : Cons) (port : Nat) (bytes : List Byte)
  /-- PROBE_RSP (R237). -/
  | probeRsp (cons : Cons) (port : Nat) (bytes : List Byte)
  /-- PROBE_TIMER (R237). -/
  | probeTimer
  /-- LOSS_HOLD_EXPIRY (R238). -/
  | lossHoldExpiry (cons : Cons) (id : Nat)
  /-- FENCE_MESSAGE (R238). -/
  | fenceMessage (cons : Cons) (port : Nat) (bytes : List Byte)
  /-- STAGE (R226). `host` is the manifest the host read brings, none for an error. -/
  | stage (r : Requester) (cons : Cons) (host : Option (List Byte))
  /-- COMMIT (R226). `sigs` are the verdicts on the kept KEY messages by port. -/
  | commit (r : Requester) (cons : Cons) (sigs : List Bool)
  /-- COMMIT_DTS_REACHED (R230). -/
  | commitDtsReached (cons : Cons) (sigs : List Bool)
  /-- ROUTE_SET (R240). -/
  | routeSet (r : Requester) (cons : Cons) (id primary alt : Nat) (altEn : Bool)
  /-- ELK_FENCE (R239). -/
  | elkFence (r : Requester) (cons : Cons) (id : Nat)
  /-- UNFENCE (R240). -/
  | unfence (r : Requester) (cons : Cons) (id : Nat)
  /-- STEP_PROGRAM_REG (R253). -/
  | stepProgramReg (ring : Nat)
  /-- SEQ_SUBMIT (R263). What its host reads give: journal header, token at TOKENS − 1, swap image header. -/
  | seqSubmit (ring : Nat) (hdr : Option (List Byte)) (pend : Nat) (img : Option (List Byte))
  /-- SEQ_CANCEL (R262). `evCons` is EV_CONS of the stream as a re-read gives it. -/
  | seqCancel (ring evCons : Nat)
  /-- SEQ_QUERY (R276). -/
  | seqQuery (ring : Nat)
  /-- STREAM_BIND (R246). -/
  | streamBind (ring evCons : Nat)
  /-- STREAM_CONFIG (R247). -/
  | streamConfig (ring : Nat)
  /-- STREAM_START (R245). -/
  | streamStart (ring : Nat)
  /-- STREAM_PAUSE (R245). -/
  | streamPause (ring : Nat)
  /-- STREAM_STOP (R245). -/
  | streamStop (ring : Nat)
  /-- CHANNEL_CONFIG (R251). -/
  | channelConfig (ring : Nat)
  /-- CLASS_CONFIG (R250). -/
  | classConfig (ring : Nat)
  /-- STEP_PACKET_COMPLETE (R253). Stream `ix`. -/
  | stepPacketComplete (ix evCons : Nat)
  /-- STEP_BOUNDARY (R256). `uj` is the package energy in µJ since the fire. -/
  | stepBoundary (ix evCons uj : Nat)
  /-- STEP_FIRE (R256). -/
  | stepFire (ix evCons : Nat)
  /-- JOURNAL_READ_DONE (R257). `toks` are the tokens that arrive, none for an error. -/
  | journalReadDone (id : Nat) (toks : Option (List Nat)) (evCons : Nat)
  /-- SWAP_COPY_DONE (R265). -/
  | swapCopyDone (id : Nat) (ok : Bool) (evCons : Nat)
  /-- SWEEP_BIND (R306). -/
  | sweepBind (ring : Nat)
  /-- SWEEP_CONFIG (R280). -/
  | sweepConfig (ring : Nat)
  /-- SWEEP_START (R303). -/
  | sweepStart (ring : Nat)
  /-- SWEEP_STOP (R303). `doneCons` is DONE_CONS of the channel as a re-read gives it. -/
  | sweepStop (ring doneCons : Nat)
  /-- SWEEP_FLUSH (R303). -/
  | sweepFlush (ring : Nat)
  /-- SNAPSHOT (R303). -/
  | snapshot (ring doneCons : Nat)
  /-- VOX_RESET (R303). -/
  | voxReset (ring doneCons : Nat)
  /-- SWEEP_SUBMIT (R288). `host` is the record a host read brings, none for an error. -/
  | sweepSubmit (ring : Nat) (host : Option (List Byte))
  /-- POSE_PUSH (R282). -/
  | posePush (ring : Nat)
  /-- REVOLUTION_OPEN (R287). -/
  | revolutionOpen (c doneCons : Nat)
  /-- SLICE_CLOSE (R285). -/
  | sliceClose (c : Nat)
  /-- POSE_WAIT_EXPIRY (R292). -/
  | poseWaitExpiry (c : Nat)
  /-- SLICE_PROCESS (R293). -/
  | sliceProcess (doneCons : Nat)
  /-- MAINS_EDGE (R310). Input 0–2 is a mains input, 3–8 tach input 0–5; `d` is the edge's DTS. -/
  | mainsEdge (input d : Nat)
  /-- PHASE_STAMP (R314). -/
  | phaseStamp (ring : Nat)
  /-- CYCLE_START_MISSING (R310). -/
  | cycleStartMissing (c : Nat)
  /-- PREDICTED_CYCLE_START (R311). -/
  | predictedCycleStart (c : Nat)
  /-- HOLDOVER_EXPIRY (R310). -/
  | holdoverExpiry (c : Nat)
  /-- CHANNEL_ENABLE (R310). `v` is the value written to PTU_CH_CFG. -/
  | channelEnable (r : Requester) (c v : Nat)
  /-- EVENT_SET (R330). -/
  | eventSet (ring : Nat)
  /-- EVENT_CLEAR (R329). -/
  | eventClear (ring : Nat)
  /-- PHASE_QUERY (R329). -/
  | phaseQuery (ring : Nat)
  /-- EVENT_FIRE (R319). -/
  | eventFire (ix : Nat)
  /-- STEP_GATE_CLOSE (R322). -/
  | stepGateClose (ix : Nat)
  /-- PULSE_END (R319). -/
  | pulseEnd (ix : Nat)
  /-- SITE_INPUT_CHANGE (R324). -/
  | siteInputChange (ix : Nat) (high : Bool)
  /-- CLEAR_MS_EXPIRY (R327). -/
  | clearMsExpiry
  /-- RESTORE_MS_EXPIRY (R327). -/
  | restoreMsExpiry
  /-- ALL_MISS_BRIDGE (R326). -/
  | allMissBridge
  /-- SITE_ENABLE (R327). -/
  | siteEnable (r : Requester) (v : Nat)
  /-- BUSLOCK_WRITE (R321). -/
  | buslockWrite (r : Requester) (v : Nat)
  /-- STAGGER_LOCAL_WRITE (R323). -/
  | staggerLocalWrite (r : Requester) (v : Nat)
  /-- CAP_SET (R350). -/
  | capSet (ring : Nat)
  /-- POWER_QUERY (R350). -/
  | powerQuery (ring : Nat)
  /-- HOST_CAP_WRITE (R332). -/
  | hostCapWrite (r : Requester) (v : Nat)
  /-- CAP_RAMP_TICK (R333). -/
  | capRampTick
  /-- BRD_THROT_CHANGE (R334). -/
  | brdThrotChange (low : Bool)
  /-- QUORUM_WRITE (R335). -/
  | quorumWrite (q : Bool)
  /-- TJ_SAMPLE (R337). Each sensor's reading in 0.1 °C. -/
  | tjSample (readings : List Int)
  /-- THERMAL_UPDATE (R337). -/
  | thermalUpdate
  /-- DUTY_CLAMP_DOWN (R340). VCORE_IMON in µV. -/
  | dutyClampDown (imon : Nat)
  /-- DUTY_CLAMP_UP (R340). -/
  | dutyClampUp (imon : Nat)
  /-- DVFS_TICK (R341). Mean VCORE_IMON in µV and READ_VOUT in mV. -/
  | dvfsTick (imon vout : Nat)
  /-- RAIL_POWER_SAMPLE (R339). By rail, in mV and mA. -/
  | railPowerSample (mv ma : List Nat)
  /-- FORECAST_UPDATE (R344). -/
  | forecastUpdate
  /-- TFU_PWM_WRITE (R355). -/
  | tfuPwmWrite (r : Requester) (c v : Nat)
  /-- SPEED_LOOP_TICK (R357). -/
  | speedLoopTick (c : Nat)
  /-- TACH_EDGE (R358). -/
  | tachEdge (c d : Nat)
  /-- TACH_STALL (R358). -/
  | tachStall (c : Nat)
  /-- AGEING_CHECK (R360). -/
  | ageingCheck (c : Nat)
  /-- VALVE_WRITE (R364). `timing` names TFU_VLV_TIMING in place of TFU_VLV_CTRL. -/
  | valveWrite (r : Requester) (n : Nat) (timing : Bool) (v : Nat)
  /-- VALVE_FAULT (R365). -/
  | valveFault (n : Nat)
  /-- VALVE_FAULT_CLEAR (R365). -/
  | valveFaultClear (r : Requester) (n : Nat)
  /-- ADC_SAMPLE (R367). -/
  | adcSample (ix code : Nat)
  /-- ROPE_SAMPLE (R370). Sense and excitation amplitudes. -/
  | ropeSample (ix sns exc : Nat)
  /-- LEAK_REMOTE (R373). -/
  | leakRemote (r : Requester)
  /-- LEAK_CLOSE_END (R373). -/
  | leakCloseEnd (n : Nat)
  /-- LEAK_CLEAR (R375). -/
  | leakClear (r : Requester)
  /-- FLOW_UPDATE (R371). Edges, their span, edges in two seconds, and the DTS. -/
  | flowUpdate (ix n span twoSec d : Nat)
  /-- INIT_LEAVE (R381). -/
  | initLeave (r : Requester) (v : Nat)
  /-- INIT_ENTER (R380). -/
  | initEnter (r : Requester) (v : Nat)
  /-- FRAME_RECEIVE (R390). The frame, its start of frame, and receive errors counted since the last command. -/
  | frameReceive (f : CanFrame) (sof recUp : Nat)
  /-- RX_QUEUE_ACK (R392). -/
  | rxQueueAck (r : Requester) (second : Bool) (ix : Nat)
  /-- TXLOG_ACK (R398). -/
  | txlogAck (r : Requester) (ix : Nat)
  /-- SHADOW_SEL (R394). -/
  | shadowSel (r : Requester) (space ix : Nat)
  /-- TX_LOAD (R395). -/
  | txLoad (r : Requester) (mask : Nat)
  /-- TX_REQ (R396). -/
  | txReq (r : Requester) (mask : Nat)
  /-- TX_ABORT (R397). -/
  | txAbort (r : Requester) (mask : Nat)
  /-- FRAME_TRANSMIT_DONE (R397). `loop` is the measured loop delay. -/
  | frameTransmitDone (sof loop : Nat)
  /-- TX_ERROR (R384). 0 arbitration lost, 1 stuff, 2 form, 3 acknowledge, 4 bit 1, 5 bit 0, 6 CRC. -/
  | txError (err : Nat)
  /-- BUS_OFF_RECOVERY (R385). -/
  | busOffRecovery (n : Nat)
  /-- OVER_LENGTH_EXPIRY (R401). -/
  | overLengthExpiry
  /-- BALL_START (R404). -/
  | ballStart (b sof : Nat)
  /-- REFERENCE_MISSING (R406). -/
  | referenceMissing
  /-- TAKEOVER (R407). -/
  | takeover
  /-- UNSYNC_TAKEOVER (R411). -/
  | unsyncTakeover
  /-- TAKE (R408). -/
  | take (r : Requester)
  /-- YIELD (R408). -/
  | yield (r : Requester)
  /-- ROW_CONFIG_APPLY (R416). -/
  | rowConfigApply
  /-- ELECTION (R434). -/
  | election
  /-- LEAD_OVER_WORK (R420). NODE_STATUS frames read since the last over. -/
  | leadOverWork (nodes : List CanFrame)
  /-- REFERENCE_HANDLING (R433). -/
  | referenceHandling (f : CanFrame)
  /-- MEMBER_STATUS (R432). -/
  | memberStatus (f : CanFrame)
  /-- TRAY_REPORT (R443). -/
  | trayReport (f : CanFrame)
  /-- ALLOCATION (R445). -/
  | allocation (f : CanFrame)
  /-- STAGGER (R446). -/
  | stagger (f : CanFrame)
  /-- LEAK (R448). -/
  | leak (f : CanFrame)
  /-- ALL_STOP (R448). -/
  | allStop (f : CanFrame)
  /-- HANDOVER (R438). -/
  | handover (r : Requester) (target : Nat)
  /-- ROW_CLEAR (R449). -/
  | rowClear (r : Requester)
  /-- HUDDLE_ALL_STOP (R447). -/
  | huddleAllStop (r : Requester)
  /-- PRESENCE_CHANGE (R450). `reads` are the identity reads each site answers, by site. -/
  | presenceChange (n : Nat) (here : Bool) (reads : List (Nat × List (Option (List Byte))))
  /-- SITE_VERIFY (R463). -/
  | siteVerify (n : Nat) (reads : List (Option (List Byte)))
  /-- VERIFY_CMD (R463). -/
  | verifyCmd (r : Requester) (reads : List (Nat × List (Option (List Byte))))
  /-- VERIFY_PERIOD (R463). -/
  | verifyPeriod (reads : List (Nat × List (Option (List Byte))))
  /-- ROLE (R453). -/
  | role (byLead : Bool)
  /-- CHIP_STATE (R454). -/
  | chipState (byLead : Bool)
  /-- TSB_LEAK (R453). -/
  | tsbLeak (v : Nat)
  /-- QUORUM (R453). -/
  | quorum (v : Nat)
  /-- TSB_STAGGER (R453). -/
  | tsbStagger (v : Nat)
  /-- ALLOC (R453). -/
  | alloc (code angle : Nat)
  /-- PROXY_REQ (R473). -/
  | proxyReq (block : List Byte)
  /-- PROXY_RSP (R473). -/
  | proxyRsp
  /-- TRAY_SMBUS_OVER (R455). Per position: retries and the CHIP_STATE block, none when it failed. -/
  | traySmbusOver (answers : List (Nat × Nat × Option (List Byte)))
  /-- TRAY_LEAD_SILENCE (R456). -/
  | trayLeadSilence
  /-- PROXY_TIMEOUT (R473). -/
  | proxyTimeout
  /-- OUTBOX_POLL (R473). -/
  | outboxPoll (pos : Nat) (block : List Byte)
  /-- MMP_RECEIVE (R469). Source address and port, and the UDP payload. -/
  | mmpReceive (src packet : List Byte)
  /-- IDENTIFY (R474). -/
  | identify
  /-- STATUS (R474). -/
  | status
  /-- REG_READ (R476). -/
  | regRead
  /-- REG_WRITE (R476). -/
  | regWrite (cons : Cons)
  /-- MMP_CHIP_RESET (R474). -/
  | mmpChipReset
  /-- LOG_READ (R474). -/
  | logRead
  /-- EVENT_CFG (R474). -/
  | eventCfg
  /-- EVENT_ACK (R475). -/
  | eventAck
  /-- EVENT_RESEND (R475). -/
  | eventResend
  /-- TOPO_GET (R474). -/
  | topoGet (reads : List (Nat × List (Option (List Byte))))
  /-- TOPO_LOAD (R462). -/
  | topoLoad
  /-- TOPO_ACCEPT (R464). -/
  | topoAccept
  /-- FIR_READ (R474). -/
  | firRead (reads : List (Option (List Byte)))
  /-- FIR_WRITE (R474). -/
  | firWrite (reads : List (Option (List Byte)))
  /-- ROW_CONFIG_LOAD (R415). -/
  | rowConfigLoad
  /-- FW_BLOCK (R511). -/
  | fwBlock
  /-- FW_COMMIT (R511). `sig`: the image's hash and signature verify. -/
  | fwCommit (sig : Bool)
  /-- KEY_SET (R477). `onCurve`: EPUB is a point of the curve. -/
  | keySet (onCurve : Bool)
  /-- PTP_EXCHANGE_COMPLETE (R480). -/
  | ptpExchangeComplete (t1 t2 t3 t4 : Nat) (c1 c2 : Int)
  /-- PTP_ANNOUNCE (R479). -/
  | ptpAnnounce (gm rank : Nat)
  /-- PTP_ANNOUNCE_TIMEOUT (R481). -/
  | ptpAnnounceTimeout
  /-- ERROR_DETECT (R490). -/
  | errorDetect (e : ErrSource)
  /-- LOG_ENTRY_CLOSE (R486). -/
  | logEntryClose
  /-- FLASH_LOG_COPY (R487). -/
  | flashLogCopy (ok : Bool)
  /-- HANDLER_DONE (R493). -/
  | handlerDone
  /-- ERR_ACK (R493). -/
  | errAck (r : Requester) (cls seq : Nat)
  /-- ACK_TIMEOUT (R494). -/
  | ackTimeout
  /-- LASTGASP_ACK (R500). -/
  | lastgaspAck (r : Requester)
  /-- ISLAND_BOOT (R510). -/
  | islandBoot (sigs : Nat)
  /-- BOOT_STAGE (R514). -/
  | bootStage (cons : Cons) (sigs : Nat) (reads : List (Nat × List (Option (List Byte))))
  /-- RESTART (R512). -/
  | restart (r : Requester)
  /-- CONFIRM (R512). -/
  | confirm (r : Requester) (raise : Bool)
  /-- CHIP_INIT (R517). `ok`: the random source passes its test. -/
  | chipInit (ok : Bool)
  /-- HBM_TRAINED (R517). Bit k: stack k trained. -/
  | hbmTrained (mask : Nat)
  /-- HOST_PORT_READY (R40). -/
  | hostPortReady
  /-- PACKET_NOT_BEFORE_REACHED (R192). -/
  | packetNotBeforeReached (ring : Nat)
  /-- TX_NOT_BEFORE_REACHED (R396). Tx buffer `k`. -/
  | txNotBeforeReached (k : Nat)
  /-- HOST_LINK_DOWN (R483). -/
  | hostLinkDown
  /-- SWAP_IN_COPY_DONE (R267). -/
  | swapInCopyDone (id : Nat) (data : Option (List Byte)) (evCons : Nat)
  /-- HBM_REFRESH_RATE_CHANGE (R155). -/
  | hbmRefreshRateChange (k : Nat) (twice : Bool)
  /-- ILLEGAL_INSTRUCTION (R103). -/
  | illegalInstruction (c slot : Nat)
  /-- PGV_SITE_CAP_WRITE (R332). -/
  | pgvSiteCapWrite (r : Requester) (ix v : Nat)
  /-- PGV_BOARD_WRITE (R332). -/
  | pgvBoardWrite (r : Requester) (v : Nat)
  /-- MGP_PHY_LINK_CHANGE (R466). -/
  | mgpPhyLinkChange (up : Bool) (speed : Nat) (v4 v6 : Bool)
deriving DecidableEq, Repr

end Sys2Proof
end

