-- ==== Sys2Proof/Decode.lean ====
section
/-! DEFINITION. Words of spec/opcode_table.json. The table gives no row any bits: the chip takes its commands as
register accesses, packets, instructions of its threads, messages and events, each decoded where it arrives. -/

namespace Sys2Proof

/-- The command a word spells: none, for no row has bits. -/
def decodeTableWord (_nbits _w : Nat) : Option Instr := none

end Sys2Proof
end

