-- ==== Sys2Proof/Config.lean ====
section
/-! DEFINITION. What one chip fixes, and the values the manual leaves open or that published cryptography gives.
Every constant here is opaque: no proof can see a value. -/

namespace Sys2Proof.Config

/-- CAP_SERIAL (R23: "Per chip"). -/
opaque serial : BitVec 64

/-- MGP_MAC (chapter 16: per chip). -/
opaque mac : BitVec 48

/-- The device public key of TMG_DEVKEY, X then Y. -/
opaque deviceKey : Nat → BitVec 8

/-- R79: a stored ciphertext byte, from the key's number, the byte's DPA and the line's plaintext
(XTS-AES-256, a published standard this model does not compute). -/
opaque cipherByte : Nat → Nat → List (BitVec 8) → BitVec 8

/-- R79: a byte read under a key unrelated to the one that wrote it, after 1,024 re-creations. -/
opaque staleByte : Nat → Nat → Nat → List (BitVec 8) → BitVec 8

/-- A value the manual leaves unstated, fresh for each use of the counter. -/
opaque freeValue : Nat → BitVec 64


/-- SHA-256 (a published standard this model does not compute). -/
opaque sha256 : List (BitVec 8) → Nat → BitVec 8


/-- HMAC-SHA-256 by key and message (published). -/
opaque hmac256 : List (BitVec 8) → List (BitVec 8) → Nat → BitVec 8

/-- R477: the first 32 bytes of HKDF-SHA-384 over the ECDH P-384 secret of the device's private key and a public
key, by that key's bytes and the key slot (published). -/
opaque mmpKey : List (BitVec 8) → Nat → Nat → BitVec 8

/-- R341: the part's fused voltage-frequency table, in mV per MHz of FCLK. -/
opaque vfPoint : Nat → Nat

/-- R219: byte `i` of a sealed payload and tag, from the peer's KEY, the rekey index, the count of sealed flits and the
header and plaintext (AES-256-GCM and HKDF, published). -/
opaque sealByte : List (BitVec 8) → Nat → Nat → List (BitVec 8) → Nat → BitVec 8

/-- R231: byte `i` of the KEY message that port and instant give: an ephemeral key of the entropy source, and its
signature. -/
opaque linkKey : Nat → Nat → Nat → BitVec 8

end Sys2Proof.Config
end

