-- ==== Sys2Proof/Machine/RegMap.lean ====
section
/-! DEFINITION. Every register of the manual: offset, width, reset domain and fields (R2–R6, R13, R519, R521).
A bit that no listed field covers is reserved (R4). Values of RO fields are computed from the state elsewhere. -/

namespace Sys2Proof.Machine

/-- Access codes (R2). -/
inductive Acc where
  | ro | rw | wo | w1c | w1s | rwl
deriving DecidableEq, Repr

/-- Reset domains (R5). -/
inductive Dom where
  | stby | chip | owner
deriving DecidableEq, Repr

/-- Which values of a field are not reserved encodings (R6). -/
inductive Legal where
  | any
  | rng (lo hi : Nat)
  | oneOf (l : List Nat)
deriving DecidableEq, Repr

/-- One field. -/
structure Fld where
  hi : Nat
  lo : Nat
  acc : Acc
  reset : Nat
  legal : Legal
deriving DecidableEq, Repr

/-- One register or register array. `width` is in bits; the array holds `count` registers `stride` bytes apart. -/
structure RegDef where
  name : String
  base : Nat
  width : Nat
  dom : Dom
  flds : List Fld
  stride : Nat := 0x1000_0000_0000
  count : Nat := 1
deriving Repr

/-- A read-only field. -/
def ro (hi lo : Nat) (reset : Nat := 0) : Fld := ⟨hi, lo, .ro, reset, .any⟩
/-- A read-write field. -/
def rw (hi lo : Nat) (reset : Nat := 0) (legal : Legal := .any) : Fld := ⟨hi, lo, .rw, reset, legal⟩
/-- A lockable field. -/
def rwl (hi lo : Nat) (reset : Nat := 0) (legal : Legal := .any) : Fld := ⟨hi, lo, .rwl, reset, legal⟩
/-- A write-only field. -/
def wo (hi lo : Nat) (legal : Legal := .any) : Fld := ⟨hi, lo, .wo, 0, legal⟩
/-- A write-1-to-clear field. -/
def w1c (hi lo : Nat) (reset : Nat := 0) : Fld := ⟨hi, lo, .w1c, reset, .any⟩
/-- A write-1-to-set field. -/
def w1s (hi lo : Nat) : Fld := ⟨hi, lo, .w1s, 0, .any⟩

/-- A value is not a reserved encoding of its field. -/
def Legal.ok : Legal → Nat → Bool
  | .any, _ => true
  | .rng lo hi, v => decide (lo ≤ v) && decide (v ≤ hi)
  | .oneOf l, v => l.contains v

/-- A register's value with every bit that no listed field covers read as 0 (R4). -/
def RegDef.shown (d : RegDef) (v : Nat) : Nat :=
  d.flds.foldl (fun a f => a ||| (fld v f.hi f.lo) <<< f.lo) 0

/-- One register that stands alone. -/
def one (name : String) (base width : Nat) (dom : Dom) (flds : List Fld) : RegDef :=
  { name, base, width, dom, flds }

/-- A register array. -/
def arr (name : String) (base stride count width : Nat) (dom : Dom) (flds : List Fld) : RegDef :=
  { name, base, width, dom, flds, stride, count }

/-! The CAP block (R23): E128 values. -/

/-- CAP registers. CAP_SERIAL's value is per chip (Config). -/
def regsCap : List RegDef := [
  one "CAP_VENDOR" 0x0 32 .stby [ro 23 0 0x4C4E46],
  one "CAP_PART" 0x4 32 .stby [ro 31 24 0xE1, ro 23 16 0x80, ro 15 8 0x0B, ro 7 0 0],
  one "CAP_SERIAL" 0x8 64 .stby [ro 63 0],
  one "CAP_ARCH" 0x10 32 .stby [ro 31 24 1, ro 23 16 0, ro 15 8 1, ro 7 0 0],
  one "CAP_COMPUTE0" 0x20 32 .stby [ro 31 16 128, ro 15 8 4, ro 7 0 12],
  one "CAP_COMPUTE1" 0x24 32 .stby [ro 31 24 8, ro 23 16 128, ro 15 8 4, ro 7 0 4],
  one "CAP_FCLK" 0x28 32 .stby [ro 23 16 180, ro 15 8 160, ro 7 0 40],
  one "CAP_MEM0" 0x30 32 .stby [ro 31 16 4096, ro 15 0 512],
  one "CAP_MEM1" 0x34 32 .stby [ro 31 24 8, ro 23 16 24, ro 15 0 9600],
  one "CAP_MEM2" 0x38 32 .stby [ro 31 24 16, ro 23 16 48, ro 15 8 48, ro 7 0 0x0F],
  one "CAP_HOST0" 0x40 32 .stby [ro 31 24 6, ro 23 16 16, ro 15 8 63, ro 7 0 64],
  one "CAP_HOST1" 0x44 32 .stby [ro 31 20 2048, ro 19 12 64, ro 11 0 1024],
  one "CAP_ELK" 0x50 32 .stby [ro 31 28 4, ro 27 20 16, ro 19 12 64, ro 11 8 5],
  one "CAP_SQE" 0x60 32 .stby [ro 31 28 8, ro 27 24 7, ro 23 16 16, ro 15 8 22, ro 7 4 4, ro 3 0 10],
  one "CAP_SWE" 0x70 32 .stby [ro 31 24 8, ro 23 16 16, ro 15 0 4096],
  one "CAP_PTU" 0x80 32 .stby [ro 31 28 8, ro 27 24 3, ro 23 20 3, ro 19 16 2, ro 11 0 256],
  one "CAP_PGV0" 0x90 32 .stby [ro 31 16 1500, ro 15 0 250],
  one "CAP_PGV1" 0x94 32 .stby [ro 31 24 105, ro 23 16 115, ro 15 8 16, ro 7 0 5],
  one "CAP_TFU" 0xA0 32 .stby [ro 31 28 6, ro 27 24 2, ro 23 20 8, ro 19 16 4, ro 15 12 2, ro 7 0 12],
  one "CAP_FBC" 0xB0 32 .stby [ro 31 24 1, ro 23 16 64, ro 15 8 32, ro 7 4 1, ro 3 0 3],
  one "CAP_TMG" 0xC0 32 .stby [ro 31 24 3, ro 23 16 16, ro 15 8 4, ro 7 0 3],
  one "CAP_FMT" 0xD0 32 .stby [ro 15 0 0xFFFF]]

/-- ERR (chapter 17). -/
def regsErr : List RegDef := [
  one "ERR_STATUS" 0x100000 32 .chip [ro 31 30, ro 19 0],
  one "ERR_LOG_HEAD" 0x100008 64 .stby [ro 63 0],
  one "ERR_LOG_OLDEST" 0x100010 64 .stby [ro 63 0],
  one "ERR_ACK" 0x100020 32 .chip [wo 31 8, wo 4 0 (.rng 0 19)],
  one "ERR_IRQ" 0x100024 32 .chip [rw 31 31, rw 18 16 3 (.rng 1 4), rw 10 0],
  one "ERR_CTRL" 0x100028 32 .stby [rw 0 0 1],
  arr "ERR_CLASS_STATUS" 0x100100 0x10 20 32 .chip [ro 31 26, ro 15 0],
  arr "ERR_CLASS_CFG" 0x100104 0x10 20 32 .stby [rw 31 31, rw 23 16 64, rw 15 0 2000 (.rng 100 60000)],
  arr "ERR_CLASS_PRIMARY" 0x100108 0x10 20 64 .chip [ro 63 0]]

/-- DAT, OWN and KEY (chapter 3). -/
def regsOwn : List RegDef := [
  one "DAT_WIN_CTRL" 0x200010 32 .chip [rw 31 31 1, rw 16 16, rw 5 0],
  one "DAT_WIN_BASE" 0x200018 64 .chip [rw 47 0],
  one "DAT_FRAME_SEL" 0x200020 32 .chip [rw 16 0 0 (.rng 0 99327)],
  one "DAT_FRAME_INFO" 0x200024 32 .chip [ro 23 0],
  arr "OWN_STATE" 0x210000 0x100 64 32 .stby [ro 31 30, ro 25 0],
  arr "OWN_FRING_BASE" 0x210010 0x100 64 64 .owner [rw 63 12],
  arr "OWN_FRING_CTRL" 0x210018 0x100 64 32 .owner [rw 31 31, rw 19 16 6 (.rng 6 12), rw 10 0],
  arr "OWN_FRING_PROD" 0x21001C 0x100 64 32 .owner [ro 31 0],
  arr "OWN_FRING_CONS" 0x210020 0x100 64 32 .owner [rw 31 0],
  arr "OWN_FRING_LOST" 0x210024 0x100 64 32 .owner [rw 31 0],
  one "KEY_STATUS" 0x220000 32 .chip [ro 31 31, ro 6 0]]

/-- CMD and HIF (chapter 7). Virtual function MSI-X tables and PBAs stand above the physical function's BAR0. -/
def regsHif : List RegDef := [
  arr "CMD_RING_BASE" 0x400000 0x40 1024 64 .owner [rw 63 12],
  arr "CMD_RING_CTRL" 0x400008 0x40 1024 32 .owner
    [rw 31 31, rw 30 30, rw 29 29, rw 23 20 4 (.rng 4 15), rw 19 16 4 (.rng 4 15), rw 15 15, rw 10 0],
  arr "CMD_RING_STATE" 0x40000C 0x40 1024 32 .owner [ro 31 30, ro 23 16, ro 6 0],
  arr "CMD_RING_TAIL" 0x400010 0x40 1024 32 .owner [rw 31 0],
  arr "CMD_RING_HEAD" 0x400014 0x40 1024 32 .owner [ro 31 0],
  arr "CMD_CQ_BASE" 0x400018 0x40 1024 64 .owner [rw 63 12],
  arr "CMD_CQ_HEAD" 0x400020 0x40 1024 32 .owner [rw 31 0],
  arr "CMD_CQ_TAIL" 0x400024 0x40 1024 32 .owner [ro 31 0],
  arr "CMD_RING_BIND" 0x410000 4 1024 32 .chip [rw 31 31, rw 13 8, rw 7 0],
  one "HIF_LINK_STATUS" 0x800000 32 .stby [ro 13 11, ro 8 0],
  one "HIF_CTRL" 0x800004 32 .chip [rw 0 0 1],
  one "HIF_HOST_ERR_LAST" 0x800008 64 .chip [ro 63 63, ro 55 48],
  one "HIF_HOST_ERR_ADDR" 0x800010 64 .chip [ro 63 0],
  arr "MSIX_ADDR" 0x880000 16 2048 64 .chip [rw 63 2],
  arr "MSIX_DATA" 0x880008 16 2048 32 .chip [rw 31 0],
  arr "MSIX_CTRL" 0x88000C 16 2048 32 .chip [rw 0 0 1],
  arr "MSIX_PBA" 0x890000 4 64 32 .chip [ro 31 0],
  arr "VF_MSIX_ADDR" 0x1_0000_0000 16 4096 64 .chip [rw 63 2],
  arr "VF_MSIX_DATA" 0x1_0000_0008 16 4096 32 .chip [rw 31 0],
  arr "VF_MSIX_CTRL" 0x1_0000_000C 16 4096 32 .chip [rw 0 0 1],
  arr "VF_MSIX_PBA" 0x1_0010_0000 4 128 32 .chip [ro 31 0]]

/-- CLU and TGR (chapters 4 and 5). -/
def regsClu : List RegDef := [
  arr "CLU_STATUS" 0x1000000 0x10000 128 32 .chip [ro 31 18, ro 6 0],
  arr "CLU_SCR_LIMIT" 0x1000004 0x10000 128 32 .chip [rw 22 12 1024 (.rng 0 1024)],
  arr "CLU_SLOTS0" 0x1000010 0x10000 128 32 .chip [ro 31 0],
  arr "CLU_SLOTS1" 0x1000014 0x10000 128 32 .chip [ro 31 0],
  arr "CLU_SLOTS2" 0x1000018 0x10000 128 32 .chip [ro 31 0],
  arr "TGR_STATUS" 0x1001000 0x10000 128 32 .chip [ro 31 30, ro 28 24, ro 15 8, ro 3 0],
  arr "TGR_ROWS" 0x1001008 0x10000 128 64 .chip [ro 63 0]]

/-- MEM and BKG (chapter 6). -/
def regsMem : List RegDef := [
  one "MEM_TC_CTRL" 0x1800000 32 .chip
    [rw 28 24 10 (.rng 1 25), rw 11 8 8 (.rng 1 15), rw 7 4 4 (.rng 1 15), rw 3 0 1 (.rng 1 15)],
  one "MEM_TC0_OVER" 0x1800008 64 .chip [ro 63 0],
  one "MEM_HBM_STATUS" 0x1800010 32 .chip [ro 23 0],
  one "MEM_CE_COUNT" 0x1800020 32 .chip [rw 31 20, rw 19 8, rw 7 0],
  one "MEM_UE_COUNT" 0x1800024 32 .chip [rw 31 20, rw 19 8, rw 7 0],
  one "MEM_POISON_LAST" 0x1800040 64 .chip [ro 63 62, ro 53 0],
  arr "MEM_BULK_STATUS" 0x1800100 4 16 32 .chip [ro 31 22],
  one "BKG_CTRL" 0x2D00000 32 .chip
    [rw 15 8 10 (.rng 1 10), rw 5 5 1, ro 4 4 1, rw 3 3, rw 2 2 1, rw 1 1 1, rw 0 0 1],
  one "BKG_HBM_PERIOD" 0x2D00004 32 .chip [rw 7 0 24 (.rng 1 168)],
  one "BKG_TIER_PERIOD" 0x2D00008 32 .chip [rw 10 0 60 (.rng 10 1440)],
  one "BKG_HBM_NEXT" 0x2D00010 64 .chip [ro 47 0],
  one "BKG_TIER_NEXT" 0x2D00018 64 .chip [ro 47 0],
  one "BKG_PASS" 0x2D00020 32 .chip [ro 31 0],
  one "BKG_LATE" 0x2D00024 32 .chip [w1c 1 0],
  one "BKG_TELE_BASE" 0x2D00030 64 .chip [rw 63 12]]

/-- ELK (chapter 8). -/
def regsElk : List RegDef := [
  arr "ELK_PORT_CTRL" 0x2000000 0x100 4 32 .chip [rw 31 31 1],
  arr "ELK_PORT_STATUS" 0x2000004 0x100 4 32 .chip [ro 31 14],
  arr "ELK_PORT_PEER" 0x2000008 0x100 4 64 .chip [ro 63 0],
  arr "ELK_PORT_ERR" 0x2000010 0x100 4 64 .chip [ro 63 0],
  one "ELK_DOMAIN" 0x2008000 32 .chip [ro 31 16],
  one "ELK_EPOCH" 0x2008004 32 .chip [ro 31 0],
  one "ELK_DIGEST" 0x2008008 64 .chip [ro 63 0],
  one "ELK_STAGE_ADDR" 0x2008010 64 .chip [rw 63 0],
  one "ELK_STAGE_LEN" 0x2008018 32 .chip [rw 31 0 0 (.rng 0 7744)],
  one "ELK_COMMIT_DTS" 0x2008020 64 .chip [rw 63 0],
  one "ELK_CMD" 0x2008028 32 .chip [wo 20 20, wo 19 18, wo 17 16, wo 13 8, wo 3 0 (.rng 1 5)],
  one "ELK_CMD_RESULT" 0x200802C 32 .chip [ro 31 31, ro 15 0],
  one "ELK_TIMING" 0x2008030 32 .chip [rw 31 16 10 (.rng 1 10000), rw 15 0 20 (.rng 1 1000)],
  one "ELK_FENCED" 0x2008038 64 .chip [ro 63 0],
  arr "ELK_ROUTE" 0x2008100 4 64 32 .chip [ro 31 28, ro 3 0]]

/-- SQE (chapter 9) and SWE (chapter 10). -/
def regsEngine : List RegDef := [
  one "SQE_POOL_CFG" 0x2200000 32 .chip [rw 31 31, rwl 4 0 16 (.rng 14 20)],
  one "SQE_LIVE" 0x2200004 32 .chip [ro 16 0],
  arr "SQE_OWNER_QUOTA" 0x2200100 4 64 32 .chip [rw 16 0 65536 (.rng 0 65536)],
  arr "SQE_STREAM_OWNER" 0x2201000 0x40 8 32 .chip [ro 31 31, ro 29 24],
  arr "SQE_STREAM_REGION" 0x2201008 0x40 8 64 .chip [ro 54 32, ro 21 0],
  arr "SQE_STREAM_STATE" 0x2201010 0x40 8 32 .chip [ro 31 26],
  arr "SQE_STREAM_STEP" 0x2201018 0x40 8 64 .chip [ro 63 0],
  arr "SQE_STREAM_FREE" 0x2201020 0x40 8 32 .chip [ro 22 0],
  one "SWE_BACKLOG" 0x2400000 32 .chip [ro 15 0],
  arr "SWE_CH_STATE" 0x2401000 0x100 8 32 .chip [ro 31 26, ro 21 16],
  arr "SWE_CH_REV" 0x2401008 0x100 8 64 .chip [ro 63 0],
  arr "SWE_CH_COUNT" 0x2401010 0x100 8 64 .chip [ro 63 0],
  arr "SWE_CH_LOST" 0x2401018 0x100 8 32 .chip [rw 31 0]]

/-- PTU (chapter 11). -/
def regsPtu : List RegDef := [
  one "PTU_SITE_STATE" 0x2600000 32 .stby [ro 14 8, ro 2 0],
  one "PTU_SITE_SINCE" 0x2600008 64 .stby [ro 63 0],
  one "PTU_SITE_CFG" 0x2600010 32 .stby [rw 31 31, rw 30 30, rw 28 26 1, rw 25 24 0 (.rng 0 2), rw 23 8],
  one "PTU_SITE_IN" 0x2600014 32 .stby
    [rw 23 19 1 (.rng 1 31), rw 18 18, rw 17 16, rw 15 11 1 (.rng 1 31), rw 10 10, rw 9 8,
     rw 7 3 1 (.rng 1 31), rw 2 2, rw 1 0],
  one "PTU_SITE_TIMING" 0x2600018 32 .stby [rw 31 16 5000 (.rng 100 60000), rw 15 0 200 (.rng 10 10000)],
  one "PTU_SITE_BANDS" 0x260001C 32 .stby [rw 15 8 60 (.rng 2 200), rw 7 0 5 (.rng 1 100)],
  one "PTU_SITE_VECTOR" 0x2600020 32 .stby [rw 31 31, rw 10 0],
  one "PTU_STAGGER" 0x2600030 32 .stby [ro 31 31, ro 15 0],
  one "PTU_STAGGER_LOCAL" 0x2600034 32 .stby [rw 15 0],
  one "PTU_BUSLOCK" 0x2600038 32 .stby [rw 31 31, rw 25 24 0 (.rng 0 2), rw 17 16 2 (.rng 0 2), rw 15 0],
  one "PTU_PULSE_CFG" 0x260003C 32 .stby [rw 9 8, rw 1 0],
  one "PTU_EVT_USED" 0x2600040 32 .stby [ro 8 0],
  arr "PTU_CH_CFG" 0x2601000 0x40 3 32 .stby
    [rw 31 31 1, rw 30 28 0 (.rng 0 0), rw 27 25 0 (.rng 0 0), rw 24 19, rw 18 16 4 (.rng 2 7),
     rw 15 13 2 (.rng 1 7), rw 12 8 20],
  arr "PTU_CH_CFG" 0x26010C0 0x40 3 32 .stby
    [rw 31 31, rw 30 28 0 (.rng 0 5), rw 27 25, rw 24 19, rw 18 16 4 (.rng 2 7), rw 15 13 2 (.rng 1 7), rw 12 8 2],
  arr "PTU_CH_CFG" 0x2601180 0x40 2 32 .stby
    [rw 31 31, rw 30 28 0 (.rng 0 1), rw 27 25 0 (.rng 0 0), rw 24 19, rw 18 16 4 (.rng 2 7),
     rw 15 13 2 (.rng 1 7), rw 12 8 0 (.rng 0 0)],
  arr "PTU_CH_RANGE" 0x2601004 0x40 3 32 .stby [rw 31 16 2500 (.rng 1 65535), rw 15 0 1500 (.rng 1 65535)],
  arr "PTU_CH_RANGE" 0x26010C4 0x40 5 32 .stby [rw 31 16 65535 (.rng 1 65535), rw 15 0 1 (.rng 1 65535)],
  arr "PTU_CH_TIMING" 0x2601008 0x40 8 32 .stby [rw 31 16 500, rw 15 0 4096 (.rng 256 32768)],
  arr "PTU_CH_STATUS" 0x260100C 0x40 8 32 .stby [ro 31 27, ro 15 0],
  arr "PTU_CH_PHASE" 0x2601010 0x40 8 64 .stby [ro 47 0],
  arr "PTU_CH_LATCH_DTS" 0x2601018 0x40 8 64 .stby [ro 63 0],
  arr "PTU_CH_LATCH_PERIOD" 0x2601020 0x40 8 32 .stby [ro 31 0],
  arr "PTU_CH_LATCH_CYCLE" 0x2601024 0x40 8 32 .stby [ro 31 0],
  arr "PTU_EVT" 0x2602000 4 1024 32 .stby [ro 31 0]]

/-- PGV (chapter 12). -/
def regsPgv : List RegDef := [
  one "PGV_STATUS" 0x2700000 32 .stby [ro 26 4],
  one "PGV_SOURCES" 0x2700008 64 .stby [ro 54 0],
  one "PGV_HOST_CAP" 0x2700010 32 .stby [rw 10 0 1500],
  one "PGV_SITE_CAP0" 0x2700020 32 .stby [rw 26 16 1200, rw 10 0 1500],
  one "PGV_SITE_CAP1" 0x2700024 32 .stby [rw 26 16 400, rw 10 0 600],
  one "PGV_SITE_CAP2" 0x2700028 32 .stby [rw 26 16 1500, rw 10 0 900],
  one "PGV_BOARD" 0x2700030 32 .stby [rw 26 16 500, rw 10 0 1500],
  one "PGV_THERMAL_CFG" 0x2700034 32 .stby [rw 23 16 100 (.rng 80 104), rw 15 8 10 (.rng 1 50), rw 3 0 2 (.rng 1 10)],
  one "PGV_RAMP" 0x2700038 32 .stby [rw 15 0 100 (.rng 1 1250)],
  one "PGV_IMON" 0x270003C 32 .stby [rw 31 24 10 (.rng 0 50), rw 15 0 1500 (.rng 100 4000)],
  one "PGV_IDLE" 0x2700040 32 .stby [rw 10 0 180 (.rng 0 1500)],
  one "PGV_FORECAST" 0x2700048 64 .chip [ro 63 14, ro 10 0],
  one "PGV_FORECAST_DTS" 0x2700050 64 .chip [ro 63 0],
  one "PGV_ENERGY" 0x2700060 64 .chip [ro 63 0],
  arr "PGV_SWING" 0x2700080 4 3 32 .stby [ro 31 0],
  arr "PGV_STREAM" 0x2700100 8 8 64 .chip [ro 63 0]]

/-- TFU (chapter 13). -/
def regsTfu : List RegDef := [
  one "TFU_STATUS" 0x2800000 32 .stby [ro 31 28, ro 7 0],
  one "TFU_EVENT" 0x2800004 32 .stby [w1c 8 0],
  one "TFU_IRQ" 0x2800008 32 .stby [rw 31 31, rw 10 0],
  one "TFU_LEAK_CTRL" 0x2800010 32 .stby [rw 9 8 0 (.rng 0 2)],
  one "TFU_LEAK_CLEAR" 0x2800014 32 .stby [wo 0 0],
  one "TFU_LEAK_REMOTE" 0x2800018 32 .stby [wo 0 0],
  one "TFU_LAST_DTS" 0x2800020 64 .stby [ro 63 0],
  one "TFU_PWRUP" 0x2800028 32 .stby [rw 31 31, rw 16 16, rw 15 0 1200],
  one "TFU_AGE_LIMITS" 0x2800030 32 .stby [rw 31 16 1331, rw 15 0 1178],
  arr "TFU_AGE" 0x2800040 4 6 32 .stby [ro 31 12],
  arr "TFU_PWM_CTRL" 0x2800100 0x20 6 32 .stby
    [rwl 31 31, rwl 30 30, rwl 29 29, rw 28 28, rwl 26 16 1024 (.rng 0 1024), rwl 10 0 0 (.rng 0 1024)],
  arr "TFU_PWM_TARGET" 0x2800104 0x20 6 32 .stby [rw 26 16, rw 15 0],
  arr "TFU_PWM_STATUS" 0x2800108 0x20 6 32 .stby [ro 31 29, ro 26 0],
  arr "TFU_TACH_CFG" 0x280010C 0x20 6 32 .stby [rw 15 8 20 (.rng 1 255), rw 2 0 1],
  arr "TFU_BASE0" 0x2800110 0x20 6 32 .stby [rw 26 16, rw 15 0],
  arr "TFU_BASE1" 0x2800114 0x20 6 32 .stby [rw 26 16, rw 15 0],
  arr "TFU_BASE2" 0x2800118 0x20 6 32 .stby [rw 26 16, rw 15 0],
  arr "TFU_BASE3" 0x280011C 0x20 6 32 .stby [rw 26 16, rw 15 0],
  arr "TFU_VLV_CTRL" 0x2800300 0x20 2 32 .stby [rwl 29 28, rwl 13 0 0 (.rng 0 10000)],
  arr "TFU_VLV_TIMING" 0x2800304 0x20 2 32 .stby [rw 24 16 20 (.rng 10 400), rw 9 0 40 (.rng 20 1000)],
  arr "TFU_VLV_LEAK" 0x2800308 0x20 2 32 .stby
    [rw 31 31, rw 29 28, rw 27 26 0 (.oneOf [0, 3]), rw 15 0 5000 (.rng 1 65535)],
  arr "TFU_VLV_STATUS" 0x280030C 0x20 2 32 .stby [w1c 31 31, ro 30 29, ro 5 3, w1c 2 0],
  arr "TFU_ADC_CFG" 0x2800400 0x20 8 32 .stby [rw 31 30 0 (.rng 0 2), rw 29 29],
  arr "TFU_ADC_P0" 0x2800404 0x20 8 32 .stby [rw 31 0],
  arr "TFU_ADC_P1" 0x2800408 0x20 8 32 .stby [rw 15 0],
  arr "TFU_ADC_LIM" 0x280040C 0x20 8 32 .stby [rw 31 0],
  arr "TFU_ADC_RESULT" 0x2800410 0x20 8 32 .stby [ro 31 0],
  arr "TFU_LEAK_CFG" 0x2800500 0x10 4 32 .stby [rw 31 31, rw 25 16 1000, rw 15 10 50 (.rng 1 63), rw 9 0 768],
  arr "TFU_LEAK_STAT" 0x2800504 0x10 4 32 .stby [ro 31 30, ro 9 0],
  arr "TFU_FLOW_CFG" 0x2800600 0x10 2 32 .stby [rw 31 16, rw 15 0 500 (.rng 1 65535)],
  arr "TFU_FLOW_STAT" 0x2800604 0x10 2 32 .stby [ro 31 31, ro 15 0]]

/-- FBC (chapter 14), its message RAM included. -/
def regsFbc : List RegDef := [
  one "FBC_CTRL" 0x2900000 32 .stby
    [rw 31 31 1, rw 30 30, rwl 29 28 0 (.rng 0 2), rwl 27 27, rwl 26 26, rw 25 25, rwl 24 24, rwl 22 22],
  one "FBC_STATUS" 0x2900004 32 .stby [ro 31 16, ro 2 0],
  one "FBC_ERRCNT" 0x2900008 32 .stby [ro 31 31, ro 23 16, ro 7 0],
  one "FBC_ARB_TIMING" 0x290000C 32 .stby
    [rwl 31 24 1 (.rng 1 32), rwl 23 16 63 (.rng 2 255), rwl 15 8 16 (.rng 1 128), rwl 7 0 16 (.rng 1 128)],
  one "FBC_DATA_TIMING" 0x2900010 32 .stby
    [rwl 31 24 1 (.rng 1 32), rwl 23 16 11 (.rng 1 32), rwl 15 8 4 (.rng 1 16), rwl 7 0 4 (.rng 1 16)],
  one "FBC_SSP" 0x2900014 32 .stby [ro 31 24, rwl 15 8 12, rwl 7 0],
  one "FBC_ACCEPT_DEFAULT" 0x2900018 32 .stby [rwl 9 9, rwl 8 8, rwl 3 2 1 (.rng 0 2), rwl 1 0 1 (.rng 0 2)],
  one "FBC_RQA_STAT" 0x2900020 32 .stby [ro 31 31, ro 29 24, ro 20 16, ro 4 0],
  one "FBC_RQA_ACK" 0x2900024 32 .stby [wo 4 0],
  one "FBC_RQA_LOST" 0x2900028 32 .stby [rw 31 0],
  one "FBC_RQB_STAT" 0x2900030 32 .stby [ro 31 31, ro 29 24, ro 20 16, ro 4 0],
  one "FBC_RQB_ACK" 0x2900034 32 .stby [wo 4 0],
  one "FBC_RQB_LOST" 0x2900038 32 .stby [rw 31 0],
  one "FBC_RXBUF_NEW" 0x2900040 32 .stby [w1c 31 0],
  one "FBC_RXBUF_OVR" 0x2900044 32 .stby [w1c 31 0],
  one "FBC_TX_REQ" 0x2900050 32 .stby [w1s 31 0],
  one "FBC_TX_ABORT" 0x2900054 32 .stby [w1s 31 0],
  one "FBC_TX_BUSY" 0x2900058 32 .stby [ro 31 0],
  one "FBC_TX_OK" 0x290005C 32 .stby [w1c 31 0],
  one "FBC_TX_NOK" 0x2900060 32 .stby [w1c 31 0],
  one "FBC_TX_LOAD" 0x2900064 32 .stby [w1s 31 0],
  one "FBC_TX_LOADING" 0x2900068 32 .stby [ro 31 0],
  one "FBC_TXLOG_STAT" 0x2900080 32 .stby [ro 31 31, ro 29 24, ro 20 16, ro 4 0],
  one "FBC_TXLOG_ACK" 0x2900084 32 .stby [wo 4 0],
  one "FBC_TXLOG_LOST" 0x2900088 32 .stby [rw 31 0],
  one "FBC_URGENT_STAT" 0x2900090 32 .stby [w1c 31 31, ro 15 0],
  one "FBC_EVT" 0x29000A0 32 .stby [w1c 21 0],
  one "FBC_EVT_EN" 0x29000A4 32 .stby [rw 21 0],
  one "FBC_EVT_LINE" 0x29000A8 32 .stby [rw 21 17, ro 16 16, rw 15 0],
  one "FBC_PF_IRQ" 0x29000AC 32 .stby [rw 31 31, rw 10 0],
  one "FBC_CFG_ERR" 0x29000B0 32 .stby [ro 31 31, ro 13 0],
  one "FBC_TT_CFG" 0x2900100 32 .stby
    [rwl 31 26 3, rwl 25 21 31, rwl 20 17 7, rwl 16 16, rwl 10 0 128 (.rng 8 1024)],
  one "FBC_TT_OVER" 0x2900104 32 .stby [rwl 23 0 500000 (.rng 100000 10000000)],
  one "FBC_TT_DRIFT" 0x2900108 32 .stby [rw 31 16 500 (.rng 50 10000), rw 7 0 2 (.rng 1 64)],
  one "FBC_TT_REF" 0x290010C 32 .stby [rwl 26 16 4, rwl 10 0 2],
  one "FBC_TT_MASTER" 0x2900110 32 .stby [rwl 8 8 1, rwl 4 0],
  one "FBC_TT_CMD" 0x2900114 32 .stby [wo 1 0 (.rng 0 2)],
  one "FBC_TT_STATUS" 0x2900118 32 .stby [ro 31 12, ro 10 0],
  one "FBC_TT_TIME" 0x290011C 32 .stby [ro 19 0],
  one "FBC_TT_MEAS" 0x2900120 32 .stby [ro 31 0],
  one "FBC_TT_LEN" 0x2900124 32 .stby [ro 23 0],
  one "FBC_TT_COUNT" 0x2900128 32 .stby [rw 31 24, rw 23 16, rw 15 8, rw 7 0],
  one "FBC_TT_NTRIG" 0x290012C 32 .stby [rwl 7 0 0 (.rng 0 128)],
  one "FBC_TT_CORR_DTS" 0x2900130 64 .stby [ro 63 0],
  one "FBC_TT_CORR_CYCLE" 0x2900138 32 .stby [ro 31 31, ro 5 0],
  one "FBC_SHADOW_SEL" 0x2900400 32 .stby [wo 7 6, wo 4 0],
  one "FBC_SHADOW_STAT" 0x2900404 32 .stby [ro 31 30],
  arr "FBC_SHADOW" 0x2900410 4 20 32 .stby [ro 31 0],
  arr "FBC_RAM" 0x2908000 4 4096 32 .stby [rw 31 0]]

/-- TMG and MGP (chapter 16). -/
def regsMgp : List RegDef := [
  one "TMG_STATUS" 0x2A00000 32 .stby [ro 31 20, ro 17 8],
  one "TMG_PRES" 0x2A00004 32 .stby [ro 15 0],
  one "TMG_PRES_EVENT" 0x2A00008 32 .stby [w1c 15 0],
  one "TMG_PRES_CFG" 0x2A0000C 32 .stby [rw 7 0 50 (.rng 1 255)],
  one "TMG_VERIFY" 0x2A00010 32 .stby [ro 31 31, ro 15 0],
  one "TMG_VERIFY_CMD" 0x2A00014 32 .stby [wo 0 0],
  one "TMG_TSB_COUNT" 0x2A00020 32 .stby [rw 31 16, rw 15 0],
  arr "TMG_SITE" 0x2A00100 4 16 32 .stby [ro 31 24],
  arr "TMG_SITE_SERIAL" 0x2A00200 8 16 64 .stby [ro 63 0],
  arr "TMG_SITE_ACCEPTED" 0x2A00280 8 16 64 .stby [ro 63 0],
  arr "TMG_DEVKEY" 0x2A00400 4 24 32 .stby [ro 31 0],
  one "MGP_STATUS" 0x2B00000 32 .stby [ro 31 26],
  one "MGP_MAC" 0x2B00008 64 .stby [ro 47 0],
  one "MGP_COUNT0" 0x2B00010 32 .stby [rw 31 16, rw 15 0],
  one "MGP_COUNT1" 0x2B00014 32 .stby [rw 31 16, rw 15 0],
  one "MGP_FLOOR" 0x2B00018 64 .stby [ro 63 0],
  one "MGP_EV" 0x2B00020 32 .stby [ro 31 16, ro 7 0],
  one "MGP_PTP_CFG" 0x2B00040 32 .stby [rw 31 31, rw 30 30, rw 23 16, rw 15 0 100 (.rng 1 10000)],
  one "MGP_PTP_LAT" 0x2B00044 32 .stby [rw 31 0],
  one "MGP_PTP_STATUS" 0x2B00048 32 .stby [ro 31 28, ro 15 0],
  one "MGP_PTP_OFFSET" 0x2B00050 64 .stby [ro 63 0],
  one "MGP_PTP_GM" 0x2B00058 64 .stby [ro 63 0]]

/-- ISL: power and reset, huddle, last-gasp, boot (chapters 2, 15, 17, 18). -/
def regsIsl : List RegDef := [
  one "ISL_PWR_CTRL" 0x2C00100 32 .stby [rw 2 2, wo 1 0 (.rng 0 2)],
  one "ISL_PWR_STATE" 0x2C00104 32 .stby [ro 15 8, ro 3 0],
  one "ISL_RAIL_STATUS" 0x2C00108 32 .stby [ro 23 0],
  one "ISL_RAIL_FAULT" 0x2C0010C 32 .stby [ro 31 28, ro 11 0],
  one "ISL_RAIL_CLEAR" 0x2C00110 32 .stby [wo 0 0],
  one "ISL_RST_CAUSE" 0x2C00120 32 .stby [w1c 8 0 1],
  one "ISL_RST_CTRL" 0x2C00124 32 .stby [wo 0 0],
  one "ISL_STRAP" 0x2C00130 32 .stby [ro 4 0],
  one "ISL_CLK_STATUS" 0x2C00140 32 .stby [w1c 11 8, ro 4 0],
  one "ISL_THERMTRIP" 0x2C00150 32 .stby [ro 31 31, ro 23 16, wo 0 0],
  one "ISL_HUDDLE_STATUS" 0x2C00400 32 .stby [ro 31 9],
  one "ISL_HUDDLE_KEY" 0x2C00408 64 .stby [ro 63 32, ro 15 0],
  one "ISL_HUDDLE_DIGEST" 0x2C00410 64 .stby [ro 63 0],
  arr "ISL_HUDDLE_PEER" 0x2C00420 8 3 64 .stby [ro 63 10, ro 7 0],
  one "ISL_HUDDLE_LOOP" 0x2C00440 64 .stby [ro 63 0],
  one "ISL_HUDDLE_MEAS" 0x2C00448 64 .stby [ro 63 0],
  one "ISL_HUDDLE_EVENT" 0x2C00450 32 .stby [w1c 11 0],
  one "ISL_HUDDLE_CMD" 0x2C00458 32 .stby [wo 9 8, wo 3 0 (.rng 1 3)],
  one "ISL_HUDDLE_CMD_RESULT" 0x2C0045C 32 .stby [ro 31 31, ro 3 0],
  one "ISL_HUDDLE_COUNT" 0x2C00460 32 .stby [rw 31 24, rw 23 16, rw 15 8, rw 7 0],
  one "ISL_LASTGASP_STATUS" 0x2C00800 32 .stby [ro 31 31, ro 23 0],
  one "ISL_LASTGASP_ACK" 0x2C00804 32 .stby [wo 0 0],
  arr "ISL_LASTGASP" 0x2C00A00 4 128 32 .stby [ro 31 0],
  one "ISL_BOOT_STATUS" 0x2C00C00 32 .stby [ro 31 26, ro 23 0],
  one "ISL_BOOT_SLOTS" 0x2C00C04 32 .stby [ro 15 0],
  one "ISL_BOOT_CTRL" 0x2C00C08 32 .stby [wo 2 0],
  one "ISL_FUSE" 0x2C00C10 32 .stby [ro 31 30, ro 5 0]]

/-- The table of the block that holds an offset (R519). -/
def blockRegs (off : Nat) : List RegDef :=
  if off < 0x100000 then regsCap
  else if off < 0x200000 then regsErr
  else if off < 0x400000 then regsOwn
  else if off < 0x1000000 then regsHif
  else if off < 0x1800000 then regsClu
  else if off < 0x2000000 then regsMem
  else if off < 0x2200000 then regsElk
  else if off < 0x2600000 then regsEngine
  else if off < 0x2700000 then regsPtu
  else if off < 0x2800000 then regsPgv
  else if off < 0x2900000 then regsTfu
  else if off < 0x2A00000 then regsFbc
  else if off < 0x2C00000 then regsMgp
  else if off < 0x2D00000 then regsIsl
  else if off < 0x2E00000 then regsMem
  else if off < 0x1_0000_0000 then []
  else regsHif

/-- A register's definition and the offset of its low word. -/
def RegDef.at? (d : RegDef) (off : Nat) : Option Nat :=
  if off < d.base then none
  else
    let k := (off - d.base) / d.stride
    let lo := d.base + k * d.stride
    if k < d.count ∧ off < lo + d.width / 8 then some lo else none

/-- The register that holds the word at `off`, with the offset of its low word. -/
def findReg (off : Nat) : Option (RegDef × Nat) :=
  (blockRegs off).findSome? (fun d => (d.at? off).map (fun lo => (d, lo)))

/-- A register's reset image. -/
def RegDef.resetVal (d : RegDef) : Nat :=
  d.flds.foldl (fun a f => a + (f.reset % 2 ^ (f.hi + 1 - f.lo)) * 2 ^ f.lo) 0

/-- The reset image of the register whose low word is at `lo`. -/
def resetAt (lo : Nat) : Nat :=
  match findReg lo with
  | some (d, _) => d.resetVal
  | none => 0

/-- Bits outside every field. -/
def RegDef.reservedBits (d : RegDef) (v : Nat) : Bool :=
  (List.range d.width).any (fun i => v.testBit i && !(d.flds.any (fun f => decide (f.lo ≤ i) && decide (i ≤ f.hi))))

/-- R6: a written value carries a reserved encoding of the register's own fields. -/
def RegDef.reserved (d : RegDef) (v : Nat) : Bool :=
  d.reservedBits v ||
  d.flds.any (fun f => f.acc != .ro && !(f.legal.ok (fld v f.hi f.lo)))

/-- All fields RO or reserved (R6). -/
def RegDef.readOnly (d : RegDef) : Bool := d.flds.all (fun f => f.acc == .ro)

/-- R521, R13: the register stride of an absent instance on the E128. -/
def absentStride (off : Nat) : Bool :=
  (decide (0x2800058 ≤ off) && decide (off < 0x2800060)) ||
  (decide (0x28001C0 ≤ off) && decide (off < 0x2800200)) ||
  (decide (0x2800340 ≤ off) && decide (off < 0x2800400)) ||
  (decide (0x2800540 ≤ off) && decide (off < 0x2800600)) ||
  (decide (0x2800620 ≤ off) && decide (off < 0x2800700))

end Sys2Proof.Machine
end

