-- ==== Sys2Proof/Machine/Data/Boot.lean ====
section
/-! DEFINITION. Boot flash, slots, fuses and the standby initialization stages (R504–R518). -/

namespace Sys2Proof.Machine

/-- The state of one A/B slot in ISL_BOOT_SLOTS. -/
inductive SlotState where
  | empty | valid | trial | active | rejected | invalid
deriving DecidableEq, Repr

/-- A slot state's code. -/
def SlotState.code : SlotState → Nat
  | .empty => 0 | .valid => 1 | .trial => 2 | .active => 3 | .rejected => 4 | .invalid => 5

/-- What a slot holds, and whether this image has been booted since it was written (R507 TOPOLOGY). The cryptographic
checks of R506, payload hash and signature, are answered by the command that runs them. -/
structure Slot where
  st : SlotState := .empty
  bytes : List Byte := []
  booted : Bool := false
deriving DecidableEq, Repr

/-- A pair's ACTIVE, TRIAL and TRIED of the boot record (R509); 0xFF is none. -/
structure PairRec where
  active : Nat := 0xFF
  trial : Nat := 0xFF
  tried : Bool := false
deriving DecidableEq, Repr

/-- The boot state. -/
structure Boot where
  fw : PairRec := {}
  cfg : PairRec := {}
  /-- COUNT of the boot record in force (R509). -/
  count : Nat := 0
  slots : Tbl Slot := []
  /-- Bytes written to each slot by FW_BLOCK since its erase. -/
  written : Tbl Nat := []
  path : Nat := 0
  fwSlot : Nat := 0
  cfgSlot : Nat := 0
  fwTrial : Bool := false
  cfgTrial : Bool := false
  noConfig : Bool := false
  fwMajor : Nat := 0
  fwMinor : Nat := 0
  stage : Nat := 1
  enrolled : Bool := false
  key0Revoked : Bool := false
  svn : Nat := 0
  /-- The stored integrator key (R508). -/
  integratorKey : List Byte := []
  /-- PCIe identifiers latched from the configuration (R178, R507). -/
  pcieIds : List Byte := []
  /-- NET record in force (R507). -/
  net : List Byte := []
  /-- Island boot's DTS, for the 10 s of R515. -/
  bootDts : Nat := 0
deriving DecidableEq, Repr

end Sys2Proof.Machine
end

