-- ==== Sys2Proof/Machine/Data/Elk.lean ====
section
/-! DEFINITION. Eriati Link ports, the domain, routes and outstanding remote requests (R214–R242). -/

namespace Sys2Proof.Machine

/-- Port states (R227). -/
inductive PortState where
  | disabled | phy | hello | keyx | up | quarantine | down
deriving DecidableEq, Repr

/-- A port state's code. -/
def PortState.code : PortState → Nat
  | .disabled => 0 | .phy => 1 | .hello => 2 | .keyx => 3 | .up => 4 | .quarantine => 5 | .down => 6

/-- One Eriati Link port. Sequence numbers count modulo 4,096 (R218). -/
structure Port where
  st : PortState := .disabled
  cause : Nat := 0
  peerId : Nat := 0
  peerHasId : Bool := false
  x8 : Bool := false
  peerPort : Nat := 0
  peerSerial : Nat := 0
  uncorr : Nat := 0
  tagFail : Nat := 0
  replay : Nat := 0
  /-- Back-off of the next DOWN, in milliseconds (R227). -/
  backoff : Nat := 10
  /-- SEQ of the next DATA flit sent. -/
  txSeq : Nat := 0
  /-- Last DATA SEQ acknowledged by the peer. -/
  acked : Nat := 4095
  /-- SEQ of the next DATA flit expected. -/
  rxSeq : Nat := 0
  /-- Retry buffer, oldest first: SEQ and stored flit (R220). -/
  unacked : List (Nat × List Byte) := []
  /-- Unacknowledged flits still to be resent by a replay in progress. -/
  resend : List (List Byte) := []
  nak : Bool := false
  /-- DATA flits received since the last acknowledgement sent. -/
  ackOwed : Nat := 0
  noProgress : Nat := 0
  tagRun : Nat := 0
  kep : Bool := false
  /-- Flits sealed in this direction, and the rekey index (R219). -/
  sealed : Nat := 0
  rekey : Nat := 0
  rxKep : Bool := false
  rxRekey : Nat := 0
  /-- Credits this side holds, less those of link-up: units in use per channel half (R221). -/
  used : Tbl Nat := []
  /-- Units freed here and not yet returned, per channel half. -/
  owed : Tbl Nat := []
  /-- Messages waiting per channel half, oldest first. -/
  queues : Tbl (List (List Byte)) := []
  /-- Turns used in the current weighted round per class 1–3 (R157). -/
  turns : Tbl Nat := []
  /-- This side has sent KEY, and has the peer's KEY (R228). -/
  peerKey : Option (List Byte) := none
  /-- The environment's verdict on the peer's KEY signature under the DEVKEY now listed. -/
  keySigOk : Bool := false
  peerDigest : Option Nat := none
  upSince : Nat := 0
deriving DecidableEq, Repr

/-- One route entry (ELK_ROUTE_n). -/
structure Route where
  valid : Bool := false
  fenced : Bool := false
  altEn : Bool := false
  alt : Nat := 0
  primary : Nat := 0
  usingAlt : Bool := false
deriving DecidableEq, Repr

/-- A manifest's chip entry (R224). -/
structure ChipEntry where
  serial : Nat
  id : Nat
  spare : Bool
  devKey : List Byte
deriving DecidableEq, Repr

/-- A manifest's link entry (R224). -/
structure LinkEntry where
  a : Nat
  pa : Nat
  b : Nat
  pb : Nat
deriving DecidableEq, Repr

/-- A checked manifest, its digest, and this chip's index and self ID in it (R225). -/
structure Manifest where
  domainId : Nat
  epoch : Nat
  chips : List ChipEntry
  links : List LinkEntry
  digest : Nat
  selfIndex : Option Nat
  selfId : Option Nat
deriving DecidableEq, Repr

/-- Who waits for a remote request's answer. -/
inductive RemoteAgent where
  /-- A thread's load or atomic: the answer's bytes go to offset `off` of its buffer. -/
  | load (cluster slot off : Nat)
  /-- A thread's posted store or posted atomic. -/
  | posted (cluster slot : Nat)
  /-- A chain's remote descriptor fetch, step read at an offset, step write, or RESULT write. -/
  | moverDesc (cid : Nat)
  | moverRead (cid off : Nat)
  | moverWrite (cid : Nat)
  | moverResult (cid : Nat)
  /-- A front-end packet's write, or an atomic add. -/
  | packet (id : Nat)
  /-- A front-end packet's read of a descriptor or a program, by DVA. -/
  | packetRead (id dva : Nat)
  /-- A step stream's walk, and a sweep channel's accesses. -/
  | streamRead (s dva : Nat)
  | streamWrite (s : Nat)
  | sweepRead (c dva : Nat)
  | sweepWrite (c : Nat)
  /-- An access of the host window in DVA mode: its window offset, and the bytes a read asked for (0 for a write). -/
  | window (addr len : Nat)
deriving DecidableEq, Repr

/-- One outstanding remote request (R234). -/
structure Outstanding where
  tag : Nat
  chip : Nat
  dpa : Nat
  owner : Nat
  tc : Nat
  port : Nat
  agent : RemoteAgent
deriving DecidableEq, Repr

/-- The link unit. -/
structure Elk where
  ports : Tbl Port := []
  manifest : Option Manifest := none
  staged : Option Manifest := none
  /-- A COMMIT waiting for its DTS. -/
  commitAt : Option Nat := none
  busy : Bool := false
  status : Nat := 0
  routes : Tbl Route := []
  outstanding : List Outstanding := []
  nextTag : Nat := 1
  /-- Tags of timed-out requests, with the DTS until which they rest (R236). -/
  retired : List (Nat × Nat) := []
  /-- Suspected IDs (R237). -/
  suspects : List Nat := []
  nextNonce : Nat := 1
  /-- A self-fence waits for the outstanding requests (R239). -/
  selfFence : Bool := false
  /-- A STAGE's host read is out. -/
  staging : Bool := false
deriving DecidableEq, Repr

/-- The chip's own logical ID; 0 outside any domain (R61, R225). -/
def Elk.selfId (e : Elk) : Nat :=
  match e.manifest with
  | some m => m.selfId.getD 0
  | none => 0

/-- The chip has a self ID. -/
def Elk.hasId (e : Elk) : Bool :=
  match e.manifest with
  | some m => m.selfId.isSome
  | none => false

end Sys2Proof.Machine
end

