-- ==== Sys2Proof/Machine/Data/Err.lean ====
section
/-! DEFINITION. The error unit's state (R482–R503) and the last-gasp records (R498–R500). -/

namespace Sys2Proof.Machine

/-- One log entry (R484); `uid` is its place in the order of detection, `seq` its SEQ (0 until it has one, R485). -/
structure LogEntry where
  uid : Nat
  seq : Nat
  dts : Nat
  addr : Nat
  status : Nat
  sev : Nat
  cls : Nat
  cause : Nat
  owner : Option Nat
  secondary : Bool
  injected : Bool
  raised : Bool
  isolating : Bool
  merged : Bool
  addrKind : Nat
  source : Nat
  index : Nat
  occurrences : Nat
  tag : Nat
  requester : Option Nat
  info : Nat
  /-- SEQ of the primary (R484 PRIMARY), 0 when not SECONDARY. -/
  primary : Nat
  /-- `uid` of the primary, for an entry held before stage 4 (R485). -/
  primaryUid : Nat
  agent : Nat
  agentIndex : Nat
  access : Nat
  closed : Bool
deriving DecidableEq, Repr

/-- The standing of one error class (R490–R493). -/
structure ClassState where
  handling : Bool := false
  sev : Nat := 0
  /-- SEQ of the primary entry (ERR_CLASS_PRIMARY). -/
  primary : Nat := 0
  primaryUid : Nat := 0
  waitHost : Bool := false
  preempted : Bool := false
  secondary : Nat := 0
  /-- The FATAL class's handling action and R495's steps are done: it no longer occupies the island. -/
  fatalDone : Bool := false
deriving DecidableEq, Repr

/-- A last-gasp record the island still has to write (R498). -/
structure GaspWork where
  kind : Nat
  dts : Nat
  cause : Option LogEntry
deriving DecidableEq, Repr

/-- A last-gasp record in flash (R499). -/
structure GaspRecord where
  number : Nat
  kind : Nat
  body : List Byte
  acked : Bool
deriving DecidableEq, Repr

/-- The error unit. -/
structure ErrUnit where
  /-- The newest 4,096 entries, oldest first (R486). -/
  log : List LogEntry := []
  /-- Entries copied to the SPI flash log (R487). -/
  flash : List LogEntry := []
  nextUid : Nat := 0
  /-- Next SEQ, meaningful once `restored`. -/
  nextSeq : Nat := 1
  /-- The reserve kept in SPI flash (R485). -/
  reserve : Nat := 1
  /-- Stage 4 of R514 reached since the last island boot that followed VSTBY application. -/
  restored : Bool := false
  classes : Tbl ClassState := []
  fatalHold : Bool := false
  isolated : Bool := false
  /-- R495: the island's self-fence and ERROR event still to come. -/
  fencePending : Bool := false
  /-- The class whose handler the island runs. -/
  running : Option Nat := none
  /-- The first FATAL primary in force (R499). -/
  firstFatal : Option LogEntry := none
  /-- A run of failing flash operations is in progress (R487). -/
  flashFailing : Bool := false
  /-- Instant of the last erase of a log block (R173). -/
  lastErase : Option Nat := none
  gasp : List GaspWork := []
  records : List GaspRecord := []
  nextRecord : Nat := 1
  torn : Nat := 0
  /-- Requesters that have read the shown record's CRC word since it was shown (R500). -/
  crcReadBy : List Requester := []
deriving DecidableEq, Repr

end Sys2Proof.Machine
end

