-- ==== Sys2Proof/Machine/Data/Fbc.lean ====
section
/-! DEFINITION. The Fluid Bus Controller (R376–R413). Its settings and its message RAM are in the register file. -/

namespace Sys2Proof.Machine

/-- A receive queue or the transmit log: where it is read, how many elements it holds, and its losses (R392, R398). -/
structure Fifo where
  get : Nat := 0
  count : Nat := 0
deriving DecidableEq, Repr

/-- What a frame on its way out is for. -/
inductive TxKind where
  | event | exclusive | reference
deriving DecidableEq, Repr

/-- The frame this node is sending. -/
structure TxCur where
  buf : Nat
  kind : TxKind
  sof : Nat
  frame : CanFrame
  /-- Word 1 of its element: SINGLE, LOG_EVENT and MARK (R388). -/
  word1 : Nat
  cycle : Nat
  ball : Nat
  /-- FBC_TX_ABORT named it after its start (R397). -/
  abort : Bool := false
deriving DecidableEq, Repr

/-- An over (R399–R401, R406). -/
structure Over where
  /-- Its sync point, or the expected instant of a predicted over. -/
  sync : Nat
  /-- LEN, in 10 ns units of the master's clock. -/
  len : Nat
  cycle : Nat
  predicted : Bool := false
  /-- TT_STATUS.FREE. -/
  free : Bool := false
  /-- A condition of error level 1 has been met in it (R410). -/
  marred : Bool := false
  /-- The first ball not yet started. -/
  nextBall : Nat := 1
deriving DecidableEq, Repr

/-- A reference due: LEN, PACED and cycle count, and whether it repeats one that failed (R401). -/
structure RefDue where
  len : Nat
  paced : Bool
  cycle : Nat
  again : Bool := false
deriving DecidableEq, Repr

/-- A requester's Rx shadow (R394). -/
structure RxShadow where
  bytes : List Byte := []
  valid : Bool := false
  newer : Bool := false
  space : Nat := 0
  index : Nat := 0
deriving DecidableEq, Repr

/-- The controller. -/
structure Fbc where
  /-- The instant at which 11 recessive bits have integrated the node. -/
  integrated : Nat := 0
  clkHold : Bool := false
  /-- The end of clock hold, once ISL_CLK25 has requalified (R379). -/
  clkHoldEnd : Option Nat := none
  busOff : Bool := false
  recovery : Nat := 0
  lastErr : Nat := 0
  rec_ : Nat := 0
  tec : Nat := 0
  loopDelay : Nat := 0
  queueA : Fifo := {}
  queueB : Fifo := {}
  txLog : Fifo := {}
  overflow : Nat := 0
  /-- FBC_TX_BUSY and FBC_TX_LOADING. -/
  busy : Nat := 0
  loading : Nat := 0
  /-- Transmit shadows by buffer; an absent one is all zero (R395). -/
  shadows : Tbl (List Byte) := []
  sending : Option TxCur := none
  /-- Message RAM words that cannot be corrected (R387). -/
  badWords : List Nat := []
  cfgErr : Option Nat := none
  /-- Rx shadows: 0 the island, 1 the physical function, 2 the MMP register path. -/
  rx : Tbl RxShadow := []
  /-- Time-triggered operation. -/
  master : Bool := false
  sync : Nat := 0
  misses : Nat := 0
  curOver : Option Over := none
  /-- Overs begun so far. -/
  overs : Nat := 0
  /-- The identifier of the last reference accepted or sent. -/
  masterId : Nat := 0
  /-- Sync point of the last reference. -/
  lastSync : Option Nat := none
  /-- The master has sent a reference since it took the role. -/
  sentRef : Bool := false
  /-- A reference due and not yet on the bus. -/
  refDue : Option RefDue := none
  /-- TAKE is in force (R408). -/
  take : Bool := false
  /-- The instant of a takeover (R407). -/
  takeAt : Option Nat := none
  lastStrobe : Option Nat := none
  /-- FBC_TT_MEAS: RATE in ppm and PHASE in ns; and the correction in use (R409). -/
  rate : Int := 0
  phase : Int := 0
  corr : Int := 0
  /-- Error levels (R410): level 1 stands, level 2 stands with consecutive good measurements, level 3 stands. -/
  level1 : Bool := false
  level2 : Bool := false
  good : Nat := 0
  level3 : Bool := false
  /-- R412. -/
  corrDts : Nat := 0
  corrCycle : Option Nat := none
deriving DecidableEq, Repr

end Sys2Proof.Machine
end

