-- ==== Sys2Proof/Machine/Data/Hif.lean ====
section
/-! DEFINITION. The host port's functions, interrupts, link and command rings (R176–R213). -/

namespace Sys2Proof.Machine

/-- One PCIe function (R178–R180). -/
structure Fn where
  d3hot : Bool := false
  /-- The function's Enable Relaxed Ordering bit (R208). -/
  ero : Bool := true
deriving DecidableEq, Repr

/-- One requester's holding register: the register offset and word (R89, R90). -/
structure Hold where
  off : Nat
  word : Nat
deriving DecidableEq, Repr

/-- A fetched command packet: the bytes of its units, and the DTS of its fetch (R197). -/
structure Packet where
  bytes : List Byte
  fetched : Nat
deriving DecidableEq, Repr

/-- What a started packet waits for. -/
inductive PktWait where
  /-- FENCE: every earlier packet of the ring (R199). -/
  | fence
  /-- A flag write: the earlier writes of its direction (R207). -/
  | flag
  /-- WAIT on a word of this chip (R200). -/
  | word (dpa : Nat)
  /-- WAIT on a host word. -/
  | host
  /-- The flush read before completing: STATUS and results to come (R188). -/
  | flush (status r0 r1 : Nat)
  /-- A COPY or FILL on a bulk mover. -/
  | mover
  /-- An island packet that has not had its effect (R195). -/
  | island
  /-- An island packet whose effect is under way: a drain, or a clear. -/
  | islandWork
  /-- A remote answer. -/
  | remote
  /-- A fault parked the packet (R73, R201): bytes done. -/
  | parked (done : Nat)
  /-- A live LAUNCH, a SUSPEND or a CONTINUE. -/
  | launch
  /-- An EVENT_SET with a completion at its fire. -/
  | event
  /-- An engine's packet. -/
  | engine
deriving DecidableEq, Repr

/-- A packet that has started and whose record is not written (R192). -/
structure Inflight where
  /-- Chip-wide start number: the identity of the packet's work. -/
  id : Nat
  ring : Nat
  owner : Nat
  /-- Ring number in the completion record (R209). -/
  local_ : Nat
  opcode : Nat
  tag : Nat
  flags : Nat
  signal : Bool
  logged : Bool
  started : Nat
  bytes : List Byte
  /-- An FLR of the owner drops its host writes, record and interrupts (R179). -/
  muted : Bool
  /-- Directions of writes not yet performed (R205). -/
  pendD : Bool
  pendH : Bool
  wait : PktWait
  /-- Host address of the last H write, for R188's flush read. -/
  lastHost : Option Nat
  /-- WAIT: the last word read (R211). -/
  lastWord : Nat
  /-- Bytes of remote reads the packet's checks need, by DVA. -/
  far : List (Nat × List Byte) := []
deriving DecidableEq, Repr

/-- A completion record that waits for a slot (R210). -/
structure Record where
  dts : Nat
  tag : Nat
  status : Nat
  local_ : Nat
  r0 : Nat
  r1 : Nat
  opcode : Nat
  flags : Nat
  logged : Bool
deriving DecidableEq, Repr

/-- Ring states of CMD_RING_STATE. -/
inductive RingState where
  | disabled | running | stopped
deriving DecidableEq, Repr

/-- One command ring (R189–R195). BASE, CTRL, TAIL, CQ_HEAD and the binding are in the register file. -/
structure Ring where
  st : RingState := .disabled
  cause : Nat := 0
  head : Nat := 0
  cqTail : Nat := 0
  /-- Packets fetched and not started, oldest first. -/
  fetched : List Packet := []
  /-- A fetch read issued and not answered: its unit count. -/
  fetching : Nat := 0
  /-- EN 0 written while packets run: DISABLED follows the last record (R194). -/
  closing : Bool := false
  held : List Record := []
deriving DecidableEq, Repr

/-- The host port. -/
structure Hif where
  up : Bool := false
  rate : Nat := 0
  width : Nat := 0
  flit : Bool := false
  widthFail : Bool := false
  rateLow : Bool := false
  fns : Tbl Fn := []
  /-- Pending bits of the MSI-X vectors, function × 2,048 + vector. -/
  pba : Tbl Bool := []
  /-- log2 of the BAR2 size (30 is 1 GiB). -/
  bar2Log2 : Nat := 30
  errValid : Bool := false
  errFn : Nat := 0
  errAddr : Nat := 0
  rings : Tbl Ring := []
  started : List Inflight := []
  nextId : Nat := 1
  /-- Last owner served of each level (0 normal, 1 urgent), and last ring served of each level × 64 + owner (R193). -/
  lastOwner : Tbl Nat := []
  lastRing : Tbl Nat := []
  /-- Read and write holding registers, keyed by requester number (0–63 functions, 64 island, 65 MMP). -/
  readHold : Tbl (Option Hold) := []
  writeHold : Tbl (Option Hold) := []
deriving DecidableEq, Repr

end Sys2Proof.Machine
end

