-- ==== Sys2Proof/Machine/Data/Huddle.lean ====
section
/-! DEFINITION. The row coolant huddle as this chip's island runs it (R414–R449). -/

namespace Sys2Proof.Machine

/-- A member as announced (R424, ISL_HUDDLE_PEER). -/
structure Peer where
  epoch : Nat := 0
  digest : Nat := 0
  major : Nat := 0
  minor : Nat := 0
  role : Nat := 0
  cause : Nat := 0
  /-- The over in which it was last heard. -/
  heard : Option Nat := none
deriving DecidableEq, Repr

/-- The loop state (R423, bytes 22–47). -/
structure Loop where
  /-- 0 ELECTING, 1 RUN, 2 LEAK, 3 ALL_STOP, 4 NO_QUORUM. -/
  st : Nat := 0
  seq : Nat := 0
  pump : Nat := 0
  fan : Nat := 0
  valve : Nat := 0
  pumpInt : Int := 0
  fanInt : Int := 0
  /-- Raw fields: supply (0x8000 invalid), flow and pressure (0xFFFF invalid). -/
  supply : Nat := 0x8000
  flow : Nat := 0xFFFF
  dp : Nat := 0xFFFF
  budget : Nat := 0
deriving DecidableEq, Repr

/-- A chip entry of the tray reports, by chip index (R443). -/
structure ChipRep where
  seq : Option Nat := none
  present : Bool := false
  /-- The over of its last advance. -/
  advanced : Nat := 0
  demand : Nat := 0
  part : Nat := 0
  missing : Bool := false
  cap : Nat := 0
  code : Nat := 255
deriving DecidableEq, Repr

/-- The last NODE_STATUS of a node: its values and the over it came in (R428). -/
structure NodeRep where
  heard : Option Nat := none
  values : List Nat := []
deriving DecidableEq, Repr

/-- The huddle. -/
structure Huddle where
  /-- The configuration in force, and one accepted and not yet applied (R415, R416). -/
  cfg : List Byte := []
  accepted : List Byte := []
  /-- 0 ABSENT, 1 OBSERVER, 2 STANDBY, 3 LEAD; CAUSE of R424. -/
  role : Nat := 0
  cause : Nat := 0
  quorum : Bool := false
  active : Nat := 0
  leadRank : Nat := 3
  overBudget : Bool := false
  peers : Tbl Peer := []
  loop : Loop := {}
  chips : Tbl ChipRep := []
  nodes : Tbl NodeRep := []
  /-- The cooling term's last valid value, and the row forecast f (R441, R444). -/
  cool : Option Nat := none
  forecast : Nat := 0
  /-- The last reference judged: the over it came in, its bytes 8–47, and references since LOOP_SEQ advanced (R433). -/
  refOver : Option Nat := none
  refData : List Byte := []
  stall : Nat := 0
  /-- This member holds the lead role. -/
  lead : Bool := false
  /-- The fluid bus controller was time master at the last over's work. -/
  wasMaster : Bool := false
  /-- An evaluation's winner, acted on in the next over (R434). -/
  winner : Option Nat := none
  /-- HANDOVER's target at the lead, and that a member was named (R438). -/
  handover : Option Nat := none
  named : Bool := false
  /-- The over in which the last LEAK or ALL_STOP arrived (R449), and in which this tray lead last sent one. -/
  leakOver : Option Nat := none
  sentOver : Option Nat := none
  leakSeq : Nat := 0
  allStop : Bool := false
  /-- Event frames requested for the current over, by Tx buffer (R420). -/
  asked : Nat := 0
  /-- Node objects still to be written: node, object, value (R430). -/
  writes : List (Nat × Nat × Nat) := []
  busy : Bool := false
  result : Nat := 0
deriving DecidableEq, Repr

end Sys2Proof.Machine
end

