-- ==== Sys2Proof/Machine/Data/Mem.lean ====
section
/-! DEFINITION. Owners, keys, grants, leases, translation bookkeeping, the host window and stored memory (R59–R91, R151–R175). -/

namespace Sys2Proof.Machine

/-- OWN_STATE.STATE. -/
inductive OwnState where
  | free | active | draining
deriving DecidableEq, Repr

/-- An OWN_STATE code. -/
def OwnState.code : OwnState → Nat
  | .free => 0 | .active => 1 | .draining => 2

/-- What parked, and where its work continues (R73). -/
inductive ParkAgent where
  | thread (cluster slot : Nat)
  | clusterMover (cluster chan : Nat)
  | bulkMover (m : Nat)
  | frontEnd (id : Nat)
  | stream (s : Nat)
  | sweep (c : Nat)
  /-- A thread whose context SUSPEND has saved: launch identity, group index and thread index (R77). -/
  | saved (launch group thread : Nat)
deriving DecidableEq, Repr

/-- One live park: its token, agent, the fault's status, ACCESS and DVA, and a RESUME recorded while saved
(R76, R77). -/
structure Park where
  token : Nat
  agent : ParkAgent
  status : Nat
  acc : Nat
  dva : Nat
  recorded : Option Bool := none
deriving DecidableEq, Repr

/-- One owner's context. -/
structure Owner where
  st : OwnState := .free
  /-- Key generation, modulo 1,024 (R79). -/
  keyGen : Nat := 0
  /-- The key slot: the chip-wide number of the key drawn, none when zeroized (R78). -/
  key : Option Nat := none
  /-- DPA of the level-0 table; 0 for an empty table set (R71). -/
  root : Nat := 0
  parks : List Park := []
  nextToken : Nat := 1
  /-- OWN_FRING_PROD (R74, R75). -/
  fringProd : Nat := 0
  /-- OWNER_DESTROY's packet: its in-flight number while the owner drains. -/
  destroyId : Option Nat := none
  /-- Transactions forced at 10 ms (R83). -/
  forced : Nat := 0
deriving DecidableEq, Repr

/-- A frame's grant entry (R67). -/
structure Grant where
  owner : Nat
  table : Bool
deriving DecidableEq, Repr

/-- A cluster's lease. -/
structure Lease where
  owner : Option Nat := none
  clearing : Bool := false
deriving DecidableEq, Repr

/-- A line's 16-bit tag, with the key that wrote it (R79). -/
structure LineTag where
  owner : Nat
  gen : Nat
  key : Nat
deriving DecidableEq, Repr

/-- One leaf the island has written, for its bookkeeping of live mappings (R67, R72). -/
structure Leaf where
  owner : Nat
  dva : Nat
  ps : Nat
  chip : Nat
  dpa : Nat
  perm : Nat
deriving DecidableEq, Repr

/-- One table page in use: its DPA, its owner and its level. -/
structure TablePage where
  dpa : Nat
  owner : Nat
  level : Nat
  /-- First DVA the table covers. -/
  dva : Nat
deriving DecidableEq, Repr

/-- A lease command, or a teardown of an owner, waiting for its clears (R81, R83). -/
structure LeaseWait where
  id : Nat
  clusters : List Nat
  /-- The owner whose teardown waits. -/
  owner : Option Nat := none
deriving DecidableEq, Repr

/-- Owners, translation and memory. -/
structure MemSys where
  owners : Tbl Owner := []
  nextKey : Nat := 1
  rngOk : Bool := false
  grants : Tbl (Option Grant) := []
  leaves : List Leaf := []
  tables : List TablePage := []
  leases : Tbl Lease := []
  leaseWaits : List LeaseWait := []
  /-- Stored bytes of HBM, the Tier and scratch, under the key their line's tag names. -/
  cells : List (Nat × Byte) := []
  /-- Tag of each HBM or Tier line, by DPA / 64; a line without one holds R79's fill. -/
  tags : Tbl (Option LineTag) := []
  /-- Poisoned storage units: DPA / 64 for HBM and the Tier, DPA / 16 for scratch (R161). -/
  poison : List Nat := []
  poisonScratch : List Nat := []
deriving DecidableEq, Repr

end Sys2Proof.Machine
end

