-- ==== Sys2Proof/Machine/Data/Mgp.lean ====
section
/-! DEFINITION. Presence, tray identity, the tray SMBus, the management port and PTP (R450–R481). -/

namespace Sys2Proof.Machine

/-- One queued event (R475). -/
structure MgpEvent where
  seq : Nat
  dts : Nat
  sev : Nat
  code : Nat
  data : List Byte
  sent : Bool
deriving DecidableEq, Repr

/-- An MMP request that passed the checks of R469. -/
structure MmpRequest where
  /-- The sender's address and port. -/
  src : List Byte
  /-- It came through the tray lead (R473). -/
  proxied : Bool
  packet : List Byte
deriving DecidableEq, Repr

/-- A packet waiting to be read with PROXY_RSP (R453). -/
structure OutPacket where
  /-- 1 response, 2 event. -/
  kind : Nat
  dest : List Byte
  bytes : List Byte
deriving DecidableEq, Repr

/-- A proxied request whose response the tray lead awaits (R473). -/
structure ProxyWait where
  pos : Nat
  seq : Nat
  key : Nat
  command : Nat
  src : List Byte
  since : Nat
deriving DecidableEq, Repr

/-- PTP (R479–R481). -/
structure Ptp where
  /-- 0 DISABLED, 1 LISTENING, 2 UNCALIBRATED, 3 SLAVE. -/
  st : Nat := 0
  slewing : Bool := false
  /-- What is left of a backward offset, in ns. -/
  slew : Nat := 0
  /-- Rate trim in 0.01 ppm. -/
  trim : Int := 0
  offset : Int := 0
  /-- Consecutive offsets within ±1 µs. -/
  good : Nat := 0
  /-- The Announce in force: grandmaster identity, and its rank in the comparison of IEEE 1588. -/
  gm : Nat := 0
  gmRank : Option Nat := none
deriving DecidableEq, Repr

/-- The management port. -/
structure Mgp where
  events : List MgpEvent := []
  nextEv : Nat := 1
  evLost : Nat := 0
  /-- EVENT_CFG destination and class mask, once set. -/
  dest : Option (List Byte) := none
  mask : Nat := 0
  link : Bool := false
  speed : Nat := 0
  ipv4 : Bool := false
  ipv6 : Bool := false
  phyReleased : Bool := false
  /-- Key slots 0 and 1; empty while none (R468). -/
  key0 : List Byte := []
  key1 : List Byte := []
  /-- Request floor and persisted reserve; outgoing counter and its reserve (R470). -/
  floor : Nat := 0
  reserve : Nat := 0
  outCounter : Nat := 0
  outReserve : Nat := 0
  queue : List MmpRequest := []
  /-- The last executed request's counter and tag, and the response kept (R471). -/
  lastTag : Option (Nat × List Byte) := none
  lastResponse : List Byte := []
  lastKey : Nat := 0
  lastSeq : Nat := 0
  lastCmd : Nat := 0
  lastStatus : Nat := 0
  ptp : Ptp := {}
deriving DecidableEq, Repr

/-- One site of the tray topology (R462). -/
structure SiteDef where
  kind : Nat
  required : Bool
  noPres : Bool
  pres : Nat
  addr : Nat
  mux : Nat
  pos : Nat
  port : Nat
  side : Nat
deriving DecidableEq, Repr

/-- What verification found at a site (R463). -/
structure SiteRes where
  result : Nat := 0
  kind : Nat := 0
  serial : Nat := 0
  /-- The record as read. -/
  record : List Byte := []
deriving DecidableEq, Repr

/-- A write due on the tray SMBus (R455). -/
structure TsbWrite where
  pos : Nat
  code : Nat
  data : List Byte
deriving DecidableEq, Repr

/-- Another position of the tray as the tray lead sees it (R455). -/
structure TrayPos where
  answered : Bool := false
  /-- Consecutive overs whose state read failed. -/
  fails : Nat := 0
  /-- The last CHIP_STATE read, and when. -/
  state : List Byte := []
  readAt : Nat := 0
  /-- SEQ of its tray report entry (R425). -/
  seq : Nat := 0
  /-- The tray report entry. -/
  entry : List Byte := []
deriving DecidableEq, Repr

/-- Tray state. -/
structure Tmg where
  /-- Qualified presence, bit per input (R450). -/
  pres : Nat := 0
  /-- 0 chip, 1 lead candidate, 2 tray lead, 3 declined (R453). -/
  role : Nat := 0
  conflict : Bool := false
  /-- The topology's bytes, as accepted (R462). -/
  topology : List Byte := []
  accepted : Tbl Nat := []
  sites : Tbl SiteRes := []
  /-- Sites that a verification under way has still to read. -/
  verifying : List Nat := []
  positions : Tbl TrayPos := []
  due : List TsbWrite := []
  /-- The 2 s after island boot are over (R457), and a ROLE read has come from a candidate since island boot. -/
  settled : Bool := false
  roleAsked : Bool := false
  /-- The last valid transfer the tray lead addressed to this chip (R456). -/
  lastLead : Option Nat := none
  outbox : List OutPacket := []
  /-- Fragments of the outbox's first packet read so far. -/
  outFrag : Nat := 0
  /-- Fragments of a proxied request received so far (R453). -/
  inFrag : List Byte := []
  inNext : Nat := 0
  /-- Fragments of an outbox packet that the tray lead has read so far, by position. -/
  readFrag : Tbl (List Byte) := []
  proxies : List ProxyWait := []
deriving DecidableEq, Repr

end Sys2Proof.Machine
end

