-- ==== Sys2Proof/Machine/Data/Mover.lean ====
section
/-! DEFINITION. Mover chains, patrol, telemetry and the memory system's counters (R151–R175). -/

namespace Sys2Proof.Machine

/-- A parsed descriptor (R164). -/
structure Desc where
  next : Nat
  src : Nat
  dst : Nat
  rowBytes : Nat
  rows : Nat
  srcStride : Nat
  dstStride : Nat
  fill : Bool
  poisonPass : Bool
  srcHost : Bool
  dstHost : Bool
  tc : Nat
deriving DecidableEq, Repr

/-- Who submitted a chain: a group's copy counter (R108), or a COPY or FILL packet (R201). -/
inductive ChainOwner where
  | counter (gid ctr : Nat)
  | packet (id : Nat)
deriving DecidableEq, Repr

/-- Where a chain stands. -/
inductive ChainPhase where
  /-- The next descriptor is to be fetched. -/
  | fetch
  /-- A remote descriptor fetch is out. -/
  | fetching
  /-- At a step boundary of its descriptor. -/
  | steps
  /-- Remote reads, or remote writes, of the current step are out. -/
  | reading
  | writing
  /-- The descriptor is over, with this status; its RESULT is to be written. -/
  | curOver (status : Nat)
  /-- The chain is over, with this status. -/
  | finished (status : Nat)
deriving DecidableEq, Repr

/-- One chain on a mover channel. -/
structure Chain where
  cid : Nat
  owner : Nat
  origin : ChainOwner
  /-- DVA of the current descriptor; 0 for a packet's own descriptor. -/
  dva : Nat
  /-- The descriptor comes from the packet's body (R201). -/
  ownDesc : Bool
  /-- Current descriptor, once fetched and checked. -/
  desc : Option Desc := none
  /-- Class before a descriptor is known: the packet's TC. -/
  tc0 : Nat := 0
  phase : ChainPhase := .fetch
  /-- Descriptors attempted so far. -/
  count : Nat := 0
  row : Nat := 0
  off : Nat := 0
  /-- Bytes completed of this descriptor, and of earlier descriptors. -/
  done : Nat := 0
  total : Nat := 0
  /-- Token of its park. -/
  parked : Option Nat := none
  /-- Bytes of a remote step, and whether poison came with them. -/
  buffer : List Byte := []
  bufPoison : List Nat := []
  /-- A forced end at the next step boundary: its status (R169). -/
  cancel : Option Nat := none
deriving DecidableEq, Repr

/-- Movers and background work. -/
structure Movers where
  /-- Chains by channel: cluster × 4 + channel for cluster movers, 512 + m for bulk movers; oldest first. -/
  chans : Tbl (List Chain) := []
  nextCid : Nat := 1
  writebacks : List Nat := []
  /-- TC0 cycles of each resource in its current 1 µs window (R156). -/
  tc0Used : Tbl Nat := []
  tc0Over : Nat := 0
  hbmTrained : Nat := 0
  hbmFailed : Nat := 0
  refresh2x : Nat := 0
  poisonLast : Nat := 0
  hbmNext : Nat := 0
  tierNext : Nat := 0
  hbmPasses : Nat := 0
  tierPasses : Nat := 0
  /-- Of the running pass of each tier: time enabled before the last start, that start, and that it is late (R172). -/
  hbmTime : Nat := 0
  hbmFrom : Nat := 0
  hbmLate : Bool := false
  tierTime : Nat := 0
  tierFrom : Nat := 0
  tierLate : Bool := false
  /-- Telemetry: samples since enabled, page generation, byte counts and error counts of the window (R174). -/
  samples : Nat := 0
  generation : Nat := 0
  hbmRd : Nat := 0
  hbmWr : Nat := 0
  tierRd : Nat := 0
  tierWr : Nat := 0
  ceWindow : Nat := 0
  ueWindow : Nat := 0
deriving DecidableEq, Repr

end Sys2Proof.Machine
end

