-- ==== Sys2Proof/Machine/Data/Pgv.lean ====
section
/-! DEFINITION. The Power Governor (R332–R351). The HOST, SITE_CAP, BOARD and other settings are in the register file. -/

namespace Sys2Proof.Machine

/-- One planned step: program, its registration, tokens and slots (R275, R344). -/
structure PlanStep where
  prog : Nat
  reg : Nat
  tokens : Nat
  slots : Nat
deriving DecidableEq, Repr

/-- A step stream as the governor follows it (R344, R347). -/
structure GovStream where
  /-- The latest plan; none before the first. -/
  plan : Option (List PlanStep) := none
  /-- d_s in whole µs. -/
  dur : Nat := 1000
  /-- The instant the running sample counts from: the last boundary, or the first fire. -/
  since : Option Nat := none
  /-- Fire of the running step. -/
  fired : Nat := 0
  /-- Another stream ran a step during the running one. -/
  sharing : Bool := false
  shared : Bool := false
  lastUj : Nat := 0
deriving DecidableEq, Repr

/-- The published forecast (R344, R345). -/
structure Forecast where
  mj : Nat := 0
  horizonUs : Nat := 0
  watts : Nat := 0
  clipped : Bool := false
  uncoeffed : Bool := false
  dts : Nat := 0
deriving DecidableEq, Repr

/-- The governor. -/
structure Pgv where
  /-- FCLK in MHz. -/
  fclkMhz : Nat := 400
  /-- VCORE last commanded and last confirmed by READ_VOUT, in mV. -/
  vcoreSet : Nat := 750
  vcoreMv : Nat := 750
  /-- HUDDLE and THERMAL sources, in W. -/
  huddle : Nat := 1500
  thermal : Nat := 1500
  /-- The site state whose cap the SITE source takes (R328). -/
  siteState : Nat := 0
  /-- A, in mW. -/
  applied : Nat := 1500000
  /-- T, in W, and its limiter, as last determined. -/
  target : Nat := 1500
  limiter : Nat := 0
  quorum : Bool := false
  leakFloor : Bool := false
  tjFloor : Bool := false
  brdThrot : Bool := false
  floorUnmet : Bool := false
  /-- Duty level: 0 full, 1 half, 2 quarter, 3 eighth (R340). -/
  duty : Nat := 0
  /-- Th in 0.1 °C, and its sensor. -/
  th : Int := 0
  sensor : Nat := 0
  /-- Swing counting (R348). -/
  swingHi : Int := 0
  swingLo : Int := 0
  rising : Bool := false
  swing : List Nat := [0, 0, 0]
  /-- P_OTHER, the last 1 ms mean and P10, in mW; VCORE current in mA. -/
  pOther : Nat := 0
  powerMw : Nat := 0
  p10 : Nat := 0
  iCore : Nat := 0
  railMa : List Nat := [0, 0, 0, 0, 0, 0, 0, 0]
  /-- µs of the running and of the last 1 ms with the duty below 1 (CLAMP_US). -/
  clampRun : Nat := 0
  clampUs : Nat := 0
  energyUj : Nat := 0
  forecast : Forecast := {}
  streams : Tbl GovStream := []
deriving DecidableEq, Repr

end Sys2Proof.Machine
end

