-- ==== Sys2Proof/Machine/Data/Power.lean ====
section
/-! DEFINITION. Rails, power sequencing, clocks, straps, resets and the thermal trip (R26–R58). -/

namespace Sys2Proof.Machine

/-- The standby rail (R36). -/
inductive Vstby where
  /-- Not applied, or below 2.90 V: all logic held in reset. -/
  | held
  /-- At or above 3.10 V for 10 ms: the island runs. -/
  | qualified
  /-- Fallen through 3.10 V, still at or above 2.90 V. -/
  | falling
deriving DecidableEq, Repr

/-- ISL_PWR_STATE.STATE. -/
inductive PwrState where
  | off | rampUp | on | quiesce | rampDown | forcedOff | lockedOut | tripped
deriving DecidableEq, Repr

/-- The code of a power state in ISL_PWR_STATE. -/
def PwrState.code : PwrState → Nat
  | .off => 0 | .rampUp => 1 | .on => 2 | .quiesce => 3
  | .rampDown => 4 | .forcedOff => 5 | .lockedOut => 6 | .tripped => 7

/-- Where power-up stands inside RAMP_UP (R39). -/
inductive RampPhase where
  | ack | rising | delay
deriving DecidableEq, Repr

/-- One main rail, as the comparators of R35 see it. -/
structure Rail where
  enabled : Bool := false
  up : Bool := false
  inWindow : Bool := false
  off : Bool := true
deriving DecidableEq, Repr

/-- ISL_RAIL_FAULT. -/
structure RailFault where
  valid : Bool := false
  kind : Nat := 0
  step : Nat := 0
  rail : Nat := 0
  cause : Nat := 0
deriving DecidableEq, Repr

/-- The stage chip initialization has reached since the last entry to ON or reset release (R517). -/
inductive InitStage where
  | idle | started | keys | trained | memory | ready | failed
deriving DecidableEq, Repr

/-- Power, clock and reset state. -/
structure Power where
  vstby : Vstby := .held
  st : PwrState := .off
  step : Nat := 0
  /-- Rail last acted on (ISL_PWR_STATE.RAIL). -/
  rail : Nat := 0
  phase : RampPhase := .ack
  /-- Regulators whose OPERATION off acknowledgement is awaited (R39). -/
  ackWait : List Nat := []
  rails : Tbl Rail := []
  fault : RailFault := {}
  /-- Requesters that have read ISL_RAIL_FAULT since VALID was set (R44). -/
  faultReadBy : List Requester := []
  /-- A power-up command held until OFF (R45). -/
  heldUp : Bool := false
  mainPwrEn : Bool := false
  tripped : Bool := false
  tripSensor : Nat := 0
  tripDts : Nat := 0
  straps : Straps := ⟨0, false, false, false⟩
  okRef100 : Bool := false
  okElk0 : Bool := false
  okElk1 : Bool := false
  okClk25 : Bool := false
  /-- DTS runs on ICLK (R49). -/
  dtsOnIclk : Bool := false
  /-- FCLK stopped by a REFCLK100 loss in ON. -/
  fclkStopped : Bool := false
  rstPin : Bool := false
  perstPin : Bool := false
  rstSoft : Bool := false
  rstMmp : Bool := false
  /-- The island runs (false while held in reset or restarting). -/
  islandUp : Bool := false
  init : InitStage := .idle
  /-- The island has gone down and has not come back (R52, R502). -/
  restarting : Bool := false
  /-- R518: an island restart met a running initialization. -/
  initInterrupted : Bool := false
  /-- AUTO_ON's one power-up of this island boot has been issued (R515). -/
  autoOnDone : Bool := false
deriving DecidableEq, Repr

end Sys2Proof.Machine
end

