-- ==== Sys2Proof/Machine/Data/Ptu.lean ====
section
/-! DEFINITION. The Phase Timebase Unit: channels, the event table, stagger and site power (R308–R331). -/

namespace Sys2Proof.Machine

/-- Tracker states (R310). -/
inductive ChState where
  | off | acquire | locked | holdover | lost
deriving DecidableEq, Repr

/-- A tracker state's code. -/
def ChState.code : ChState → Nat
  | .off => 0 | .acquire => 1 | .locked => 2 | .holdover => 3 | .lost => 4

/-- What ACQUIRE was entered from. -/
inductive AcqFrom where
  | first | holdover | lost
deriving DecidableEq, Repr

/-- One phase channel. -/
structure PhaseCh where
  st : ChState := .off
  acqFrom : AcqFrom := .first
  everLocked : Bool := false
  bad : Nat := 0
  /-- The running model: cycle number, its start in DTS, and the period in ns (R311). -/
  cycle : Nat := 0
  start : Nat := 0
  period : Nat := 0
  /-- The reported phase never lies below this one (R312). -/
  floor : Nat := 0
  /-- Last qualified cycle start seen, and the last measured period. -/
  lastEdge : Option Nat := none
  lastPeriod : Option Nat := none
  good : Nat := 0
  /-- Cycle starts seen since EN 1 (R311). -/
  starts : Nat := 0
  /-- Qualified tach edges since acquisition began (R308). -/
  edges : Nat := 0
  /-- Entry to HOLDOVER; last good period or entry to ACQUIRE. -/
  since : Nat := 0
  /-- The last 8 periods, newest first (R325). -/
  recent : List Nat := []
  /-- The latch of R18. -/
  latchDts : Nat := 0
  latchPeriod : Nat := 0
  latchCycle : Nat := 0
  /-- Soft channels (R313): the last accepted stamp's DTS and phase, and the rate as counts over ns. -/
  stamp : Option (Nat × Nat) := none
  rateNum : Nat := 0
  rateDen : Nat := 0
  badRun : Nat := 0
deriving DecidableEq, Repr

/-- One event table entry (R317). `base` is its base phase, before the stagger offset. -/
structure PhaseEvent where
  chan : Nat
  action : Nat
  repeats : Nat
  stagger : Bool
  /-- RELATIVE targets take the staggered angle within the base cycle (R330). -/
  relative : Bool
  owner : Nat
  cycle : Nat
  angle : Nat
  /-- The armed target as a phase (R317). -/
  target : Nat
  arg : Nat
  /-- An EVENT_SET with WAIT still open: its packet and RESULT1. -/
  wait : Option (Nat × Nat) := none
deriving DecidableEq, Repr

/-- An open STEP_GATE window (R322). -/
structure GateWindow where
  chan : Nat
  stream : Nat
  /-- The phase at which it closes. -/
  close : Nat
  admitted : Bool
deriving DecidableEq, Repr

/-- Frequency classes (R325). -/
inductive FreqClass where
  | normal | wander | sag
deriving DecidableEq, Repr

/-- Site states (R327). -/
inductive SiteState where
  | normal | wander | sag | bridge | restore
deriving DecidableEq, Repr

/-- A site state's code. -/
def SiteState.code : SiteState → Nat
  | .normal => 0 | .wander => 1 | .sag => 2 | .bridge => 3 | .restore => 4

/-- The unit. -/
structure Ptu where
  chans : Tbl PhaseCh := []
  events : Tbl (Option PhaseEvent) := []
  offset : Nat := 0
  assigned : Bool := false
  gates : List GateWindow := []
  /-- End of each active pulse (R319). -/
  pulses : Tbl (Option Nat) := []
  site : SiteState := .normal
  siteSince : Nat := 0
  freq : FreqClass := .normal
  /-- Consecutive cycles with d at or below NORMAL_TOL / 2. -/
  calm : Nat := 0
  /-- Qualified levels of PTU_SITE (R324), by input; none before the first. -/
  siteIn : Tbl (Option Bool) := []
  /-- ALL_MISS has held since. -/
  allMissSince : Option Nat := none
  /-- No SAG or BRIDGE cause has held since. -/
  clearSince : Option Nat := none
  restoreSince : Nat := 0
  /-- FLUSH actions for sweep channels, and over starts for the Fluid Bus Controller, that the running command
  still has to pass on. Empty between commands. -/
  flushes : List Nat := []
  overStarts : List Nat := []
deriving DecidableEq, Repr

end Sys2Proof.Machine
end

