-- ==== Sys2Proof/Machine/Data/Sqe.lean ====
section
/-! DEFINITION. The Sequence Engine: sequences, channels, classes, streams and step programs (R243–R277). -/

namespace Sys2Proof.Machine

/-- States of a live sequence (R244). -/
inductive SeqState where
  | queued | running | stalled | draining | ending
deriving DecidableEq, Repr

/-- A sequence state's code (R276). -/
def SeqState.code : SeqState → Nat
  | .queued => 1 | .running => 2 | .stalled => 3 | .draining => 4 | .ending => 5

/-- One KV page of a sequence and its PROV mark (R249, R260). -/
structure KvPage where
  page : Nat
  prov : Bool
deriving DecidableEq, Repr

/-- A journal read that is under way: first token and count. -/
structure JournalRead where
  first : Nat
  count : Nat
deriving DecidableEq, Repr

/-- One live sequence. -/
structure Seq where
  slot : Nat
  gen : Nat
  stream : Nat
  channel : Nat
  cls : Nat
  user : Nat
  st : SeqState
  /-- Arrival: DTS, then order of submission (R252). -/
  arrival : Nat
  order : Nat
  spec : Bool
  draftMax : Nat
  restore : Nat
  /-- Positions that prefill covers, and whether its last chunk samples (R267). -/
  fillTo : Nat
  sample : Bool
  journal : Nat
  journalCap : Nat
  /-- PROMPT of the journal's header. -/
  prompt : Nat
  maxNew : Nat
  swap : Nat
  swapBytes : Nat
  /-- TOKENS of the journal. -/
  tokens : Nat
  /-- K, committed positions. -/
  committed : Nat
  pendingTok : Option Nat
  /-- Tokens sampled while DRAINING, which no journal holds (R262). -/
  hidden : Nat
  drafts : List Nat
  /-- Prompt tokens read from the journal, from position K on. -/
  have_ : List Nat
  reading : Option JournalRead
  bti : Option Nat
  pages : List KvPage
  /-- Pages charged at start and not yet allocated (R263). -/
  need : Nat
  /-- A RECLAIM cancellation, and an eviction, that act at the next boundary. -/
  reclaim : Bool
  victim : Bool
  /-- A swap copy out of, or into, its pages is under way. -/
  copying : Bool
  swapIn : Bool
  /-- Steps the stream had fired when the sequence was queued (R269 AUX). -/
  queuedStep : Nat
  jgen : Nat
deriving DecidableEq, Repr

/-- One channel's policy (R251). -/
structure SeqChannel where
  stream : Option Nat := none
  enable : Bool := false
  reclaim : Bool := false
  evictable : Bool := false
  drop : Bool := false
  defClass : Nat := 0
  stops : List Nat := []
deriving DecidableEq, Repr

/-- One class of a stream (R250, R276). -/
structure SeqClass where
  enabled : Bool := true
  qmax : Nat := 1024
  res : Nat := 0
deriving DecidableEq, Repr

/-- One registered step program (R253). -/
structure StepProgram where
  owner : Nat
  packets : List (List Byte)
  eStep : Nat
  eToken : Nat
  eSlot : Nat
  /-- Number of the registration, for R345. -/
  reg : Nat
deriving DecidableEq, Repr

/-- Stream states (R245). -/
inductive StreamState where
  | unbound | paused | running | stopped | failed
deriving DecidableEq, Repr

/-- A stream state's code. -/
def StreamState.code : StreamState → Nat
  | .unbound => 0 | .paused => 1 | .running => 2 | .stopped => 3 | .failed => 4

/-- A stream descriptor (R247). -/
structure StreamDesc where
  program : Nat
  maxTokens : Nat
  c0Tokens : Nat
  maxSlots : Nat
  c0Slots : Nat
  chunk : Nat
  tpp : Nat
  maxBlocks : Nat
  seqLimit : Nat
  pace : Bool
  kv : Nat
  bt : Nat
  meta0 : Nat
  meta1 : Nat
  result0 : Nat
  result1 : Nat
  evBase : Nat
  evCons : Nat
  status : Nat
  evLog2 : Nat
  vector : Nat
deriving DecidableEq, Repr

/-- One slot of a batch (R254). -/
structure SlotPlan where
  slot : Nat
  seqId : Nat
  cls : Nat
  channel : Nat
  user : Nat
  bti : Nat
  pos : Nat
  ntok : Nat
  /-- 1 PREFILL, 2 PREFILL_LAST, 3 DECODE. -/
  kind : Nat
  spec : Bool
  draining : Bool
  ndraft : Nat
  toks : List Nat
  npages : Nat
deriving DecidableEq, Repr

/-- What a stream's walk still has to do, in order (R256, R272). -/
inductive StreamJob where
  /-- Read the result entry of a slot of the ended step. -/
  | result (slot : Nat)
  /-- Steps 3 to 8 of R256; false where no step has ended. -/
  | apply (boundary : Bool)
  /-- One write of a block table or of the batch metadata. -/
  | write (dva : Nat) (bytes : List Byte)
  /-- Step 9 of R256, and the batch is prepared. -/
  | finish (boundary : Bool)
  /-- A victim's swap image: read its pages and write them to the host. -/
  | swapOut (slot : Nat)
  /-- A swap-in's pages are written. -/
  | swapIn (slot : Nat)
deriving DecidableEq, Repr

/-- What a stopped walk waits for. -/
inductive WalkWait where
  | none | parked | remote
deriving DecidableEq, Repr

/-- A journal, event or status write that waits for step 9 of R256: host address and bytes, oldest first. -/
structure HostLine where
  addr : Nat
  bytes : List Byte
deriving DecidableEq, Repr

/-- One step stream. -/
structure Stream where
  st : StreamState := .unbound
  owner : Nat := 0
  clusters : Nat := 0
  pageFirst : Nat := 0
  pageCount : Nat := 0
  desc : Option StreamDesc := none
  classes : Tbl SeqClass := []
  /-- Last step fired. -/
  step : Nat := 0
  /-- A step runs: its batch, its packets not yet started, and whether one has failed. -/
  stepping : Bool := false
  batch : List SlotPlan := []
  left : List (List Byte) := []
  failed : Option Nat := none
  /-- Statuses of step packets that have ended and are not yet taken (R253). -/
  dones : List Nat := []
  /-- The step's last packet has completed; the boundary waits. -/
  ended : Bool := false
  /-- The prepared next batch. -/
  next : Option (List SlotPlan) := none
  /-- The prepared batch is a failed step's, fired again under its number (R253). -/
  again : Bool := false
  jobs : List StreamJob := []
  wait : WalkWait := .none
  /-- Bytes of remote reads that the running job needs, by DVA. -/
  far : List (Nat × List Byte) := []
  results : List (List Byte) := []
  /-- Event records and host writes of the running boundary, for its step 9. -/
  lines : List HostLine := []
  events : List (List Byte) := []
  stallAll : Bool := false
  gateWait : Bool := false
  /-- PAUSE and STOP packets that wait for the running step: packet and state. -/
  ctl : List (Nat × StreamState) := []
  evProd : Nat := 0
  evCons : Nat := 0
  evLost : Nat := 0
  patched : Nat := 0
  rebuilt : Nat := 0
  /-- Generations of the two metadata buffers and of the status block (R91). -/
  metaGen : Nat := 0
  statusGen : Nat := 0
deriving DecidableEq, Repr

/-- The engine. -/
structure Sqe where
  seqs : List Seq := []
  /-- Generation of each slot (R243). -/
  gens : Tbl Nat := []
  nextOrder : Nat := 0
  channels : Tbl SeqChannel := []
  programs : Tbl (Option StepProgram) := []
  nextReg : Nat := 0
  streams : Tbl Stream := []
deriving DecidableEq, Repr

end Sys2Proof.Machine
end

