-- ==== Sys2Proof/Machine/Data/Swe.lean ====
section
/-! DEFINITION. The Sweep Engine: channels, poses, revolutions and slices (R278–R307). -/

namespace Sys2Proof.Machine

/-- Channel states (R278). -/
inductive SweepState where
  | unbound | idle | running | waitPhase
deriving DecidableEq, Repr

/-- A channel state's code. -/
def SweepState.code : SweepState → Nat
  | .unbound => 0 | .idle => 1 | .running => 2 | .waitPhase => 3

/-- One beam: FP32 sine and cosine of its elevation, and its azimuth adjustment (R280). -/
structure Beam where
  sinEl : Nat
  cosEl : Nat
  adj : Nat
deriving DecidableEq, Repr

/-- A channel descriptor (R280). -/
structure SweepDesc where
  phase : Nat
  azFeed : Bool
  accum : Bool
  rimg : Bool
  vox : Bool
  tc : Nat
  slices : Nat
  beams : List Beam
  cap : Nat
  azOff : Nat
  lag : Nat
  minRange : Nat
  maxRange : Nat
  /-- In µs. -/
  poseWait : Nat
  poseGap : Nat
  voxLog2 : Nat
  voxSize : Nat
  voxCap : Nat
  cols : Nat
  doneLog2 : Nat
  vector : Nat
  extR : List Nat
  extT : List Nat
  stage : Nat
  out0 : Nat
  out1 : Nat
  rimg0 : Nat
  rimg1 : Nat
  vox0 : Nat
  vox1 : Nat
  doneBase : Nat
  doneCons : Nat
deriving DecidableEq, Repr

/-- A pose: its instant, translation and quaternion W, X, Y, Z in FP32 (R282). -/
structure Pose where
  dts : Nat
  t : List Nat
  q : List Nat
deriving DecidableEq, Repr

/-- One slice of an open revolution. -/
structure Slice where
  /-- The instant it closed, and the order of closing. -/
  closed : Option Nat := none
  forced : Bool := false
  missing : Bool := false
  stored : Nat := 0
  capDrop : Nat := 0
  late : Nat := 0
  /-- Index of its first point in the output, and its entry is written. -/
  first : Nat := 0
  written : Bool := false
deriving DecidableEq, Repr

/-- One revolution that is not done. -/
structure Rev where
  rev : Nat
  /-- Its phase cycle, as the channel counts it, and that cycle's latched start and period (R289, R299). -/
  cycle : Nat
  start : Nat
  period : Nat
  /-- The cycle's own latch has been seen. -/
  latched : Bool := false
  slices : List Slice
  forced : Bool := false
  holdover : Bool := false
  filtered : Nat := 0
  kept : Nat := 0
  poseDrop : Nat := 0
  outOfFrame : Nat := 0
  voxDrop : Nat := 0
deriving DecidableEq, Repr

/-- What a channel still has to do, in order; a park continues at the first (R305). -/
inductive SweepJob where
  /-- Read and check a SUBMIT's record. -/
  | intake (id : Nat)
  /-- Bin the record's points still to come: packet, REV, points, stored, and capped or late. -/
  | bin (id rev : Nat) (points : List Nat) (stored dropped : Nat)
  /-- Write bytes, or zeros, of an output buffer. -/
  | put (dva : Nat) (bytes : List Byte)
  | zero (dva len : Nat)
  /-- Process a slice from a point on. -/
  | slice (rev idx point : Nat)
  /-- Write a revolution's header and END, and its done record. -/
  | close (rev : Nat)
  /-- Copy the accumulating table from a byte on, or clear it, for a packet. -/
  | snapshot (id off : Nat)
  | clear (id : Nat)
deriving DecidableEq, Repr

/-- One sweep channel. -/
structure Sweep where
  st : SweepState := .unbound
  owner : Nat := 0
  desc : Option SweepDesc := none
  offset : Option Nat := none
  poses : List Pose := []
  /-- Revolutions not done, lower first. -/
  revs : List Rev := []
  /-- The highest revolution done, for R286's "a revolution already done". -/
  lastDone : Option Nat := none
  /-- Submitted packets waiting for intake, with a HOST record's bytes once read, oldest first. -/
  held : List (Nat × Option (List Byte)) := []
  jobs : List SweepJob := []
  parked : Bool := false
  remote : Bool := false
  /-- Bytes of remote reads that the running job needs, by DVA. -/
  far : List (Nat × List Byte) := []
  /-- FLUSH packets and the revolutions each waits for. -/
  flushing : List (Nat × List Nat) := []
  /-- Phase stamp of the record in intake has been given. -/
  stamped : Bool := false
  /-- Occupied entries of the two voxel tables, and REV of the last point entered. -/
  voxUsed0 : Nat := 0
  voxUsed1 : Nat := 0
  lastRev : Nat := 0
  /-- Generations of the two output areas (R91). -/
  outGen0 : Nat := 0
  outGen1 : Nat := 0
  doneProd : Nat := 0
  doneCons : Nat := 0
  lateRecords : Nat := 0
  sweeps : Nat := 0
deriving DecidableEq, Repr

/-- The engine. -/
structure Swe where
  chans : Tbl Sweep := []
deriving DecidableEq, Repr

end Sys2Proof.Machine
end

