-- ==== Sys2Proof/Machine/Data/Tfu.lean ====
section
/-! DEFINITION. The Thermal and Fluid Unit (R352–R375). Its settings are in the register file. -/

namespace Sys2Proof.Machine

/-- One fan or pump channel. -/
structure Pwm where
  /-- The duty that MODE 1 requests (R357). -/
  req : Nat := 0
  /-- Output duty; 1,024 while the pin is released (R355). -/
  out : Nat := 1024
  minApplied : Bool := false
  /-- The last edges' DTS, newest first (R358). -/
  edges : List Nat := []
  rpm : Nat := 0
  stall : Bool := false
  /-- The instant the output duty last rose above 0. -/
  driven : Nat := 0
  /-- The start of the steady time that HELD judges, and the RPM then (R359). -/
  heldSince : Nat := 0
  heldRpm : Nat := 0
  /-- TFU_AGE (R360). -/
  index : Nat := 0
  valid : Bool := false
  warn : Bool := false
  alarm : Bool := false
  skipped : Bool := false
  /-- The instant from which the next ageing check is due (R171). -/
  ageDue : Nat := 0
deriving DecidableEq, Repr

/-- One valve bridge. -/
structure Valve where
  fault : Bool := false
  /-- TFU_VLV_FLT_N is low. -/
  fltLow : Bool := false
  /-- The leak close under way: its end (R373). -/
  closing : Option Nat := none
  /-- TFU_VLV_CTRL was written during the close drive. -/
  written : Bool := false
  /-- A fault met the close drive. -/
  spoilt : Bool := false
  closed : Bool := false
  /-- The mode driven, its gates' periods, and the clip flags of the period now driven (bits 0–2). -/
  mode : Nat := 0
  gates : List (Nat × Nat × Nat) := []
  live : Nat := 0
  sticky : Nat := 0
deriving DecidableEq, Repr

/-- One analog input (R367, R368). -/
structure Adc where
  code : Nat := 0
  value : Nat := 0
  opened : Bool := false
  shorted : Bool := false
  hi : Bool := false
  lo : Bool := false
  /-- Consecutive samples against the present HI and LO. -/
  nHi : Nat := 0
  nLo : Nat := 0
deriving DecidableEq, Repr

/-- One leak-sense rope (R369, R370). -/
structure Rope where
  ratio : Nat := 0
  wet : Bool := false
  opened : Bool := false
  /-- Consecutive samples against the present WET and OPEN. -/
  nWet : Nat := 0
  nOpen : Nat := 0
deriving DecidableEq, Repr

/-- One flow input (R371). -/
structure Flow where
  mlpm : Nat := 0
  low : Bool := false
  /-- Since when the flow has been on the other side of LOW. -/
  since : Option Nat := none
deriving DecidableEq, Repr

/-- The unit. -/
structure Tfu where
  latch : Bool := false
  remote : Bool := false
  writer : Nat := 0
  lastDts : Nat := 0
  pwm : Tbl Pwm := []
  valves : Tbl Valve := []
  adc : Tbl Adc := []
  ropes : Tbl Rope := []
  flows : Tbl Flow := []
deriving DecidableEq, Repr

end Sys2Proof.Machine
end

