-- ==== Sys2Proof/Machine/Data/Thr.lean ====
section
/-! DEFINITION. Launches, groups, threads and the Tensor Grids (R92–R150). -/

namespace Sys2Proof.Machine

/-- What a thread does next (TSTATE of R121, with the waits the save area does not distinguish). -/
inductive TState where
  | active | waitBar | waitCopy | waitGrid | dormant | parked | ended
  /-- A remote load or atomic result is outstanding (R93, R114). -/
  | waitRemote
  /-- UFENCE.G waits for every earlier access (R114). -/
  | waitFence
  /-- UTWAIT waits for the group's queue (R145). -/
  | waitTensor
  /-- UEND has issued and waits for earlier accesses and tensor entries (R101, R145). -/
  | ending
deriving DecidableEq, Repr

/-- The TSTATE code of the save area (R121). -/
def TState.code : TState → Nat
  | .active => 1 | .waitBar => 2 | .waitCopy => 3 | .waitGrid => 4
  | .dormant => 5 | .parked => 6 | .ended => 7
  | .waitRemote => 1 | .waitFence => 1 | .waitTensor => 1 | .ending => 1

/-- What a remote load or atomic does with its answer: destination, bytes, and how the register is filled. -/
structure LoadFin where
  rd : Nat := 0
  size : Nat := 0
  signed : Bool := false
  fp : Bool := false
  len : Nat := 4
  dva : Nat := 0
deriving DecidableEq, Repr

/-- One hardware thread. -/
structure Thread where
  /-- Chip-wide number of its group. -/
  gid : Nat
  /-- UTHREAD. -/
  index : Nat
  pc : Nat
  /-- The instruction word last fetched (R117). -/
  ir : Nat := 0
  x : Tbl Word := []
  f : Tbl Word := []
  fcsr : Nat := 0
  utc : Nat := 0
  uptmo : Nat := 0
  st : TState := .active
  waitId : Nat := 0
  waitAddr : Nat := 0
  waitVal : Nat := 0
  /-- DPA of the word a dormant thread watches. -/
  waitDpa : Nat := 0
  /-- Destination register of a waiting instruction. -/
  waitRd : Nat := 0
  /-- A remote load under way: its bytes so far and what to do with them. -/
  rbuf : List Byte := []
  fin : LoadFin := {}
  rpoison : Bool := false
  wakePending : Bool := false
  /-- A posted access that failed: address, ADDR_KIND and status of the trap to come (R112). -/
  deferred : Option (Nat × Nat × Nat) := none
  /-- The LR reservation: scratch line, DPA / 64 (R115). -/
  reserve : Option Nat := none
  /-- DTS at which an UPARK times out; 0 none (R110). -/
  timeoutAt : Nat := 0
  /-- FCLK cycles of a PAUSE or UYIELD in force (R93, R109). -/
  notReady : Nat := 0
deriving DecidableEq, Repr

/-- One barrier (R106). -/
structure Barrier where
  expected : Nat
  arrived : Nat
  phase : Nat
deriving DecidableEq, Repr

/-- One resident or saved group. -/
structure Group where
  gid : Nat
  launch : Nat
  index : Nat
  cluster : Nat
  /-- Scratch reservation: byte offset and 4 KiB pages. -/
  scrOff : Nat
  scrPg : Nat
  /-- Slot index of each thread, by thread index. -/
  slots : List Nat
  barriers : List Barrier
  copyCtr : List Nat
  /-- UCYCLE saved by suspensions, and the FCLK count (in milli-cycles) at placement (R96). -/
  cycleBase : Nat
  cycleStart : Nat
  /-- Copies submitted and not ended. -/
  copies : Nat
deriving DecidableEq, Repr

/-- A launch's state (R98–R122). -/
inductive LaunchState where
  | running | suspending | suspended | restoring
deriving DecidableEq, Repr

/-- A tensor queue entry's operation (R140). -/
inductive TOp where
  | utset | utldw | utmma | utst | utldacc | utzero | utcvt
deriving DecidableEq, Repr

/-- One tensor queue entry (R143, R149). -/
structure TEntry where
  op : TOp
  insn : Nat
  rs1 : Nat
  rs2 : Nat
  /-- Slot of the issuing thread (R145). -/
  slot : Nat
  progress : Nat := 0
  started : Bool := false
  /-- The configuration as it stood when the entry started. -/
  cfg : List Nat := []
deriving DecidableEq, Repr

/-- One weight plane (R134, R149). -/
structure Plane where
  fmt : Nat := 0
  bytes : List Byte := []
  scales : List Byte := []
  poisoned : Bool := false
deriving DecidableEq, Repr

/-- One cluster's Tensor Grid (R134). -/
structure Grid where
  /-- The group that holds the grid (R105). -/
  holder : Option Nat := none
  /-- Groups waiting, in the order of their first waiting request. -/
  waiters : List Nat := []
  cfg : List Nat := [0, 0, 0, 0, 0, 0, 0, 0]
  /-- NV, OF, UF, SN in bits 0–3 (R139). -/
  flags : Nat := 0
  queue : List TEntry := []
  plane0 : Plane := {}
  plane1 : Plane := {}
  /-- Accumulator words, keyed bank × 16,384 + row × 128 + column. -/
  banks : Tbl Nat := []
  /-- Poisoned bank rows, bank × 128 + row (R146). -/
  poisonRows : List Nat := []
  /-- TGR_ROWS. -/
  rows : Nat := 0
  /-- UGRID.REL has issued and waits for tensor work (R105). -/
  releasing : Bool := false
deriving DecidableEq, Repr

/-- A SUSPEND or CONTINUE in progress. -/
structure SuspendJob where
  id : Nat
  dva : Nat
  bytes : Nat
  force : Bool
deriving DecidableEq, Repr

/-- A thread as SUSPEND saved it. -/
structure SavedThread where
  slot : Nat
  thread : Thread
  park : Option Nat
deriving DecidableEq, Repr

/-- A group as SUSPEND saved it. -/
structure SavedGroup where
  group : Group
  threads : List SavedThread
  gridHeld : Bool
  gridWait : Bool
  /-- Scratch image and grid state that CONTINUE has read back (R122). -/
  image : List Byte := []
  grid : Option Grid := none
  placed : Bool
deriving DecidableEq, Repr

/-- One live launch. -/
structure Launch where
  /-- In-flight number of its LAUNCH packet, also its identity. -/
  id : Nat
  owner : Nat
  tag : Nat
  ring : Nat
  entry : Nat
  arg : Nat
  scrBase : Nat
  groups : Nat
  threads : Nat
  utc : Nat
  pack : Bool
  scrPg : Nat
  /-- Eligible leased clusters, rising. -/
  clusters : List Nat
  /-- Lowest group index not yet placed. -/
  next : Nat := 0
  /-- Cluster that took the previous group. -/
  last : Option Nat := none
  groupsEnded : Nat := 0
  st : LaunchState := .running
  /-- Status of the first trap, or of the release or teardown that stopped the launch. -/
  stopped : Option Nat := none
  /-- SEQ of the first trap's error entry (R102). -/
  firstTrap : Nat := 0
  job : Option SuspendJob := none
  saved : List SavedGroup := []
deriving DecidableEq, Repr

/-- An instruction cache line of one core (R117). -/
structure ICLine where
  core : Nat
  line : Nat
  bytes : List Byte
deriving DecidableEq, Repr

/-- The thread fabric. -/
structure Fabric where
  launches : List Launch := []
  groups : List Group := []
  threads : Tbl (Option Thread) := []
  grids : Tbl Grid := []
  icache : List ICLine := []
  nextGid : Nat := 1
  /-- FCLK cycles since the fabric was last reset, in thousandths. -/
  fclkMilli : Nat := 0
deriving DecidableEq, Repr

end Sys2Proof.Machine
end

