-- ==== Sys2Proof/Machine/State.lean ====
section
/-! DEFINITION. The block's whole state as plain data, the state right after reset, and the reasons a step can stop. -/

namespace Sys2Proof.Machine

/-- The state of the block. -/
structure State where
  /-- Commands waiting, first in, first out. -/
  pending : List Instr := []
  /-- What has left the block, oldest first (the model's own record). -/
  out : List Emit := []
  /-- Uses of free values so far (the model's own counter). -/
  free : Nat := 0
  /-- Device time (R15). -/
  dts : Nat := 0
  /-- Fraction of a count that PTP's trim has accumulated, in 10^-7 ns (R16). -/
  trimAcc : Int := 0
  /-- Register images, by the offset of their low word; a register without an entry holds its reset value. -/
  regs : Tbl Word := []
  err : ErrUnit := {}
  pwr : Power := {}
  boot : Boot := {}
  hif : Hif := {}
  mem : MemSys := {}
  fab : Fabric := {}
  mov : Movers := {}
  mgp : Mgp := {}
  elk : Elk := {}
  pgv : Pgv := {}
  ptu : Ptu := {}
  sqe : Sqe := {}
  swe : Swe := {}
  tfu : Tfu := {}
  fbc : Fbc := {}
  tmg : Tmg := {}
  hud : Huddle := {}
  /-- Register writes of owner 0's agents through the mirror of R59 that the running command still has to act on:
  offset, bytes, value. Empty between commands. -/
  mirror : List (Nat × Nat × Nat) := []
deriving DecidableEq, Repr

/-- The machine right after reset: nothing powered, every field at the value the manual or the log gives. -/
def State.reset : State := {}

/-- Reasons the machine stops. The manual leaves no input undefined, so no meaning raises one. -/
inductive Fault where
  /-- Raised by nobody: every input has a stated outcome (chapter 0, "Nothing is undefined"). Safe. -/
  | none
deriving DecidableEq, Repr

/-- Reasons a command has no meaning. -/
inductive Refusal where
  /-- Raised by a dispatch arm of a command not modelled yet, by its mnemonic. Safe. -/
  | notModelled (mnemonic : String)
deriving DecidableEq, Repr

/-- The outcome of a command. -/
abbrev Out := Host.Outcome State Fault Refusal

end Sys2Proof.Machine
end

