-- ==== Sys2Proof/Machine/Ops.lean ====
section
/-! DEFINITION. Operations every block shares: outputs, register images, power predicates, interrupts,
fault records, events and the error unit's logging (R74–R75, R186, R482–R496). -/

namespace Sys2Proof.Machine

/-! Outputs -/

/-- Records one output. -/
def emit (e : Emit) (s : State) : State := { s with out := s.out ++ [e] }

/-! Register images -/

/-- The stored image of the register whose low word is at `lo`. -/
def rawAt (s : State) (lo : Nat) : Nat :=
  (Tbl.get (BitVec.ofNat 64 (resetAt lo)) s.regs lo).toNat

/-- Stores a register image. -/
def setRaw (lo v : Nat) (s : State) : State :=
  { s with regs := Tbl.set (BitVec.ofNat 64 (resetAt lo)) s.regs lo (BitVec.ofNat 64 v) }

/-- Bits [hi:l] of a stored register image. -/
def regFld (s : State) (lo hi l : Nat) : Nat := fld (rawAt s lo) hi l

/-- Bit `i` of a stored register image. -/
def regBit (s : State) (lo i : Nat) : Bool := bitOf (rawAt s lo) i

/-- Replaces bits [hi:l] of a stored register image. -/
def setRegFld (lo hi l v : Nat) (s : State) : State := setRaw lo (setFld (rawAt s lo) hi l v) s

/-- Sets bits of a stored register image (the device sets W1C bits this way, R3). -/
def orReg (lo mask : Nat) (s : State) : State := setRaw lo (rawAt s lo ||| mask) s

/-- Clears bits of a stored register image. -/
def clearBits (lo mask : Nat) (s : State) : State :=
  let v := rawAt s lo
  setRaw lo (v - (v &&& mask)) s

/-- Raises a saturating counter field by `n`. -/
def bumpFldBy (lo hi l n : Nat) (s : State) : State :=
  setRegFld lo hi l (min (regFld s lo hi l + n) (2 ^ (hi + 1 - l) - 1)) s

/-- Raises a saturating counter field by 1. -/
def bumpFld (lo hi l : Nat) (s : State) : State := bumpFldBy lo hi l 1 s

/-- A predicate picks the register at `lo`. -/
def picks (p : RegDef → Nat → Bool) (lo : Nat) : Bool := (findReg lo).any (fun x => p x.1 x.2)

/-- Returns the registers a predicate picks to their reset values. -/
def resetRegs (p : RegDef → Nat → Bool) (s : State) : State :=
  { s with regs := s.regs.filter (fun e => !(picks p e.1)) }

/-! Power predicates -/

/-- A chip reset is applied (R52). -/
def inChipReset (s : State) : Bool := s.pwr.rstPin || s.pwr.perstPin || s.pwr.rstSoft || s.pwr.rstMmp

/-- The standby domain runs: VSTBY qualified and not below 2.90 V since. -/
def standby (s : State) : Bool := s.pwr.vstby != .held

/-- The island runs its ROM's recovery loop or Miothisin. -/
def romRuns (s : State) : Bool := standby s && s.pwr.islandUp

/-- The island runs Miothisin (R513, R514). -/
def islandRuns (s : State) : Bool := romRuns s && s.boot.path == 0

/-- Power state ON. -/
def isOn (s : State) : Bool := s.pwr.st == .on

/-- FCLK runs in the clusters and the hub: VCORE up, no reset, no trip, no isolation (R49, R55, R496). -/
def fclkRuns (s : State) : Bool :=
  (s.pwr.st == .on || s.pwr.st == .quiesce) && !(inChipReset s) && !s.pwr.tripped && !s.err.isolated &&
  !s.pwr.fclkStopped

/-- The chip domain serves commands: FCLK runs and initialization has readied memory (R517). -/
def chipReady (s : State) : Bool :=
  fclkRuns s && (s.pwr.init == .memory || s.pwr.init == .ready)

/-- The host port serves requests: ready, link in L0 and not isolated (R40, R496). -/
def hostUp (s : State) : Bool :=
  s.hif.up && s.pwr.init == .ready && !(inChipReset s) && !s.err.isolated &&
  (s.pwr.st == .on || s.pwr.st == .quiesce)

/-- CHIP_FAULT_N is driven low (R57). -/
def chipFaultLow (s : State) : Bool :=
  standby s && (s.pwr.tripped || s.pwr.st == .forcedOff || s.pwr.st == .lockedOut || s.err.isolated)

/-- THERMTRIP_N is driven low (R55, R56). -/
def thermtripLow (s : State) : Bool := standby s && s.pwr.tripped

/-! Owners -/

/-- Owner `o`'s context. -/
def ownerAt (s : State) (o : Nat) : Owner := Tbl.get {} s.mem.owners o

/-- Changes owner `o`'s context. -/
def updOwner (o : Nat) (f : Owner → Owner) (s : State) : State :=
  { s with mem := { s.mem with owners := Tbl.upd {} s.mem.owners o f } }

/-- Owner `o` is ACTIVE. -/
def ownerActive (s : State) (o : Nat) : Bool := (ownerAt s o).st == .active

/-! Interrupts (R186) -/

/-- The register offset of a vector's control word. -/
def vecCtrl (fn vec : Nat) : Nat :=
  if fn = 0 then 0x88000C + 16 * vec else 0x1_0000_000C + (fn - 1) * 0x400 + 16 * vec

/-- A function's state. -/
def fnAt (s : State) (n : Nat) : Fn := Tbl.get {} s.hif.fns n

/-- Changes a function's state. -/
def updFn (n : Nat) (f : Fn → Fn) (s : State) : State :=
  { s with hif := { s.hif with fns := Tbl.upd {} s.hif.fns n f } }

/-- Sets or clears a vector's pending bit. -/
def setPending (fn vec : Nat) (b : Bool) (s : State) : State :=
  { s with hif := { s.hif with pba := Tbl.set false s.hif.pba (fn * 2048 + vec) b } }

/-- A vector is masked, or its function is in D3hot (R180). -/
def vecHeld (s : State) (fn vec : Nat) : Bool := regBit s (vecCtrl fn vec) 0 || (fnAt s fn).d3hot

/-- An interrupt event: one message, or the pending bit (R180, R186). Isolation sends none (R496). -/
def sendVec (fn vec : Nat) (s : State) : State :=
  if s.err.isolated then s
  else if vecHeld s fn vec then setPending fn vec true s
  else emit (.msix fn vec) s

/-! Host writes -/

/-- A memory write to the host, unless the chip is isolated (R496). -/
def hostWrite (fn addr : Nat) (data : List Byte) (relaxed : Bool) (s : State) : State :=
  if s.err.isolated then s else emit (.hostWrite fn addr data relaxed) s

/-! Events for the rack manager (R475) -/

/-- The bytes of an event after the MMP header: DTS, EVSEQ, SEVERITY and DATA. -/
def eventBody (e : MgpEvent) : List Byte :=
  leBytes 8 e.dts ++ leBytes 4 e.seq ++ leBytes 1 e.sev ++ zeros 3 ++ slice e.data 0 16

/-- Queues an event; a full queue of 64 loses its oldest (R475). -/
def queueEvent (sev code : Nat) (data : List Byte) (s : State) : State :=
  let m := s.mgp
  let q := m.events ++ [{ seq := m.nextEv, dts := s.dts, sev, code, data := slice data 0 16, sent := false }]
  let full := decide (64 < q.length)
  { s with mgp := { m with
      events := if full then q.drop 1 else q
      nextEv := add32 m.nextEv 1
      evLost := if full then satInc 0xFFFF m.evLost else m.evLost } }

/-! Fault records (R74, R75) -/

/-- What a fault record says, beside its owner and the instant. -/
structure FaultInfo where
  addr : Nat
  addrKind : Nat := 0
  status : Nat
  agent : Nat
  access : Nat := 0
  index : Nat := 0
  level : Nat := 0xFF
  token : Nat := 0
  parked : Bool := false

/-- The 32 bytes of a fault record (R74). -/
def faultBytes (s : State) (o : Nat) (i : FaultInfo) (phase : Bool) : List Byte :=
  leBytes 8 s.dts ++ leBytes 8 i.addr ++ leBytes 2 i.status ++ leBytes 1 i.agent ++ leBytes 1 i.access ++
  leBytes 2 i.index ++ leBytes 1 i.level ++ leBytes 1 o ++ leBytes 4 i.token ++ zeros 3 ++
  leBytes 1 (b2n phase * 128 + b2n (i.addrKind == 1) * 2 + b2n i.parked)

/-- Entries of owner `o`'s fault ring. -/
def fringEntries (s : State) (o : Nat) : Nat := 2 ^ regFld s (0x210018 + o * 0x100) 19 16

/-- Owner `o`'s fault ring takes no record: disabled or full (R75). -/
def fringShut (s : State) (o : Nat) : Bool :=
  !(regBit s (0x210018 + o * 0x100) 31) ||
  decide (fringEntries s o ≤ sub32 (ownerAt s o).fringProd (rawAt s (0x210020 + o * 0x100)))

/-- Writes one fault record into owner `o`'s ring, or counts it lost (R74, R75). -/
def faultRecord (o : Nat) (i : FaultInfo) (s : State) : State :=
  if s.err.isolated then s
  else if fringShut s o then bumpFld (0x210024 + o * 0x100) 31 0 s
  else
    let n := fringEntries s o
    let prod := (ownerAt s o).fringProd
    let s1 := hostWrite o (regFld s (0x210010 + o * 0x100) 63 12 * 4096 + (prod % n) * 32)
      (faultBytes s o i (decide (prod / n % 2 = 0))) false s
    sendVec o (regFld s (0x210018 + o * 0x100) 10 0) (updOwner o (fun w => { w with fringProd := add32 prod 1 }) s1)

/-! The error unit -/

/-- A class's standing. -/
def classAt (s : State) (c : Nat) : ClassState := Tbl.get {} s.err.classes c

/-- Changes a class's standing. -/
def updClass (c : Nat) (f : ClassState → ClassState) (s : State) : State :=
  { s with err := { s.err with classes := Tbl.upd {} s.err.classes c f } }

/-- Some class holds HANDLING at FATAL. -/
def fatalHeld (s : State) : Bool := s.err.classes.any (fun p => p.2.handling && p.2.sev == sevFatal)

/-- The class the island handles: highest handled severity, then oldest primary (R492, R495). -/
def bestClass (l : Tbl ClassState) : Option Nat :=
  (l.foldl (fun (b : Option (Nat × ClassState)) p =>
    if p.2.handling && !p.2.fatalDone then
      match b with
      | none => some p
      | some q =>
        if q.2.sev < p.2.sev || (q.2.sev == p.2.sev && decide (p.2.primaryUid < q.2.primaryUid)) then some p else b
    else b) none).map (·.1)

/-- Lets the island's handler move to the class that now comes first (R492). A class it leaves reads PREEMPTED. -/
def reschedule (s : State) : State :=
  if !(islandRuns s) then s
  else
    let b := bestClass s.err.classes
    if b = s.err.running then s
    else
      let s1 := match s.err.running with
        | some o => if (classAt s o).handling && !(classAt s o).fatalDone
            then updClass o (fun c => { c with preempted := true }) s else s
        | none => s
      let s2 := match b with
        | some c => updClass c (fun x => { x with preempted := false }) s1
        | none => s1
      { s2 with err := { s2.err with running := b } }

/-- ERR_IRQ for an entry of this severity (R488). -/
def errIrq (sev : Nat) (s : State) : State :=
  if regBit s 0x100024 31 && sev != 0 && decide (regFld s 0x100024 18 16 ≤ sev) then
    sendVec 0 (regFld s 0x100024 10 0) s
  else s

/-- A closed entry reaches the parties (R488). -/
def routeEntry (e : LogEntry) (s : State) : State :=
  if e.secondary then s
  else
    let s1 := errIrq e.sev s
    let s2 := if e.sev == sevContained then
        match e.owner with
        | some o => faultRecord o { addr := e.addr, addrKind := if e.addrKind == 3 then 1 else 0, status := e.status,
                                    agent := e.agent, access := e.access, index := e.agentIndex } s1
        | none => s1
      else s1
    if sevContained ≤ e.sev then queueEvent e.sev 0x0600 (leBytes 8 e.seq ++ leBytes 1 e.cls) s2 else s2

/-- An open entry that an occurrence merges into (R486). -/
def mergesInto (now : Nat) (e : ErrEvent) (sec : Bool) (prim : Nat) (x : LogEntry) : Bool :=
  !x.closed && decide (x.sev ≤ sevCorrected) && decide (now < x.dts + 1000000) &&
  x.cls == e.cls && x.cause == e.cause && x.source == e.source && x.index == e.index &&
  x.owner == e.owner && x.status == e.status && x.secondary == sec && (!sec || x.primaryUid == prim)

/-- Keeps the newest 4,096 entries (R486). -/
def keepLog (l : List LogEntry) : List LogEntry := l.drop (l.length - 4096)

/-- The effects of isolation that the error unit takes in hardware (R496). -/
def isolate (e : LogEntry) (s : State) : State :=
  if s.err.isolated then s
  else
    let s1 := { s with err := { s.err with isolated := true, gasp := s.err.gasp ++ [⟨4, s.dts, some e⟩] } }
    orReg 0x2C00120 0x100 s1

/-- An occurrence is SECONDARY: to the entry it names, or to the class being handled at its severity or above (R490). -/
def isSecondary (e : ErrEvent) (s : State) : Bool :=
  e.secondaryTo.isSome || ((classAt s e.cls).handling && decide (e.sev ≤ (classAt s e.cls).sev))

/-- The primary of a SECONDARY occurrence: the entry it names, or its class's by `held`. -/
def primaryOf (e : ErrEvent) (s : State) (held : Nat) : Nat :=
  match e.secondaryTo with
  | some n => n
  | none => if isSecondary e s then held else 0

/-- The entry an occurrence makes (R484). -/
def logEntryOf (e : ErrEvent) (s : State) : LogEntry :=
  let c := classAt s e.cls
  let sec := isSecondary e s
  let now := s.err.restored
  { uid := s.err.nextUid, seq := if now then s.err.nextSeq else 0, dts := s.dts, addr := e.addr,
    status := e.status, sev := e.sev, cls := e.cls, cause := e.cause, owner := e.owner, secondary := sec,
    injected := e.injected, raised := c.handling && decide (c.sev < e.sev) && !sec,
    isolating := e.sev == sevFatal && fatalHeld s, merged := false, addrKind := e.addrKind, source := e.source,
    index := e.index, occurrences := 1, tag := e.tag, requester := e.requester, info := e.info,
    primary := if sec then primaryOf e s c.primary else 0, primaryUid := primaryOf e s c.primaryUid, agent := e.agent,
    agentIndex := e.agentIndex, access := e.access, closed := now && decide (sevDeferred ≤ e.sev) }

/-- The open entries an occurrence merges into (R486). -/
def mergeMatch (e : ErrEvent) (s : State) : LogEntry → Bool :=
  mergesInto s.dts e (isSecondary e s) (primaryOf e s (classAt s e.cls).primaryUid)

/-- An occurrence merges instead of making an entry (R486). -/
def merging (e : ErrEvent) (s : State) : Bool := decide (e.sev ≤ sevCorrected) && s.err.log.any (mergeMatch e s)

/-- SEQs that one reserve in flash covers (R485). -/
def seqReserve : Nat := 1048576

/-- The occurrence in the log: merged, or a new entry at its end (R485, R486). -/
def storeEntry (e : ErrEvent) (s : State) : State :=
  let now := s.err.restored
  if merging e s then
    let l := updWhere (mergeMatch e s) (fun x => { x with occurrences := x.occurrences + 1, merged := true }) s.err.log
    { s with err := { s.err with log := l } }
  else
    { s with err := { s.err with
        log := keepLog (s.err.log ++ [logEntryOf e s])
        nextUid := s.err.nextUid + 1
        nextSeq := if now then s.err.nextSeq + 1 else s.err.nextSeq
        reserve := if now && decide (s.err.reserve < s.err.nextSeq + 1) then s.err.nextSeq + seqReserve
          else s.err.reserve } }

/-- An occurrence is its class's primary from now on: DEFERRED or above, and not SECONDARY (R490). -/
def isPrimary (x : LogEntry) : Bool := !x.secondary && decide (sevDeferred ≤ x.sev)

/-- The class's standing after an occurrence: one SECONDARY more, or handling it (R490, R491). -/
def classAfter (x : LogEntry) (s : State) : State :=
  if x.secondary then updClass x.cls (fun c => { c with secondary := satInc 0xFFFF c.secondary }) s
  else if isPrimary x then
    updClass x.cls (fun c => { c with
      handling := true, sev := x.sev, primary := x.seq, primaryUid := x.uid, waitHost := false, fatalDone := false }) s
  else s

/-- A FATAL occurrence with none in force holds the chip (R495). -/
def holdFatal (x : LogEntry) (s : State) : State :=
  if x.sev == sevFatal && !s.err.fatalHold then
    { s with err := { s.err with fatalHold := true, fencePending := true, firstFatal := some x } }
  else s

/-- Logs one occurrence: SECONDARY, primary or raised, merged or new (R485–R492, R495, R496). -/
def logCore (e : ErrEvent) (s : State) : State × LogEntry :=
  let x := logEntryOf e s
  let s1 := holdFatal x (classAfter x (storeEntry e s))
  let s2 := if x.isolating then isolate x s1 else s1
  let s3 := if isPrimary x then reschedule s2 else s2
  (if x.closed && !(merging e s) then routeEntry x s3 else s3,
   if merging e s then (s.err.log.find? (mergeMatch e s)).getD x else x)

/-- The class whose SECONDARY count has just reached STORM_LIMIT raises the next severity (R494). -/
def stormCheck (cls : Nat) (before : Nat) (s : State) : State :=
  let c := classAt s cls
  let limit := regFld s (0x100104 + cls * 0x10) 23 16
  if c.handling && limit != 0 && c.secondary == limit && before != limit && decide (c.sev < sevFatal) then
    (logCore { cls, cause := 0xFE, sev := c.sev + 1, source := 1 } s).1
  else s

/-- Logs an error and gives the entry it made (the standby domain must run, R485). -/
def logErrE (e : ErrEvent) (s : State) : State × LogEntry :=
  let r := logCore e s
  (stormCheck e.cls (classAt s e.cls).secondary r.1, r.2)

/-- Logs an error, if the standby domain runs. -/
def logErr (e : ErrEvent) (s : State) : State := if standby s then (logErrE e s).1 else s

/-- The REQUESTER number of an entry (R484). -/
def Requester.code : Requester → Option Nat
  | .fn n => some n
  | .island => some 0x40
  | .mmp => some 0x41
  | .mirror => none

/-- CFG_RESERVED or CFG_LOCKED of a register write (R6, R520). -/
def logCfg (cause off : Nat) (r : Requester) (s : State) : State :=
  logErr { cls := 0, cause, sev := sevNotice, addr := off, addrKind := 4, source := off / 0x100000,
           requester := r.code } s

/-- A violation or a fault with its record in the owner's ring (R8, R74, R87). -/
def logAccess (cause : Nat) (owner : Option Nat) (src : Nat) (i : FaultInfo) (kind tag idx : Nat) (s : State) : State :=
  let s1 := logErr { cls := 1, cause, sev := sevNotice, status := i.status, addr := i.addr, addrKind := kind,
                     owner, source := src, index := idx, tag } s
  match owner with
  | some o => faultRecord o i s1
  | none => s1

end Sys2Proof.Machine
end

