-- ==== Sys2Proof/Machine/PowerOps.lean ====
section
/-! DEFINITION. Rails, the forced shutdown and the steps of the power sequences (R34–R46, R498). -/

namespace Sys2Proof.Machine

/-- One rail as the comparators see it. -/
def railAt (s : State) (i : Nat) : Rail := Tbl.get {} s.pwr.rails i

/-- Changes the power state. -/
def updPwr (f : Power → Power) (s : State) : State := { s with pwr := f s.pwr }

/-- Changes one rail. -/
def updRail (i : Nat) (f : Rail → Rail) (s : State) : State :=
  updPwr (fun p => { p with rails := Tbl.upd {} p.rails i f }) s

/-- Folds an operation of one number over a list. -/
def forEach (l : List Nat) (f : Nat → State → State) (s : State) : State := l.foldl (fun a i => f i a) s

/-- The rails of a power-up step, in the order of R39's table. -/
def upRails : Nat → List Nat
  | 1 => [6, 5] | 2 => [4] | 3 => [2] | 4 => [3] | 5 => [1] | 6 => [0] | _ => []

/-- The rails of a power-down step, in the order of R41's table. -/
def downRails : Nat → List Nat
  | 2 => [0] | 3 => [1] | 4 => [3, 2] | 5 => [4] | 6 => [5, 6] | _ => []

/-- The main rails. -/
def mainRails : List Nat := [0, 1, 2, 3, 4, 5, 6]

/-- ISL_PWR_STATE's fields. -/
def setPower (st : PwrState) (step rail : Nat) (s : State) : State :=
  updPwr (fun p => { p with st, step, rail }) s

/-- OPERATION off to one regulator. -/
def operationOff (i : Nat) (s : State) : State :=
  updRail i (fun r => { r with enabled := false, up := false, inWindow := false }) (emit (.operation i false) s)

/-- OPERATION on to one regulator; step U6 sets VCORE to 0.75 V (R39). -/
def operationOn (i : Nat) (s : State) : State :=
  let s1 := if i = 0 then emit (.vout 0 750) s else s
  updRail i (fun r => { r with enabled := true, off := false }) (emit (.operation i true) s1)

/-- A power-up step enables every listed rail at once (R39). -/
def enableStep (n : Nat) (s : State) : State :=
  let s1 := setPower .rampUp n ((upRails n).getLastD 0) s
  updPwr (fun p => { p with phase := .rising }) (forEach (upRails n) operationOn s1)

/-- Every regulator has acknowledged: MAIN_PWR_EN goes high and step U1 starts (R39). -/
def startU1 (s : State) : State := enableStep 1 (updPwr (fun p => { p with mainPwrEn := true }) s)

/-- Sets the power-up under way, before its OPERATION off is acknowledged (R39). -/
def beginPowerUp (s : State) : State :=
  let s1 := forEach mainRails operationOff s
  updPwr (fun p => { p with
    st := .rampUp, step := 1, rail := 5, phase := .ack, ackWait := mainRails, heldUp := false,
    rails := [] }) s1

/-- A rail is disabled and its output discharges (R41, R43). -/
def railDies (i : Nat) (s : State) : State :=
  updRail i (fun r => { r with enabled := false, up := false, inWindow := false, off := true }) s

/-- The rails a forced shutdown sends OPERATION off: those still enabled (R43). -/
def enabledRails (s : State) : List Nat := mainRails.filter (fun i => (railAt s i).enabled)

/-- ISL_RAIL_FAULT's image. -/
def RailFault.image (f : RailFault) : Nat :=
  b2n f.valid * 2 ^ 31 + f.kind * 2 ^ 28 + f.step * 256 + f.rail * 16 + f.cause

/-- Queues a last-gasp record (R498). -/
def queueGasp (kind : Nat) (cause : Option LogEntry) (s : State) : State :=
  { s with err := { s.err with gasp := s.err.gasp ++ [{ kind, dts := s.dts, cause }] } }

/-- A regulator with a stuck output keeps its voltage (FAULT_OFF no discharge). -/
def keepsOutput (kind cause rail i : Nat) : Bool := kind == 1 && cause == 1 && rail == i

/-- R43 forced shutdown; FAULT_RUN logs FATAL, the sequence faults CONTAINED (R483). -/
def forcedShutdown (kind cause rail step : Nat) (s : State) : State :=
  let fault : RailFault := { valid := true, kind, step, rail, cause }
  let s1 := forEach (enabledRails s) (fun i t => emit (.operation i false) t) s
  let s2 := forEach mainRails (fun i t =>
    if keepsOutput kind cause rail i then
      updRail i (fun r => { r with enabled := false, up := false, inWindow := false, off := false }) t
    else railDies i t) s1
  let s3 := updPwr (fun p => { p with
    mainPwrEn := false, st := .forcedOff, step, rail, fault, faultReadBy := [], heldUp := false, ackWait := [] }) s2
  let s4 := orReg 0x2C00120 0x80 s3
  let r := logErrE { cls := 13, cause := if kind = 3 then 1 else 2, sev := if kind = 3 then sevFatal else sevContained,
                     source := 0x2C, index := rail, info := fault.image } s4
  queueGasp 2 (some r.2) r.1

end Sys2Proof.Machine
end

