-- ==== Sys2Proof/Machine/MemOps.lean ====
section
/-! DEFINITION. The device physical map, keys and line tags, stored memory, grants, leases and the DAT walk
(R59–R82). -/

namespace Sys2Proof.Machine

/-- The ranges of R59. -/
inductive Region where
  | hbm | tier | scratch (cluster : Nat) | regs
deriving DecidableEq, Repr

/-- The range that holds a DPA (R59). -/
def regionOf (dpa : Nat) : Option Region :=
  if dpa < 0x30_0000_0000 then some .hbm
  else if 0x40_0000_0000 ≤ dpa ∧ dpa < 0x40_8000_0000 then some .tier
  else if 0x48_0000_0000 ≤ dpa ∧ dpa < 0x48_2000_0000 then some (.scratch ((dpa - 0x48_0000_0000) / 0x400000))
  else if 0x4F_0000_0000 ≤ dpa ∧ dpa < 0x4F_0400_0000 then some .regs
  else none

/-- HBM or the Tier: stored encrypted, by line (R79). -/
def lineStored (dpa : Nat) : Bool :=
  match regionOf dpa with
  | some .hbm => true
  | some .tier => true
  | _ => false

/-- The frame of an HBM or Tier DPA (R59). -/
def frameOf (dpa : Nat) : Nat :=
  if dpa < 0x40_0000_0000 then dpa / 0x200000 else 98304 + (dpa - 0x40_0000_0000) / 0x200000

/-- The first DPA of a frame (R59). -/
def frameDpa (f : Nat) : Nat :=
  if f < 98304 then f * 0x200000 else 0x40_0000_0000 + (f - 98304) * 0x200000

/-- Cluster n's scratch base (R59). -/
def scratchDpa (c : Nat) : Nat := 0x48_0000_0000 + c * 0x400000

/-- The HBM stack of a DPA (R154). -/
def stackOf (dpa : Nat) : Nat := dpa / 4096 % 8

/-- The class of memory errors at a DPA: 3 SCRATCH, 4 TIER, 5 HBM (R483). -/
def memClass (dpa : Nat) : Nat :=
  match regionOf dpa with
  | some (.scratch _) => 3
  | some .tier => 4
  | _ => 5

/-- The instance number of a memory error: cluster, quadrant or stack (R484). -/
def memIndex (dpa : Nat) : Nat :=
  match regionOf dpa with
  | some (.scratch c) => c
  | some .tier => (dpa - 0x40_0000_0000) / 0x2000_0000
  | _ => stackOf dpa

/-- A stack marked FAILED (R155). -/
def stackFailed (s : State) (dpa : Nat) : Bool :=
  regionOf dpa == some .hbm && s.mov.hbmFailed.testBit (stackOf dpa)

/-! Stored bytes -/

/-- The tag of the line that holds `dpa`. -/
def tagOf (s : State) (dpa : Nat) : Option LineTag := Tbl.get none s.mem.tags (dpa / 64)

/-- Bytes held at a run of addresses; an unlisted cell reads 0 (R79, R81). -/
def plainBytes (s : State) (a n : Nat) : List Byte := (run a n).map (Tbl.get 0 s.mem.cells)

/-- The plaintext of the line that holds `dpa`. -/
def plainLine (s : State) (dpa : Nat) : List Byte := plainBytes s (dpa / 64 * 64) 64

/-- The line tag names owner `o`'s current generation (R79). -/
def tagOwn (s : State) (o dpa : Nat) : Bool :=
  match tagOf s dpa with
  | some t => t.owner == o && t.gen == (ownerAt s o).keyGen
  | none => false

/-- One byte of HBM or the Tier as owner `o` reads it (R79): plaintext, the fill's zero, or ciphertext. -/
def lineByte (s : State) (o a : Nat) : Byte :=
  match tagOf s a with
  | none => 0
  | some t =>
    if tagOwn s o a then
      if (ownerAt s o).key == some t.key then Tbl.get 0 s.mem.cells a
      else Config.staleByte ((ownerAt s o).key.getD 0) t.key a (plainLine s a)
    else Config.cipherByte t.key a (plainLine s a)

/-- One byte of memory as owner `o` reads it. -/
def readByte (s : State) (o a : Nat) : Byte :=
  if lineStored a then lineByte s o a else Tbl.get 0 s.mem.cells a

/-- A run of bytes as owner `o` reads it. -/
def readMem (s : State) (o a n : Nat) : List Byte := (run a n).map (readByte s o)

/-- The storage unit of a DPA is poisoned (R161). -/
def poisonedAt (s : State) (dpa : Nat) : Bool :=
  if lineStored dpa then s.mem.poison.contains (dpa / 64) || stackFailed s dpa
  else s.mem.poisonScratch.contains (dpa / 16)

/-- Some unit of a run is poisoned; the first such address. -/
def poisonIn (s : State) (a n : Nat) : Option Nat := (run a n).find? (poisonedAt s)

/-- Stores bytes into the sparse cells, keeping the canonical form. -/
def putCells (a : Nat) : List Byte → List (Nat × Byte) → List (Nat × Byte)
  | [], c => c
  | b :: bs, c => putCells (a + 1) bs (Tbl.set 0 c a b)

/-- Cuts bytes at multiples of `unit`. -/
def chunks (unit : Nat) : Nat → Nat → List Byte → List (Nat × List Byte)
  | 0, _, _ => []
  | _ + 1, _, [] => []
  | fuel + 1, a, bs =>
    let n := unit - a % unit
    (a, bs.take n) :: chunks unit fuel (a + n) (bs.drop n)

/-- Writes part or all of one HBM or Tier line (R79, R161). A FAILED stack drops it (R501). -/
def writeLine (o a : Nat) (bs : List Byte) (s : State) : State :=
  if stackFailed s a then s
  else
    let base := a / 64 * 64
    let img := putBytes (readMem s o base 64) (a - base) bs
    let whole := decide (bs.length = 64)
    let w := ownerAt s o
    { s with mem := { s.mem with
        cells := putCells base img s.mem.cells
        tags := Tbl.set none s.mem.tags (a / 64) (some { owner := o, gen := w.keyGen, key := w.key.getD 0 })
        poison := if whole then s.mem.poison.filter (· != a / 64) else s.mem.poison } }

/-- Writes bytes of scratch (R152, R161): plain, clearing the marks of whole 16-byte words. -/
def writeScratch (a : Nat) (bs : List Byte) (s : State) : State :=
  { s with mem := { s.mem with
      cells := putCells a bs s.mem.cells
      poisonScratch := s.mem.poisonScratch.filter (fun u =>
        !(decide (a ≤ u * 16) && decide (u * 16 + 16 ≤ a + bs.length))) } }

/-- A write drops the write-backs of corrected reads still to be issued to its lines (R160). -/
def dropWritebacks (a n : Nat) (s : State) : State :=
  { s with mov := { s.mov with
      writebacks := s.mov.writebacks.filter (fun l => decide (l < a / 64) || decide ((a + n - 1) / 64 < l)) } }

/-- Writes a run of bytes of one region as owner `o`. -/
def storeMem (o a : Nat) (bs : List Byte) (s : State) : State :=
  dropWritebacks a bs.length
    (if lineStored a then (chunks 64 bs.length a bs).foldl (fun t c => writeLine o c.1 c.2 t) s
     else writeScratch a bs s)

/-- Adds to a list kept without repeats, rising. -/
def addUnit (u : Nat) : List Nat → List Nat
  | [] => [u]
  | x :: xs => if u < x then u :: x :: xs else if u = x then x :: xs else x :: addUnit u xs

/-- Marks the unit of `dpa` poisoned, without a log (R162: a poisoned write). -/
def markPoison (dpa : Nat) (s : State) : State :=
  if lineStored dpa then { s with mem := { s.mem with poison := addUnit (dpa / 64) s.mem.poison } }
  else { s with mem := { s.mem with poisonScratch := addUnit (dpa / 16) s.mem.poisonScratch } }

/-- The owner a readable tag names. -/
def tagOwner (s : State) (dpa : Nat) : Option Nat :=
  if lineStored dpa then (tagOf s dpa).map (·.owner) else none

/-- MEM_POISON_LAST's word: valid, the owner where a tag names one, and the unit (R161). -/
def poisonWord (o : Option Nat) (unit : Nat) : Nat :=
  2 ^ 63 + (match o with | some n => 2 ^ 62 + n * 2 ^ 48 | none => 0) + unit

/-- The first DPA of the storage unit that holds `dpa` (R161). -/
def poisonUnit (dpa : Nat) : Nat := if lineStored dpa then dpa / 64 * 64 else dpa / 16 * 16

/-- The mark and MEM_POISON_LAST of an uncorrectable error (R161). -/
def noteUe (dpa : Nat) (s : State) : State :=
  let s1 := markPoison dpa s
  { s1 with mov := { s1.mov with
      poisonLast := poisonWord (tagOwner s dpa) (poisonUnit dpa), ueWindow := s1.mov.ueWindow + 1 } }

/-- Counts an ECC finding of a class in MEM_CE_COUNT or MEM_UE_COUNT: scratch, Tier, HBM (R160, R161). -/
def countEcc (lo c : Nat) (s : State) : State :=
  if c = 3 then bumpFld lo 7 0 s else if c = 4 then bumpFld lo 19 8 s else bumpFld lo 31 20 s

/-- R161: an uncorrectable error is found: mark, DEFERRED entry, UE count and MEM_POISON_LAST. -/
def foundUe (dpa : Nat) (s : State) : State :=
  logErr { cls := memClass dpa, cause := 2, sev := sevDeferred, addr := poisonUnit dpa, addrKind := 1
           owner := tagOwner s dpa, source := 0x18, index := memIndex dpa }
    (countEcc 0x1800024 (memClass dpa) (noteUe dpa s))

/-- R160: a corrected error: log, CE count and, on a read of a line, the pending write-back. -/
def foundCe (dpa : Nat) (s : State) : State :=
  logErr { cls := memClass dpa, cause := 1, sev := sevCorrected, addr := poisonUnit dpa, addrKind := 1
           source := 0x18, index := memIndex dpa }
    (countEcc 0x1800020 (memClass dpa) { s with mov := { s.mov with
      ceWindow := s.mov.ceWindow + 1, writebacks := addUnit (dpa / 64) s.mov.writebacks } })

/-- Counts bytes moved for the telemetry window (R174). -/
def countBytes (dpa n : Nat) (write : Bool) (s : State) : State :=
  match regionOf dpa, write with
  | some .hbm, false => { s with mov := { s.mov with hbmRd := s.mov.hbmRd + n } }
  | some .hbm, true => { s with mov := { s.mov with hbmWr := s.mov.hbmWr + n } }
  | some .tier, false => { s with mov := { s.mov with tierRd := s.mov.tierRd + n } }
  | some .tier, true => { s with mov := { s.mov with tierWr := s.mov.tierWr + n } }
  | _, _ => s

/-- The TC0 resource of a DPA: a Tier bank, an HBM pseudo-channel or a scratch bank (R151–R156). -/
def resourceOf (dpa : Nat) : Nat :=
  match regionOf dpa with
  | some .hbm => 0x1_0000 + stackOf dpa * 32 + dpa / 2 ^ 15 % 32
  | some .tier => 0x2_0000 + (dpa - 0x40_0000_0000) / 0x2000_0000 * 64 + dpa / 256 % 64
  | some (.scratch c) => 0x3_0000 + c * 64 + dpa / 16 % 64
  | _ => 0

/-- The cycles of a 1 µs window: FCLK in MHz (R156). -/
def windowCycles (s : State) : Nat := s.pgv.fclkMhz

/-- R156: a TC0 request takes one cycle of its resource, or is served as TC1 and counted. -/
def chargeTc0 (dpa tc : Nat) (s : State) : State :=
  if tc != 0 then s
  else
    let r := resourceOf dpa
    let used := Tbl.get 0 s.mov.tc0Used r
    if (used + 1) * 100 ≤ regFld s 0x1800000 28 24 * windowCycles s then
      { s with mov := { s.mov with tc0Used := Tbl.set 0 s.mov.tc0Used r (used + 1) } }
    else { s with mov := { s.mov with tc0Over := (s.mov.tc0Over + 1) % 2 ^ 64 } }

/-! Grants, leases and the local checks (R60, R67, R68, R82, R87) -/

/-- A frame's grant entry. -/
def grantAt (s : State) (f : Nat) : Option Grant := Tbl.get none s.mem.grants f

/-- A cluster's lease. -/
def leaseAt (s : State) (c : Nat) : Lease := Tbl.get {} s.mem.leases c

/-- Changes a cluster's lease. -/
def updLease (c : Nat) (f : Lease → Lease) (s : State) : State :=
  { s with mem := { s.mem with leases := Tbl.upd {} s.mem.leases c f } }

/-- A cluster is leased to an owner and not clearing. -/
def leasedTo (s : State) (c o : Nat) : Bool := (leaseAt s c).owner == some o && !(leaseAt s c).clearing

/-- Why an access ends: status code, whether it is a translation fault (parks), and the logged address. -/
structure AccessErr where
  status : Nat
  parks : Bool := false
  addr : Nat
  /-- ADDR_KIND of the log entry: 1 DPA, 2 DVA, 3 global, 6 window. -/
  kind : Nat
  level : Nat := 0xFF
deriving DecidableEq, Repr

/-- The checks of a local access at its DPA (R9, R60, R68, R82). -/
def localCheck (s : State) (o dpa : Nat) (write : Bool) : Option AccessErr :=
  match regionOf dpa with
  | none => some { status := 0x0320, addr := dpa, kind := 1 }
  | some .regs =>
    if o ≠ 0 then some { status := 0x0325, addr := dpa, kind := 1 }
    else if absentStride (dpa - 0x4F_0000_0000) then some { status := 0x0320, addr := dpa, kind := 1 }
    else none
  | some (.scratch c) => if leasedTo s c o then none else some { status := 0x0324, addr := dpa, kind := 1 }
  | some _ =>
    if write then
      match grantAt s (frameOf dpa) with
      | some g => if g.owner = o ∧ g.table = false then none else some { status := 0x0326, addr := dpa, kind := 1 }
      | none => some { status := 0x0326, addr := dpa, kind := 1 }
    else none

/-! The DAT walk (R70, R71) -/

/-- One table entry read by the walker for owner `o` (R71). -/
def readEntry (s : State) (o a dva lvl : Nat) : Except AccessErr Nat :=
  if poisonedAt s a then .error { status := 0x0460, addr := dva, kind := 2, level := lvl }
  else if tagOwn s o a then .ok (getLe (readMem s o a 8) 0 8)
  else .error { status := 0x0323, addr := dva, kind := 2, level := lvl }

/-- Bytes of a leaf's page. -/
def pageSize (ps : Nat) : Nat :=
  if ps = 0 then 0x1000 else if ps = 1 then 0x10000 else if ps = 2 then 0x200000 else 0x40000000

/-- A reserved field of an entry is set (R70, R71). -/
def reservedPte (e : Nat) : Bool :=
  bitOf e 63 || fld e 55 54 != 0 || fld e 11 7 != 0 ||
  (if bitOf e 1 then fld e 53 48 != 0 || fld e 3 2 != 0 || !(lineStored (fld e 47 12 * 4096))
   else fld e 47 12 * 4096 % pageSize (fld e 3 2) != 0)

/-- The rights an access needs: read 1, write 2, fetch 4, atomic 8 (R and W). -/
def permOk (e acc : Nat) : Bool :=
  (!(bitOf acc 0) || bitOf e 4) && (!(bitOf acc 1) || bitOf e 5) && (!(bitOf acc 2) || bitOf e 6) &&
  (!(bitOf acc 3) || (bitOf e 4 && bitOf e 5))

/-- The leaf's own part of the walk (R71). -/
def walkLeaf (s : State) (o dva acc lvl tbl i e : Nat) : Except AccessErr Nat :=
  let ps := fld e 3 2
  let bad : AccessErr := { status := 0x0322, addr := dva, kind := 2, level := lvl }
  if lvl = 0 ∨ (lvl < 3 ∧ ps ≠ 4 - lvl) ∨ (lvl = 3 ∧ 1 < ps) then .error bad
  else
    let e' : Except AccessErr Nat :=
      if ps = 1 then
        match readEntry s o (tbl + i / 16 * 16 * 8) dva lvl with
        | .ok b => if b % 16 = 5 then .ok b else .error bad
        | .error x => .error x
      else .ok e
    match e' with
    | .error x => .error x
    | .ok b =>
      if permOk b acc then .ok (fld b 53 48 * 2 ^ 48 + (fld b 47 12 * 4096 + dva % pageSize ps))
      else .error { status := 0x0402, parks := true, addr := dva, kind := 2, level := lvl }

/-- The levels of the walk still to go (R71). -/
def walkFrom (s : State) (o dva acc tbl : Nat) : List Nat → Except AccessErr Nat
  | [] => .error { status := 0x0322, addr := dva, kind := 2, level := 3 }
  | lvl :: rest =>
    let i := dva / 2 ^ (39 - 9 * lvl) % 512
    match readEntry s o (tbl + i * 8) dva lvl with
    | .error x => .error x
    | .ok e =>
      if !(bitOf e 0) then .error { status := 0x0401, parks := true, addr := dva, kind := 2, level := lvl }
      else if reservedPte e then .error { status := 0x0322, addr := dva, kind := 2, level := lvl }
      else if bitOf e 1 then
        if lvl = 3 then .error { status := 0x0322, addr := dva, kind := 2, level := lvl }
        else walkFrom s o dva acc (fld e 47 12 * 4096) rest
      else walkLeaf s o dva acc lvl tbl i e

/-- The walk of R71: the global address of owner `o`'s DVA, or why there is none. -/
def walk (s : State) (o dva acc : Nat) : Except AccessErr Nat :=
  if 2 ^ 48 ≤ dva then .error { status := 0x0321, addr := dva, kind := 2 }
  else if (ownerAt s o).root = 0 then .error { status := 0x0401, parks := true, addr := dva, kind := 2, level := 0 }
  else walkFrom s o dva acc (ownerAt s o).root [0, 1, 2, 3]

/-- Where an access goes (R61). -/
inductive Target where
  | here (dpa : Nat)
  | away (chip dpa : Nat)
deriving DecidableEq, Repr

/-- The route entry of a logical chip ID. -/
def routeAt (s : State) (id : Nat) : Route := Tbl.get {} s.elk.routes id

/-- Translates a DVA and applies R61's and the local checks; the register space is reached at its DPA. -/
def resolve (s : State) (o dva acc : Nat) : Except AccessErr Target :=
  match walk s o dva acc with
  | .error e => .error e
  | .ok g =>
    let chip := g / 2 ^ 48
    let dpa := g % 2 ^ 48
    if chip = s.elk.selfId then
      match localCheck s o dpa (bitOf acc 1 || bitOf acc 3) with
      | some e => .error e
      | none => .ok (.here dpa)
    else if (routeAt s chip).fenced then .error { status := 0x0780, addr := g, kind := 3 }
    else if !(routeAt s chip).valid || !s.elk.hasId then .error { status := 0x0327, addr := g, kind := 3 }
    else .ok (.away chip dpa)

/-- The thread in a slot of a cluster, keyed cluster × 96 + slot. -/
def threadAt (s : State) (k : Nat) : Option Thread := Tbl.get none s.fab.threads k

/-- Changes one thread. -/
def updThread (k : Nat) (f : Thread → Thread) (s : State) : State :=
  { s with fab := { s.fab with threads := Tbl.upd none s.fab.threads k (Option.map f) } }

/-- Loses every reservation of another agent on the lines of a scratch write (R115). -/
def dropReserve (who a n : Nat) (s : State) : State :=
  { s with fab := { s.fab with threads := s.fab.threads.map (fun p =>
      match p.2 with
      | some t =>
        match t.reserve with
        | some l => if p.1 != who && decide (a / 64 ≤ l) && decide (l ≤ (a + n - 1) / 64)
            then (p.1, some { t with reserve := none }) else p
        | none => p
      | none => p) } }

/-- The number of an agent that is no thread, for `dropReserve`. -/
abbrev notThread : Nat := 2 ^ 32

/-- A write performed at a DPA of this chip as owner `o`; the register space takes it through the mirror of R59
when the command ends. -/
def deviceWrite (who o a : Nat) (bs : List Byte) (s : State) : State :=
  if regionOf a = some .regs then
    { s with mirror := s.mirror ++ [(a - 0x4F_0000_0000, bs.length, ofLe bs)] }
  else dropReserve who a bs.length (countBytes a bs.length true (storeMem o a bs s))

end Sys2Proof.Machine
end

