-- ==== Sys2Proof/Machine/LinkBase.lean ====
section
/-! DEFINITION. Eriati Link: routes, messages and the issue of remote requests (R61, R221–R223, R232–R234). -/

namespace Sys2Proof.Machine

/-- One port. -/
def portAt (s : State) (p : Nat) : Port := Tbl.get {} s.elk.ports p

/-- Changes the link unit. -/
def updElk (f : Elk → Elk) (s : State) : State := { s with elk := f s.elk }

/-- Changes one port. -/
def updPort (p : Nat) (f : Port → Port) (s : State) : State :=
  updElk (fun e => { e with ports := Tbl.upd {} e.ports p f }) s

/-- Changes one route entry. -/
def updRoute (id : Nat) (f : Route → Route) (s : State) : State :=
  updElk (fun e => { e with routes := Tbl.upd {} e.routes id f }) s

/-- The ports of the E128. -/
def elkPorts : List Nat := [0, 1, 2, 3]

/-- A port in UP. -/
def portUp (s : State) (p : Nat) : Bool := (portAt s p).st == .up

/-- A request to an ID is outstanding on a port (R233). -/
def busyOn (s : State) (id p : Nat) : Bool := s.elk.outstanding.any (fun o => o.chip == id && o.port == p)

/-- The port that carries an ID's traffic, and whether it is the alternate (R232, R233). -/
def choosePort (s : State) (id : Nat) : Option (Nat × Bool) :=
  let r := routeAt s id
  let alt := r.altEn && portUp s r.alt
  if r.usingAlt && alt && busyOn s id r.alt then some (r.alt, true)
  else if portUp s r.primary then some (r.primary, false)
  else if alt then some (r.alt, true)
  else none

/-- A message header (R223). -/
def msgHead (mtype dst tc src hops owner tag size mod addr : Nat) : List Byte :=
  leBytes 1 mtype ++ leBytes 1 (dst % 64 + tc % 4 * 64) ++ leBytes 1 (src % 64 + hops % 4 * 64) ++
  leBytes 1 (owner % 64) ++ leBytes 2 tag ++ leBytes 1 size ++ leBytes 1 mod ++ leBytes 8 addr

/-- Data units: bytes filled to whole units of 16. -/
def units16 (bs : List Byte) : List Byte := bs ++ zeros (ceilDiv bs.length 16 * 16 - bs.length)

/-- A message enters a channel half of a port: channel × 2 + 1 for responses; MGMT is channel 4 (R221, R222). -/
def enqueue (p half : Nat) (msg : List Byte) (s : State) : State :=
  updPort p (fun x => { x with queues := Tbl.upd [] x.queues half (· ++ [msg]) }) s

/-- Sends a message toward an ID; none where no port is available. -/
def sendTo (id half : Nat) (msg : List Byte) (s : State) : Option (Nat × State) :=
  match choosePort s id with
  | none => none
  | some (p, alt) => some (p, enqueue p half msg (updRoute id (fun r => { r with usingAlt := alt }) s))

/-- The first free 16-bit tag but 0 (R236: none of a request outstanding or resting). -/
def freeTag (s : State) : Nat → Nat → Nat
  | 0, t => t % 65536
  | fuel + 1, t =>
    let t := if t % 65536 = 0 then 1 else t % 65536
    if s.elk.outstanding.any (·.tag == t) || s.elk.retired.any (fun r => r.1 == t && decide (s.dts < r.2)) then
      freeTag s fuel (t + 1)
    else t

/-- What issuing a remote request gives. -/
inductive Issued where
  | sent (s : State)
  | failed (status : Nat)
  | full

/-- A request's operation: READ, WRITE with its data, or ATOMIC with its modifier and operand unit. -/
inductive ReqOp where
  | read (n : Nat)
  | write (bs : List Byte) (poison : Bool)
  | atomic (mod : Nat) (unit : List Byte)

/-- The message of a remote request (R223). -/
def reqMsg (s : State) (id owner tc tag dpa : Nat) : ReqOp → List Byte
  | .read n => msgHead 0x01 id tc s.elk.selfId 0 owner tag (n - 1) 0 dpa
  | .write bs poison =>
    msgHead 0x02 id tc s.elk.selfId 0 owner tag (bs.length - 1) (if poison then 64 else 0) dpa ++ units16 bs
  | .atomic mod unit => msgHead 0x03 id tc s.elk.selfId 0 owner tag 0 mod dpa ++ units16 unit

/-- Issues one remote request within a 64-byte line (R234). -/
def remoteIssue (agent : RemoteAgent) (id dpa owner tc : Nat) (op : ReqOp) (s : State) : Issued :=
  if 8192 ≤ s.elk.outstanding.length then .full
  else
    let tag := freeTag s 65536 s.elk.nextTag
    match sendTo id (tc * 2) (reqMsg s id owner tc tag dpa op) s with
    | none => .failed 0x0781
    | some (p, s1) => .sent (updElk (fun e => { e with
        nextTag := (tag + 1) % 65536
        outstanding := e.outstanding ++ [{ tag, chip := id, dpa, owner, tc, port := p, agent }] }) s1)

/-- Issues a run of WRITEs, one per line (R223). -/
def remoteWrites (agent : RemoteAgent) (id owner tc : Nat) (poison : Bool) :
    List (Nat × List Byte) → State → Issued
  | [], s => .sent s
  | (a, bs) :: rest, s =>
    match remoteIssue agent id a owner tc (.write bs poison) s with
    | .sent s1 => remoteWrites agent id owner tc poison rest s1
    | r => r

/-- Some outstanding request answers to this agent. -/
def awaits (s : State) (p : RemoteAgent → Bool) : Bool := s.elk.outstanding.any (fun o => p o.agent)

end Sys2Proof.Machine
end

