-- ==== Sys2Proof/Machine/AccessOps.lean ====
section
/-! DEFINITION. What an agent's failed access does: logs, fault records, parks (R8, R73–R77, R84, R87, R162). -/

namespace Sys2Proof.Machine

/-- Who made an access, for its log entry and fault record. -/
structure Who where
  owner : Nat
  /-- AGENT and AGENT_INDEX of R74. -/
  agent : Nat
  index : Nat
  /-- Reporting block and instance (R484 SOURCE, SOURCE_INDEX). -/
  source : Nat
  sourceIndex : Nat := 0
  tc : Nat := 0
  tag : Nat := 0
  requester : Option Nat := none
deriving DecidableEq, Repr

/-- The next token of an owner, skipping live ones (R76). -/
def nextToken (w : Owner) : Nat → Nat → Nat
  | 0, t => t
  | fuel + 1, t =>
    let t := if t = 0xFFFFFFFF then 1 else t
    if w.parks.any (·.token == t) then nextToken w fuel (t + 1) else t

/-- Adds a park and gives its token (R76). -/
def addPark (o : Nat) (agent : ParkAgent) (status acc dva : Nat) (s : State) : State × Nat :=
  let w := ownerAt s o
  let t := nextToken w (w.parks.length + 1) w.nextToken
  (updOwner o (fun w => { w with
    parks := w.parks ++ [{ token := t, agent, status, acc, dva }], nextToken := if t = 0xFFFFFFFE then 1 else t + 1 }) s, t)

/-- Logs a fault, violation or consumed poison, with its fault record (R8, R74, R87, R162). `dva` is the pointer used,
where the access had one; `token` is not 0 when the agent parked. -/
def reportAccess (w : Who) (acc : Nat) (dva : Option Nat) (e : AccessErr) (token : Nat) (s : State) : State :=
  let rec_ : FaultInfo :=
    { addr := dva.getD (if e.kind = 1 then s.elk.selfId * 2 ^ 48 + e.addr else e.addr)
      addrKind := if dva.isSome then 0 else 1
      status := e.status, agent := w.agent, access := acc + w.tc * 16, index := w.index, level := e.level
      token, parked := token != 0 }
  let cause := if e.status / 256 = 4 then 2 else 1
  let s1 := logErr { cls := 1, cause, sev := sevNotice, status := e.status, addr := e.addr, addrKind := e.kind,
                     owner := some w.owner, source := w.source, index := w.sourceIndex, tag := w.tag,
                     requester := w.requester } s
  faultRecord w.owner rec_ s1

/-- R162: poisoned data consumed: CONTAINED to the owner, whose record R488 writes. -/
def reportPoison (w : Who) (acc dva dpa : Nat) (s : State) : State :=
  logErr { cls := memClass dpa, cause := 3, sev := sevContained, status := 0x0460, addr := dva, addrKind := 2,
           owner := some w.owner, source := 0x18, index := memIndex dpa, tag := w.tag, requester := w.requester,
           agent := w.agent, agentIndex := w.index, access := acc + w.tc * 16 } s

/-- The status an access error ends its operation with: a draining owner's fault is TEARDOWN (R84). -/
def endStatus (s : State) (o : Nat) (e : AccessErr) : Nat :=
  if e.parks && (ownerAt s o).st != .active then 0x0801 else e.status

/-- The error parks its agent: a fault of an ACTIVE owner (R73, R84). -/
def doesPark (s : State) (o : Nat) (e : AccessErr) : Bool := e.parks && (ownerAt s o).st == .active

/-- Reports an access error that does not park. A poisoned table line reports as consumption (R162). -/
def reportErr (w : Who) (acc dva : Nat) (e : AccessErr) (s : State) : State :=
  if e.status = 0x0460 then reportPoison w acc dva e.addr s else reportAccess w acc (some dva) e 0 s

/-- R73: the agent parks: a token, the fault record and the log entry. -/
def parkOn (w : Who) (agent : ParkAgent) (acc dva : Nat) (e : AccessErr) (s : State) : State × Nat :=
  let r := addPark w.owner agent e.status acc dva s
  (reportAccess w acc (some dva) e r.2 r.1, r.2)

end Sys2Proof.Machine
end

