-- ==== Sys2Proof/Machine/RingOps.lean ====
section
/-! DEFINITION. Command rings: starting, checking and completing packets (R7, R8, R188–R211). -/

namespace Sys2Proof.Machine

/-- Ring `r`. -/
def ringAt (s : State) (r : Nat) : Ring := Tbl.get {} s.hif.rings r

/-- Changes the host port. -/
def updHif (f : Hif → Hif) (s : State) : State := { s with hif := f s.hif }

/-- Changes ring `r`. -/
def updRing (r : Nat) (f : Ring → Ring) (s : State) : State :=
  updHif (fun h => { h with rings := Tbl.upd {} h.rings r f }) s

/-- The offset of a ring register. -/
def ringReg (r off : Nat) : Nat := 0x400000 + r * 0x40 + off

/-- CMD_RING_BIND_r. -/
def bindReg (r : Nat) : Nat := 0x410000 + 4 * r

/-- The owner a ring is bound to (R189). -/
def ringOwner (s : State) (r : Nat) : Option Nat :=
  if regBit s (bindReg r) 31 then some (regFld s (bindReg r) 13 8) else none

/-- The ring number that records and logs carry: global for owner 0, else local (R209). -/
def ringNumber (s : State) (r : Nat) : Nat :=
  if regFld s (bindReg r) 13 8 = 0 then r else regFld s (bindReg r) 7 0

/-- Units of a ring. -/
def ringUnits (s : State) (r : Nat) : Nat := 2 ^ regFld s (ringReg r 8) 23 20

/-- Records of a ring's completion ring. -/
def cqSize (s : State) (r : Nat) : Nat := 2 ^ regFld s (ringReg r 8) 19 16

/-- The completion ring has a free record (R210). -/
def cqFree (s : State) (r : Nat) : Bool :=
  decide (sub32 (ringAt s r).cqTail (rawAt s (ringReg r 0x20)) < cqSize s r)

/-- A ring's packets in flight. -/
def inflightOf (s : State) (r : Nat) : List Inflight := s.hif.started.filter (·.ring == r)

/-- One packet in flight. -/
def findPkt (s : State) (id : Nat) : Option Inflight := s.hif.started.find? (·.id == id)

/-- Changes one packet in flight. -/
def updPkt (id : Nat) (f : Inflight → Inflight) (s : State) : State :=
  updHif (fun h => { h with started := updWhere (·.id == id) f h.started }) s

/-- FENCE and WAIT block (R192). -/
def blocking (op : Nat) : Bool := op == 1 || op == 3

/-- The front packet of a ring may start (R192, R210). -/
def canStart (s : State) (r : Nat) (p : Packet) : Bool :=
  let g := ringAt s r
  let nb := getLe p.bytes 8 8
  fclkRuns s && g.st != .disabled && !g.closing && g.held.isEmpty && cqFree s r &&
  (decide (nb ≤ s.dts) || decide (p.fetched + 2 ^ 36 < nb)) &&
  !((inflightOf s r).any (fun q => blocking q.opcode)) && decide ((inflightOf s r).length < 64)

/-! Completion (R209–R211) -/

/-- The 32 bytes of a completion record (R209). -/
def recordBytes (c : Record) (phase : Bool) : List Byte :=
  leBytes 8 c.dts ++ leBytes 4 c.tag ++ leBytes 2 c.status ++ leBytes 2 c.local_ ++ leBytes 8 c.r0 ++
  leBytes 4 c.r1 ++ leBytes 1 c.opcode ++ zeros 2 ++ leBytes 1 (b2n phase * 128 + b2n c.logged)

/-- Writes one record and sends the vector where it is due (R209). -/
def writeRecord (r o : Nat) (c : Record) (s : State) : State :=
  let n := cqSize s r
  let t := (ringAt s r).cqTail
  let s1 := hostWrite o (regFld s (ringReg r 0x18) 63 12 * 4096 + t % n * 32)
    (recordBytes c (decide (t / n % 2 = 0))) false s
  let s2 := updRing r (fun g => { g with cqTail := add32 t 1 }) s1
  if bitOf c.flags 0 || regBit s (ringReg r 8) 15 || (c.status / 256 != 0 && c.status / 256 != 1) then
    sendVec o (regFld s (ringReg r 8) 10 0) s2
  else s2

/-- Writes held records while slots are free (R210). -/
def drainCq (r : Nat) : Nat → State → State
  | 0, s => s
  | fuel + 1, s =>
    match (ringAt s r).held with
    | [] => s
    | c :: rest =>
      if cqFree s r then
        drainCq r fuel (writeRecord r ((ringOwner s r).getD 0) c (updRing r (fun g => { g with held := rest }) s))
      else s

/-- A closing ring whose last record is written becomes DISABLED (R194). -/
def maybeDisabled (r : Nat) (s : State) : State :=
  let g := ringAt s r
  if g.closing && (inflightOf s r).isEmpty && g.held.isEmpty then
    updRing r (fun g => { g with st := .disabled, cause := 0, closing := false, fetched := [], fetching := 0 }) s
  else s

/-- A step program's packet has ended: its stream takes the status (R253). Stream n's packets run on ring 1,024 + n. -/
def stepEnded (n status : Nat) (s : State) : State :=
  let f (x : Stream) : Stream := { x with dones := x.dones ++ [status] }
  { s with sqe := { s.sqe with streams := Tbl.upd {} s.sqe.streams n f } }

/-- Queues a completion record on its ring. -/
def pushRecord (r : Nat) (c : Record) (s : State) : State :=
  if 1024 ≤ r then stepEnded (r - 1024) c.status s
  else if s.err.isolated then s
  else
    let s1 := updRing r (fun g => { g with held := g.held ++ [c] }) s
    maybeDisabled r (drainCq r (s1.hif.rings.length + (ringAt s1 r).held.length) s1)

/-- The log entry and fault record of a packet that ends in a violation (R8, R87). -/
def logPacket (ring local_ o tag tc status : Nat) (s : State) : State :=
  let a := local_ + tag * 2 ^ 32
  logAccess 1 (some o) 0x04 { addr := a, status, agent := 7, access := tc * 16 } 7 tag ring s

/-- Takes a packet out of flight and writes its record (R209); one that an FLR muted writes none (R179). -/
def finishPkt (id status r0 r1 : Nat) (s : State) : State :=
  match findPkt s id with
  | none => s
  | some p =>
    let s1 := updHif (fun h => { h with started := h.started.filter (·.id != id) }) s
    if p.muted then s1
    else
      let logs := status / 256 == 3 && !p.logged
      let s2 := if logs then logPacket p.ring p.local_ p.owner p.tag (p.flags / 2 % 4) status s1 else s1
      pushRecord p.ring { dts := s.dts, tag := p.tag, status, local_ := p.local_, r0 := r0 % 2 ^ 64, r1 := r1 % 2 ^ 32,
                          opcode := p.opcode, flags := p.flags, logged := p.logged || logs } s2

/-- Records of fetched packets that never start (R194, R83, R41). -/
def cancelFetched (r status : Nat) (s : State) : State :=
  let ps := (ringAt s r).fetched
  let s1 := updRing r (fun g => { g with fetched := [] }) s
  ps.foldl (fun t p =>
    pushRecord r { dts := t.dts, tag := getLe p.bytes 4 4, status, local_ := ringNumber t r, r0 := 0, r1 := 0,
                   opcode := getLe p.bytes 0 1, flags := getLe p.bytes 1 1, logged := false } t) s1

/-! Host errors and flush reads (R187, R188) -/

/-- A host-side failure: HIF_HOST_ERR_LAST, the log entry, and the owner's fault record. -/
def hostError (cause fn addr agent tag : Nat) (s : State) : State :=
  let s1 := updHif (fun h => { h with errValid := true, errFn := fn, errAddr := addr }) s
  let s2 := logErr { cls := 2, cause, sev := sevNotice, status := 0x0461, addr, addrKind := 5, owner := some fn,
                     source := 0x08, tag, requester := some fn } s1
  faultRecord fn { addr, status := 0x0461, agent } s2

/-- The packet's writes are done: complete, after the flush read where it wrote to the host (R188). -/
def endPkt (id status r0 r1 : Nat) (s : State) : State :=
  match findPkt s id with
  | none => s
  | some p =>
    match p.lastHost with
    | some a =>
      if p.muted then finishPkt id status r0 r1 s
      else updPkt id (fun q => { q with wait := .flush status r0 r1, pendD := false, pendH := false })
        (emit (.hostRead p.owner a 0) s)
    | none => finishPkt id status r0 r1 s

/-! Starting a packet -/

/-- Bytes 16–63 outside the named fields are 0 (R197). -/
def bodyClear (bs : List Byte) (fields : List (Nat × Nat)) : Bool :=
  (run 16 48).all (fun i =>
    fields.any (fun f => decide (f.1 ≤ i) && decide (i < f.1 + f.2)) || getLe bs i 1 == 0)

/-- Opcodes that only owner 0 sends (R65, R276, R306, R350). -/
def owner0Only (op : Nat) : Bool := decide (0x60 ≤ op) || op == 0x33 || op == 0x40 || op == 0x58 || op == 0x59

/-- The header checks of R197 and R65, in the order SIZE, FLAGS and RCS, NOT_BEFORE, owner, body. -/
def headerError (p : Inflight) (fetched size : Nat) (fields : List (Nat × Nat)) : Option Nat :=
  let b := p.bytes
  if getLe b 2 1 ≠ size then some 0x0304
  else if p.flags / 8 ≠ 0 ∨ (if p.signal then getLe b 3 1 / 2 ≠ 0 else getLe b 3 1 ≠ 0) then some 0x0302
  else if fetched + 2 ^ 36 < getLe b 8 8 then some 0x0305
  else if owner0Only p.opcode && p.owner != 0 then some 0x0328
  else if !(bodyClear b fields) then some 0x0303
  else none

/-- The in-flight form of a fetched packet (R192, R196). -/
def inflightOfPacket (s : State) (r : Nat) (p : Packet) : Inflight :=
  { id := s.hif.nextId, ring := r, owner := (ringOwner s r).getD 0, local_ := ringNumber s r,
    opcode := getLe p.bytes 0 1, tag := getLe p.bytes 4 4, flags := getLe p.bytes 1 1,
    signal := regBit s (ringReg r 8) 29, logged := false, started := s.dts, bytes := p.bytes, muted := false,
    pendD := false, pendH := false, wait := .engine, lastHost := none, lastWord := 0 }

/-- The front packet of ring `r` starts when its opcode is one of the row's and R192 lets it (R192, R193); its
owner's state and header are judged, and `body` does the rest. -/
def runPacket (r : Nat) (sel : List Byte → Bool) (size : List Byte → Nat) (fields : List (Nat × Nat))
    (body : Inflight → State → State) (s : State) : State :=
  match (ringAt s r).fetched with
  | [] => s
  | p :: rest =>
    if sel p.bytes && canStart s r p then
      let q := inflightOfPacket s r p
      let s1 := updRing r (fun g => { g with fetched := rest }) s
      let s2 := updHif (fun h => { h with started := h.started ++ [q], nextId := h.nextId + 1 }) s1
      if (ownerAt s q.owner).st != .active then finishPkt q.id 0x0801 0 0 s2
      else
        match headerError q p.fetched (size p.bytes) fields with
        | some st => finishPkt q.id st 0 0 s2
        | none => body q s2
    else s

/-- A row's packets: those of one opcode. -/
def opIs (n : Nat) (bs : List Byte) : Bool := getLe bs 0 1 == n

/-- One unit. -/
def oneUnit (_ : List Byte) : Nat := 1

/-- A packet's traffic class (R196). -/
def Inflight.tc (p : Inflight) : Nat := p.flags / 2 % 4

/-- A packet as the author of an access. -/
def Inflight.who (p : Inflight) : Who :=
  { owner := p.owner, agent := 7, index := 0, source := 0x04, sourceIndex := p.ring, tc := p.tc, tag := p.tag,
    requester := some p.owner }

/-- A packet's field. -/
def Inflight.fld (p : Inflight) (off n : Nat) : Nat := getLe p.bytes off n

/-- An earlier packet of the ring has a write of this direction still to perform (R207). -/
def earlierPending (s : State) (p : Inflight) (host : Bool) : Bool :=
  s.hif.started.any (fun q => q.ring == p.ring && decide (q.id < p.id) && (if host then q.pendH else q.pendD))

/-- An earlier packet of the ring is incomplete (R199 FENCE). -/
def earlierOpen (s : State) (p : Inflight) : Bool :=
  s.hif.started.any (fun q => q.ring == p.ring && decide (q.id < p.id))

/-- Marks a packet as having an error unit entry (R209 LOGGED). -/
def markLogged (id : Nat) (s : State) : State := updPkt id (fun q => { q with logged := true }) s

/-- Performs a host write of a packet, unless an FLR muted it. -/
def pktHostWrite (p : Inflight) (addr : Nat) (bs : List Byte) (flag : Bool) (s : State) : State :=
  if p.muted then s
  else
    let relaxed := !flag && (fnAt s p.owner).ero && regBit s 0x800004 0
    updPkt p.id (fun q => { q with lastHost := some addr, pendH := false }) (hostWrite p.owner addr bs relaxed s)

/-- How a device-side access of a front-end packet went. -/
inductive FrontAcc where
  | done (s : State)
  | ended (status : Nat) (s : State)
  | waiting (s : State)

/-- One aligned device write of a packet, within a line: performed here, sent to another chip, parked or failed
(R68, R73, R84, R234). -/
def frontWrite (p : Inflight) (dva : Nat) (bs : List Byte) (done : Nat) (s : State) : FrontAcc :=
  match resolve s p.owner dva 2 with
  | .ok (.here dpa) => .done (deviceWrite notThread p.owner dpa bs (chargeTc0 dpa p.tc s))
  | .ok (.away chip dpa) =>
    match remoteIssue (.packet p.id) chip dpa p.owner p.tc (.write bs false) s with
    | .sent s1 => .waiting (updPkt p.id (fun q => { q with wait := .remote }) s1)
    | .failed st => .ended st (markLogged p.id (reportErr p.who 2 dva { status := st, addr := chip * 2 ^ 48 + dpa, kind := 3 } s))
    | .full => .ended 0x0781 s
  | .error e =>
    if doesPark s p.owner e then
      .waiting (markLogged p.id (updPkt p.id (fun q => { q with wait := .parked done })
        (parkOn p.who (.frontEnd p.id) 2 dva e s).1))
    else .ended (endStatus s p.owner e) (markLogged p.id (reportErr p.who 2 dva e s))

end Sys2Proof.Machine
end

