-- ==== Sys2Proof/Machine/PgvOps.lean ====
section
/-! DEFINITION. The Power Governor: cap sources, the applied cap, clamp, DVFS and forecast (R332–R350). -/

namespace Sys2Proof.Machine

/-- Changes the governor. -/
def updPgv (f : Pgv → Pgv) (s : State) : State := { s with pgv := f s.pgv }

/-! Cap sources (R332) -/

/-- HOST. -/
def srcHost (s : State) : Nat := regFld s 0x2700010 10 0

/-- The SITE cap of a site state (PGV_SITE_CAP0–2): NORMAL, WANDER, SAG, BRIDGE, RESTORE. -/
def siteCapOf (s : State) (st : Nat) : Nat :=
  if st = 0 then regFld s 0x2700020 10 0
  else if st = 1 then regFld s 0x2700020 26 16
  else if st = 2 then regFld s 0x2700024 10 0
  else if st = 3 then regFld s 0x2700024 26 16
  else regFld s 0x2700028 10 0

/-- SITE: limited by UNCOORD without quorum (R332, R335). -/
def srcSite (s : State) : Nat :=
  let v := siteCapOf s s.pgv.siteState
  if s.pgv.quorum then v else min v (regFld s 0x2700028 26 16)

/-- BOARD. -/
def srcBoard (s : State) : Nat :=
  let v := regFld s 0x2700030 10 0
  if s.pgv.brdThrot then min v (regFld s 0x2700030 26 16) else v

/-- The target cap (R333). -/
def targetCap (s : State) : Nat :=
  min (srcHost s) (min s.pgv.huddle (min (srcSite s) (min s.pgv.thermal (srcBoard s))))

/-- The limiter, in the tie order THERMAL, BOARD, SITE, HUDDLE, HOST (R333). -/
def limiterOf (s : State) : Nat :=
  let t := targetCap s
  if s.pgv.thermal = t then 3 else if srcBoard s = t then 4 else if srcSite s = t then 2
  else if s.pgv.huddle = t then 1 else 0

/-- A source changed: T is determined anew, and A falls at once (R333). -/
def retarget (s : State) : State :=
  let t := targetCap s
  updPgv (fun g => { g with target := t, limiter := limiterOf s, applied := min g.applied (t * 1000) }) s

/-- RAMPING (R333). -/
def ramping (s : State) : Bool := decide (s.pgv.applied < s.pgv.target * 1000)

/-- Writes the HOST source. -/
def setHostCap (w : Nat) (s : State) : State := retarget (setRegFld 0x2700010 10 0 w s)

/-- Writes the HUDDLE source. -/
def setHuddleCap (w : Nat) (s : State) : State := retarget (updPgv (fun g => { g with huddle := w }) s)

/-- The SITE source takes a site state's cap (R328). -/
def setSiteState (st : Nat) (s : State) : State := retarget (updPgv (fun g => { g with siteState := st }) s)

/-- A cap value no path may write outside (R332). -/
def capLegal (w : Nat) : Bool := decide (250 ≤ w) && decide (w ≤ 1500)

/-- CAP_RAMP_TICK: A rises by RAMP watts per ms in steps of 10 µs (R333). -/
def rampTick (s : State) : State :=
  if ramping s then
    updPgv (fun g => { g with applied := min (g.target * 1000) (g.applied + regFld s 0x2700038 15 0 * 10) }) s
  else s

/-- BRD_THROT_N has held a level for 1 µs (R334). -/
def brdThrot (low : Bool) (s : State) : State := retarget (updPgv (fun g => { g with brdThrot := low }) s)

/-- A leak sets or ends LEAK_FLOOR (R338). -/
def setLeakFloor (b : Bool) (s : State) : State :=
  retarget (updPgv (fun g => { g with leakFloor := b, thermal := if b then 250 else g.thermal }) s)

/-! The thermal source (R337, R348) -/

/-- The hottest reading and the first sensor that gives it. -/
def hottest : List Int → Nat → Int × Nat
  | [], i => (-32768, i)
  | [x], i => (x, i)
  | x :: rest, i =>
    let r := hottest rest (i + 1)
    if r.1 ≤ x then (x, i) else r

/-- One step of swing counting (R348). -/
def swingStep (g : Pgv) : Pgv :=
  let hi := max g.swingHi g.th
  let lo := min g.swingLo g.th
  if g.rising && decide (g.th ≤ hi - 50) then
    let amp := (hi - lo) / 10
    let bump (i : Nat) : List Nat := g.swing.mapIdx (fun j v => if j = i then satInc 0xFFFFFFFF v else v)
    let sw := if 40 ≤ amp then bump 2 else if 20 ≤ amp then bump 1 else if 10 ≤ amp then bump 0 else g.swing
    { g with swingHi := hi, swingLo := g.th, rising := false, swing := sw }
  else if !g.rising && decide (lo + 50 ≤ g.th) then { g with swingHi := g.th, swingLo := lo, rising := true }
  else { g with swingHi := hi, swingLo := lo }

/-- THERMAL goes to 250 W at 105 °C, and TJ_FLOOR is logged as it sets (R337, R483). -/
def tjFloorAt (s : State) : State :=
  let s1 := if s.pgv.tjFloor then s
    else logErr { cls := 15, cause := 2, sev := sevNotice, source := 0x27, info := s.pgv.sensor } s
  retarget (updPgv (fun g => { g with thermal := 250, tjFloor := true }) s1)

/-- TJ_SAMPLE: the sensors' readings in 0.1 °C (R337, R348). -/
def tjSample (readings : List Int) (s : State) : State :=
  if readings.isEmpty then s
  else
    let h := hottest readings 0
    let s1 := updPgv (fun g => swingStep { g with th := h.1, sensor := h.2 }) s
    if 1050 ≤ h.1 then tjFloorAt s1 else s1

/-- THERMAL_UPDATE: the 1 ms loop of R337. -/
def thermalUpdate (s : State) : State :=
  let g := s.pgv
  let tgt : Int := regFld s 0x2700034 23 16
  let step : Int := regFld s 0x2700034 15 8
  let hyst : Int := regFld s 0x2700034 3 0
  if 1050 ≤ g.th then tjFloorAt s
  else if g.leakFloor then retarget (updPgv (fun g => { g with thermal := 250, tjFloor := false }) s)
  else if g.tjFloor && decide ((tgt - hyst) * 10 ≤ g.th) then s
  else
    let th : Int :=
      if tgt * 10 < g.th then
        let curOver := (g.th - tgt * 10 + 9) / 10
        max 250 ((min (g.thermal : Int) ((g.powerMw / 1000 : Nat) : Int)) - step * curOver)
      else if g.th < (tgt - hyst) * 10 then min 1500 ((g.thermal : Int) + step)
      else g.thermal
    retarget (updPgv (fun g => { g with tjFloor := false, thermal := th.toNat }) s)

/-! Enforcement (R339–R343) -/

/-- VCORE current in mA from VCORE_IMON in µV. -/
def coreCurrent (s : State) (imon : Nat) : Nat := imon * regFld s 0x270003C 15 0 / 1000

/-- I_CLAMP in mA (R339). -/
def clampThreshold (s : State) : Nat :=
  if s.pgv.vcoreMv = 0 then 0
  else min 1700000
    ((s.pgv.applied - s.pgv.pOther) * 1000 * (100 + regFld s 0x270003C 31 24) / (s.pgv.vcoreMv * 100))

/-- DUTY_CLAMP_DOWN: I_CORE above I_CLAMP (R340). -/
def dutyDown (imon : Nat) (s : State) : State :=
  let i := coreCurrent s imon
  let s1 := updPgv (fun g => { g with iCore := i }) s
  if clampThreshold s < i then updPgv (fun g => { g with duty := min 3 (g.duty + 1) }) s1 else s1

/-- DUTY_CLAMP_UP: I_CORE below 90 % of I_CLAMP (R340). -/
def dutyUp (imon : Nat) (s : State) : State :=
  let i := coreCurrent s imon
  let s1 := updPgv (fun g => { g with iCore := i }) s
  if i * 10 < clampThreshold s * 9 then updPgv (fun g => { g with duty := g.duty - 1 }) s1 else s1

/-- RAIL_POWER_SAMPLE: the 1 ms measurement of every rail, in mV and mA by rail index (R339, R349). -/
def railSample (mv ma : List Nat) (s : State) : State :=
  let p (i : Nat) : Nat := mv.getD i 0 * ma.getD i 0 / 1000
  let other := (run 1 7).foldl (fun n i => n + p i) 0
  let total := p 0 + other
  updPgv (fun g => { g with
    pOther := other, powerMw := total, railMa := (List.range 8).map (fun i => ma.getD i 0)
    energyUj := (g.energyUj + total) % 2 ^ 64, clampUs := min 1000 g.clampRun, clampRun := 0 }) s

/-- A frequency's VCORE point within 0.60–0.85 V (R341). -/
def vfMv (mhz : Nat) : Nat := max 600 (min 850 (Config.vfPoint mhz))

/-- Commands VCORE where it is not already so set (R341). -/
def setVcore (mv : Nat) (s : State) : State :=
  if s.pgv.vcoreSet = mv then s else emit (.vout 0 mv) (updPgv (fun g => { g with vcoreSet := mv }) s)

/-- FCLK's minimum in MHz (CAP_FCLK). -/
abbrev fclkMin : Nat := 400

/-- FCLK's maximum in MHz (CAP_FCLK). -/
abbrev fclkMax : Nat := 1800

/-- FLOOR_UNMET: no lower setting is left (R343). -/
def floorUnmet (s : State) : Bool :=
  decide (s.pgv.applied < s.pgv.p10) && s.pgv.fclkMhz == fclkMin && s.pgv.duty == 3

/-- DVFS_TICK: the 10 µs loop, from the mean IMON in µV and READ_VOUT in mV (R339, R341, R343). -/
def dvfsTick (imon vout : Nat) (s : State) : State :=
  let i := coreCurrent s imon
  let p10 := vout * i / 1000 + s.pgv.pOther
  let s1 := updPgv (fun g => { g with
    iCore := i, vcoreMv := vout, p10, clampRun := if g.duty = 0 then g.clampRun else g.clampRun + 10 }) s
  let un := floorUnmet s1
  let s2 := if un && !s.pgv.floorUnmet then
      logErr { cls := 15, cause := 3, sev := sevCorrected, source := 0x27, info := p10 } s1 else s1
  let s3 := updPgv (fun g => { g with floorUnmet := un }) s2
  let g := s3.pgv
  if !(fclkRuns s3) then s3
  else if g.applied < p10 then
    let f := max fclkMin (g.fclkMhz - 100)
    setVcore (vfMv f) (updPgv (fun g => { g with fclkMhz := f }) s3)
  else if p10 * 100 < g.applied * 97 && g.duty == 0 && decide (g.fclkMhz + 25 ≤ fclkMax) then
    let f := g.fclkMhz + 25
    if vfMv f ≤ vout then updPgv (fun g => { g with fclkMhz := f }) s3 else setVcore (vfMv f) s3
  else s3

/-- FCLK restarts at its minimum: entry to ON, or a chip reset that ends in ON (R341, R351). -/
def fclkRestart (s : State) : State := updPgv (fun g => { g with fclkMhz := fclkMin }) s

/-! The forecast (R344, R345, R347) -/

/-- A stream as the governor follows it. -/
def govStream (s : State) (i : Nat) : GovStream := Tbl.get {} s.pgv.streams i

/-- Changes one. -/
def updGov (i : Nat) (f : GovStream → GovStream) (s : State) : State :=
  updPgv (fun g => { g with streams := Tbl.upd {} g.streams i f }) s

/-- One planned step's energy in nJ, and whether it lacks coefficients (R344, R345). -/
def stepEnergy (s : State) (p : PlanStep) : Nat × Bool :=
  match Tbl.get none s.sqe.programs p.prog with
  | none => (0, true)
  | some g =>
    if g.reg ≠ p.reg ∨ (g.eStep = 0 ∧ g.eToken = 0 ∧ g.eSlot = 0) then (0, true)
    else (1000 * g.eStep + g.eToken * p.tokens + g.eSlot * p.slots, false)

/-- One RUNNING stream's part of the forecast: nJ, mW, horizon in µs and UNCOEFFED. -/
def streamForecast (s : State) (i : Nat) : Option (Nat × Nat × Nat × Bool) :=
  let g := govStream s i
  if (Tbl.get {} s.sqe.streams i).st != .running then none
  else
    match g.plan with
    | none => none
    | some ps =>
      let es := ps.map (stepEnergy s)
      let e := es.foldl (fun n x => n + x.1) 0
      some (e, e / (16 * g.dur), 16 * g.dur, es.any (·.2))

/-- FORECAST_UPDATE (R344, R345). -/
def forecast (s : State) : State :=
  let fs := (List.range 8).filterMap (streamForecast s)
  let idle := regFld s 0x2700040 10 0
  let h := fs.foldl (fun n x => max n x.2.2.1) 0
  let pw := idle + fs.foldl (fun n x => n + x.2.1) 0 / 1000
  let mj := fs.foldl (fun n x => n + x.1) 0 / 1000000 + idle * h / 1000
  updPgv (fun g => { g with forecast :=
    { mj, horizonUs := h, watts := min pw g.target, clipped := decide (g.target < pw)
      uncoeffed := fs.any (fun x => x.2.2.2), dts := s.dts } }) s

/-- A step fires: streams whose steps overlap share (R347). -/
def govFire (i : Nat) (others : List Nat) (s : State) : State :=
  let s1 := updGov i (fun g => { g with fired := s.dts, sharing := !others.isEmpty, since := some (g.since.getD s.dts) }) s
  others.foldl (fun t j => updGov j (fun g => { g with sharing := true }) t) s1

/-- A step ends, with the package energy in µJ since its fire (R344, R347). -/
def govBoundary (i uj : Nat) (s : State) : State :=
  let idle := regFld s 0x2700040 10 0
  updGov i (fun g =>
    let sample := (s.dts - g.since.getD s.dts) / 1000
    { g with dur := (7 * g.dur + sample) / 8, since := some s.dts, shared := g.sharing, sharing := false
             lastUj := min 0x7FFFFFFF (uj - idle * ((s.dts - g.fired) / 1000)) }) s

/-! Packets (R350) -/

/-- CAP_SET. -/
def doCapSet (p : Inflight) (s : State) : State :=
  let w := p.fld 16 2
  if capLegal w then finishPkt p.id 0 (srcHost s) 0 (setHostCap w s) else finishPkt p.id 0x0303 0 0 s

/-- POWER_QUERY. -/
def doPowerQuery (p : Inflight) (s : State) : State :=
  let g := s.pgv
  finishPkt p.id 0
    (g.applied / 1000 + g.target * 2 ^ 16 + g.limiter * 2 ^ 27 + g.powerMw % 2 ^ 32 * 2 ^ 32) g.forecast.watts s

end Sys2Proof.Machine
end

