-- ==== Sys2Proof/Machine/PtuOps.lean ====
section
/-! DEFINITION. Phase channels, the event table, step gates and the site state machine (R308–R330). -/

namespace Sys2Proof.Machine

/-- Changes the unit. -/
def updPtu (f : Ptu → Ptu) (s : State) : State := { s with ptu := f s.ptu }

/-- One channel. -/
def phaseCh (s : State) (c : Nat) : PhaseCh := Tbl.get {} s.ptu.chans c

/-- Changes one channel. -/
def updCh (c : Nat) (f : PhaseCh → PhaseCh) (s : State) : State :=
  updPtu (fun u => { u with chans := Tbl.upd {} u.chans c f }) s

/-- The offset of a channel register. -/
def chReg (c off : Nat) : Nat := 0x2601000 + c * 0x40 + off

/-- A channel of stamps (R308). -/
def isSoft (c : Nat) : Bool := decide (6 ≤ c)

/-- MISS_ANGLE. -/
def missAngle (s : State) (c : Nat) : Nat := regFld s (chReg c 8) 15 0

/-- HOLD_MS in ns. -/
def holdNs (s : State) (c : Nat) : Nat := regFld s (chReg c 8) 31 16 * 1000000

/-- Device time moves on to an instant a command names. -/
def advanceTo (t : Nat) (s : State) : State := { s with dts := max s.dts t }

/-! Phase time (R311–R313) -/

/-- The running model of a cycle and a period: the phase at a DTS. -/
def modelPhase (ch : PhaseCh) (d : Nat) : Nat :=
  if ch.period = 0 then ch.cycle * 65536
  else (ch.cycle + (d - ch.start) / ch.period) * 65536 + (d - ch.start) % ch.period * 65536 / ch.period

/-- A soft channel's prediction (R313). -/
def softPhase (ch : PhaseCh) (d : Nat) : Nat :=
  match ch.stamp with
  | none => ch.cycle * 65536
  | some (t, p) => if ch.rateDen = 0 then p else p + (d - t) * ch.rateNum / ch.rateDen

/-- A channel has phase time (R311). -/
def hasPhase (ch : PhaseCh) : Bool := ch.everLocked && ch.st != .off

/-- The phase at a DTS, before R312's hold. -/
def rawPhase (c : Nat) (ch : PhaseCh) (d : Nat) : Nat :=
  if !(hasPhase ch) then 0
  else if isSoft c then softPhase ch d
  else if ch.st == .locked then
    ch.cycle * 65536 + (if ch.period = 0 then 0 else min 65535 ((d - ch.start) * 65536 / ch.period))
  else modelPhase ch d

/-- The reported phase, which never decreases (R312). -/
def phaseAt (s : State) (c : Nat) : Nat :=
  let ch := phaseCh s c
  if hasPhase ch then max ch.floor (rawPhase c ch s.dts) else 0

/-- A channel is LOCKED or in HOLDOVER. -/
def phaseKnown (s : State) (c : Nat) : Bool := (phaseCh s c).st == .locked || (phaseCh s c).st == .holdover

/-- The signed distance from phase `n` to phase `t` (R315's phase_dist), in counts. -/
def phaseDist (t n : Nat) : Int := toInt 48 ((t % 2 ^ 48 + 2 ^ 48 - n % 2 ^ 48) % 2 ^ 48)

/-- The DTS at which a channel reaches a phase, where its present course takes it there. -/
def reachAt (s : State) (c target : Nat) : Option Nat :=
  let ch := phaseCh s c
  if !(hasPhase ch) then none
  else if target ≤ phaseAt s c then some s.dts
  else if isSoft c then
    match ch.stamp with
    | none => none
    | some (t, p) => if ch.rateNum = 0 then none else some (t + ceilDiv ((target - p) * ch.rateDen) ch.rateNum)
  else if ch.st == .locked && decide ((ch.cycle + 1) * 65536 ≤ target) then none
  else some (ch.start + ceilDiv ((target - ch.cycle * 65536) * ch.period) 65536)

/-! Step gates and pulses (R319, R322) -/

/-- A step gate window of a stream is open and has admitted no step (R322). -/
def gateReady (s : State) (stream : Nat) : Bool :=
  s.ptu.gates.any (fun w => w.stream == stream && !w.admitted && decide (phaseAt s w.chan < w.close))

/-- The window that admits a step closes to further ones. -/
def admitFirst (s : State) (stream : Nat) : List GateWindow → List GateWindow
  | [] => []
  | w :: ws =>
    if w.stream = stream ∧ w.admitted = false ∧ phaseAt s w.chan < w.close then { w with admitted := true } :: ws
    else w :: admitFirst s stream ws

/-- A paced step goes through its gate. -/
def passGate (stream : Nat) (s : State) : State := updPtu (fun u => { u with gates := admitFirst s stream u.gates }) s

/-- STEP_GATE_CLOSE: the stream's windows whose LEN counts have passed close (R322). -/
def closeGate (stream : Nat) (s : State) : State :=
  match s.ptu.gates.find? (·.stream == stream) with
  | none => s
  | some w =>
    match reachAt s w.chan w.close with
    | none => s
    | some t =>
      let s1 := advanceTo t s
      updPtu (fun u => { u with gates := u.gates.filter (fun x =>
        !(x.stream == stream && decide (x.close ≤ phaseAt s1 x.chan))) }) s1

/-- A pulse output is enabled. -/
def pulseEn (s : State) (o : Nat) : Bool := regBit s 0x260003C o

/-- PULSE: active for the width, or to the later end (R319). -/
def firePulse (arg : Nat) (s : State) : State :=
  let o := fld arg 24 24
  if !(pulseEn s o) then s
  else
    let e := s.dts + fld arg 23 0
    match Tbl.get none s.ptu.pulses o with
    | none => emit (.pulse o true) (updPtu (fun u => { u with pulses := Tbl.set none u.pulses o (some e) }) s)
    | some x => updPtu (fun u => { u with pulses := Tbl.set none u.pulses o (some (max x e)) }) s

/-- An output goes inactive. -/
def pulseOff (o : Nat) (s : State) : State :=
  match Tbl.get none s.ptu.pulses o with
  | none => s
  | some _ => emit (.pulse o false) (updPtu (fun u => { u with pulses := Tbl.set none u.pulses o none }) s)

/-- PULSE_END: the width of the output's pulse has passed. -/
def endPulse (o : Nat) (s : State) : State :=
  match Tbl.get none s.ptu.pulses o with
  | none => s
  | some e => pulseOff o (advanceTo e s)

/-- A write to PTU_PULSE_CFG: a disabled output drives low. -/
def pulseCfgWritten (s : State) : State := forOuts (fun o t => if pulseEn t o then t else pulseOff o t) s
where
  /-- Both outputs. -/
  forOuts (f : Nat → State → State) (s : State) : State := f 1 (f 0 s)

/-! The event table (R316–R320) -/

/-- One entry. -/
def eventAt (s : State) (i : Nat) : Option PhaseEvent := Tbl.get none s.ptu.events i

/-- Puts or empties one entry. -/
def setEvent (i : Nat) (e : Option PhaseEvent) (s : State) : State :=
  updPtu (fun u => { u with events := Tbl.set none u.events i e }) s

/-- The target of an entry armed under the present offset (R317). -/
def armedTarget (s : State) (e : PhaseEvent) : Nat :=
  let o := if e.stagger then s.ptu.offset else 0
  if e.relative then e.cycle * 65536 + (e.angle + o) % 65536 else e.cycle * 65536 + e.angle + o

/-- An entry is discarded; an open WAIT packet completes 0x05C0 (R318). -/
def discardEvent (i : Nat) (s : State) : State :=
  match eventAt s i with
  | none => s
  | some e =>
    let s1 := setEvent i none s
    match e.wait with
    | some (id, r1) => finishPkt id 0x05C0 0 r1 s1
    | none => s1

/-- The order of actions that fire together: CAP, OVER_START, SWEEP_FLUSH, PULSE, STEP_GATE (R320). -/
def actionRank (a : Nat) : Nat :=
  if a = 1 then 0 else if a = 4 then 1 else if a = 3 then 2 else if a = 5 then 3 else 4

/-- A stream is bound. -/
def streamBound (s : State) (i : Nat) : Bool := (Tbl.get {} s.sqe.streams i).st != .unbound

/-- An action's effect (R319). -/
def fireAction (i : Nat) (e : PhaseEvent) (s : State) : State :=
  if e.action = 1 then
    if i = 252 then setSiteState e.arg s
    else if i = 253 then setHuddleCap e.arg s
    else setHostCap (fld e.arg 10 0) s
  else if e.action = 2 then
    let close := phaseAt s e.chan + fld e.arg 31 16
    let named := (List.range 8).filter (fun k => bitOf e.arg k && streamBound s k)
    updPtu (fun u => { u with gates := u.gates ++ named.map (fun k =>
      { chan := e.chan, stream := k, close, admitted := false }) }) s
  else if e.action = 3 then updPtu (fun u => { u with flushes := u.flushes ++ [fld e.arg 2 0] }) s
  else if e.action = 4 then updPtu (fun u => { u with overStarts := u.overStarts ++ [e.chan] }) s
  else firePulse e.arg s

/-- An entry does not fire on a lost channel (R318). -/
def mutedOn (ch : PhaseCh) (a : Nat) : Bool :=
  (a == 3 || a == 4) && (ch.st == .lost || (ch.st == .acquire && ch.acqFrom != .first))

/-- An entry whose target is reached fires, or is passed over (R317–R319). -/
def reachEvent (i : Nat) (s : State) : State :=
  match eventAt s i with
  | none => s
  | some e =>
    let muted := mutedOn (phaseCh s e.chan) e.action
    if muted && e.repeats == 0 then discardEvent i s
    else
      let s1 := if muted then s else fireAction i e s
      let s2 := match e.wait with
        | some (id, r1) => if muted then s1 else finishPkt id 0 s.dts r1 s1
        | none => s1
      if e.repeats = 0 then setEvent i none s2
      else
        let e1 := { e with cycle := e.cycle + e.repeats, wait := if muted then e.wait else none }
        setEvent i (some { e1 with target := armedTarget s2 e1 }) s2

/-- Entries whose targets are reached, in firing order. -/
def dueEvents (s : State) : List Nat :=
  let due := s.ptu.events.filter (fun p => match p.2 with
    | some e => hasPhase (phaseCh s e.chan) && decide (e.target ≤ phaseAt s e.chan)
    | none => false)
  let rank (p : Nat × Option PhaseEvent) : Nat := (p.2.map (fun e => actionRank e.action)).getD 9
  (due.mergeSort (fun a b => decide (rank a < rank b) || (rank a == rank b && decide (a.1 ≤ b.1)))).map (·.1)

/-- Fires what is due, and again what re-arms as due (R312, R317, R320). -/
def fireDue : Nat → State → State
  | 0, s => s
  | fuel + 1, s =>
    match dueEvents s with
    | [] => s
    | l => fireDue fuel (l.foldl (fun t i => reachEvent i t) s)

/-- The most rounds that re-arming can take: cycles by which any due target lies behind, and two. -/
def dueRounds (s : State) : Nat :=
  s.ptu.events.foldl (fun n p => match p.2 with
    | some e => max n ((phaseAt s e.chan - e.target) / 65536 + 2)
    | none => n) 2

/-- Fires every entry that is due now. -/
def fireEvents (s : State) : State := fireDue (dueRounds s) s

/-- EVENT_FIRE: the entry's target is reached (R319). -/
def eventFire (i : Nat) (s : State) : State :=
  match eventAt s i with
  | none => s
  | some e =>
    match reachAt s e.chan e.target with
    | none => s
    | some t => fireEvents (advanceTo t s)

/-- The cycle of the next occurrence of an angle (R330). -/
def nextOcc (s : State) (c angle : Nat) : Nat :=
  let p := phaseAt s c
  p / 65536 + (if p % 65536 < angle then 0 else 1)

/-- Arms a system entry at the next occurrence of an angle (R321, R328, R336). -/
def armSystem (i chan action angle arg : Nat) (stagger : Bool) (repeats : Nat) (s : State) : State :=
  let o := if stagger then s.ptu.offset else 0
  let e : PhaseEvent :=
    { chan, action, repeats, stagger, relative := true, owner := 0
      cycle := nextOcc s chan ((angle + o) % 65536), angle, target := 0, arg }
  setEvent i (some { e with target := armedTarget s e }) s

/-- PTU_BUSLOCK in force: entries 248–251 (R321). -/
def armBuslock (s : State) : State :=
  let s1 := (run 248 4).foldl (fun t i => setEvent i none t) s
  let c := regFld s 0x2600038 25 24
  let n := 2 ^ regFld s 0x2600038 17 16
  if regBit s 0x2600038 31 && hasPhase (phaseCh s c) then
    (List.range n).foldl (fun t k =>
      armSystem (248 + k) c 4 ((regFld s 0x2600038 15 0 + k * 65536 / n) % 65536) 0 false 1 t) s1
  else s1

/-- A cap of the huddle's: entry 253, or at once (R336). -/
def armHuddle (watts angle : Nat) (s : State) : State :=
  let r := regFld s 0x2600010 25 24
  match eventAt s 253 with
  | some e => setEvent 253 (some { e with arg := watts }) s
  | none => if phaseKnown s r then armSystem 253 r 1 angle watts true 0 s else setHuddleCap watts s

/-- QUORUM_WRITE (R335). -/
def writeQuorum (b : Bool) (s : State) : State :=
  if b then retarget (updPgv (fun g => { g with quorum := true }) s)
  else retarget (updPgv (fun g => { g with quorum := false, huddle := 1500 }) (discardEvent 253 s))

/-- A stagger offset the huddle lead assigns (R323). -/
def assignStagger (o : Nat) (s : State) : State := updPtu (fun u => { u with offset := o % 65536, assigned := true }) s

/-! Site power (R324–R328) -/

/-- Monitored channels. -/
def monitored (s : State) : List Nat := (List.range 3).filter (fun c => regBit s 0x2600010 (26 + c))

/-- A channel counts as missing for ALL_MISS (R326). -/
def missingCh (ch : PhaseCh) : Bool :=
  ch.st == .holdover || ch.st == .lost || (ch.st == .acquire && ch.acqFrom != .first)

/-- Some PTU_SITE input of a function is active (R324). -/
def siteActive (s : State) (fn : Nat) : Bool :=
  (List.range 3).any (fun i =>
    regFld s 0x2600014 (8 * i + 1) (8 * i) == fn &&
    Tbl.get none s.ptu.siteIn i == some (regBit s 0x2600014 (8 * i + 2)))

/-- ALL_MISS. -/
def allMiss (s : State) : Bool := !(monitored s).isEmpty && (monitored s).all (fun c => missingCh (phaseCh s c))

/-- The causes that hold, as CAUSE's bits (R326). -/
def siteCauses (s : State) : Nat :=
  b2n ((monitored s).any (fun c => (phaseCh s c).everLocked && (phaseCh s c).st != .locked)) +
  b2n (allMiss s) * 2 + b2n (s.ptu.freq == .sag) * 4 + b2n (s.ptu.freq == .wander) * 8 +
  b2n (siteActive s 1) * 16 + b2n (siteActive s 2) * 32 + b2n (siteActive s 3) * 64

/-- The REF channel. -/
def refCh (s : State) : Nat := regFld s 0x2600010 25 24

/-- The nominal period in ns (R325). -/
def nominalNs (s : State) : Nat := if regBit s 0x2600010 30 then 16667000 else 20000000

/-- The REF channel's period, or the nominal one before any. -/
def refPeriod (s : State) : Nat :=
  let p := (phaseCh s (refCh s)).period
  if p = 0 then nominalNs s else p

/-- A BRIDGE cause holds (R326). -/
def bridgeCause (s : State) : Bool :=
  siteActive s 1 || (match s.ptu.allMissSince with
    | some t => decide (t + 2 * refPeriod s ≤ s.dts)
    | none => false)

/-- A SAG cause holds. -/
def sagCause (s : State) : Bool := siteCauses s &&& 0x25 != 0

/-- A WANDER cause holds. -/
def wanderCause (s : State) : Bool := siteCauses s &&& 0x48 != 0

/-- The governor learns a change (R22, R328). -/
def siteToGovernor (st : SiteState) (s : State) : State :=
  let r := refCh s
  if st == .sag || st == .bridge then setSiteState st.code (discardEvent 252 s)
  else
    match eventAt s 252 with
    | some e => setEvent 252 (some { e with arg := st.code }) s
    | none =>
      if phaseKnown s r then armSystem 252 r 1 (regFld s 0x2600010 23 8) st.code true 0 s
      else setSiteState st.code s

/-- A site state change (R328). -/
def enterSite (st : SiteState) (s : State) : State :=
  let s1 := updPtu (fun u => { u with
    site := st, siteSince := s.dts, restoreSince := if st == .restore then s.dts else u.restoreSince }) s
  let s2 := siteToGovernor st s1
  let s3 := if regBit s 0x2600020 31 then sendVec 0 (regFld s 0x2600020 10 0) s2 else s2
  queueEvent 0 0x0800 (leBytes 4 (siteCauses s * 256 + st.code)) s3

/-- The state that R327 moves to, the first row winning. -/
def nextSite (s : State) : Option SiteState :=
  let b := bridgeCause s
  let g := sagCause s
  let w := wanderCause s
  let st := s.ptu.site
  let clear := match s.ptu.clearSince with
    | some t => decide (t + regFld s 0x2600018 15 0 * 1000000 ≤ s.dts)
    | none => false
  if b then (if st == .bridge then none else some .bridge)
  else if g && st != .sag then some .sag
  else if (st == .sag || st == .bridge) && !g && clear then some .restore
  else if st == .restore && decide (s.ptu.restoreSince + regFld s 0x2600018 31 16 * 1000000 ≤ s.dts) &&
      (monitored s).all (fun c => (phaseCh s c).st == .locked) then some (if w then .wander else .normal)
  else if st == .normal && w then some .wander
  else if st == .wander && !w then some .normal
  else none

/-- How long causes have held. -/
def noteCauses (s : State) : State :=
  updPtu (fun u => { u with
    allMissSince := if allMiss s then some (u.allMissSince.getD s.dts) else none
    clearSince := if sagCause s || bridgeCause s then none else some (u.clearSince.getD s.dts) }) s

/-- The moves of one evaluation; at most one per state. -/
def siteMoves : Nat → State → State
  | 0, s => s
  | fuel + 1, s =>
    match nextSite s with
    | none => s
    | some st => siteMoves fuel (enterSite st s)

/-- Evaluates the causes and the state (R326, R327). -/
def siteEval (s : State) : State :=
  let s1 := noteCauses s
  if regBit s 0x2600010 31 then siteMoves 5 (noteCauses s1) else s1

/-- The frequency class at a completed REF cycle (R325). -/
def freqUpdate (s : State) : State :=
  let l := (phaseCh s (refCh s)).recent
  if l.isEmpty then s
  else
    let n := nominalNs s * l.length
    let sum := l.foldl (· + ·) 0
    let d := (sum - n) + (n - sum)
    let wander := regFld s 0x260001C 15 8
    let normal := regFld s 0x260001C 7 0
    let calm := if 2 * d * 1000 ≤ normal * n then s.ptu.calm + 1 else 0
    let cls : FreqClass :=
      if wander * n < d * 1000 then .sag
      else if normal * n < d * 1000 then .wander
      else if s.ptu.freq == .wander && decide (calm < 50) then .wander
      else .normal
    updPtu (fun u => { u with freq := cls, calm := min calm 50 }) s

/-! The trackers (R309–R313) -/

/-- After any change of a channel: entries passed fire, and the site causes are evaluated. -/
def chChanged (s : State) : State := siteEval (fireEvents s)

/-- Counts one bad event of a channel. -/
def bumpBad (c : Nat) (s : State) : State := updCh c (fun ch => { ch with bad := satInc 0xFFFF ch.bad }) s

/-- Predicted cycle starts up to now (R311): the latch follows only in HOLDOVER and the ACQUIRE after it. -/
def catchUp (c : Nat) (s : State) : State :=
  let ch := phaseCh s c
  let latch := ch.st == .locked || ch.st == .holdover || (ch.st == .acquire && ch.acqFrom == .holdover)
  if !(hasPhase ch) then s
  else if isSoft c then
    match ch.stamp with
    | none => s
    | some (t, p) =>
      let k := softPhase ch s.dts / 65536
      if k ≤ ch.cycle || ch.rateNum = 0 then s
      else
        let at_ := t + ceilDiv ((k * 65536 - p) * ch.rateDen) ch.rateNum
        let per := if k = ch.cycle + 1 then at_ - ch.start else 65536 * ch.rateDen / ch.rateNum
        updCh c (fun x => { x with
          cycle := k, start := at_, period := per
          latchDts := if latch then at_ else x.latchDts
          latchPeriod := if latch then per else x.latchPeriod
          latchCycle := if latch then k else x.latchCycle }) s
  else if ch.st == .locked || ch.period == 0 then s
  else
    let k := (s.dts - ch.start) / ch.period
    if k = 0 then s
    else
      updCh c (fun x => { x with
        cycle := x.cycle + k, start := x.start + k * x.period
        latchDts := if latch then x.start + k * x.period else x.latchDts
        latchPeriod := if latch then x.period else x.latchPeriod
        latchCycle := if latch then x.cycle + k else x.latchCycle }) s

/-- The reported phase becomes the one below which it never goes (R312). -/
def holdPhase (c : Nat) (s : State) : State := updCh c (fun ch => { ch with floor := phaseAt s c }) s

/-- LOST (R310). -/
def enterLost (c : Nat) (s : State) : State :=
  chChanged (catchUp c (updCh c (fun ch => { ch with st := .lost, since := s.dts, good := 0 }) (holdPhase c s)))

/-- A cycle start is missing, or a period is bad: HOLDOVER, or LOST with HOLD_MS 0 (R310). -/
def enterHoldover (c : Nat) (s : State) : State :=
  let s1 := bumpBad c s
  if holdNs s c = 0 then enterLost c s1
  else chChanged (catchUp c (updCh c (fun ch => { ch with st := .holdover, since := s.dts, good := 0, badRun := 0 })
    (holdPhase c s1)))

/-- Length limits of a period (R310). -/
def inRange (s : State) (c p : Nat) : Bool :=
  decide (regFld s (chReg c 4) 15 0 * 10000 ≤ p) && decide (p ≤ regFld s (chReg c 4) 31 16 * 10000)

/-- Two periods differ by at most 2 %. -/
def within2 (p q : Nat) : Bool := decide (((p - q) + (q - p)) * 50 ≤ q)

/-- The good periods that complete an acquisition (R310). -/
def lockNeed (s : State) (c : Nat) (ch : PhaseCh) : Nat :=
  if ch.acqFrom == .first then regFld s (chReg c 0) 18 16 else regFld s (chReg c 0) 15 13

/-- LOCKED: the edge at `d` becomes a cycle start (R311, R312). -/
def lockEdge (c d p : Nat) (s : State) : State :=
  let ch := phaseCh s c
  let m := modelPhase ch d
  let cyc := if !ch.everLocked then ch.starts else m / 65536 + (if 32768 ≤ m % 65536 then 1 else 0)
  let first := !ch.everLocked
  let s1 := updCh c (fun x => { x with
    st := .locked, everLocked := true, floor := phaseAt s c, cycle := cyc, start := d, period := p, since := d
    latchDts := d, latchPeriod := p, latchCycle := cyc }) s
  let s2 := if first && regBit s 0x2600038 31 && regFld s 0x2600038 25 24 == c then armBuslock s1 else s1
  chChanged s2

/-- An edge in ACQUIRE (R310). -/
def acquireEdge (c d : Nat) (s : State) : State :=
  let ch := phaseCh s c
  match ch.lastEdge with
  | none => updCh c (fun x => { x with lastEdge := some d, starts := 0 }) s
  | some e =>
    let p := d - e
    let rangeOk := inRange s c p
    let steady := match ch.lastPeriod with
      | some q => within2 p q
      | none => true
    let a := modelPhase ch d % 65536
    let miss := missAngle s c
    let predicted :=
      if ch.acqFrom == .first then true
      else if ch.acqFrom == .holdover then decide (a ≤ miss) || decide (65536 ≤ a + miss)
      else
        let q := ch.lastPeriod.getD p
        decide (((p - q) + (q - p)) * 65536 ≤ miss * q)
    let s1 := updCh c (fun x => { x with
      lastEdge := some d, starts := x.starts + 1, lastPeriod := if rangeOk then some p else x.lastPeriod }) s
    if rangeOk && steady && predicted then
      let s2 := updCh c (fun x => { x with good := x.good + 1, since := d, recent := (p :: x.recent).take 8 }) s1
      if lockNeed s c ch ≤ ch.good + 1 then lockEdge c d p s2 else s2
    else if ch.acqFrom == .first then updCh c (fun x => { x with good := 0 }) (bumpBad c s1)
    else enterLost c (bumpBad c s1)

/-- A qualified cycle-start edge at `d` (R310–R312). -/
def cycleEdge (c d : Nat) (s : State) : State :=
  let ch := phaseCh s c
  match ch.st with
  | .off => s
  | .acquire => acquireEdge c d s
  | .holdover | .lost =>
    let s1 := catchUp c s
    chChanged (updCh c (fun x => { x with
      st := .acquire, acqFrom := if ch.st == .lost then .lost else .holdover
      lastEdge := some d, good := 0, since := d }) (holdPhase c s1))
  | .locked =>
    let p := d - ch.start
    if inRange s c p && within2 p ch.period then
      let s1 := updCh c (fun x => { x with
        floor := phaseAt s c, cycle := x.cycle + 1, start := d, period := p, lastEdge := some d, lastPeriod := some p
        since := d, recent := (p :: x.recent).take 8
        latchDts := d, latchPeriod := p, latchCycle := x.cycle + 1 }) s
      chChanged (if c = refCh s then freqUpdate s1 else s1)
    else
      enterHoldover c (updCh c (fun x => { x with lastPeriod := if inRange s c p then some p else x.lastPeriod }) s)

/-- A tach edge on a channel: every PPR-th one starts a cycle (R308). -/
def tachEdge (c d : Nat) (s : State) : State :=
  let ch := phaseCh s c
  if ch.st == .off then s
  else
    let s1 := updCh c (fun x => { x with edges := x.edges + 1 }) s
    if ch.edges % (regFld s (chReg c 0) 27 25 + 1) = 0 then cycleEdge c d s1 else s1

/-- MAINS_EDGE: a qualified edge of an input, 0–2 mains and 3–8 tach inputs 0–5, first seen at `d` (R308, R309). -/
def inputEdge (input d : Nat) (s : State) : State :=
  let s1 := advanceTo d s
  if input < 3 then cycleEdge input d s1
  else
    [3, 4, 5].foldl (fun t c => if regFld t (chReg c 0) 30 28 + 3 = input then tachEdge c d t else t) s1

/-- CYCLE_START_MISSING (R310, R313). -/
def cycleMissing (c : Nat) (s : State) : State :=
  let ch := phaseCh s c
  if ch.st != .locked then s
  else if isSoft c then
    match ch.stamp with
    | none => s
    | some (t, _) =>
      if ch.rateNum = 0 then s
      else enterHoldover c (advanceTo (t + ceilDiv ((16384 + missAngle s c) * ch.rateDen) ch.rateNum) s)
  else enterHoldover c (advanceTo (ch.start + ceilDiv ((65536 + missAngle s c) * ch.period) 65536) s)

/-- PREDICTED_CYCLE_START (R311). -/
def predictedStart (c : Nat) (s : State) : State :=
  let ch := phaseCh s c
  if !(hasPhase ch) || (ch.st == .locked && !(isSoft c)) then s
  else
    match (if isSoft c then reachAt s c ((ch.cycle + 1) * 65536) else some (ch.start + ch.period)) with
    | none => s
    | some t => chChanged (catchUp c (advanceTo t s))

/-- HOLDOVER_EXPIRY (R310). -/
def holdExpiry (c : Nat) (s : State) : State :=
  let ch := phaseCh s c
  if ch.st == .holdover || (ch.st == .acquire && ch.acqFrom != .first) then
    enterLost c (advanceTo (ch.since + holdNs s c) s)
  else s

/-- EN written 1 on a channel (R310, R311). -/
def enableCh (c : Nat) (s : State) : State := chChanged (updCh c (fun _ => { st := .acquire, since := s.dts }) s)

/-- EN written 0. -/
def disableCh (c : Nat) (s : State) : State := chChanged (updCh c (fun ch => { ch with st := .off }) s)

/-- A write to PTU_CH_CFG, with the value before it. -/
def chCfgWritten (c old : Nat) (s : State) : State :=
  let en := regBit s (chReg c 0) 31
  if en && !(bitOf old 31) then enableCh c s
  else if !en && bitOf old 31 then disableCh c s
  else s

/-! Soft channels (R313) -/

/-- An accepted stamp's new phase, rate and hold. -/
def takeStamp (c d p : Nat) (s : State) : State :=
  let ch := phaseCh s c
  match ch.stamp with
  | none => updCh c (fun x => { x with stamp := some (d, p) }) s
  | some (t, q) =>
    updCh c (fun x => { x with
      floor := phaseAt s c, stamp := some (d, p), rateNum := p - q, rateDen := d - t, badRun := 0 }) s

/-- The instant an accepted stamp's course passed angle 65,535 into cycle `k`. -/
def passInstant (t q d p k : Nat) : Nat := if p = q then d else t + ceilDiv ((k * 65536 - q) * (d - t)) (p - q)

/-- A pass in ACQUIRE: a good period counts, and the last one locks (R310, R313). -/
def softPass (c at_ : Nat) (near : Bool) (s : State) : State :=
  let ch := phaseCh s c
  if ch.starts = 0 then updCh c (fun x => { x with starts := 1, start := at_ }) s
  else
    let p := at_ - ch.start
    let steady := match ch.lastPeriod with
      | some q => within2 p q
      | none => true
    let s1 := updCh c (fun x => { x with
      starts := x.starts + 1, start := at_, period := p
      lastPeriod := if inRange s c p then some p else x.lastPeriod }) s
    if inRange s c p && steady && (near || ch.acqFrom == .first) then
      if lockNeed s c ch ≤ ch.good + 1 then
        updCh c (fun x => { x with
          st := .locked, everLocked := true, good := x.good + 1, since := at_
          latchDts := at_, latchPeriod := p, latchCycle := x.cycle }) s1
      else updCh c (fun x => { x with good := x.good + 1, since := at_ }) s1
    else if ch.acqFrom == .first then updCh c (fun x => { x with good := 0 }) (bumpBad c s1)
    else enterLost c (bumpBad c s1)

/-- A stamp accepted in ACQUIRE (R313). -/
def acquireStamp (c d a : Nat) (s : State) : State :=
  let ch := phaseCh s c
  match ch.stamp with
  | none => takeStamp c d (ch.cycle * 65536 + a) s
  | some (t, q) =>
    let pred := softPhase ch d
    let e := toInt 16 (a + 65536 - pred % 65536)
    let p := if ch.rateDen = 0 then q + (a + 65536 - q % 65536) % 65536 else ((pred : Int) + e).toNat
    let near := decide (e.natAbs ≤ missAngle s c)
    let s1 := takeStamp c d p s
    let k := p / 65536
    if k ≤ ch.cycle then s1
    else if ch.starts = 0 && !ch.everLocked then
      softPass c (passInstant t q d p k) near (updCh c (fun x => { x with stamp := some (d, p % 65536), cycle := 0 }) s1)
    else softPass c (passInstant t q d p k) near (updCh c (fun x => { x with cycle := k }) s1)

/-- One stamp; `true` when it was accepted (R313). -/
def softStamp (c d a : Nat) (s : State) : State × Bool :=
  let ch := phaseCh s c
  let stale := match ch.stamp with
    | some (t, _) => decide (d ≤ t)
    | none => false
  if ch.st == .off then (s, false)
  else if stale then (bumpBad c s, false)
  else if ch.st == .acquire then (chChanged (acquireStamp c d a s), true)
  else
    let s0 := catchUp c s
    let pred := softPhase (phaseCh s0 c) d
    let e := toInt 16 (a + 65536 - pred % 65536)
    if missAngle s c < e.natAbs then
      let s1 := bumpBad c (updCh c (fun x => { x with badRun := x.badRun + 1 }) s0)
      if ch.st == .locked && decide (2 ≤ ch.badRun + 1) then (enterHoldover c s1, false) else (s1, false)
    else
      let s1 := takeStamp c d ((pred : Int) + e).toNat s0
      let s2 := if ch.st == .locked then s1
        else updCh c (fun x => { x with
          st := .acquire, acqFrom := if ch.st == .lost then .lost else .holdover, good := 0, since := s.dts }) s1
      (chChanged (catchUp c s2), true)

/-! Packets (R314, R329, R330) -/

/-- The stamps of a PHASE_STAMP packet. -/
def packetStamps (p : Inflight) : List (Nat × Nat) :=
  (List.range (p.fld 17 1)).map (fun i => (getLe p.bytes (64 + 16 * i) 8, getLe p.bytes (72 + 16 * i) 2))

/-- Stamps rise strictly and none lies ahead (R314). -/
def stampsOk (now : Nat) : List (Nat × Nat) → Bool
  | [] => true
  | [a] => decide (a.1 ≤ now)
  | a :: b :: rest => decide (a.1 < b.1) && stampsOk now (b :: rest)

/-- PHASE_STAMP (R314). -/
def doPhaseStamp (p : Inflight) (s : State) : State :=
  let c := p.fld 16 1
  let n := p.fld 17 1
  let pad := (List.range n).all (fun i => allZero (slice p.bytes (74 + 16 * i) 6))
  if c < 6 ∨ 7 < c ∨ n = 0 ∨ 12 < n ∨ !pad ∨ regFld s (chReg c 0) 30 28 ≠ 1 ∨
      (p.owner ≠ 0 ∧ p.owner ≠ regFld s (chReg c 0) 24 19) ∨ !(stampsOk s.dts (packetStamps p)) then
    finishPkt p.id 0x0303 0 0 s
  else
    let r := (packetStamps p).foldl (fun (acc : State × Nat) st =>
      let q := softStamp c st.1 st.2 acc.1
      (q.1, if q.2 then acc.2 + 1 else acc.2)) (s, 0)
    finishPkt p.id 0 r.2 (n - r.2) r.1

/-- PHASE_QUERY. -/
def doPhaseQuery (p : Inflight) (s : State) : State :=
  let c := p.fld 16 1
  if 8 ≤ c then finishPkt p.id 0x0303 0 0 s
  else
    let ch := phaseCh s c
    finishPkt p.id 0 (phaseAt s c % 2 ^ 48 + ch.st.code * 2 ^ 48) ch.latchPeriod s

/-- ARG is one R319 allows for the action. -/
def argLegal (action arg : Nat) : Bool :=
  if action = 1 then capLegal arg
  else if action = 2 then fld arg 15 8 == 0 && fld arg 31 16 != 0
  else if action = 3 then decide (arg < 8)
  else fld arg 31 25 == 0 && decide (100 ≤ fld arg 23 0) && decide (fld arg 23 0 ≤ 10000000)

/-- The streams a STEP_GATE names. -/
def gateStreams (arg : Nat) : List Nat := (List.range 8).filter (fun k => bitOf arg k)

/-- A sweep channel. -/
def sweepAt (s : State) (c : Nat) : Sweep := Tbl.get {} s.swe.chans c

/-- The event target is not the sender's (R330 check 3). -/
def eventForeign (s : State) (o action arg : Nat) : Bool :=
  o != 0 && ((action == 2 && (gateStreams arg).any (fun k =>
      !(streamBound s k) || (Tbl.get {} s.sqe.streams k).owner != o)) ||
    (action == 3 && ((sweepAt s (fld arg 2 0)).st == .unbound || (sweepAt s (fld arg 2 0)).owner != o)))

/-- The event has no valid target (R330 check 4). -/
def eventVoid (s : State) (action arg : Nat) : Bool :=
  (action == 2 && (gateStreams arg).any (fun k => !(streamBound s k))) ||
  (action == 3 && (sweepAt s (fld arg 2 0)).desc.isNone) || (action == 5 && !(pulseEn s (fld arg 24 24)))

/-- The lowest free entry of 0–247. -/
def freeEvent (s : State) : Option Nat := (List.range 248).find? (fun i => (eventAt s i).isNone)

/-- EVENT_SET, in the order of R330. -/
def doEventSet (p : Inflight) (s : State) : State :=
  let c := p.fld 16 1
  let act := p.fld 17 1
  let fl := p.fld 18 1
  let angle := p.fld 24 2
  let arg := p.fld 28 4
  if fl / 8 ≠ 0 ∨ !([1, 2, 3, 5].contains act) ∨ 8 ≤ c ∨ !(argLegal act arg) then finishPkt p.id 0x0303 0 0 s
  else if (act == 1 || act == 5) && p.owner != 0 then finishPkt p.id 0x0328 0 0 s
  else if eventForeign s p.owner act arg then finishPkt p.id 0x0303 0 0 s
  else if eventVoid s act arg then finishPkt p.id 0x03C0 0 0 s
  else if !(phaseKnown s c) then finishPkt p.id 0x02C1 0 0 s
  else
    match freeEvent s with
    | none => finishPkt p.id 0x02C0 0 0 s
    | some i =>
      let cur := phaseAt s c
      let o := if bitOf fl 0 then s.ptu.offset else 0
      let rel := bitOf fl 2
      let cyc := if rel then nextOcc s c ((angle + o) % 65536) + p.fld 20 4
        else ((cur : Int) + phaseDist (p.fld 20 4 * 65536 + angle) cur).toNat / 65536
      let e : PhaseEvent :=
        { chan := c, action := act, repeats := p.fld 19 1, stagger := bitOf fl 0, relative := rel, owner := p.owner
          cycle := cyc, angle, target := 0, arg }
      let t := armedTarget s e
      if cur + 2 ^ 24 * 65536 < t then finishPkt p.id 0x0303 0 0 s
      else
        let r1 := t / 65536 % 2 ^ 31 + (if bitOf (t / 65536) 31 || (!rel && decide (t ≤ cur)) then 2 ^ 31 else 0)
        if bitOf fl 1 then
          fireEvents (updPkt p.id (fun q => { q with wait := .event })
            (setEvent i (some { e with target := t, wait := some (p.id, r1) }) s))
        else fireEvents (finishPkt p.id 0 i r1 (setEvent i (some { e with target := t }) s))

/-- EVENT_CLEAR (R318, R329). -/
def doEventClear (p : Inflight) (s : State) : State :=
  let i := p.fld 16 2
  if i = 0xFFFF then
    let l := (List.range 248).filter (fun k => match eventAt s k with
      | some e => e.owner == p.owner
      | none => false)
    finishPkt p.id 0 0 l.length (l.foldl (fun t k => discardEvent k t) s)
  else if 248 ≤ i then finishPkt p.id 0x0303 0 0 s
  else
    match eventAt s i with
    | none => finishPkt p.id 0 0 0 s
    | some e =>
      if p.owner ≠ 0 ∧ e.owner ≠ p.owner then finishPkt p.id 0x0303 0 0 s
      else finishPkt p.id 0 0 1 (discardEvent i s)

/-! Register writes and the site's own events -/

/-- A write to PTU_SITE_CFG, with the value before it (R327). -/
def siteCfgWritten (old : Nat) (s : State) : State :=
  let en := regBit s 0x2600010 31
  if en && !(bitOf old 31) then siteEval (enterSite .restore (updPtu (fun u => { u with calm := 0 }) s))
  else if !en && bitOf old 31 then
    siteEval (setSiteState 0 (updPtu (fun u => { u with site := .normal }) (discardEvent 252 s)))
  else siteEval s

/-- A write to PTU_STAGGER_LOCAL (R323). -/
def staggerWritten (s : State) : State :=
  if s.ptu.assigned then s else updPtu (fun u => { u with offset := regFld s 0x2600034 15 0 }) s

/-- SITE_INPUT_CHANGE: an input has held a level for its filter time (R324). -/
def siteInput (i : Nat) (high : Bool) (s : State) : State :=
  if 3 ≤ i then s else siteEval (updPtu (fun u => { u with siteIn := Tbl.set none u.siteIn i (some high) }) s)

/-- CLEAR_MS_EXPIRY (R327). -/
def clearExpiry (s : State) : State :=
  match s.ptu.clearSince with
  | some t =>
    if s.ptu.site == .sag || s.ptu.site == .bridge then
      siteEval (advanceTo (t + regFld s 0x2600018 15 0 * 1000000) s)
    else s
  | none => s

/-- RESTORE_MS_EXPIRY (R327). -/
def restoreExpiry (s : State) : State :=
  if s.ptu.site == .restore then
    siteEval (advanceTo (s.ptu.restoreSince + regFld s 0x2600018 31 16 * 1000000) s)
  else s

/-- ALL_MISS_BRIDGE (R326). -/
def allMissExpiry (s : State) : State :=
  match s.ptu.allMissSince with
  | some t => siteEval (advanceTo (t + 2 * refPeriod s) s)
  | none => s

/-! Resets and owners -/

/-- VSTBY qualification: trackers start where EN is set, and the offset is the local one (R310, R323). -/
def ptuStart (s : State) : State :=
  let s1 := updPtu (fun _ => { ({} : Ptu) with offset := regFld s 0x2600034 15 0 }) s
  (List.range 8).foldl (fun t c => if regBit t (chReg c 0) 31 then enableCh c t else t) s1

/-- A chip reset clears entries 0–247 (R316) and the gates, which stand in the chip domain's engines. -/
def ptuChipReset (s : State) : State :=
  updPtu (fun u => { u with events := u.events.filter (fun p => decide (248 ≤ p.1)), gates := [] }) s

/-- An owner's open WAIT packets end, and its entries go (R84, R316, R331). -/
def ptuOwnerGone (o : Nat) (s : State) : State :=
  (List.range 248).foldl (fun t i =>
    match eventAt t i with
    | none => t
    | some e =>
      if e.owner ≠ o then t
      else
        let t1 := setEvent i none t
        match e.wait with
        | some (id, _) => finishPkt id 0x0801 0 0 t1
        | none => t1) s

end Sys2Proof.Machine
end

