-- ==== Sys2Proof/Machine/TfuOps.lean ====
section
/-! DEFINITION. Fan and pump outputs, valves, analog inputs, ropes, flow meters and the leak response (R352–R375). -/

namespace Sys2Proof.Machine

/-- Changes the unit. -/
def updTfu (f : Tfu → Tfu) (s : State) : State := { s with tfu := f s.tfu }

/-- One fan or pump channel. -/
def pwmAt (s : State) (c : Nat) : Pwm := Tbl.get {} s.tfu.pwm c

/-- Changes one fan or pump channel. -/
def updPwm (c : Nat) (f : Pwm → Pwm) (s : State) : State :=
  updTfu (fun u => { u with pwm := Tbl.upd {} u.pwm c f }) s

/-- One valve. -/
def valveAt (s : State) (v : Nat) : Valve := Tbl.get {} s.tfu.valves v

/-- Changes one valve. -/
def updValve (v : Nat) (f : Valve → Valve) (s : State) : State :=
  updTfu (fun u => { u with valves := Tbl.upd {} u.valves v f }) s

/-- The offset of a fan or pump channel's register. -/
def pwmReg (c off : Nat) : Nat := 0x2800100 + c * 0x20 + off

/-- The offset of a valve's register. -/
def valveReg (v off : Nat) : Nat := 0x2800300 + v * 0x20 + off

/-- The offset of an analog input's register. -/
def adcReg (i off : Nat) : Nat := 0x2800400 + i * 0x20 + off

/-- An event bit rises: its interrupt is sent once (TFU_EVENT, TFU_IRQ). -/
def tfuEvent (bit : Nat) (s : State) : State :=
  let rose := !(regBit s 0x2800004 bit)
  let s1 := orReg 0x2800004 (2 ^ bit) s
  if rose && regBit s 0x2800008 31 then sendVec 0 (regFld s 0x2800008 10 0) s1 else s1

/-- R354: a register write changed an output. -/
def tfuWrote (r : Requester) (s : State) : State :=
  let w := match r with
    | .island => 0
    | .mmp => 2
    | _ => 1
  updTfu (fun u => { u with writer := w, lastDts := s.dts }) s

/-! Fans and pumps -/

/-- The requested duty; none while the pin is released (R355, R357). -/
def reqDuty (s : State) (c : Nat) : Option Nat :=
  if !(regBit s (pwmReg c 0) 31) then none
  else if regBit s (pwmReg c 0) 30 then
    some (if regFld s (pwmReg c 4) 15 0 = 0 then 0 else (pwmAt s c).req)
  else some (regFld s (pwmReg c 0) 26 16)

/-- The output duty and MIN_APPLIED (R356). -/
def outDuty (s : State) (c : Nat) : Nat × Bool :=
  match reqDuty s c with
  | none => (1024, false)
  | some d =>
    let m := regFld s (pwmReg c 0) 10 0
    if 0 < d ∧ d < m then (if regBit s (pwmReg c 0) 29 then m else 0, true) else (d, false)

/-- The steady time of HELD starts again when the duty changed or the RPM left ±1 % (R359). -/
def judgeHeld (c : Nat) (dutyChanged : Bool) (s : State) : State :=
  let p := pwmAt s c
  let d := if p.rpm < p.heldRpm then p.heldRpm - p.rpm else p.rpm - p.heldRpm
  if dutyChanged || decide (p.heldRpm < 100 * d) then
    updPwm c (fun p => { p with heldSince := s.dts, heldRpm := p.rpm }) s
  else s

/-- HELD (R359). -/
def isHeld (s : State) (c : Nat) : Bool := decide ((pwmAt s c).heldSince + 60000000000 ≤ s.dts)

/-- The output follows its settings (R355, R356). -/
def driveFan (c : Nat) (s : State) : State :=
  let old := (pwmAt s c).out
  let d := outDuty s c
  let s1 := updPwm c (fun p => { p with
    out := d.1, minApplied := d.2
    driven := if old = 0 ∧ 0 < d.1 then s.dts else p.driven }) s
  if d.1 = old then s1 else judgeHeld c true (emit (.pwm c d.1) s1)

/-- A write reached TFU_PWM_CTRL: entry to MODE 1 starts at DUTY (R357). -/
def pwmWritten (c old : Nat) (s : State) : State :=
  let enter := regBit s (pwmReg c 0) 30 && !(bitOf old 30)
  driveFan c (if enter then updPwm c (fun p => { p with req := regFld s (pwmReg c 0) 26 16 }) s else s)

/-- SPEED_LOOP_TICK (R357). -/
def speedTick (c : Nat) (s : State) : State :=
  let target : Int := regFld s (pwmReg c 4) 15 0
  let p := pwmAt s c
  let d := target - p.rpm
  if regBit s (pwmReg c 0) 31 && regBit s (pwmReg c 0) 30 && decide (target < 100 * d.natAbs) && target != 0 then
    let step := max (-32) (min 32 (Int.tdiv d 16))
    driveFan c (updPwm c (fun p => { p with req := (max 0 (min 1024 ((p.req : Int) + step))).toNat }) s)
  else s

/-- RPM from the last PPR intervals, of the edges newest first; none before so many have been measured (R358). -/
def rpmOf (edges : List Nat) (ppr : Nat) : Option Nat :=
  match edges[0]?, edges[ppr]? with
  | some a, some b => some (if a ≤ b then 65535 else min 65535 (60000000000 / (a - b)))
  | _, _ => none

/-- TACH_EDGE: a qualified edge at a DTS (R358). -/
def fanEdge (c at_ : Nat) (s : State) : State :=
  let s1 := advanceTo at_ s
  let es := (s1.dts :: (pwmAt s1 c).edges).take 9
  let ppr := regFld s1 (pwmReg c 0xC) 2 0 + 1
  judgeHeld c false (updPwm c (fun p => { p with edges := es, stall := false, rpm := (rpmOf es ppr).getD p.rpm }) s1)

/-- The instant a silent tach counts from (R358). -/
def quietSince (p : Pwm) : Nat := max p.driven (p.edges.headD 0)

/-- TACH_STALL: no edge for STALL × 100 ms while the output duty is above 0 (R358). -/
def tachStall (c : Nat) (s : State) : State :=
  let p := pwmAt s c
  if p.out = 0 ∨ p.stall = true then s
  else
    let s1 := advanceTo (quietSince p + regFld s (pwmReg c 0xC) 15 8 * 100000000) s
    tfuEvent 2 (judgeHeld c false (updPwm c (fun p => { p with stall := true, rpm := 0 }) s1))

/-- The baseline points in use, as speed and duty (R359). -/
def basePoints (s : State) (c : Nat) : List (Nat × Nat) :=
  ((List.range 4).map (fun k => rawAt s (pwmReg c (0x10 + 4 * k)))).filterMap (fun v =>
    if v = 0 then none else some (fld v 15 0, fld v 26 16))

/-- Baseline duty at a speed, between the two points that bracket it, truncated (R360). -/
def baseDuty : List (Nat × Nat) → Nat → Option Nat
  | (r1, d1) :: (r2, d2) :: rest, r =>
    if r < r1 then none
    else if r ≤ r2 then
      some (((d1 : Int) * (r2 - r1 : Nat) + ((d2 : Int) - d1) * (r - r1 : Nat)) / (max 1 (r2 - r1) : Nat)).toNat
    else baseDuty ((r2, d2) :: rest) r
  | _, _ => none

/-- AGEING_CHECK of a held channel (R171, R360). -/
def ageingCheck (c : Nat) (s : State) : State :=
  let p := pwmAt s c
  if !(isHeld s c) || !(regBit s 0x2D00000 5) || decide (s.dts < p.ageDue) then s
  else
    let s1 := updPwm c (fun p => { p with ageDue := s.dts + 86400000000000 }) s
    match baseDuty (basePoints s c) p.rpm with
    | none | some 0 => updPwm c (fun p => { p with skipped := true }) s1
    | some (b + 1) =>
      let i := min 65535 (1024 * p.out / (b + 1))
      let w := decide (regFld s 0x2800030 15 0 ≤ i)
      let a := decide (regFld s 0x2800030 31 16 ≤ i)
      let s2 := updPwm c (fun p => { p with index := i, valid := true, warn := w, alarm := a, skipped := false }) s1
      let s3 := if w && !p.warn then tfuEvent 3 s2 else s2
      if a && !p.alarm then tfuEvent 4 s3 else s3

/-! Valves -/

/-- The switching leg's high and low gates and its clip flag, in a period of 10,000 ticks (R362, R363). -/
def legPeriod (hi lo onT dt mp : Nat) : List (Nat × Nat × Nat) × Nat :=
  if onT = 0 then ([(lo, 0, 10000)], 0)
  else if 10000 ≤ onT then ([(hi, 0, 10000)], 0)
  else if 2 * onT < 2 * dt + mp then ([(lo, 0, 10000)], 1)
  else if onT < dt + mp then ([(hi, dt, dt + mp), (lo, 2 * dt + mp, 10000)], 2)
  else if 10000 - onT < dt + mp then ([(hi, 0, 10000)], 4)
  else ([(hi, dt, onT), (lo, onT + dt, 10000)], 0)

/-- One period of a mode, and its clip flags (R361–R363). -/
def bridgePeriod (mode onT dt mp : Nat) : List (Nat × Nat × Nat) × Nat :=
  match mode with
  | 1 => let l := legPeriod 0 1 onT dt mp; ((3, 0, 10000) :: l.1, l.2)
  | 2 => let l := legPeriod 2 3 onT dt mp; ((1, 0, 10000) :: l.1, l.2)
  | 3 => ([(1, 0, 10000), (3, 0, 10000)], 0)
  | _ => ([], 0)

/-- The first period of a new mode: all gates off for DT (R364). -/
def gapPeriod (dt : Nat) (g : List (Nat × Nat × Nat)) : List (Nat × Nat × Nat) :=
  (g.map (fun i => (i.1, max i.2.1 dt, i.2.2))).filter (fun i => decide (i.2.1 < i.2.2))

/-- The bridge's next period from its settings; nothing while FAULT is 1 (R364, R365). -/
def driveValve (v : Nat) (gap : Bool) (s : State) : State :=
  let x := valveAt s v
  if x.fault then s
  else
    let mode := regFld s (valveReg v 0) 29 28
    let dt := regFld s (valveReg v 4) 24 16
    let p := bridgePeriod mode (regFld s (valveReg v 0) 13 0) dt (regFld s (valveReg v 4) 9 0)
    let s1 := if gap || mode != x.mode then emit (.gates v (gapPeriod dt p.1)) s else s
    let s2 := if p.1 = x.gates then s1 else emit (.gates v p.1) s1
    updValve v (fun y => { y with mode, gates := p.1, live := p.2, sticky := y.sticky ||| p.2 }) s2

/-- TFU_VLV_CTRL was written while unlocked (R364, R375). -/
def valveWritten (v : Nat) (s : State) : State :=
  let s1 := updValve v (fun y => { y with closed := false }) s
  if (valveAt s v).closing.isSome then updValve v (fun y => { y with written := true }) s1 else driveValve v false s1

/-- VALVE_FAULT: the fault input has been low for 1 µs (R365). -/
def valveFault (v : Nat) (s : State) : State :=
  let x := valveAt s v
  let s1 := updValve v (fun y => { y with fltLow := true }) s
  if x.fault then s1
  else
    let s2 := if x.gates = [] then s1 else emit (.gates v []) s1
    let s3 := updValve v (fun y => { y with
      fault := true, mode := 0, gates := [], live := 0, spoilt := y.spoilt || y.closing.isSome }) s2
    logErr { cls := 16, cause := 3, sev := sevContained, source := 0x28, index := v } (tfuEvent 5 s3)

/-- A write reached TFU_VLV_STATUS: FAULT clears only while the input is high (R365), and a sticky flag whose period
is driven sets again. -/
def valveStatusWritten (r : Requester) (v wdata : Nat) (s : State) : State :=
  let s1 := updValve v (fun y => { y with sticky := (y.sticky &&& (7 - fld wdata 2 0)) ||| y.live }) s
  let x := valveAt s v
  if bitOf wdata 31 && x.fault && !x.fltLow then
    tfuWrote r (driveValve v false (updValve v (fun y => { y with fault := false }) s1))
  else s1

/-! The leak response (R373–R375) -/

/-- An AUTO valve starts its close drive. -/
def closeValve (v : Nat) (s : State) : State :=
  if regBit s (valveReg v 8) 31 then
    let s1 := setRegFld (valveReg v 0) 29 28 (regFld s (valveReg v 8) 29 28) s
    let s2 := setRegFld (valveReg v 0) 13 0 10000 s1
    let done := s.dts + regFld s (valveReg v 8) 15 0 * 1000000
    let s3 := updValve v (fun y => { y with closing := some done, written := false, spoilt := y.fault, closed := false }) s2
    driveValve v true s3
  else s

/-- A LEAK_SET channel takes LEAK_DUTY. -/
def leakFan (c : Nat) (s : State) : State :=
  if regBit s (pwmReg c 0) 28 then
    let s1 := setRegFld (pwmReg c 0) 31 30 2 s
    driveFan c (setRegFld (pwmReg c 0) 26 16 (regFld s (pwmReg c 4) 26 16) s1)
  else s

/-- TFU_STATUS's image. -/
def tfuStatus (s : State) : Nat :=
  let bits := fun (f : Rope → Bool) => ((List.range 4).map (fun r =>
    b2n (f (Tbl.get {} s.tfu.ropes r)) * 2 ^ r)).sum
  b2n s.tfu.latch * 2 ^ 31 + b2n s.tfu.remote * 2 ^ 30 + s.tfu.writer * 2 ^ 28 + bits (·.wet) * 16 + bits (·.opened)

/-- The response to a wet rope, or to TFU_LEAK_REMOTE when there is none (R373, R475). -/
def leakTrigger (rope : Option Nat) (s : State) : State :=
  if s.tfu.latch then s
  else
    let s1 := setLeakFloor true (updTfu (fun u => { u with latch := true, remote := rope.isNone }) s)
    let s2 := forEach [0, 1] closeValve s1
    let s3 := tfuEvent 0 (forEach (List.range 6) leakFan s2)
    let s4 := logErr { cls := 16, cause := 1, sev := sevContained, source := 0x28, index := rope.getD 0,
                       info := rope.getD 0 } s3
    queueEvent sevContained 0x0900 (leBytes 4 (tfuStatus s4)) s4

/-- LEAK_CLOSE_END: CLOSE_MS has passed (R373). -/
def leakCloseEnd (v : Nat) (s : State) : State :=
  let x := valveAt s v
  match x.closing with
  | none => s
  | some t =>
    let s1 := updValve v (fun y => { y with closing := none, written := false }) (advanceTo t s)
    if x.written then driveValve v false s1
    else
      let s2 := setRegFld (valveReg v 0) 29 28 (regFld s (valveReg v 8) 27 26) s1
      let s3 := updValve v (fun y => { y with closed := !y.spoilt }) (setRegFld (valveReg v 0) 13 0 0 s2)
      driveValve v false s3

/-- A rope that responds reads WET. -/
def wetResponder (s : State) : Bool :=
  (List.range 4).any (fun r => (Tbl.get {} s.tfu.ropes r).wet && regBit s (0x2800500 + r * 0x10) 31)

/-- TFU_LEAK_CLEAR written 1 (R375). -/
def leakClear (s : State) : State :=
  if !s.tfu.latch || wetResponder s then s
  else tfuEvent 8 (setLeakFloor false (updTfu (fun u => { u with latch := false, remote := false }) s))

/-! Ropes -/

/-- RATIO from the two amplitudes (R369). A zero excitation, which the manual does not describe, gives a free value. -/
def ratioOf (sns exc : Nat) (s : State) : Nat × State :=
  if exc = 0 then
    ((Config.freeValue s.free).toNat % 1025, { s with free := s.free + 1 })
  else (min 1024 (1024 * sns / exc), s)

/-- Counts consecutive samples against a standing, and turns it over at the limit. -/
def standing (now : Bool) (other : Bool) (n lim : Nat) : Bool × Nat :=
  if now == other then (now, 0)
  else if lim ≤ n + 1 then (other, 0)
  else (now, n + 1)

/-- ROPE_SAMPLE: the two amplitudes of a rope's sample (R369, R370). -/
def ropeSample (r sns exc : Nat) (s : State) : State :=
  let q := ratioOf sns exc s
  let ratio := q.1
  let cfg := rawAt s (0x2800500 + r * 0x10)
  let x := Tbl.get {} s.tfu.ropes r
  let w := standing x.wet (decide (ratio < fld cfg 9 0)) x.nWet (if x.wet then 1000 else fld cfg 15 10)
  let o := standing x.opened (decide (fld cfg 25 16 < ratio)) x.nOpen 100
  let y : Rope := { ratio, wet := w.1, nWet := w.2, opened := o.1, nOpen := o.2 }
  let s1 := updTfu (fun u => { u with ropes := Tbl.set {} u.ropes r y }) q.2
  let s2 := if o.1 && !x.opened then
      logErr { cls := 16, cause := 4, sev := sevNotice, source := 0x28, index := r } (tfuEvent 1 s1)
    else s1
  if w.1 && !x.wet && bitOf cfg 31 then leakTrigger (some r) s2 else s2

/-- TFU_LEAK_CFG was written: a rope that reads WET and now responds starts the response (R370). -/
def ropeCfgWritten (r old : Nat) (s : State) : State :=
  if regBit s (0x2800500 + r * 0x10) 31 && !(bitOf old 31) && (Tbl.get {} s.tfu.ropes r).wet then
    leakTrigger (some r) s
  else s

/-! Flow -/

/-- MLPM from the edges of the last second and the time they span, with the edges of the last two seconds (R371). -/
def mlpmOf (k n span twoSec : Nat) : Nat :=
  if twoSec < 2 ∨ n < 2 then 0
  else if k * span = 0 then 65535
  else min 65535 ((n - 1) * 60000000000000 / (k * span))

/-- FLOW_UPDATE at a DTS (R371). -/
def flowUpdate (i n span twoSec at_ : Nat) (s : State) : State :=
  let s1 := advanceTo at_ s
  let cfg := rawAt s1 (0x2800600 + i * 0x10)
  let m := mlpmOf (fld cfg 15 0) n span twoSec
  let x := Tbl.get {} s1.tfu.flows i
  let low := decide (m < fld cfg 31 16)
  let since := x.since.getD s1.dts
  let turn := low != x.low && decide (since + 1000000000 ≤ s1.dts)
  let y : Flow := { mlpm := m, low := if turn then low else x.low,
                    since := if turn || low == x.low then none else some since }
  let s2 := updTfu (fun u => { u with flows := Tbl.set {} u.flows i y }) s1
  if turn && low then tfuEvent 7 s2 else s2

/-- R372: the coolant flow condition of R38. -/
def flowOk (s : State) : Bool :=
  !(regBit s 0x2800028 31) ||
  decide (regFld s 0x2800028 15 0 ≤ (Tbl.get {} s.tfu.flows (regFld s 0x2800028 16 16)).mlpm)

/-! Analog inputs -/

/-- Terms of the series of atanh, in units of 2^-100: `z` is the odd power, `z2` the square of the argument. -/
def atanhSum : Nat → Nat → Int → Int → Int
  | 0, _, _, _ => 0
  | n + 1, k, z, z2 => z / (k : Int) + atanhSum n (k + 2) (z * z2 / (2 ^ 100 : Int)) z2

/-- ln(a / b) of positive numbers, in units of 2^-100. -/
def lnRatio (a b : Nat) : Int :=
  let k : Int := (Nat.log2 a : Int) - Nat.log2 b
  let p : Int := if k < 0 then (a : Int) * 2 ^ (-k).toNat else a
  let q : Int := if k < 0 then b else (b : Int) * 2 ^ k.toNat
  let series := fun (x y : Int) =>
    let z := (x - y) * 2 ^ 100 / (x + y)
    2 * atanhSum 60 1 z (z * z / (2 ^ 100 : Int))
  k * series 2 1 + series p q

/-- T of an NTC in 0.01 °C, rounded to nearest; none where the formula gives no 16-bit result (R367). -/
def ntcValue (code rpu r25 beta : Nat) : Option Int :=
  if rpu * r25 * beta = 0 then none
  else
    let l := lnRatio (rpu * code) (r25 * (4096 - code))
    let num : Int := 2 ^ 100 * 20 * beta + l * 5963
    let den : Int := 2 ^ 100 * 5963 * beta
    if num ≤ 0 then none
    else
      let t := (200 * den + num) / (2 * num) - 27315
      if t < -32767 ∨ 32767 < t then none else some t

/-- A reading's VALUE: none for OPEN and SHORT, and whether the formula gives a result (R367). -/
def adcValue (s : State) (i kind code : Nat) : Option (Option Int) :=
  let p0 := rawAt s (adcReg i 4)
  let p1 := rawAt s (adcReg i 8)
  if kind = 1 then
    some (some (max (-32767) (min 32767 (toInt 16 p1 + Int.tdiv (toInt 16 (fld p0 15 0) * code) 4096))))
  else if code ≤ 15 ∨ 4080 ≤ code then none
  else some (ntcValue code (fld p0 15 0) (fld p1 15 0) (fld p0 31 16))

/-- A sample with a value: its limits judged (R368). -/
def adcJudge (i code : Nat) (v : Int) (s : State) : State :=
  let lim := rawAt s (adcReg i 0xC)
  let x := Tbl.get {} s.tfu.adc i
  let h := standing x.hi (decide (toInt 16 (fld lim 31 16) < v)) x.nHi 3
  let l := standing x.lo (decide (v < toInt 16 (fld lim 15 0))) x.nLo 3
  let y : Adc := { code, value := ofInt 16 v, opened := false, shorted := false,
                   hi := h.1, nHi := h.2, lo := l.1, nLo := l.2 }
  let s1 := updTfu (fun u => { u with adc := Tbl.set {} u.adc i y }) s
  if ((h.1 && !x.hi) || (l.1 && !x.lo)) && regBit s (adcReg i 0) 29 then tfuEvent 6 s1 else s1

/-- ADC_SAMPLE: the average of the sixteen conversions of an input (R367, R368). -/
def adcSample (i code : Nat) (s : State) : State :=
  let kind := regFld s (adcReg i 0) 31 30
  if kind = 0 then s
  else
    match adcValue s i kind code with
    | none =>
      updTfu (fun u => { u with adc := Tbl.upd {} u.adc i (fun x => { x with
        code, value := 0x8000, opened := decide (4080 ≤ code), shorted := decide (code ≤ 15) }) }) s
    | some (some v) => adcJudge i code v s
    | some none =>
      adcJudge i code (toInt 16 (Config.freeValue s.free).toNat) { s with free := s.free + 1 }

/-! VSTBY -/

/-- VSTBY qualifies or falls: every output in its reset state (R353). The pins' release is an output. -/
def tfuReset (s : State) : State :=
  let s1 := forEach (List.range 6) (fun c t => if (pwmAt t c).out = 1024 then t else emit (.pwm c 1024) t) s
  let s2 := forEach [0, 1] (fun v t => if (valveAt t v).gates = [] then t else emit (.gates v []) t) s1
  let steady : Pwm := { heldSince := s.dts, ageDue := s.dts, driven := s.dts }
  updTfu (fun _ => { pwm := (List.range 6).foldl (fun t c => Tbl.set {} t c steady) [] }) s2

end Sys2Proof.Machine
end

