-- ==== Sys2Proof/Machine/FbcFrame.lean ====
section
/-! DEFINITION. The Fluid Bus Controller's elements, message RAM, bit times, filters and configuration check
(R378, R387–R390, R402–R404). -/

namespace Sys2Proof.Machine

/-- Changes the controller. -/
def updFbc (f : Fbc → Fbc) (s : State) : State := { s with fbc := f s.fbc }

/-! Message RAM (R387) -/

/-- A word of the message RAM by its offset in it. -/
def ramWord (s : State) (o : Nat) : Nat := (Tbl.get 0 s.regs (0x2908000 + o)).toNat

/-- Stores a word of the message RAM. -/
def putRamWord (o v : Nat) (s : State) : State :=
  { s with regs := Tbl.set 0 s.regs (0x2908000 + o) (BitVec.ofNat 64 (v % 2 ^ 32))
           fbc := { s.fbc with badWords := s.fbc.badWords.filter (· != o) } }

/-- Stores whole words of the message RAM. -/
def putRam (o : Nat) (bs : List Byte) (s : State) : State :=
  (List.range (bs.length / 4)).foldl (fun t k => putRamWord (o + 4 * k) (getLe bs (4 * k) 4) t) s

/-- Bytes of the message RAM. -/
def ramBytes (s : State) (o words : Nat) : List Byte :=
  (List.range words).flatMap (fun k => leBytes 4 (ramWord s (o + 4 * k)))

/-- The offset of an element: 0 Rx buffer, 1 queue A, 2 queue B, 3 urgent buffer (R387, R394). -/
def rxOffset (space i : Nat) : Nat :=
  match space with
  | 0 => 0x1000 + i * 80
  | 1 => 0x1A00 + i * 80
  | 2 => 0x2400 + i * 80
  | _ => 0x3400

/-! Frames (R388) -/

/-- Data bytes of a DLC (ISO 11898-1). -/
def dlcBytes (fdf : Bool) (dlc : Nat) : Nat :=
  if dlc ≤ 8 then dlc else if fdf then [12, 16, 20, 24, 32, 48, 64].getD (dlc - 9) 64 else 8

/-- A frame's data bytes; a remote frame carries none. -/
def CanFrame.bytes (f : CanFrame) : Nat := if f.rtr then 0 else dlcBytes f.fdf f.dlc

/-- Arbitration order: the lower value wins (R396). -/
def CanFrame.rank (f : CanFrame) : Nat :=
  if f.ide then f.ident / 2 ^ 18 * 2 ^ 20 + 2 ^ 19 + f.ident % 2 ^ 18 else f.ident * 2 ^ 20

/-- The frame a Tx element describes. -/
def elementFrame (e : List Byte) : CanFrame :=
  let w0 := getLe e 0 4
  let w1 := getLe e 4 4
  let f : CanFrame := { ident := fld w0 28 0, ide := bitOf w0 31, rtr := bitOf w0 30, fdf := bitOf w1 27,
                        brs := bitOf w1 26, dlc := fld w1 31 28 }
  { f with data := slice e 16 f.bytes }

/-- A Tx element carries no reserved value (R388). -/
def elementOk (s : State) (e : List Byte) : Bool :=
  let w0 := getLe e 0 4
  let w1 := getLe e 4 4
  let fdf := bitOf w1 27
  !(bitOf w0 29) && fld w1 15 0 == 0 && (bitOf w0 31 || fld w0 28 11 == 0) && !(bitOf w0 30 && fdf) &&
  (!fdf || regBit s 0x2900000 27) && (!(bitOf w1 26) || (fdf && regBit s 0x2900000 26))

/-- An Rx element (R388). -/
def rxElement (f : CanFrame) (misplaced : Bool) (filter : Option Nat) (cycle ball sof : Nat) : List Byte :=
  let w0 := b2n f.ide * 2 ^ 31 + b2n f.rtr * 2 ^ 30 + f.ident
  let m := match filter with
    | some k => k * 2 ^ 16
    | none => 255 * 2 ^ 16
  let w1 := f.dlc * 2 ^ 28 + b2n f.fdf * 2 ^ 27 + b2n f.brs * 2 ^ 26 + b2n f.esi * 2 ^ 25 +
    b2n misplaced * 2 ^ 24 + m + cycle * 2 ^ 10 + ball * 32
  leBytes 4 w0 ++ leBytes 4 w1 ++ leBytes 8 sof ++ slice (f.data.take f.bytes) 0 64

/-! Bit times (R378) -/

/-- Nominal and data bit times in CAN clock periods of 12.5 ns. -/
def nomClocks (s : State) : Nat :=
  regFld s 0x290000C 31 24 * (1 + regFld s 0x290000C 23 16 + regFld s 0x290000C 15 8)

/-- Data bit time in CAN clock periods. -/
def dataClocks (s : State) : Nat :=
  regFld s 0x2900010 31 24 * (1 + regFld s 0x2900010 23 16 + regFld s 0x2900010 15 8)

/-- `k` nominal bit times in ns. -/
def bitsNs (s : State) (k : Nat) : Nat := k * nomClocks s * 25 / 2

/-- R378: FBC_ARB_TIMING holds a legal rate and JUMP. -/
def arbTimingOk (v : Nat) : Bool :=
  let q := fld v 31 24 * (1 + fld v 23 16 + fld v 15 8)
  decide (80 ≤ q) && decide (q ≤ 640) && decide (1 ≤ fld v 7 0) && decide (fld v 7 0 ≤ fld v 15 8)

/-- R378: FBC_DATA_TIMING holds a legal rate and JUMP. -/
def dataTimingOk (s : State) (v : Nat) : Bool :=
  let q := fld v 31 24 * (1 + fld v 23 16 + fld v 15 8)
  decide (10 ≤ q) && decide (q ≤ nomClocks s) && decide (1 ≤ fld v 7 0) && decide (fld v 7 0 ≤ fld v 15 8)

/-- A frame's worst-case length in CAN clock periods, with the most stuff bits ISO 11898-1 allows (R404). -/
def worstClocks (na nd : Nat) (f : CanFrame) : Nat :=
  let n := f.bytes
  if f.fdf then
    let arb := if f.ide then 36 else 17
    let arbStuff := (arb - 1) / 4
    let stuff := (arb + 4 + 8 * n) / 4
    let crc := if 16 < n then 32 else 27
    let dat := 6 + 8 * n + (stuff - arbStuff) + crc
    (arb + arbStuff + 9) * na + dat * (if f.brs then nd else na)
  else
    let m := (if f.ide then 54 else 34) + 8 * n
    (m + 10 + (m - 1) / 4) * na

/-- A frame's worst-case length in ns. -/
def worstNs (s : State) (f : CanFrame) : Nat := ceilDiv (worstClocks (nomClocks s) (dataClocks s) f * 25) 2

/-! Acceptance filters (R389, R390) -/

/-- A filter element matches a frame. -/
def filterHits (s : State) (f : CanFrame) (k : Nat) : Bool :=
  let w0 := ramWord s (16 * k)
  if bitOf w0 31 && bitOf w0 30 == f.ide then
    let a := fld (ramWord s (16 * k + 4)) 28 0
    let b := fld (ramWord s (16 * k + 8)) 28 0
    match fld w0 29 27 with
    | 0 => f.ident == a
    | 1 => decide (a ≤ f.ident) && decide (f.ident ≤ b)
    | 2 => (f.ident &&& b) == (a &&& b)
    | 3 => f.ident == a || f.ident == b
    | _ => false
  else false

/-- The first filter that matches. -/
def filterOf (s : State) (f : CanFrame) : Option Nat := (List.range 96).find? (filterHits s f)

/-- An enabled filter element has a reserved field or value (R389). -/
def filterBad (s : State) (k : Nat) : Bool :=
  let w0 := ramWord s (16 * k)
  let a := ramWord s (16 * k + 4)
  let b := ramWord s (16 * k + 8)
  let idBad := fun v => fld v 31 29 != 0 || (!(bitOf w0 30) && fld v 28 11 != 0)
  bitOf w0 31 &&
  (decide (4 ≤ fld w0 29 27) || decide (5 ≤ fld w0 26 24) || fld w0 23 21 != 0 || fld w0 15 0 != 0 ||
   (fld w0 26 24 != 3 && fld w0 20 16 != 0) || idBad a || idBad b || (fld w0 29 27 == 0 && b != 0) ||
   ramWord s (16 * k + 12) != 0)

/-! Triggers (R402, R403) -/

/-- The mode, CCM and the balls of an over. -/
def fbcMode (s : State) : Nat := regFld s 0x2900000 29 28

/-- Highest cycle count. -/
def ccm (s : State) : Nat := regFld s 0x2900100 31 26

/-- Balls per over. -/
def balls (s : State) : Nat := regFld s 0x2900100 25 21 + 1

/-- TXEN in bit times. -/
def txEn (s : State) : Nat := regFld s 0x2900100 20 17 + 1

/-- Triggers in use. -/
def triggers (s : State) : List Nat := List.range (regFld s 0x290012C 7 0)

/-- Word 0 of a trigger. -/
def trig (s : State) (t : Nat) : Nat := ramWord s (0x3000 + 8 * t)

/-- A trigger applies to an over of this cycle count. -/
def trigApplies (w cycle : Nat) : Bool := cycle % 2 ^ fld w 17 15 == fld w 23 18

/-- The transmit buffer of a TX_EXCL trigger that applies to a ball. -/
def exclusiveIn (s : State) (cycle ball : Nat) : Option Nat :=
  (triggers s).findSome? (fun t =>
    let w := trig s t
    if fld w 31 29 == 0 && fld w 28 24 == ball && trigApplies w cycle then some (fld w 14 10) else none)

/-- A ball is part of an arbitrating window. -/
def arbIn (s : State) (cycle ball : Nat) : Bool :=
  (triggers s).any (fun t =>
    let w := trig s t
    fld w 31 29 == 1 && fld w 28 24 == ball && trigApplies w cycle)

/-- A TX_EXCL trigger in use schedules a buffer. -/
def scheduled (s : State) (k : Nat) : Bool :=
  (triggers s).any (fun t => fld (trig s t) 31 29 == 0 && fld (trig s t) 14 10 == k)

/-- The reference buffer. -/
def refBuf (s : State) : Nat := regFld s 0x2900110 4 0

/-- R397: buffers whose requests are reserved encodings. -/
def requestReserved (s : State) (mask : Nat) : Bool :=
  fbcMode s != 0 && (List.range 32).any (fun k => bitOf mask k && (k == refBuf s || scheduled s k))

/-- Two triggers apply to one over. -/
def trigMeet (a b : Nat) : Bool :=
  let m := 2 ^ min (fld a 17 15) (fld b 17 15)
  fld a 23 18 % m == fld b 23 18 % m

/-- A trigger fails the check, by itself or with an earlier one (R402, R403). -/
def trigBad (s : State) (t : Nat) : Bool :=
  let w := trig s t
  let x := ramWord s (0x3004 + 8 * t)
  let ty := fld w 31 29
  decide (3 ≤ ty) || fld w 28 24 == 0 || decide (balls s ≤ fld w 28 24) ||
  decide (ccm s + 1 < 2 ^ fld w 17 15) || decide (2 ^ fld w 17 15 ≤ fld w 23 18) || fld w 9 0 != 0 ||
  (ty != 0 && fld w 14 10 != 0) ||
  (if ty == 2 then bitOf x 31 || bitOf x 29 || (!(bitOf x 30) && fld x 28 11 != 0) else x != 0) ||
  (ty == 0 && fld w 14 10 == refBuf s) ||
  (List.range t).any (fun u =>
    let v := trig s u
    trigMeet w v &&
    ((fld w 28 24 == fld v 28 24 && ((ty == 0 && decide (fld v 31 29 ≤ 1)) || (ty == 1 && fld v 31 29 == 0))) ||
     (ty == 0 && fld v 31 29 == 0 && fld w 14 10 == fld v 14 10 && fld w 28 24 != fld v 28 24)))

/-- A transmit shadow (R395). -/
def txShadow (s : State) (k : Nat) : List Byte := slice (Tbl.get [] s.fbc.shadows k) 0 80

/-- The reference buffer does not hold a reference (R403). -/
def refBufBad (s : State) : Bool :=
  let f := elementFrame (txShadow s (refBuf s))
  f.ide || decide (f.ident < regFld s 0x290010C 10 0) || decide (regFld s 0x290010C 26 16 < f.ident) ||
  decide (f.bytes < 8)

/-- R403's figures that belong to no element. -/
def figuresBad (s : State) : Bool :=
  !([0, 1, 3, 7, 15, 31, 63].contains (ccm s)) ||
  decide (regFld s 0x2900104 23 0 * 20 < 64 * nomClocks s * 25 * balls s)

/-- The check of R381: the message RAM offset of the first failing element. A figure at fault has no element, and the
offset recorded is then a free value. -/
def fbcCheck (s : State) : Option Nat :=
  let filters := (List.range 96).find? (filterBad s)
  match filters with
  | some k => some (16 * k)
  | none =>
    if fbcMode s = 0 then none
    else if fbcMode s = 2 ∧ refBufBad s = true then some (0x600 + 80 * refBuf s)
    else
      match (triggers s).find? (trigBad s) with
      | some t => some (0x3000 + 8 * t)
      | none => if figuresBad s then some ((Config.freeValue s.free).toNat % 2 ^ 14) else none

end Sys2Proof.Machine
end

