-- ==== Sys2Proof/Machine/FbcOps.lean ====
section
/-! DEFINITION. The Fluid Bus Controller at work: overs, references, reception, transmission, errors (R376–R413). -/

namespace Sys2Proof.Machine

/-! Events, standing and levels -/

/-- An event bit of FBC_EVT rises (R413). -/
def fbcEvent (bit : Nat) (s : State) : State :=
  if regBit s 0x29000A0 bit then s
  else
    let s1 := orReg 0x29000A0 (2 ^ bit) s
    if regBit s 0x29000A4 bit then
      let line := if bit = 16 then 1 else b2n (regBit s 0x29000A8 bit)
      let s2 := emit (.islandIrq line) s1
      if regBit s 0x29000AC 31 then sendVec 0 (regFld s 0x29000AC 10 0) s2 else s2
    else if bit = 16 then emit (.islandIrq 1) s1
    else s1

/-- FBC_STATUS.RUN (R380). -/
def fbcRuns (s : State) : Bool := !(regBit s 0x2900000 31)

/-- The time-triggered error level (R410). -/
def ttLevel (s : State) : Nat :=
  if s.fbc.level3 then 3 else if s.fbc.level2 then 2 else if s.fbc.level1 then 1 else 0

/-- Restricted operation (R382). -/
def restricted (s : State) : Bool := regBit s 0x2900000 25 || s.fbc.level3

/-- An entry of the controller in the error unit (R386). -/
def fbcLog (s : State) : State := logErr { cls := 16, cause := 2, sev := sevContained, source := 0x29 } s

/-- Runs `f` and raises what a change of level or of restricted operation raises (R382, R386, R410). -/
def levelled (f : State → State) (s : State) : State :=
  let t := f s
  let t1 := if ttLevel t = ttLevel s then t
    else
      let u := fbcEvent 5 t
      if 2 ≤ ttLevel t then fbcLog u else u
  if restricted t == restricted s then t1 else fbcEvent 20 t1

/-- The role of time master changes (FBC_EVT.MASTER). -/
def setMaster (m : Bool) (s : State) : State :=
  if s.fbc.master == m then s
  else fbcEvent 6 (updFbc (fun b => { b with
    master := m, take := false, takeAt := none, sentRef := false, lastStrobe := none, lastSync := none
    refDue := none, corr := if m then 0 else b.corr
    level2 := if m then false else b.level2 }) s)

/-- The node may send frames. -/
def mayTx (s : State) : Bool :=
  fbcRuns s && !s.fbc.clkHold && !s.fbc.busOff && !(restricted s) && !(regBit s 0x2900000 24) &&
  decide (s.fbc.integrated ≤ s.dts)

/-- A condition of error level 1 in the current over (R410). -/
def mar (s : State) : State :=
  levelled (updFbc (fun b => { b with level1 := true, curOver := b.curOver.map (fun o => { o with marred := true }) })) s

/-- A conflict (R406, R408). -/
def conflict (s : State) : State := mar (fbcEvent 4 (bumpFld 0x2900128 7 0 s))

/-! Overs (R400) -/

/-- Master time as this node's own clock measures it. -/
def ownTime (s : State) (ns : Nat) : Nat :=
  if s.fbc.master then ns else ((ns : Int) * (1000000 + s.fbc.corr) / 1000000).toNat

/-- The start of a ball. -/
def ballStart (s : State) (o : Over) (b : Nat) : Nat := o.sync + ownTime s (b * o.len * 10 / balls s)

/-- The end of the over. -/
def overEnd (s : State) (o : Over) : Nat := o.sync + ownTime s (o.len * 10)

/-- The ball of an instant. -/
def ballOf (s : State) (o : Over) (t : Nat) : Nat :=
  ((List.range (balls s)).filter (fun b => decide (1 ≤ b) && decide (ballStart s o b ≤ t))).length

/-- Cycle and ball of an instant; 0 in event mode. -/
def placeOf (s : State) (t : Nat) : Nat × Nat :=
  match s.fbc.curOver with
  | none => (0, 0)
  | some o => (o.cycle, ballOf s o t)

/-- A new over begins; the one before decides error level 1 (R410). -/
def beginOver (o : Over) (s : State) : State :=
  levelled (updFbc (fun b => { b with
    level1 := (match b.curOver with
      | some old => old.marred
      | none => false)
    curOver := some o, overs := b.overs + 1 })) s

/-! The transmit log (R398) -/

/-- Stores a log entry, when LOG_EVENT asks for it. KIND: 1 SENT, 2 LATE, 3 FAILED. -/
def logTx (kind buf word1 : Nat) (f : CanFrame) (cycle ball at_ : Nat) (s : State) : State :=
  if !(bitOf word1 24) then s
  else if s.fbc.txLog.count = 32 then bumpFld 0x2900088 31 0 s
  else
    let q := s.fbc.txLog
    let w0 := b2n f.ide * 2 ^ 31 + f.ident
    let w1 := f.dlc * 2 ^ 28 + b2n f.fdf * 2 ^ 27 + b2n f.brs * 2 ^ 26 + kind * 2 ^ 24 + fld word1 23 16 * 2 ^ 16 +
      cycle * 2 ^ 10 + ball * 32 + buf
    let s1 := putRam (0x2E00 + (q.get + q.count) % 32 * 16) (leBytes 4 w0 ++ leBytes 4 w1 ++ leBytes 8 at_) s
    fbcEvent 19 (updFbc (fun b => { b with txLog := { q with count := q.count + 1 } }) s1)

/-! Requests (R384, R396, R397) -/

/-- Word 1 of a transmit shadow. -/
def shadowWord1 (s : State) (k : Nat) : Nat := getLe (txShadow s k) 4 4

/-- A request or an exclusive frame ends FAILED. -/
def failTx (k word1 : Nat) (f : CanFrame) (cycle ball at_ : Nat) (s : State) : State :=
  let s1 := updFbc (fun b => { b with busy := b.busy - (b.busy &&& 2 ^ k) }) (orReg 0x2900060 (2 ^ k) s)
  logTx 3 k word1 f cycle ball at_ (fbcEvent 18 s1)

/-- A pending request that has not started ends FAILED (R397). -/
def failPending (k : Nat) (s : State) : State :=
  let p := placeOf s s.dts
  failTx k (shadowWord1 s k) (elementFrame (txShadow s k)) p.1 p.2 s.dts s

/-- FBC_TX_ABORT (R397). -/
def abortTx (mask : Nat) (s : State) : State :=
  (List.range 32).foldl (fun t k =>
    if bitOf mask k && bitOf t.fbc.busy k then
      match t.fbc.sending with
      | some c => if c.buf = k then updFbc (fun b => { b with sending := some { c with abort := true } }) t
          else failPending k t
      | none => failPending k t
    else t) s

/-- A Tx buffer's offset in BAR0. -/
def txBufAt (k : Nat) : Nat := 0x2908600 + 80 * k

/-- A request for a reserved element ends FAILED and is logged with the element's offset (R388). -/
def failReserved (k : Nat) (s : State) : State := logCfg 1 (txBufAt k) .island (failPending k s)

/-- Copies the Tx buffers that FBC_TX_LOAD named and that are not being sent (R395). -/
def loadTx (s : State) : State :=
  (List.range 32).foldl (fun t k =>
    let held := match t.fbc.sending with
      | some c => c.buf == k
      | none => false
    if bitOf t.fbc.loading k && !held then
      let e := ramBytes t (0x600 + 80 * k) 20
      let e' := if allZero e then [] else e
      updFbc (fun b => { b with loading := b.loading - 2 ^ k, shadows := Tbl.set [] b.shadows k e' }) t
    else t) s

/-- The end of the arbitrating window that holds an instant (R404). -/
def windowEnd (s : State) (t : Nat) : Option Nat :=
  match s.fbc.curOver with
  | none => none
  | some o =>
    let b := ballOf s o t
    if !(arbIn s o.cycle b) then none
    else
      let stop := ((List.range (balls s)).find? (fun k => decide (b < k) && !(arbIn s o.cycle k))).getD (balls s)
      some (if stop = balls s then overEnd s o else ballStart s o stop)

/-- An event frame may start now (R396, R404, R411). -/
def eventFits (s : State) (f : CanFrame) : Bool :=
  if fbcMode s = 0 then true
  else if s.fbc.sync != 2 then false
  else match windowEnd s s.dts with
    | some e => decide (s.dts + worstNs s f ≤ e)
    | none => false

/-- The eligible request that wins (R396). -/
def bestRequest (s : State) : Option Nat :=
  let l := (List.range 32).filter (fun k =>
    let e := txShadow s k
    bitOf s.fbc.busy k && decide (getLe e 8 8 ≤ s.dts) && eventFits s (elementFrame e))
  l.foldl (fun (b : Option Nat) k =>
    match b with
    | none => some k
    | some j => if (elementFrame (txShadow s k)).rank < (elementFrame (txShadow s j)).rank then some k else b) none

/-- A frame starts. -/
def startTx (k : Nat) (kind : TxKind) (sof : Nat) (f : CanFrame) (s : State) : State :=
  let p := if fbcMode s = 0 then (0, 0) else placeOf s sof
  let c : TxCur := { buf := k, kind, sof, frame := f, word1 := shadowWord1 s k, cycle := p.1, ball := p.2 }
  updFbc (fun b => { b with sending := some c }) s

/-! References (R399, R401) -/

/-- The condition under which strobes pace the overs (R401). -/
def paced (s : State) : Bool :=
  regBit s 0x2900100 16 && regBit s 0x2600038 31 &&
  (let st := (phaseCh s (regFld s 0x2600038 25 24)).st
   st == .locked || st == .holdover)

/-- OVER_LEN. -/
def overLen (s : State) : Nat := regFld s 0x2900104 23 0

/-- The first eight data bytes of a reference (R399). -/
def refHeader (cycle : Nat) (p : Bool) (len prev : Nat) : List Byte :=
  leBytes 1 cycle ++ leBytes 1 (b2n p) ++ leBytes 3 len ++ leBytes 3 prev

/-- The node sends its reference, as time master, and its over begins at the start of frame. -/
def sendRef (sof : Nat) (d : RefDue) (s : State) : State :=
  let k := refBuf s
  let e := txShadow s k
  let s0 := updFbc (fun b => { b with refDue := none, take := false, takeAt := none }) s
  if !(elementOk s e) || (elementFrame e).rtr then failReserved k s0
  else
    let s1 := updFbc (fun b => { b with sync := 2, misses := 0 }) (setMaster true s0)
    let prev := match s1.fbc.lastSync with
      | some t => if s1.fbc.sentRef then (sof - t) / 10 % 2 ^ 24 else 0
      | none => 0
    let f := elementFrame e
    let s2 := if d.again then updFbc (fun b => { b with curOver := b.curOver.map (fun o => { o with sync := sof }) }) s1
      else beginOver { sync := sof, len := d.len, cycle := d.cycle, free := regBit s 0x2900100 16 && !d.paced } s1
    startTx k .reference sof { f with data := putBytes f.data 0 (refHeader d.cycle d.paced d.len prev) } s2

/-- A reference is due: sent at once, or when this node's own frame has ended (R401). -/
def dueRef (len : Nat) (paced : Bool) (cycle : Nat) (s : State) : State :=
  let d : RefDue := { len, paced, cycle }
  if mayTx s && s.fbc.sending.isNone then sendRef s.dts d s
  else updFbc (fun b => { b with refDue := some d }) s

/-- The next cycle count. -/
def nextCycle (s : State) (c : Nat) : Nat := (c + 1) % (ccm s + 1)

/-- A scheduled frame is LATE (R404). -/
def lateBall (o : Over) (b k : Nat) (s : State) : State :=
  let f := elementFrame (txShadow s k)
  let s1 := mar (fbcEvent 2 (bumpFld 0x2900128 31 24 s))
  logTx 2 k (shadowWord1 s k) f o.cycle b (ballStart s o b + bitsNs s (txEn s)) s1

/-- Exclusive frames that were never reached in an over cut short are LATE (R401). -/
def loseBalls (o : Over) (s : State) : State :=
  (run o.nextBall (balls s - o.nextBall)).foldl (fun t b =>
    match exclusiveIn t o.cycle b with
    | some k => lateBall o b k t
    | none => t) s

/-- One over-start strobe (R319, R401). -/
def strobe (s : State) : State :=
  if !s.fbc.master || !(regBit s 0x2900100 16) || !(fbcRuns s) || !(paced s) then s
  else
    let len := match s.fbc.lastStrobe with
      | some t => (s.dts - t) / 10
      | none => overLen s
    let s1 := match s.fbc.curOver with
      | some o => if o.free then loseBalls o s else s
      | none => s
    let cycle := match s.fbc.curOver with
      | some o => nextCycle s o.cycle
      | none => 0
    dueRef len true cycle (updFbc (fun b => { b with lastStrobe := some s.dts }) s1)

/-- OVER_LENGTH_EXPIRY: the over of the time master, or of a node under TAKE, has lasted its length (R401, R408). -/
def overExpiry (s : State) : State :=
  match s.fbc.curOver with
  | none => s
  | some o =>
    if s.fbc.master then
      if paced s then s
      else dueRef (overLen s) false (nextCycle s o.cycle) (advanceTo (overEnd s o) s)
    else if s.fbc.take && s.fbc.sync == 2 then dueRef o.len false (nextCycle s o.cycle) (advanceTo (overEnd s o) s)
    else s

/-! What happens by itself -/

/-- ISL_CLK25 is lost (R379). -/
def clk25Lost (s : State) : State :=
  if s.fbc.clkHold then updFbc (fun b => { b with clkHoldEnd := none }) s
  else
    let cut := fun (t : State) => match t.fbc.sending with
      | some c => if c.kind == .event && (bitOf c.word1 25 || c.abort) then
            failTx c.buf c.word1 c.frame c.cycle c.ball c.sof t
          else t
      | none => t
    let s1 := updFbc (fun b => { b with clkHold := true, clkHoldEnd := none, sending := none }) (cut s)
    let s2 := setMaster false s1
    fbcEvent 21 (fbcLog (updFbc (fun b => { b with sync := 0, curOver := none, refDue := none, take := false, takeAt := none }) s2))

/-- ISL_CLK25 requalifies (R379). -/
def clk25Back (s : State) : State :=
  if s.fbc.clkHold then updFbc (fun b => { b with clkHoldEnd := some (s.dts + 1000000) }) s else s

/-- The end of clock hold. -/
def leaveHold (s : State) : State :=
  match s.fbc.clkHoldEnd with
  | some t =>
    if t ≤ s.dts then
      fbcEvent 21 (updFbc (fun b => { b with
        clkHold := false, clkHoldEnd := none, integrated := t + bitsNs s 11, sync := 0, curOver := none }) s)
    else s
  | none => s

/-- Requests for reserved elements end; the winner of the rest starts (R388, R396). -/
def startEvent (s : State) : State :=
  if s.fbc.sending.isSome || !(mayTx s) then s
  else
    let s1 := (List.range 32).foldl (fun t k =>
      if bitOf t.fbc.busy k && !(elementOk t (txShadow t k)) then failReserved k t else t) s
    match bestRequest s1 with
    | some k => startTx k .event s1.dts (elementFrame (txShadow s1 k)) s1
    | none => s1

/-- The controller catches up: clock hold, strobes, copies, a due reference and event frames. -/
def settleFbc (s : State) : State :=
  if s.fbc.busy = 0 ∧ s.fbc.loading = 0 ∧ s.ptu.overStarts = [] ∧ s.fbc.clkHoldEnd = none ∧ s.fbc.refDue = none then s
  else
    let s1 := leaveHold s
    let s2 := (s1.ptu.overStarts.foldl (fun t _ => strobe t) { s1 with ptu := { s1.ptu with overStarts := [] } })
    let s3 := loadTx s2
    let s4 := match s3.fbc.refDue with
      | some d => if mayTx s3 && s3.fbc.sending.isNone then sendRef s3.dts d s3 else s3
      | none => s3
    startEvent s4

/-! Reception -/

/-- A received element is stored; shadows of it become old (R391, R394). -/
def storeRx (space i : Nat) (e : List Byte) (s : State) : State :=
  let s1 := putRam (rxOffset space i) e s
  updFbc (fun b => { b with rx := b.rx.map (fun p =>
    if p.2.valid && p.2.space == space && p.2.index == i then (p.1, { p.2 with newer := true }) else p) }) s1

/-- A frame directed to a receive queue (R392). -/
def storeQueue (second : Bool) (e : List Byte) (s : State) : State :=
  let q := if second then s.fbc.queueB else s.fbc.queueA
  if q.count = 32 then
    fbcEvent (if second then 14 else 12) (bumpFld (if second then 0x2900038 else 0x2900028) 31 0 s)
  else
    let s1 := storeRx (if second then 2 else 1) ((q.get + q.count) % 32) e s
    let q' := { q with count := q.count + 1 }
    fbcEvent (if second then 13 else 11)
      (updFbc (fun b => if second then { b with queueB := q' } else { b with queueA := q' }) s1)

/-- A frame directed to an Rx buffer (R391). -/
def storeBuffer (k : Nat) (e : List Byte) (s : State) : State :=
  let s1 := if regBit s 0x2900040 k then orReg 0x2900044 (2 ^ k) s else s
  fbcEvent 15 (orReg 0x2900040 (2 ^ k) (storeRx 0 k e s1))

/-- A frame directed to the urgent buffer (R393). -/
def storeUrgent (e : List Byte) (s : State) : State :=
  if regBit s 0x2900090 31 then
    storeQueue false e (updFbc (fun b => { b with overflow := satInc 0xFFFF b.overflow }) s)
  else fbcEvent 16 (orReg 0x2900090 (2 ^ 31) (storeRx 3 0 e s))

/-- R405: a frame lies outside the ball of every RX_CHECK trigger that expects it. -/
def misplacedAt (s : State) (f : CanFrame) (sof : Nat) : Bool :=
  match s.fbc.curOver with
  | none => false
  | some o =>
    let l := (triggers s).filter (fun t =>
      let w := trig s t
      let x := ramWord s (0x3004 + 8 * t)
      fld w 31 29 == 2 && trigApplies w o.cycle && bitOf x 30 == f.ide && fld x 28 0 == f.ident)
    !l.isEmpty && l.all (fun t =>
      let b := ballStart s o (fld (trig s t) 28 24)
      decide (sof + bitsNs s 1 < b) || decide (b + bitsNs s (txEn s + 1) < sof))

/-- A valid frame is filtered and stored (R390–R393, R405). -/
def filterFrame (f : CanFrame) (sof : Nat) (s : State) : State :=
  let late := fbcMode s != 0 && misplacedAt s f sof
  let s1 := if late then mar (fbcEvent 3 (bumpFld 0x2900128 23 16 s)) else s
  let p := if fbcMode s = 0 then (0, 0) else placeOf s sof
  if f.rtr && regBit s 0x2900018 (if f.ide then 9 else 8) then s1
  else
    let hit := filterOf s f
    let e := rxElement f late hit p.1 p.2 sof
    match hit with
    | none =>
      match (if f.ide then regFld s 0x2900018 3 2 else regFld s 0x2900018 1 0) with
      | 1 => storeQueue false e s1
      | 2 => storeQueue true e s1
      | _ => s1
    | some k =>
      let w0 := ramWord s (16 * k)
      match fld w0 26 24 with
      | 1 => storeQueue false e s1
      | 2 => storeQueue true e s1
      | 3 => storeBuffer (fld w0 20 16) e s1
      | 4 => storeUrgent e s1
      | _ => s1

/-! References received (R399, R406, R408–R412) -/

/-- A frame is a reference (R399). -/
def isRef (s : State) (f : CanFrame) : Bool :=
  fbcMode s != 0 && !f.ide && !f.rtr && decide (8 ≤ f.bytes) &&
  decide (regFld s 0x290010C 10 0 ≤ f.ident) && decide (f.ident ≤ regFld s 0x290010C 26 16) &&
  decide (getLe f.data 0 1 % 64 ≤ ccm s)

/-- R409: the drift measurement of a reference with its own sync point, and whether it is within limits. -/
def measure (sof prev : Nat) (s : State) : Option Bool × State :=
  match s.fbc.lastSync with
  | none => (none, s)
  | some t =>
    if prev = 0 ∨ sof ≤ t then (none, s)
    else
      let i : Int := sof - t
      let m : Int := 10 * prev
      let rate := Int.tdiv ((i - m) * 1000000) m
      let phase := i - Int.tdiv (m * (1000000 + s.fbc.corr)) 1000000
      let ok := decide (rate.natAbs ≤ regFld s 0x2900108 31 16) &&
        decide (phase.natAbs ≤ bitsNs s (regFld s 0x2900108 7 0))
      (some ok, updFbc (fun b => { b with rate, phase, corr := rate }) s)

/-- Error level 2 after a measurement (R410). -/
def judgeDrift (m : Option Bool) (s : State) : State :=
  match m with
  | none => s
  | some false => updFbc (fun b => { b with level2 := true, good := 0 }) s
  | some true => updFbc (fun b => { b with good := b.good + 1, level2 := b.level2 && decide (b.good + 1 < 2) }) s

/-- The cycle count a node predicts for a reference (R406): a predicted over is the one the reference begins when
the reference lies in its first half. -/
def predictedCycle (s : State) (o : Over) (sof : Nat) : Nat :=
  if o.predicted && decide (2 * (sof - o.sync) < overEnd s o - o.sync) then o.cycle else nextCycle s o.cycle

/-- A reference is accepted by a node that is not time master. -/
def acceptRef (f : CanFrame) (sof : Nat) (s : State) : State :=
  let cycle := getLe f.data 0 1 % 64
  let len := getLe f.data 2 3
  let gap := bitOf (getLe f.data 0 1) 7
  let s0 := updFbc (fun b => { b with takeAt := none, refDue := none }) s
  let second := s.fbc.sync == 1 &&
    (match s.fbc.curOver with
     | some o => decide (sof ≤ overEnd s o + bitsNs s (regFld s 0x2900100 10 0))
     | none => false)
  let wrong := s.fbc.sync == 2 &&
    (match s.fbc.curOver with
     | some o => predictedCycle s o sof != cycle
     | none => false)
  let r := measure sof (getLe f.data 5 3) s0
  let leave3 := second && s.fbc.level3
  let s1 := levelled (fun t =>
    let t1 := judgeDrift r.1 t
    let t2 := if leave3 then
        updFbc (fun b => { b with level3 := false, level1 := false, level2 := r.1 == some false, good := 0 }) t1
      else t1
    updFbc (fun b => { b with
      sync := if b.sync = 2 then 2 else if second then 2 else 1
      misses := 0, masterId := f.ident, lastSync := some sof, corrDts := sof, corrCycle := some cycle }) t2) r.2
  let s2 := fbcEvent 0 (beginOver { sync := sof, len, cycle } s1)
  if gap || wrong then conflict s2 else s2

/-- A reference is received (R408). -/
def receiveRef (f : CanFrame) (sof : Nat) (s : State) : State :=
  if s.fbc.master then
    if f.ident < (elementFrame (txShadow s (refBuf s))).ident then acceptRef f sof (setMaster false s) else conflict s
  else acceptRef f sof s

/-! Error counters (R385) -/

/-- Events of the error-warning and error-passive limits. -/
def errLimits (s t : State) : State :=
  let lim := fun (n : Nat) (u : State) => decide (n ≤ u.fbc.tec) || decide (n ≤ u.fbc.rec_)
  let t1 := if lim 96 s == lim 96 t then t else fbcEvent 7 t
  if lim 128 s == lim 128 t then t1 else fbcEvent 8 t1

/-- Bus-off entry (R385). -/
def enterBusOff (s : State) : State :=
  let s1 := setMaster false (updFbc (fun b => { b with busOff := true, recovery := 0, sending := none, refDue := none }) s)
  let s2 := (List.range 32).foldl (fun t k =>
    if bitOf t.fbc.busy k && bitOf (shadowWord1 t k) 25 then failPending k t else t) s1
  fbcEvent 9 (fbcLog s2)

/-- The receive counter after the errors before a frame and the frame itself (ISO 11898-1). -/
def countRx (recUp : Nat) (s : State) : State :=
  if restricted s || regBit s 0x2900000 24 then s
  else
    let n := min 255 (s.fbc.rec_ + recUp)
    let free := decide (127 < n)
    let v := if free then 119 + (Config.freeValue s.free).toNat % 9 else n - 1
    let s1 := if free then { s with free := s.free + 1 } else s
    errLimits s (updFbc (fun b => { b with rec_ := v }) s1)

/-- An attempt to send ends without success: retried, or FAILED (R384, R397, R401). -/
def endAttempt (s : State) : State :=
  match s.fbc.sending with
  | none => s
  | some c =>
    let s1 := updFbc (fun b => { b with sending := none }) s
    match c.kind with
    | .event => if bitOf c.word1 25 || c.abort then failTx c.buf c.word1 c.frame c.cycle c.ball c.sof s1 else s1
    | .exclusive => mar (failTx c.buf c.word1 c.frame c.cycle c.ball c.sof s1)
    | .reference =>
      match s1.fbc.curOver with
      | some o =>
        if s1.fbc.master then
          let d : RefDue := { len := o.len, paced := bitOf (getLe c.frame.data 1 1) 0, cycle := o.cycle, again := true }
          updFbc (fun b => { b with refDue := some d }) s1
        else s1
      | none => s1

/-- FRAME_RECEIVE: a valid frame, its start of frame, and the receive errors counted since the last command. -/
def frameReceive (f : CanFrame) (sof recUp : Nat) (s : State) : State :=
  if !(fbcRuns s) || s.fbc.clkHold || s.fbc.busOff || decide (sof < s.fbc.integrated) then s
  else
    let s1 := countRx recUp (updFbc (fun b => { b with lastErr := 0 }) (advanceTo sof s))
    let s2 := match s1.fbc.sending with
      | some c => if c.sof ≤ sof then endAttempt s1
          else updFbc (fun b => { b with sending := some { c with sof := s1.dts } }) s1
      | none => s1
    let s3 := if isRef s2 f then receiveRef f sof s2 else s2
    filterFrame f sof s3

/-! Transmission -/

/-- FRAME_TRANSMIT_DONE: the frame on its way out ends well; its start of frame, and the loop delay an FD frame
measured (R378, R397, R399, R412). -/
def frameDone (sof loop : Nat) (s : State) : State :=
  match s.fbc.sending with
  | none => s
  | some c =>
    let at_ := max c.sof sof
    let k := c.buf
    let s1 := advanceTo at_ s
    let s2 := errLimits s1 (updFbc (fun b => { b with
      sending := none, tec := b.tec - 1, lastErr := 0, busy := b.busy - (b.busy &&& 2 ^ k)
      loopDelay := if c.frame.fdf then loop % 256 else b.loopDelay }) s1)
    let s3 := emit (.frame c.frame k at_) (fbcEvent 17 (orReg 0x290005C (2 ^ k) s2))
    match c.kind with
    | .reference =>
      let cyc := getLe c.frame.data 0 1 % 64
      fbcEvent 0 (updFbc (fun b => { b with
        curOver := b.curOver.map (fun o => if o.sync = c.sof then { o with sync := at_ } else o)
        sentRef := true, lastSync := some at_, masterId := c.frame.ident, corrDts := at_, corrCycle := some cyc }) s3)
    | _ => logTx 1 k c.word1 c.frame c.cycle c.ball at_ s3

/-- TX_ERROR: 0 arbitration lost; 1 stuff, 2 form, 3 acknowledge, 4 bit 1, 5 bit 0, 6 CRC (R384, R385). -/
def txError (err : Nat) (s : State) : State :=
  match s.fbc.sending with
  | none => s
  | some _ =>
    if err = 0 then endAttempt s
    else
      let passive := decide (128 ≤ s.fbc.tec) || decide (128 ≤ s.fbc.rec_)
      let up := if err = 3 ∧ passive = true then 0 else 8
      let s1 := updFbc (fun b => { b with tec := b.tec + up, lastErr := min err 6 }) s
      let s2 := endAttempt s1
      if 255 < s2.fbc.tec then
        let s3 := errLimits s (updFbc (fun b => { b with tec := 255 }) s2)
        enterBusOff s3
      else errLimits s s2

/-- BUS_OFF_RECOVERY: occurrences of 11 recessive bits (R385). -/
def busOffRecovery (n : Nat) (s : State) : State :=
  if !s.fbc.busOff || !(fbcRuns s) || s.fbc.clkHold then s
  else
    let r := min 128 (s.fbc.recovery + n)
    if r < 128 then updFbc (fun b => { b with recovery := r }) s
    else
      let s1 := updFbc (fun b => { b with
        busOff := false, recovery := 128, tec := 0, rec_ := 0, sync := 0, curOver := none, integrated := s.dts, lastErr := 0 }) s
      fbcEvent 10 (errLimits s s1)

/-! Balls and misses -/

/-- BALL_START: a ball starts; its exclusive frame can start at `sof` at the earliest (R404, R382, R385, R410). -/
def ballBegins (b sof : Nat) (s : State) : State :=
  match s.fbc.curOver with
  | none => s
  | some o =>
    if b < o.nextBall ∨ balls s ≤ b ∨ b = 0 then s
    else
      let start := ballStart s o b
      let s1 := updFbc (fun x => { x with curOver := some { o with nextBall := b + 1 } }) (advanceTo start s)
      match exclusiveIn s1 o.cycle b with
      | none => s1
      | some k =>
        if s1.fbc.busOff then lateBall o b k s1
        else if !(mayTx s1) || s1.fbc.sync != 2 || decide (2 ≤ ttLevel s1) then s1
        else
          let e := txShadow (loadTx s1) k
          let f := elementFrame e
          let at_ := max start sof
          let stop := if b + 1 < balls s then ballStart s o (b + 1) else overEnd s o
          if !(elementOk s1 e) then mar (failReserved k s1)
          else if s1.fbc.sending.isSome || decide (start + bitsNs s (txEn s) < at_) || decide (stop < at_ + worstNs s f)
            then lateBall o b k s1
          else startTx k .exclusive at_ f (advanceTo at_ (loadTx s1))

/-- A potential master that R407 lets take over. -/
def takesOver (s : State) : Bool :=
  fbcMode s == 2 && regBit s 0x2900110 8 && !s.fbc.master && decide (ttLevel s ≤ 1) && !(regBit s 0x2900000 24)

/-- The offset of a takeover (R407). -/
def takeOffset (s : State) : Nat :=
  bitsNs s (16 * ((elementFrame (txShadow s (refBuf s))).ident - regFld s 0x290010C 10 0))

/-- REFERENCE_MISSING (R406, R407, R410). -/
def refMissing (s : State) : State :=
  match s.fbc.curOver with
  | none => s
  | some o =>
    if s.fbc.master || s.fbc.sync != 2 || !(fbcRuns s) || s.fbc.clkHold then s
    else
      let expect := overEnd s o
      let s1 := advanceTo (expect + bitsNs s (regFld s 0x2900100 10 0)) s
      let n := min 3 (s.fbc.misses + 1)
      let s2 := beginOver { sync := expect, len := o.len, cycle := nextCycle s o.cycle, predicted := true } s1
      let s3 := fbcEvent 1 (bumpFld 0x2900128 15 8 (updFbc (fun b => { b with misses := n, take := false }) s2))
      let s4 := mar s3
      if n < 3 ∨ s.fbc.misses = 3 then s4
      else if takesOver s4 then updFbc (fun b => { b with takeAt := some (s4.dts + takeOffset s4) }) s4
      else levelled (updFbc (fun b => { b with level3 := true, sync := 0 })) s4

/-- TAKEOVER (R407). -/
def takeover (s : State) : State :=
  match s.fbc.takeAt, s.fbc.curOver with
  | some t, some o =>
    let s1 := updFbc (fun b => { b with takeAt := none }) (advanceTo t s)
    if mayTx s1 then dueRef o.len false o.cycle s1 else s1
  | _, _ => s

/-- UNSYNC_TAKEOVER (R411). -/
def unsyncTakeover (s : State) : State :=
  let s1 := advanceTo (s.fbc.integrated + 3 * overLen s * 10 + takeOffset s) s
  if s.fbc.sync == 0 && takesOver s && mayTx s1 then dueRef (overLen s) false 0 s1 else s

/-- FBC_TT_CMD (R408): a command without effect is logged. -/
def ttCmd (op : Nat) (r : Requester) (s : State) : State :=
  if op = 1 then
    if fbcMode s = 2 ∧ s.fbc.sync = 2 ∧ s.fbc.master = false ∧ fbcRuns s = true then
      updFbc (fun b => { b with take := true }) s
    else logCfg 1 0x2900114 r s
  else if op = 2 then
    if s.fbc.master then setMaster false s else logCfg 1 0x2900114 r s
  else s

/-! Registers -/

/-- INIT was written 1 (R380). -/
def initEnter (s : State) : State :=
  let s1 := setMaster false s
  levelled (updFbc (fun b => { b with
    sync := 0, curOver := none, refDue := none, take := false, takeAt := none
    level1 := false, level2 := false, level3 := false, misses := 0 })) s1

/-- INIT was written 0: checked, then off to the bus (R380, R381, R411). -/
def initLeave (r : Requester) (s : State) : State :=
  match fbcCheck s with
  | some off =>
    logCfg 1 (0x2908000 + off) r (updFbc (fun b => { b with cfgErr := some off })
      { setRegFld 0x2900000 31 31 1 s with free := s.free + 1 })
  | none =>
    updFbc (fun b => { b with
      cfgErr := none, integrated := s.dts + bitsNs s 11, sync := 0, curOver := none, misses := 0, lastSync := none
      corr := 0, good := 0, lastErr := 0 }) s

/-- A write reached FBC_CTRL. -/
def fbcCtrlWritten (r : Requester) (old : Nat) (s : State) : State :=
  let now := regBit s 0x2900000 31
  let s1 := if regBit s 0x2900000 25 == bitOf old 25 then s else fbcEvent 20 s
  if bitOf old 31 && !now then initLeave r s1
  else if !(bitOf old 31) && now then initEnter s1
  else s1

/-- R392: an index names an occupied element. -/
def fifoHolds (q : Fifo) (k : Nat) : Bool := decide ((k + 32 - q.get) % 32 < q.count)

/-- R392: elements up to an index are released. -/
def fifoAck (q : Fifo) (k : Nat) : Fifo :=
  { get := (k + 1) % 32, count := q.count - ((k + 32 - q.get) % 32 + 1) }

/-- The Rx shadow a requester uses (R394). -/
def shadowOf (r : Requester) : Nat :=
  match r with
  | .island => 0
  | .mmp => 2
  | _ => 1

/-- FBC_SHADOW_SEL (R394). -/
def shadowSel (r : Requester) (v : Nat) (s : State) : State :=
  let sp := fld v 7 6
  let i := fld v 4 0
  let e := ramBytes s (rxOffset sp i) 20
  updFbc (fun b => { b with rx := Tbl.set {} b.rx (shadowOf r) { bytes := e, valid := true, newer := false, space := sp, index := i } }) s

/-- An uncorrectable message RAM word (R386, R387). -/
def ramUe (o : Nat) (s : State) : State :=
  let s1 := fbcLog (updFbc (fun b => { b with badWords := if b.badWords.contains o then b.badWords else o :: b.badWords }) s)
  if decide (o < 0x600) || (decide (0x3000 ≤ o) && decide (o < 0x3400)) then
    initEnter (setRegFld 0x2900000 31 31 1 s1)
  else s1

/-- An uncorrectable error in a transmit shadow (R387). -/
def shadowUe (s : State) : State := initEnter (setRegFld 0x2900000 31 31 1 (fbcLog s))

/-! Island firmware's use of the controller -/

/-- Writes a Tx buffer and has it copied to its shadow (R395). -/
def islandTx (k : Nat) (w0 w1 : Nat) (data : List Byte) (s : State) : State :=
  let e := leBytes 4 w0 ++ leBytes 4 w1 ++ zeros 8 ++ slice data 0 64
  loadTx (updFbc (fun b => { b with loading := b.loading ||| 2 ^ k }) (putRam (0x600 + 80 * k) e s))

/-- Requests event buffers (R396). -/
def requestTx (mask : Nat) (s : State) : State := updFbc (fun b => { b with busy := b.busy ||| mask }) s

end Sys2Proof.Machine
end

