-- ==== Sys2Proof/Machine/TrayOps.lean ====
section
/-! DEFINITION. Packets and events of the management port, presence, identity records, the tray topology and the
tray role (R450–R468, R475). -/

namespace Sys2Proof.Machine

/-- Changes the management port. -/
def updMgp (f : Mgp → Mgp) (s : State) : State := { s with mgp := f s.mgp }

/-- Changes the tray state. -/
def updTmg (f : Tmg → Tmg) (s : State) : State := { s with tmg := f s.tmg }

/-! Packets (R467, R468, R470) -/

/-- A key slot. -/
def mmpKeyAt (s : State) (slot : Nat) : List Byte := if slot = 0 then s.mgp.key0 else s.mgp.key1

/-- CAP_SERIAL[31:0]. -/
def serialLo : Nat := Config.serial.toNat % 2 ^ 32

/-- The tag of a header and payload. -/
def mmpTag (key body : List Byte) : List Byte := (List.range 16).map (Config.hmac256 key body)

/-- The outgoing counter rises, kept by the reserve rule (R470). -/
def nextCounter (s : State) : State :=
  updMgp (fun m =>
    let c := m.outCounter + 1
    { m with outCounter := c, outReserve := if m.outReserve < c then c + 2 ^ 20 else m.outReserve }) s

/-- An MMP packet of this chip, with the outgoing counter as it stands. -/
def mmpPacket (s : State) (typ slot seq cmd status : Nat) (payload : List Byte) : List Byte :=
  let h := leBytes 4 0x31504D4D ++ leBytes 1 1 ++ leBytes 1 typ ++ leBytes 1 s.pwr.straps.pos ++ leBytes 1 slot ++
    leBytes 8 s.mgp.outCounter ++ leBytes 4 serialLo ++ leBytes 4 seq ++ leBytes 2 cmd ++ leBytes 2 status ++
    leBytes 2 payload.length ++ zeros 2
  h ++ payload ++ mmpTag (mmpKeyAt s slot) (h ++ payload)

/-- A packet leaves through the port, or waits in the outbox (R473). -/
def sendOut (outbox : Bool) (kind : Nat) (dest bytes : List Byte) (s : State) : State :=
  if outbox then updTmg (fun t => { t with outbox := t.outbox ++ [{ kind, dest, bytes }] }) s
  else emit (.mmp dest bytes) s

/-- An event's class is enabled (R474, R475). -/
def eventEnabled (s : State) (code : Nat) : Bool := bitOf s.mgp.mask (code / 256 - 1)

/-- The slot that tags events (R468). -/
def eventSlot (s : State) : Option Nat :=
  if s.mgp.key0 != [] then some 0 else if s.mgp.key1 != [] then some 1 else none

/-- Sends one event (R475). -/
def sendEvent (e : MgpEvent) (s : State) : State :=
  match s.mgp.dest, eventSlot s with
  | some d, some slot =>
    let s1 := nextCounter s
    sendOut (!s.mgp.link) 2 d (mmpPacket s1 3 slot e.seq e.code 0 (eventBody e)) s1
  | _, _ => s

/-- Events go out once there is a destination (R475). -/
def settleEvents (s : State) : State :=
  if s.mgp.dest.isNone || (eventSlot s).isNone || !(islandRuns s) then s
  else
    let l := s.mgp.events.filter (fun e => !e.sent && eventEnabled s e.code)
    let s1 := l.foldl (fun t e => sendEvent e t) s
    updMgp (fun m => { m with events := updWhere (fun e => eventEnabled s e.code) (fun e => { e with sent := true }) m.events }) s1

/-- EVENT_RESEND: events not acknowledged go out again (R475). -/
def resendEvents (s : State) : State :=
  if islandRuns s then (s.mgp.events.filter (fun e => e.sent && eventEnabled s e.code)).foldl (fun t e => sendEvent e t) s
  else s

/-! Identity records (R458–R461) -/

/-- Bytes [a, b) are zero. -/
def zeroSpan (r : List Byte) (a b : Nat) : Bool := allZero (slice r a (b - a))

/-- KIND_DATA lies within R460. -/
def kindDataOk (r : List Byte) : Bool :=
  let b := fun k => getLe r k 1
  match b 6 with
  | 1 => decide (b 40 ≤ 23) && (decide (b 41 ≤ 2) || b 41 == 0xFF) && decide (b 42 < 16) && zeroSpan r 43 64
  | 2 => decide (b 40 ≤ 1) && decide (1 ≤ b 41) && decide (b 41 ≤ 3) && b 46 == 16 && zeroSpan r 47 64
  | 3 => (b 40 == 1 || b 40 == 2) && zeroSpan r 46 64
  | 4 => zeroSpan r 48 64
  | _ => false

/-- A record is valid (R461). -/
def firValid (r : List Byte) : Bool :=
  getLe r 0 4 == 0x52494E46 && getLe r 4 2 == 1 && getLe r 252 4 == crc32 (slice r 0 252) && getLe r 7 1 == 0 &&
  getLe r 8 8 != 0 && kindDataOk r && zeroSpan r 192 252

/-- R458: the two reads, taken up to three times; none when the site is UNREADABLE. -/
def firRead : Nat → List (Option (List Byte)) → Option (List Byte)
  | n + 1, some a :: some b :: rest => if a = b ∧ a.length = 256 then some a else firRead n rest
  | _, _ => none

/-- The memory acknowledged its first read. -/
def firAnswers (reads : List (Option (List Byte))) : Bool := (reads.headD none).isSome

/-! The topology (R462) -/

/-- Sites of the topology. -/
def siteCount (s : State) : Nat := getLe s.tmg.topology 6 1

/-- One site's entry. -/
def siteDef (s : State) (n : Nat) : SiteDef :=
  let b := fun k => getLe s.tmg.topology (16 + 16 * n + k) 1
  { kind := b 0, required := bitOf (b 1) 0, noPres := bitOf (b 1) 1, pres := b 2, addr := b 3, mux := b 4, pos := b 5
    port := b 6, side := b 7 }

/-- A site entry holds no reserved value. -/
def siteEntryOk (t : List Byte) (n : Nat) : Bool :=
  let b := fun k => getLe t (16 + 16 * n + k) 1
  let kind := b 0
  decide (kind ≤ 4) && decide (b 1 < 4) && (if bitOf (b 1) 1 then b 2 == 0xFF else decide (b 2 ≤ 15)) &&
  decide (b 3 ≤ 127) && (decide (b 4 ≤ 7) || b 4 == 0xFF) &&
  (if kind == 2 || kind == 4 then decide (b 5 ≤ 3) else b 5 == 0xFF || kind == 0) &&
  (if kind == 2 then decide (b 6 ≤ 3) else b 6 == 0xFF || kind == 0) &&
  (if kind == 3 then b 7 == 1 || b 7 == 2 else b 7 == 0xFF || kind == 0) &&
  zeroSpan t (16 + 16 * n + 8) (32 + 16 * n)

/-- A topology that R462 accepts. -/
def topologyOk (t : List Byte) : Bool :=
  let n := getLe t 6 1
  let used := (List.range n).filter (fun k => getLe t (16 + 16 * k) 1 != 0)
  let pres := (used.map (fun k => getLe t (18 + 16 * k) 1)).filter (· != 0xFF)
  let mem := used.map (fun k => getLe t (19 + 16 * k) 2)
  getLe t 0 4 == 0x54544E46 && getLe t 4 2 == 1 && decide (1 ≤ n) && decide (n ≤ 16) && t.length == 16 + 16 * n &&
  decide (getLe t 7 1 ≤ 127) && zeroSpan t 8 16 && (List.range n).all (siteEntryOk t) &&
  decide pres.Nodup && decide mem.Nodup

/-- What verification found at a site. -/
def siteAt (s : State) (n : Nat) : SiteRes := Tbl.get {} s.tmg.sites n

/-- Results 3–10 are mismatches (R463). -/
def isMismatch (r : Nat) : Bool := decide (3 ≤ r)

/-- The result of a site and its record, from its presence and its reads (R463). -/
def siteResult (s : State) (n : Nat) (reads : List (Option (List Byte))) : SiteRes :=
  let d := siteDef s n
  let answers := firAnswers reads
  let here := if d.noPres then answers else bitOf s.tmg.pres d.pres
  let rec_ := firRead 3 reads
  let r := rec_.getD []
  let acc := Tbl.get 0 s.tmg.accepted n
  let bad := fun (k : Nat) => ({ result := k } : SiteRes)
  let ok := fun (k : Nat) => ({ result := k, kind := getLe r 6 1, serial := getLe r 8 8, record := r } : SiteRes)
  if d.kind = 0 then bad 0
  else if !here && answers then bad 10
  else if !here then bad (if d.required then 3 else 2)
  else if rec_.isNone then bad 4
  else if !(firValid r) then { result := 5, record := r }
  else if getLe r 6 1 != d.kind then ok 6
  else if d.kind = 4 ∧ (200 < getLe r 40 2 ∨ 12 < getLe r 42 2 ∨ getLe r 44 2 < 25) then ok 9
  else if acc = 0 then ok 7
  else if acc = getLe r 8 8 then ok 1
  else ok 8

/-- Verifies one site (R463). -/
def verifySite (n : Nat) (reads : List (Option (List Byte))) (s : State) : State :=
  if siteCount s ≤ n then s
  else
    let r := siteResult s n reads
    let old := (siteAt s n).result
    let s1 := updTmg (fun t => { t with sites := Tbl.set {} t.sites n r, verifying := t.verifying.filter (· != n) }) s
    if r.result = old then s1
    else
      let s2 := queueEvent (if isMismatch r.result then sevNotice else 0) 0x0300
        (leBytes 1 n ++ leBytes 1 old ++ leBytes 1 r.result ++ zeros 5 ++ leBytes 8 r.serial) s1
      if isMismatch r.result then logErr { cls := 19, cause := 3, sev := sevNotice, source := 0x2A, index := n } s2 else s2

/-- The reads a command supplies for a site; none answers where it names none. -/
def readsOf (l : List (Nat × List (Option (List Byte)))) (n : Nat) : List (Option (List Byte)) :=
  ((l.find? (fun p => p.1 == n)).map (·.2)).getD []

/-- Verifies every site. -/
def verifyAll (l : List (Nat × List (Option (List Byte)))) (s : State) : State :=
  (List.range (siteCount s)).foldl (fun t n => verifySite n (readsOf l n) t) s

/-- Sites that mismatch, as TMG_VERIFY shows them. -/
def mismatchMask (s : State) : Nat :=
  ((List.range (siteCount s)).map (fun n => b2n (isMismatch (siteAt s n).result) * 2 ^ n)).sum

/-- This chip is tray lead. -/
def isTrayLead (s : State) : Bool := s.tmg.role == 2

/-- The TRAY site's record, when it reads OK or NEW (R465). -/
def trayRecord (s : State) : Option SiteRes :=
  if !(isTrayLead s) then none
  else
    ((List.range (siteCount s)).filterMap (fun n =>
      let r := siteAt s n
      if (siteDef s n).kind == 1 && (r.result == 1 || r.result == 7) then some r else none)).head?

/-- SLOT: 31 none. -/
def traySlot (s : State) : Nat := ((trayRecord s).map (fun r => getLe r.record 40 1)).getD 31

/-- RANK: 3 none. -/
def trayRank (s : State) : Nat := ((trayRecord s).map (fun r => min 3 (getLe r.record 41 1))).getD 3

/-- Another position as the tray lead sees it. -/
def posAt (s : State) (p : Nat) : TrayPos := Tbl.get {} s.tmg.positions p

/-- Fitted positions (R455). -/
def fittedMask (s : State) : Nat :=
  match trayRecord s with
  | some r => getLe r.record 42 1 % 16
  | none => ((List.range 4).map (fun p =>
      b2n (p == s.pwr.straps.pos || (posAt s p).answered) * 2 ^ p)).sum

/-- Positions that are not silent (R455). -/
def tsbOk (s : State) : Nat :=
  ((List.range 4).map (fun p =>
    b2n (p == s.pwr.straps.pos || ((posAt s p).answered && decide ((posAt s p).fails < 4))) * 2 ^ p)).sum

/-- TMG_STATUS's image. -/
def tmgStatus (s : State) : Nat :=
  s.tmg.role * 2 ^ 30 + b2n s.pwr.straps.lead * 2 ^ 29 + b2n s.tmg.conflict * 2 ^ 28 +
  (if isTrayLead s then tsbOk s * 2 ^ 24 + fittedMask s * 2 ^ 20 else 0) +
  s.pwr.straps.pos * 2 ^ 16 + b2n (trayRecord s).isSome * 2 ^ 15 + trayRank s * 2 ^ 13 + traySlot s * 2 ^ 8

/-- PRESENCE_CHANGE: a qualified presence input, with the reads the sites that name it answer (R450, R451). -/
def presenceChange (n : Nat) (here : Bool) (reads : List (Nat × List (Option (List Byte)))) (s : State) : State :=
  if bitOf s.tmg.pres n == here then s
  else
    let s1 := updTmg (fun t => { t with pres := setFld t.pres n n (b2n here) }) (orReg 0x2A00008 (2 ^ n) s)
    let s2 := if islandRuns s1 then
        queueEvent 0 0x0400 (leBytes 4 s1.tmg.pres ++ leBytes 4 (rawAt s1 0x2A00008)) s1
      else s1
    if isTrayLead s2 && islandRuns s2 then
      (List.range (siteCount s2)).foldl (fun t k =>
        let d := siteDef t k
        if d.kind != 0 && !d.noPres && d.pres == n then verifySite k (readsOf reads k) t else t) s2
    else s2

/-- A change of the tray role is reported (R51, R457). -/
def roleEvent (s : State) : State := queueEvent 0 0x0200 (leBytes 4 (tmgStatus s)) s

/-- The role is given up: the fluid bus is left (R457). -/
def giveUpRole (s : State) : State :=
  let s1 := updTmg (fun t => { t with role := 3, conflict := true }) s
  let s2 := initEnter (setRegFld 0x2900000 31 30 2 s1)
  roleEvent (logErr { cls := 19, cause := 2, sev := sevNotice, source := 0x2A } s2)

/-- The end of the 2 s after island boot: the ROLE bytes of the other positions that answered (R457). -/
def settleRole (answers : List (Nat × Nat)) (s : State) : State :=
  if !s.pwr.straps.lead then updTmg (fun t => { t with role := 0 }) s
  else if answers.any (fun a => a.1 != s.pwr.straps.pos && bitOf a.2 2) then giveUpRole s
  else roleEvent (updTmg (fun t => { t with role := 2, conflict := false }) s)

/-- A tray lead or candidate reads ROLE of another position (R457). -/
def roleSeen (pos answer : Nat) (s : State) : State :=
  if (s.tmg.role == 1 || isTrayLead s) && pos != s.pwr.straps.pos && bitOf answer 2 then giveUpRole s else s

/-- A write due on the tray SMBus, for each other fitted position (R455). -/
def tsbAll (code : Nat) (data : List Byte) (s : State) : State :=
  updTmg (fun t => { t with due := t.due ++
    ((List.range 4).filter (fun p => p != s.pwr.straps.pos && bitOf (fittedMask s) p)).map (fun p => ⟨p, code, data⟩) }) s

/-- A write due to one other position. -/
def tsbTo (pos code : Nat) (data : List Byte) (s : State) : State :=
  if pos = s.pwr.straps.pos ∨ bitOf (fittedMask s) pos = false then s
  else updTmg (fun t => { t with due := t.due ++ [⟨pos, code, data⟩] }) s

/-- TMG SMBus transfers of the tray lead count as its word to this chip (R456). -/
def heardLead (s : State) : State := updTmg (fun t => { t with lastLead := some s.dts }) s

/-- A chip's CFLAGS (R425). -/
def chipFlags (s : State) : Nat :=
  s.pgv.limiter % 8 + 8 + b2n s.pgv.forecast.clipped * 16 + b2n s.pgv.forecast.uncoeffed * 32 +
  b2n s.pgv.leakFloor * 64 + b2n s.pgv.quorum * 128

/-- Forecast age in ms. -/
def forecastAge (s : State) : Nat := min 255 ((s.dts - s.pgv.forecast.dts) / 1000000)

/-- The first eleven fields that a tray report entry and CHIP_STATE share: forecast, horizon, applied cap, flags, age
and hottest junction (R425, R454). -/
def chipEntry (s : State) : List Byte :=
  leBytes 2 s.pgv.forecast.watts ++ leBytes 2 (min 65535 (s.pgv.forecast.horizonUs / 100)) ++
  leBytes 2 (s.pgv.applied / 1000) ++ leBytes 1 (chipFlags s) ++ leBytes 1 (forecastAge s) ++
  leBytes 2 (ofInt 16 s.pgv.th)

/-- CHIP_STATE (R454). -/
def chipState (s : State) : List Byte :=
  chipEntry s ++ leBytes 1 s.ptu.site.code ++ leBytes 1 s.pwr.st.code ++ leBytes 1 (min 255 s.tmg.outbox.length) ++ zeros 3

end Sys2Proof.Machine
end

