-- ==== Sys2Proof/Machine/HuddleBase.lean ====
section
/-! DEFINITION. The row configuration, the huddle's announcements, its controller, its allocation and its frames
(R414–R446). -/

namespace Sys2Proof.Machine

/-- Changes the huddle. -/
def updHud (f : Huddle → Huddle) (s : State) : State := { s with hud := f s.hud }

/-! The row configuration (R414, R415) -/

/-- An `n`-byte field of the configuration in force. -/
def cfgLe (s : State) (off n : Nat) : Nat := getLe s.hud.cfg off n

/-- Tray slots and coolant nodes. -/
def cfgTrays (s : State) : Nat := cfgLe s 6 1

/-- Coolant nodes. -/
def cfgNodes (s : State) : Nat := cfgLe s 7 1

/-- Offset of tray entry `i`. -/
def trayEntryAt (c : List Byte) (i : Nat) : Nat := 128 + 8 * getLe c 7 1 + 16 * i

/-- Byte `k` of node entry `n`. -/
def nodeByte (c : List Byte) (n k : Nat) : Nat := getLe c (128 + 8 * n + k) 1

/-- A node entry holds no reserved value. -/
def nodeEntryOk (c : List Byte) (n : Nat) : Bool :=
  let kind := nodeByte c n 0
  let map := getLe c (130 + 8 * n) 2
  decide (1 ≤ kind) && decide (kind ≤ 5) && decide (nodeByte c n 1 ≤ 1) &&
  (if kind == 5 then (List.range 4).all (fun k => decide (fld map (4 * k + 3) (4 * k) ≤ 4)) else map == 0) &&
  zeroSpan c (132 + 8 * n) (136 + 8 * n)

/-- A configuration R415 accepts, beside its epoch. -/
def rowConfigOk (c : List Byte) : Bool :=
  let u := fun off n => getLe c off n
  let trays := u 6 1
  let nodes := u 7 1
  let serials := (List.range trays).map (fun i => getLe c (trayEntryAt c i) 8)
  let ranks := (List.range trays).map (fun i => getLe c (trayEntryAt c i + 8) 1)
  let permille := [70, 72, 74, 76, 86, 88, 92, 94, 96, 98].all (fun k => decide (u k 2 ≤ 1000))
  let per := 2 ^ fld (u 16 1) 2 1
  let period := if bitOf (u 16 1) 3 then 16667000 else 20000000
  c.length == 128 + 8 * nodes + 16 * trays && u 0 4 == 0x43524E46 && u 4 2 == 1 && decide (1 ≤ trays) &&
  decide (trays ≤ 24) && decide (nodes ≤ 32) && decide (1 ≤ u 8 4) && fld (u 16 1) 2 1 != 3 && decide (u 16 1 < 32) &&
  decide (4 ≤ u 17 1) && decide (u 17 1 ≤ 64) && decide (8 ≤ u 18 1) && decide (1 ≤ u 19 1) && decide (u 19 1 ≤ 16) &&
  decide (100000 ≤ u 20 4) && decide (u 20 4 ≤ 10000000) && decide (2 ≤ u 24 1) && decide (u 24 1 ≤ 100) &&
  u 25 1 == 0 && capLegal (u 30 2) && capLegal (u 32 2) && zeroSpan c 44 64 &&
  decide (2000 ≤ u 64 2) && decide (u 64 2 ≤ 4500) && decide (u 64 2 < u 66 2) && decide (u 66 2 ≤ 6000) &&
  decide (1 ≤ u 68 2) && decide (u 68 2 ≤ 5000) && permille && decide (u 70 2 ≤ u 72 2) && decide (u 74 2 ≤ u 76 2) &&
  decide (1 ≤ u 90 2) && decide (u 90 2 ≤ 1000) && zeroSpan c 100 128 &&
  (List.range nodes).all (nodeEntryOk c) &&
  (List.range trays).all (fun i =>
    let r := ranks.getD i 0xFF
    (decide (r ≤ 2) || r == 0xFF) && zeroSpan c (trayEntryAt c i + 9) (trayEntryAt c i + 16)) &&
  serials.all (· != 0) && decide serials.Nodup && [0, 1, 2].all (fun r => ranks.count r == 1) &&
  (if bitOf (u 16 1) 0 then decide (150000 * (per * 32) ≤ period) else decide (480000 ≤ u 20 4))

/-- The configuration digest (R415). -/
def cfgDigest (c : List Byte) : Nat := ofLe ((List.range 8).map (Config.sha256 c))

/-- EPOCH of the configuration this tray lead holds: the latest accepted (R415). -/
def heldEpoch (s : State) : Nat := getLe (if s.hud.accepted = [] then s.hud.cfg else s.hud.accepted) 8 4

/-- R417: the tray lead takes part in the huddle. -/
def takesPart (s : State) : Bool :=
  match trayRecord s with
  | none => false
  | some r =>
    let e := trayEntryAt s.hud.cfg (traySlot s)
    s.hud.cfg != [] && decide (traySlot s < cfgTrays s) && getLe s.hud.cfg e 8 == r.serial &&
    getLe s.hud.cfg (e + 8) 1 == getLe r.record 41 1

/-- A member: a participating tray lead of rank 0–2. -/
def isMember (s : State) : Bool := takesPart s && decide (trayRank s ≤ 2)

/-! Events and counters -/

/-- ISL_HUDDLE_STATUS's image. -/
def hudStatus (s : State) : Nat :=
  let h := s.hud
  h.role * 2 ^ 30 + trayRank s * 2 ^ 28 + b2n h.quorum * 2 ^ 27 + b2n s.fbc.master * 2 ^ 26 + h.loop.st * 2 ^ 23 +
  h.cause * 2 ^ 20 + traySlot s * 2 ^ 15 + h.active * 2 ^ 12 + h.leadRank * 2 ^ 10 + b2n h.overBudget * 2 ^ 9

/-- A bit of ISL_HUDDLE_EVENT rises and is reported (R475). -/
def hudEvent (bit : Nat) (s : State) : State :=
  if regBit s 0x2C00450 bit then s
  else
    let s1 := orReg 0x2C00450 (2 ^ bit) s
    queueEvent 0 0x0100 (leBytes 4 (2 ^ bit) ++ leBytes 4 (hudStatus s1)) s1

/-- Role and cause; a new role raises ROLE_CHANGE. -/
def setRole (role cause : Nat) (s : State) : State :=
  let s1 := updHud (fun h => { h with role, cause }) s
  if s.hud.role = role then s1 else hudEvent 0 s1

/-- A frame of a tray lead is ignored (R422). -/
def badFrame (s : State) : State := bumpFld 0x2C00460 15 8 s

/-- The loop state; ROW_LEAK and ROW_ALL_STOP are raised with it (R448). -/
def setLoopState (st : Nat) (s : State) : State :=
  if s.hud.loop.st = st then s
  else
    let s1 := updHud (fun h => { h with loop := { h.loop with st } }) s
    if st = 2 then hudEvent 8 s1 else if st = 3 then hudEvent 9 s1 else s1

/-! Agreement (R432) -/

/-- An agreement key: EPOCH, DIGEST and FW_MAJOR. -/
abbrev AgKey := Nat × Nat × Nat

/-- This member's key. -/
def ownKey (s : State) : AgKey := (cfgLe s 8 4, cfgDigest s.hud.cfg, s.boot.fwMajor)

/-- A peer's key. -/
def Peer.key (p : Peer) : AgKey := (p.epoch, p.digest, p.major)

/-- A member of rank `r` as announced. -/
def peerAt (s : State) (r : Nat) : Peer := Tbl.get {} s.hud.peers r

/-- Overs since a member was heard. -/
def peerAge (s : State) (r : Nat) : Nat :=
  match (peerAt s r).heard with
  | some o => min 255 (s.fbc.overs - o)
  | none => 255

/-- Heard within the last 8 overs; this member always is. -/
def isHeard (s : State) (r : Nat) : Bool := r == trayRank s || decide (peerAge s r ≤ 8)

/-- The key of a rank as this member knows it. -/
def keyOf (s : State) (r : Nat) : AgKey := if r = trayRank s then ownKey s else (peerAt s r).key

/-- The active set around a lead of rank `l`, as a mask (R432). -/
def activeSet (s : State) (l : Nat) : Nat :=
  ([0, 1, 2].map (fun r => b2n (r == l || (isHeard s r && keyOf s r == keyOf s l)) * 2 ^ r)).sum

/-- Members of a mask. -/
def ranksIn (m : Nat) : Nat := b2n (bitOf m 0) + b2n (bitOf m 1) + b2n (bitOf m 2)

/-- The election's winner (R434): the lowest rank with the best key that two heard members share. -/
def electionWinner (s : State) : Option Nat :=
  let heard := [0, 1, 2].filter (isHeard s)
  let shared := heard.filter (fun r => decide (2 ≤ (heard.filter (fun q => keyOf s q == keyOf s r)).length))
  match shared.foldl (fun (b : Option AgKey) r =>
    match b with
    | none => some (keyOf s r)
    | some k => if k.1 < (keyOf s r).1 then some (keyOf s r) else some k) none with
  | none => none
  | some k => heard.find? (fun r => keyOf s r == k)

/-- CAUSE of a refusal (R432). -/
def refusal (own lead : AgKey) : Nat :=
  if own.2.2 ≠ lead.2.2 then 3 else if own.1 ≠ lead.1 then 1 else 2

/-! Frames (R421–R430) -/

/-- Words 0 and 1 of a VLP frame's element: FD with BRS (R422). -/
def vlpWord1 (dlc : Nat) : Nat := dlc * 2 ^ 28 + 2 ^ 27 + 2 ^ 26

/-- Puts a VLP frame into a Tx buffer. -/
def vlpBuffer (k ident dlc : Nat) (data : List Byte) (s : State) : State :=
  islandTx k ident (vlpWord1 dlc) data s

/-- The loop state's bytes 22–47, beside ACTIVE (R423). -/
def loopBytes (l : Loop) : List Byte :=
  leBytes 2 l.seq ++ leBytes 2 l.pump ++ leBytes 2 l.fan ++ leBytes 2 l.valve ++
  leBytes 4 (ofInt 32 l.pumpInt) ++ leBytes 4 (ofInt 32 l.fanInt) ++
  leBytes 2 l.supply ++ leBytes 2 l.flow ++ leBytes 2 l.dp ++ leBytes 2 l.budget

/-- A reference's bytes 8–47 (R423). -/
def refBody (s : State) (l : Loop) (active handover : Nat) : List Byte :=
  leBytes 4 (cfgLe s 8 4) ++ leBytes 8 (cfgDigest s.hud.cfg) ++ leBytes 1 s.boot.fwMajor ++ leBytes 1 s.boot.fwMinor ++
  leBytes 1 l.st ++ leBytes 1 (active + trayRank s * 8 + handover * 32) ++ loopBytes l

/-- The loop state that bytes 22–47 of a reference carry; `r` starts at byte 0. -/
def loopOf (r : List Byte) : Loop :=
  { st := getLe r 22 1, seq := getLe r 24 2, pump := getLe r 26 2, fan := getLe r 28 2, valve := getLe r 30 2
    pumpInt := toInt 32 (getLe r 32 4), fanInt := toInt 32 (getLe r 36 4), supply := getLe r 40 2
    flow := getLe r 42 2, dp := getLe r 44 2, budget := getLe r 46 2 }

/-- The reference buffer: identifier 0x002 + rank, 48 bytes (R418). -/
def putReference (l : Loop) (active handover : Nat) (s : State) : State :=
  vlpBuffer 0 (2 + trayRank s) 14 (zeros 8 ++ refBody s l active handover) s

/-- MEMBER_STATUS (R424). -/
def putMemberStatus (s : State) : State :=
  let heard := ([0, 1, 2].map (fun r => b2n (isHeard s r) * 2 ^ r)).sum
  let sharing := ([0, 1, 2].map (fun r => b2n (isHeard s r && keyOf s r == ownKey s) * 2 ^ r)).sum
  let cycle := (s.fbc.curOver.map (·.cycle)).getD 0
  let b := leBytes 4 (cfgLe s 8 4) ++ leBytes 8 (cfgDigest s.hud.cfg) ++ leBytes 1 s.boot.fwMajor ++
    leBytes 1 s.boot.fwMinor ++ leBytes 1 (s.hud.role + s.hud.cause * 4) ++ leBytes 1 (heard + sharing * 8) ++
    leBytes 1 cycle ++ leBytes 1 (ttLevel s + s.fbc.sync * 4) ++ leBytes 2 s.hud.loop.seq ++
    leBytes 1 s.hud.loop.st ++ zeros 3
  vlpBuffer 2 (0x0A0 + trayRank s) 12 b s

/-- TRAY_REPORT: four entries (R425). -/
def putTrayReport (s : State) : State :=
  let entry := fun p => if bitOf (fittedMask s) p then slice (posAt s p).entry 0 12 else zeros 12
  vlpBuffer 1 (0x300 + traySlot s) 14 (entry 0 ++ entry 1 ++ entry 2 ++ entry 3) s

/-- A frame is a VLP frame of `n` data bytes. -/
def vlpOk (f : CanFrame) (n : Nat) : Bool := f.fdf && f.brs && !f.ide && !f.rtr && f.bytes == n

/-- The island releases the oldest element of queue A when it is the frame it handles. -/
def releaseFrame (f : CanFrame) (s : State) : State :=
  let q := s.fbc.queueA
  let o := rxOffset 1 q.get
  if q.count != 0 && fld (ramWord s o) 28 0 == f.ident && (slice (ramBytes s (o + 16) 16) 0 f.bytes) == slice f.data 0 f.bytes then
    updFbc (fun b => { b with queueA := fifoAck q q.get }) s
  else s

/-! Setting the controller up (R418) -/

/-- The triggers of a participating tray lead. -/
def huddleTriggers (s : State) : List (Nat × Nat) :=
  let arb := [1, 2, 3, 29, 30, 31].map (fun b => (2 ^ 29 + b * 2 ^ 24, 0))
  let excl := fun (b base rp buf : Nat) => (b * 2 ^ 24 + base * 2 ^ 18 + rp * 2 ^ 15 + buf * 2 ^ 10, 0)
  let check := fun (b base rp ident : Nat) => (2 * 2 ^ 29 + b * 2 ^ 24 + base * 2 ^ 18 + rp * 2 ^ 15, ident)
  let common := arb ++ [excl (4 + traySlot s) 0 0 1]
  if isMember s then
    common ++ [excl 28 (trayRank s) 2 2] ++
    (List.range (cfgTrays s)).map (fun t => check (4 + t) 0 0 (0x300 + t)) ++
    [0, 1, 2].map (fun r => check 28 r 2 (0x0A0 + r))
  else common

/-- The registers R418 names, as offset and value. -/
def huddleRegs (s : State) : List (Nat × Nat) :=
  let mainsLock := bitOf (cfgLe s 16 1) 0
  [(0x2900100, 3 * 2 ^ 26 + 31 * 2 ^ 21 + 7 * 2 ^ 17 + b2n mainsLock * 2 ^ 16 + 128),
   (0x2900104, cfgLe s 20 4), (0x290010C, 0x00040002), (0x2900110, 0x100),
   (0x290012C, (huddleTriggers s).length), (0x290000C, 0x013F1010), (0x2900010, 0x010B0404)]

/-- The control fields R418 asks for: XCVR_ON, MODE, FD_EN, BRS_EN, SSP_EN (VLP frames are FD with BRS, R422). -/
def huddleCtrl (s : State) : Nat := 2 ^ 30 + (if isMember s then 2 else 1) * 2 ^ 28 + 2 ^ 27 + 2 ^ 26 + 2 ^ 22

/-- The set-up already stands. -/
def setUpStands (s : State) : Bool :=
  fbcRuns s && rawAt s 0x2900000 % 2 ^ 31 == huddleCtrl s &&
  (huddleRegs s).all (fun p => rawAt s p.1 == p.2) &&
  ((huddleTriggers s).zipIdx.all (fun p =>
    ramWord s (0x3000 + 8 * p.2) == p.1.1 && ramWord s (0x3004 + 8 * p.2) == p.1.2))

/-- Sets the controller up under R418 and leaves INIT. -/
def setUpFbc (s : State) : State :=
  let s0 := if fbcRuns s then initEnter (setRegFld 0x2900000 31 31 1 s) else s
  let s1 := (huddleRegs s0).foldl (fun t p => setRaw p.1 p.2 t) (setRaw 0x2900000 (2 ^ 31 + huddleCtrl s0) s0)
  let s2 := (huddleTriggers s1).zipIdx.foldl (fun t p =>
    putRamWord (0x3004 + 8 * p.2) p.1.2 (putRamWord (0x3000 + 8 * p.2) p.1.1 t)) s1
  let s3 := putTrayReport s2
  let s4 := if isMember s3 then putMemberStatus (putReference s3.hud.loop 0 0 s3) else s3
  let s5 := setRegFld 0x2900000 31 31 0 s4
  initLeave .island s5

/-! The controller (R440, R441) -/

/-- The valid SENSOR values of a quantity within the last 2 × NODE_PERIOD overs. -/
def sensorValues (s : State) (q : Nat) : List Int :=
  (List.range (cfgNodes s)).flatMap (fun n =>
    let r := Tbl.get {} s.hud.nodes n
    let fresh := match r.heard with
      | some o => decide (s.fbc.overs - o ≤ 2 * cfgLe s 17 1)
      | none => false
    if nodeByte s.hud.cfg n 0 == 5 && fresh then
      (List.range 4).filterMap (fun c =>
        let v := r.values.getD c 0
        if fld (getLe s.hud.cfg (130 + 8 * n) 2) (4 * c + 3) (4 * c) != q then none
        else if q ≤ 2 then (if v == 0x8000 then none else some (toInt 16 v))
        else if v == 0xFFFF then none else some (v : Int))
    else [])

/-- The mean of a quantity, truncated; none when invalid. -/
def sensorMean (s : State) (q : Nat) : Option Int :=
  let l := sensorValues s q
  if l.isEmpty then none else some (Int.tdiv l.sum l.length)

/-- The measurements of a controller run; SENSOR_LOST when one is invalid. -/
def measureLoop (s : State) : State :=
  let sup := sensorMean s 1
  let flow := sensorMean s 3
  let dp := sensorMean s 4
  let s1 := updHud (fun h => { h with loop := { h.loop with
    supply := (sup.map (ofInt 16)).getD 0x8000
    flow := (flow.map Int.toNat).getD 0xFFFF
    dp := (dp.map Int.toNat).getD 0xFFFF } }) s
  if sup.isNone || flow.isNone || dp.isNone || (sensorMean s 2).isNone then hudEvent 7 s1 else s1

/-- A value kept within bounds. -/
def clampI (v lo hi : Int) : Int := min hi (max lo v)

/-- One PI step: the output and the integrator (R441). -/
def piStep (e kp ki integ lo hi : Int) : Int × Int :=
  let i := clampI (integ + ki * e * 256) (lo * 65536) (hi * 65536)
  (Int.tdiv (kp * e) 256 + Int.tdiv i 65536, i)

/-- The controller run of R441, in RUN at cycle count 0. -/
def controllerRun (s : State) : State :=
  let c : Nat → Int := fun off => (cfgLe s off 2 : Int)
  let l := s.hud.loop
  let f : Int := s.hud.forecast
  let pump := if l.dp = 0xFFFF then (l.pump, l.pumpInt)
    else
      let r := piStep (c 68 - l.dp) (c 78) (c 80) l.pumpInt (c 70) (c 72)
      let v := r.1 + Int.tdiv (c 86 * f) 10000
      ((clampI (clampI v (c 70) (c 72)) ((l.pump : Int) - c 90) (l.pump + c 90)).toNat, r.2)
  let fan := if l.supply = 0x8000 then (l.fan, l.fanInt)
    else
      let r := piStep (toInt 16 l.supply - c 64) (c 82) (c 84) l.fanInt (c 74) (c 76)
      let v := r.1 + Int.tdiv (c 88 * f) 10000
      ((clampI (clampI v (c 74) (c 76)) ((l.fan : Int) - c 90) (l.fan + c 90)).toNat, r.2)
  updHud (fun h => { h with loop := { h.loop with
    pump := pump.1, pumpInt := pump.2, fan := fan.1, fanInt := fan.2, valve := cfgLe s 92 2 } }) s

/-! Caps and stagger (R443, R444, R446) -/

/-- A chip's entry. -/
def chipRep (s : State) (i : Nat) : ChipRep := Tbl.get {} s.hud.chips i

/-- Changes a chip's entry. -/
def updChip (i : Nat) (f : ChipRep → ChipRep) (s : State) : State :=
  updHud (fun h => { h with chips := Tbl.upd {} h.chips i f }) s

/-- Chip indices of the row. -/
def rowChips (s : State) : List Nat := List.range (4 * cfgTrays s)

/-- A chip entry of a received tray report (R443). -/
def chipHeard (i : Nat) (e : List Byte) (s : State) : State :=
  let seq := getLe e 10 1
  let here := bitOf (getLe e 6 1) 3
  let x := chipRep s i
  if x.seq = some seq ∧ x.present = here then s
  else
    let w := if getLe e 7 1 ≤ cfgLe s 24 1 then getLe e 0 2 else getLe e 4 2
    let d := min 1500 (max (cfgLe s 30 2) w)
    updChip i (fun x => { x with
      seq := some seq, present := here, advanced := s.fbc.overs, demand := if here then d else 0
      part := if here then w else 0, missing := false
      cap := if x.cap = 0 then getLe e 4 2 else x.cap, code := if here then x.code else 255 }) s

/-- Chips become missing; TRAY_SILENT when every present entry of a tray is (R443). -/
def classifyChips (s : State) : State :=
  let lost := (rowChips s).filter (fun i =>
    let x := chipRep s i
    x.present && !x.missing && decide (cfgLe s 19 1 + 1 < s.fbc.overs - x.advanced))
  let s1 := lost.foldl (fun t i => bumpFld 0x2C00460 7 0 (updChip i (fun x => { x with missing := true, part := x.cap }) t)) s
  let silent := (List.range (cfgTrays s)).any (fun t =>
    let l := (run (4 * t) 4).filter (fun i => (chipRep s1 i).present)
    !l.isEmpty && l.all (fun i => (chipRep s1 i).missing))
  let f := ((rowChips s1).map (fun i => (chipRep s1 i).part)).sum
  let s2 := updHud (fun h => { h with forecast := f }) s1
  if silent then hudEvent 6 s2 else s2

/-- The cooling term (R444): unsigned 64-bit arithmetic; held while a measurement is invalid. -/
def coolTerm (s : State) : Option Nat :=
  let l := s.hud.loop
  if l.flow = 0xFFFF ∨ l.supply = 0x8000 then s.hud.cool
  else some (ofInt 64 ((l.flow : Int) * 697 * ((cfgLe s 66 2 : Int) - toInt 16 l.supply)) / 10000)

/-- The row budget of the lead's site state, in W (R444). -/
def rowBudget (s : State) : Nat := cfgLe s (34 + 2 * s.ptu.site.code) 2 * 100

/-- One demanding chip's cap (R444). -/
def chipCap (n floor bp sd d : Nat) : Nat :=
  if bp ≤ n * floor then floor else if sd ≤ bp then min 1500 (d + (bp - sd) / n) else max floor (d * bp / sd)

/-- A chip receives a cap. -/
def giveCap (i cap : Nat) (s : State) : State := updChip i (fun x => { x with cap, code := (cap - 250) / 5 }) s

/-- The allocation of one over (R444). -/
def allocate (s : State) : State :=
  let cool := coolTerm s
  let b := match cool with
    | some c => min (rowBudget s) c
    | none => rowBudget s
  let s0 := updHud (fun h => { h with cool, loop := { h.loop with budget := b / 100 % 65536 } }) s
  let here := (rowChips s).filter (fun i => (chipRep s i).present)
  let dem := here.filter (fun i => !(chipRep s i).missing)
  if s.hud.loop.st = 2 then here.foldl (fun t i => giveCap i (cfgLe s 32 2) t) s0
  else if s.hud.loop.st = 3 then here.foldl (fun t i => giveCap i 250 t) s0
  else
    let reserved := ((here.filter (fun i => (chipRep s i).missing)).map (fun i => (chipRep s i).cap)).sum
    let bp := b - min b reserved
    let sd := (dem.map (fun i => (chipRep s i).demand)).sum
    let n := dem.length
    let floor := cfgLe s 30 2
    let curOver := decide (0 < n) && decide (bp ≤ n * floor)
    let s1 := dem.foldl (fun t i => giveCap i (chipCap n floor bp sd (chipRep s i).demand) t) s0
    let s2 := updHud (fun h => { h with overBudget := curOver }) s1
    if curOver then hudEvent 11 s2 else s2

/-- The stagger offset of a chip index (R446). -/
def staggerOf (s : State) (i : Nat) : Nat := (cfgLe s 28 2 + i * 65536 / (4 * cfgTrays s)) % 65536

/-- ALLOCATION k (R426). -/
def allocationBytes (s : State) (k : Nat) : List Byte :=
  (run (48 * k) 48).flatMap (fun i => leBytes 1 (if i < 4 * cfgTrays s then (chipRep s i).code else 255))

/-- STAGGER k (R426). -/
def staggerBytes (s : State) (k : Nat) : List Byte := (run (24 * k) 24).flatMap (fun i => leBytes 2 (staggerOf s i))

/-- The command of a node's kind in a loop state (R442): MODE and SETPOINT. -/
def nodeCommand (s : State) (kind : Nat) : Nat × Nat :=
  let l := s.hud.loop
  let pick := fun (run_ leak stop : Nat) =>
    match l.st with
    | 1 => (1, run_)
    | 2 => (2, cfgLe s leak 2)
    | 3 => (3, stop)
    | _ => (0, 0)
  match kind with
  | 1 => pick l.pump 94 0
  | 3 => pick l.fan 96 0
  | 2 => pick l.valve 98 0xFFFF
  | _ => (0, 0)

/-- COMMAND of group g (R427). -/
def commandBytes (s : State) (g : Nat) : List Byte :=
  (run (8 * g) 8).flatMap (fun n =>
    let c := if n < cfgNodes s then nodeCommand s (nodeByte s.hud.cfg n 0) else (0, 0)
    leBytes 1 c.1 ++ leBytes 1 (s.hud.loop.seq % 256) ++ leBytes 2 c.2 ++ zeros 2)

/-- The objects the lead writes to every node (R430). -/
def nodeWrites (s : State) : List (Nat × Nat × Nat) :=
  (List.range (cfgNodes s)).flatMap (fun n =>
    let kind := nodeByte s.hud.cfg n 0
    let leak := match kind with
      | 1 => cfgLe s 94 2 | 3 => cfgLe s 96 2 | 2 => cfgLe s 98 2 | _ => 0xFFFF
    let stop := match kind with
      | 1 => 0 | 3 => 0 | _ => 0xFFFF
    [(n, 1, leak), (n, 2, stop), (n, 3, cfgLe s 17 1)])

end Sys2Proof.Machine
end

