-- ==== Sys2Proof/Machine/HuddleOps.lean ====
section
/-! DEFINITION. The huddle's work per over and per frame: quorum, election, loss, handover, leaks (R416–R449). -/

namespace Sys2Proof.Machine

/-! Leak and ALL_STOP (R374, R447, R448) -/

/-- TFU_LEAK_REMOTE on every chip of the tray (R448). -/
def latchTray (s : State) : State := leakTrigger none (tsbAll 0x30 [1] s)

/-- A LEAK or ALL_STOP has arrived, from this tray or from the bus (R448, R449). -/
def leakArrived (stop rowEffect trayEffect : Bool) (s : State) : State :=
  let s2 := updHud (fun h => { h with leakOver := some s.fbc.overs }) s
  let s3 := if !rowEffect then s2
    else if stop then setLoopState 3 s2
    else if s2.hud.loop.st = 3 then s2
    else if s2.hud.lead || s2.hud.loop.st == 1 then setLoopState 2 s2 else s2
  if trayEffect then latchTray s3 else s3

/-- What this tray lead has to send, if anything: 2 ALL_STOP written or FB_ACTION 2, 1 LEAK (R374, R447). -/
def leakDuty (s : State) : Nat :=
  let fb := regFld s 0x2800010 9 8
  if s.hud.allStop || (s.tfu.latch && fb == 2) then 2 else if s.tfu.latch && fb == 1 then 1 else 0

/-- LEAK or ALL_STOP goes out once per over while there is cause (R447). Its own row hears it too. -/
def sendLeak (s : State) : State :=
  if !(isTrayLead s) || !(fbcRuns s) || s.hud.sentOver == some s.fbc.overs then s
  else
    match leakDuty s with
    | 0 => s
    | d =>
      let slot := traySlot s
      let wet := ((List.range 4).map (fun r => b2n (Tbl.get {} s.tfu.ropes r).wet * 2 ^ r)).sum
      let s1 := updHud (fun h => { h with sentOver := some s.fbc.overs }) s
      let s2 := if d = 2 then
          let kind := if s.hud.allStop then 3 else 1
          vlpBuffer 3 0 8 (leBytes 1 kind ++ leBytes 1 slot ++ zeros 6) s1
        else
          vlpBuffer 4 1 8 (leBytes 1 1 ++ leBytes 1 slot ++ leBytes 1 wet ++ leBytes 1 s.hud.leakSeq ++ zeros 4)
            (updHud (fun h => { h with leakSeq := (h.leakSeq + 1) % 256 }) s1)
      let s3 := requestTx (if d = 2 then 8 else 16) s2
      leakArrived (d == 2) true false s3

/-! Quorum (R433, R437) -/

/-- The last judged reference shows a quorate lead. -/
def refQuorate (s : State) : Bool :=
  let st := getLe s.hud.refData 14 1
  (match s.hud.refOver with
   | some o => decide (s.fbc.overs - o ≤ 3)
   | none => false) &&
  decide (1 ≤ st) && decide (st ≤ 3) && decide (2 ≤ ranksIn (getLe s.hud.refData 15 1)) &&
  decide (s.hud.stall < cfgLe s 18 1)

/-- A tray lead's judgement changes: QUORUM is written to each chip of the tray (R433, R437). -/
def setQuorum (q : Bool) (s : State) : State :=
  if s.hud.quorum == q then s
  else
    let s1 := writeQuorum q (tsbAll 0x31 (leBytes 1 (b2n q)) (updHud (fun h => { h with quorum := q }) s))
    if q then hudEvent 2 s1
    else if isMember s1 then hudEvent 1 (bumpFld 0x2C00460 23 16 s1)
    else s1

/-- The role that follows from the last reference (R417, R432, R437). -/
def judgeRole (s : State) : State :=
  if !(isTrayLead s) then setRole 0 0 s
  else if !(takesPart s) then setRole 1 4 s
  else if !(isMember s) then setRole 1 0 s
  else if s.hud.lead then setRole 3 0 s
  else if !(refQuorate s) then setRole 2 0 s
  else
    let k : AgKey := (getLe s.hud.refData 0 4, getLe s.hud.refData 4 8, getLe s.hud.refData 12 1)
    if k = ownKey s then setRole 2 0 s
    else
      let c := refusal (ownKey s) k
      let s1 := setRole 1 c s
      if s.hud.cause = c then s1 else hudEvent (if c = 3 then 3 else 4) s1

/-- A tray lead judges quorum and its role. -/
def judgeHuddle (s : State) : State :=
  if isTrayLead s then judgeRole (setQuorum (takesPart s && refQuorate s) s) else judgeRole s

/-- Notes a reference: its own, or one accepted (R433). `r` holds its 48 data bytes. -/
def noteReference (r : List Byte) (s : State) : State :=
  let body := slice r 8 40
  let moved := getLe r 24 2 != getLe s.hud.refData 16 2 || s.hud.refData == []
  let stall := if moved then 0 else s.hud.stall + 1
  let act := getLe r 23 1
  let quorate := decide (1 ≤ getLe r 22 1) && decide (getLe r 22 1 ≤ 3)
  let s1 := updHud (fun h => { h with
    refOver := some s.fbc.overs, refData := body, stall, active := act % 8
    leadRank := if quorate then min 3 (act / 8 % 4) else 3 }) s
  if isMember s1 && stall == cfgLe s1 18 1 then hudEvent 5 s1 else s1

/-! The start of an over (R434, R438) -/

/-- What an evaluation decided takes place: YIELD at the time master, TAKE at the winner. -/
def actOnElection (s : State) : State :=
  match s.hud.winner with
  | none => s
  | some w =>
    let s1 := updHud (fun h => { h with winner := none }) s
    if w = trayRank s then
      if s.fbc.master then updHud (fun h => { h with lead := true }) s1
      else ttCmd 1 .island (updHud (fun h => { h with named := true }) s1)
    else if s.fbc.master then ttCmd 2 .island (updHud (fun h => { h with lead := false }) s1)
    else s1

/-- ELECTION: at a cycle-0 over without a quorate lead (R434, R437). -/
def election (s : State) : State :=
  if !(isMember s) || s.hud.lead || refQuorate s || (s.fbc.curOver.map (·.cycle)) != some 0 then s
  else
    match electionWinner s with
    | none =>
      let s1 := if s.fbc.master then updHud (fun h => { h with loop := { h.loop with st := 4 } }) s else s
      if s.hud.loop.st = 4 then s1 else hudEvent 1 s1
    | some w =>
      let s1 := updHud (fun h => { h with winner := some w }) s
      if s.fbc.master then updHud (fun h => { h with loop := { h.loop with st := 0 } }) s1 else s1

/-! The lead's over (R420, R435, R440–R446) -/

/-- This member has become time master since the last over's work: it is LEAD when it was elected, named or is the
successor of a lost lead whose active set still holds another member (R434, R435, R438). -/
def becameMaster (s : State) : State :=
  let lost := s.hud.role == 2 && decide (1 ≤ getLe s.hud.refData 14 1) && decide (getLe s.hud.refData 14 1 ≤ 3)
  let old := s.hud.leadRank
  let others := [0, 1, 2].filter (fun r => r != trayRank s && r != old && bitOf s.hud.active r && isHeard s r)
  let start := fun (t : State) => updHud (fun h => { h with
    lead := true, named := false, handover := none, writes := nodeWrites t, asked := 0
    loop := { h.loop with st := if h.loop.st = 2 ∨ h.loop.st = 3 then h.loop.st else 1 } }) t
  if s.hud.named || s.hud.lead then start s
  else if lost then
    let s1 := hudEvent 10 (bumpFld 0x2C00460 31 24 s)
    if others.isEmpty then updHud (fun h => { h with loop := { h.loop with st := 4 } }) s1 else start s1
  else updHud (fun h => { h with loop := { h.loop with st := if h.loop.st = 4 then 4 else 0 } }) s

/-- NODE_STATUS frames the lead has read (R428). -/
def nodeHeard (f : CanFrame) (s : State) : State :=
  if !(vlpOk f 16) || decide (f.ident < 0x80) || decide (0x9F < f.ident) then badFrame s
  else
    let n := f.ident - 0x80
    let bad := decide (64 ≤ getLe f.data 1 1) || !(zeroSpan f.data 3 4) || !(zeroSpan f.data 12 16)
    if bad then badFrame s
    else
      let r : NodeRep := { heard := some s.fbc.overs, values := (List.range 4).map (fun k => getLe f.data (4 + 2 * k) 2) }
      releaseFrame f (updHud (fun h => { h with nodes := Tbl.set {} h.nodes n r }) s)

/-- One due node object goes out as a WRITE frame (R430). -/
def nextWrite (s : State) : State × Nat :=
  match s.hud.writes with
  | [] => (s, 0)
  | (n, obj, v) :: rest =>
    let ident := 2 ^ 26 + n * 2 ^ 21 + obj
    let e := islandTx 9 (2 ^ 31 + ident) (vlpWord1 8) (leBytes 2 v ++ zeros 6) s
    (updHud (fun h => { h with writes := rest }) e, 2 ^ 9)

/-- The lead's frames of window A (R420, R442, R444, R446). -/
def leadFrames (s : State) : State :=
  let cycle := (s.fbc.curOver.map (·.cycle)).getD 0
  let seq := s.hud.loop.seq
  let s1 := vlpBuffer 5 (0x010 + cycle) 14 (commandBytes s cycle) s
  let s2 := vlpBuffer 6 0x380 14 (allocationBytes s1 0) s1
  let s3 := vlpBuffer 7 0x381 14 (allocationBytes s2 1) s2
  let k := seq / 16 % 4
  let s4 := if seq % 16 = 0 then vlpBuffer 8 (0x390 + k) 14 (staggerBytes s3 k) s3 else s3
  let w := nextWrite s4
  let mask := 2 ^ 5 + 2 ^ 6 + 2 ^ 7 + (if seq % 16 = 0 then 2 ^ 8 else 0) + w.2
  requestTx mask (updHud (fun h => { h with asked := mask }) w.1)

/-- Allocations and offsets the lead's own tray takes (R445, R446): it hears its own frames. -/
def applyAllocation (k : Nat) (codes : List Byte) (s : State) : State :=
  if !s.hud.quorum then s
  else
    (List.range 4).foldl (fun t p =>
      let i := 4 * traySlot t + p
      let code := getLe codes (i - 48 * k) 1
      if i < 48 * k ∨ 48 * k + 48 ≤ i ∨ 250 < code then t
      else if p = t.pwr.straps.pos then armHuddle (250 + 5 * code) (cfgLe t 26 2) t
      else tsbTo p 0x33 (leBytes 1 code ++ leBytes 2 (cfgLe t 26 2)) t) s

/-- Received offsets are written to the chips of the tray (R446, R323). -/
def applyStagger (k : Nat) (offs : List Byte) (s : State) : State :=
  (List.range 4).foldl (fun t p =>
    let i := 4 * traySlot t + p
    if i < 24 * k ∨ 24 * k + 24 ≤ i then t
    else
      let o := getLe offs (2 * (i - 24 * k)) 2
      if p = t.pwr.straps.pos then assignStagger o t else tsbTo p 0x32 (leBytes 2 o) t) s

/-- The lead's own tray acts on what the lead sends. -/
def ownTray (s : State) : State :=
  let s1 := applyAllocation 1 (allocationBytes s 1) (applyAllocation 0 (allocationBytes s 0) s)
  let seq := s1.hud.loop.seq
  if seq % 16 = 0 then applyStagger (seq / 16 % 4) (staggerBytes s1 (seq / 16 % 4)) s1 else s1

/-- LEAD_OVER_WORK in ball 0, with the NODE_STATUS frames read since the last over (R420, R423, R434–R446). -/
def leadOverWork (nodes : List CanFrame) (s : State) : State :=
  if !(isMember s) || !s.fbc.master then
    updHud (fun h => { h with wasMaster := s.fbc.master, lead := h.lead && s.fbc.master }) s
  else
    let s1 := nodes.foldl (fun t f => nodeHeard f t) s
    let sent := (elementFrame (txShadow s1 0)).data
    let seq := getLe sent 24 2
    let s2 := if s1.hud.wasMaster then s1
      else becameMaster (updHud (fun h => { h with wasMaster := true, loop := { h.loop with seq } }) s1)
    let s3 := actOnElection s2
    let yield := s3.hud.handover.isSome && getLe sent 23 1 / 32 % 4 != 0
    if yield then
      ttCmd 2 .island (updHud (fun h => { h with lead := false, wasMaster := false, handover := none, busy := false, result := 0 }) s3)
    else if !s3.fbc.master then updHud (fun h => { h with lead := false, wasMaster := false }) s3
    else
      let act := activeSet s3 (trayRank s3)
      let quorate := s3.hud.lead && decide (2 ≤ ranksIn act)
      let s4 := if s3.hud.lead && !quorate then
          hudEvent 1 (updHud (fun h => { h with lead := false, loop := { h.loop with st := 4 } }) s3)
        else s3
      let s5 := if !quorate then s4
        else
          let a := updHud (fun h => { h with loop := { h.loop with
            seq, st := if h.loop.st = 0 ∨ h.loop.st = 4 then 1 else h.loop.st } }) (abortTx s4.hud.asked s4)
          let b := classifyChips (measureLoop a)
          let run_ := b.hud.loop.st == 1 && (b.fbc.curOver.map (·.cycle)) == some 0
          let c := allocate (if run_ then controllerRun b else b)
          ownTray (leadFrames c)
      let next := if quorate then (s5.hud.loop.seq + 1) % 65536 else s5.hud.loop.seq
      let ho := match s5.hud.handover with
        | some r => r + 1
        | none => 0
      let s6 := putReference { s5.hud.loop with seq := next } (if quorate then act else 0) ho s5
      let s7 := updHud (fun h => { h with active := if quorate then act else 0, leadRank := if quorate then trayRank s6 else 3 }) s6
      sendLeak (putMemberStatus (judgeHuddle (noteReference sent s7)))

/-! References and announcements (R432, R433, R438, R439) -/

/-- Announced key and version of a member. -/
def noteMember (r epoch digest major minor : Nat) (s : State) : State :=
  let p := peerAt s r
  let q : Peer := { p with epoch, digest, major, minor, heard := some s.fbc.overs }
  updHud (fun h => { h with peers := Tbl.set {} h.peers r q }) s

/-- REFERENCE_HANDLING: a tray lead acts on a reference its controller accepted (R432, R433, R438, R439). -/
def referenceHandling (f : CanFrame) (s : State) : State :=
  if !(isTrayLead s) then s
  else if !(vlpOk f 48) || decide (f.ident < 2) || decide (4 < f.ident) || bitOf (getLe f.data 23 1) 7 ||
      decide (4 < getLe f.data 22 1) || s.fbc.master then badFrame s
  else
    let s0 := releaseFrame f s
    let r := getLe f.data 23 1 / 8 % 4
    let s1 := if takesPart s0 && decide (r ≤ 2) then
        noteMember r (getLe f.data 8 4) (getLe f.data 12 8) (getLe f.data 20 1) (getLe f.data 21 1) s0
      else s0
    let s2 := judgeHuddle (noteReference f.data (updHud (fun h => { h with wasMaster := false, lead := false }) s1))
    let s3 := if isMember s2 && s2.hud.role == 2 then
        let l := loopOf f.data
        let s' := setLoopState l.st s2
        let s'' := updHud (fun h => { h with loop := l }) s'
        putReference { l with seq := (l.seq + 1) % 65536 } (getLe f.data 23 1 % 8) 0 s''
      else s2
    let mine := isMember s3 && getLe f.data 23 1 / 32 % 4 == trayRank s3 + 1 && s3.hud.role == 2
    let s4 := if mine then ttCmd 1 .island (updHud (fun h => { h with named := true }) s3) else s3
    let s5 := actOnElection s4
    sendLeak (if isMember s5 then putMemberStatus s5 else s5)

/-- MEMBER_STATUS of a rank (R424, R432). -/
def memberStatus (f : CanFrame) (s : State) : State :=
  if !(isTrayLead s) then s
  else if !(vlpOk f 24) || decide (f.ident < 0xA0) || decide (0xA2 < f.ident) || decide (32 ≤ getLe f.data 14 1) ||
      decide (4 < getLe f.data 14 1 / 4) || decide (64 ≤ getLe f.data 15 1) || decide (16 ≤ getLe f.data 17 1) ||
      decide (4 < getLe f.data 20 1) || !(zeroSpan f.data 21 24) then badFrame s
  else
    let r := f.ident - 0xA0
    let s1 := noteMember r (getLe f.data 0 4) (getLe f.data 4 8) (getLe f.data 12 1) (getLe f.data 13 1) (releaseFrame f s)
    let b := getLe f.data 14 1
    updHud (fun h => { h with peers := Tbl.upd {} h.peers r (fun p => { p with role := b % 4, cause := b / 4 }) }) s1

/-- TRAY_REPORT of a slot, at a member (R425, R443). -/
def trayReport (f : CanFrame) (s : State) : State :=
  if !(isTrayLead s) then s
  else
    let slot := f.ident - 0x300
    let bad := (List.range 4).any (fun p => decide (8 ≤ getLe f.data (12 * p + 11) 1))
    if !(vlpOk f 48) || decide (f.ident < 0x300) || decide (0x317 < f.ident) || bad then badFrame s
    else
      let s1 := releaseFrame f s
      if isMember s1 && decide (slot < cfgTrays s1) then
        (List.range 4).foldl (fun t p => chipHeard (4 * slot + p) (slice f.data (12 * p) 12) t) s1
      else s1

/-- ALLOCATION k at a tray lead (R426, R445). -/
def allocationFrame (f : CanFrame) (s : State) : State :=
  if !(isTrayLead s) then s
  else
    let bad := (List.range 48).any (fun j => decide (251 ≤ getLe f.data j 1) && decide (getLe f.data j 1 ≤ 254))
    if !(vlpOk f 48) || decide (f.ident < 0x380) || decide (0x381 < f.ident) || bad then badFrame s
    else
      let s1 := releaseFrame f s
      if takesPart s1 then applyAllocation (f.ident - 0x380) f.data s1 else s1

/-- STAGGER k at a tray lead (R426, R446). -/
def staggerFrame (f : CanFrame) (s : State) : State :=
  if !(isTrayLead s) then s
  else if !(vlpOk f 48) || decide (f.ident < 0x390) || decide (0x393 < f.ident) then badFrame s
  else
    let s1 := releaseFrame f s
    if takesPart s1 then applyStagger (f.ident - 0x390) f.data s1 else s1

/-- LEAK at a tray lead (R429, R448). -/
def leakFrame (f : CanFrame) (s : State) : State :=
  if !(isTrayLead s) then s
  else
    let kind := getLe f.data 0 1
    if !(vlpOk f 8) || f.ident != 1 || (kind != 1 && kind != 2) || !(zeroSpan f.data 4 8) then badFrame s
    else
      let s1 := releaseFrame f s
      let row := kind == 1 || (decide (getLe f.data 1 1 < cfgNodes s) && bitOf (nodeByte s.hud.cfg (getLe f.data 1 1) 1) 0)
      leakArrived false row (row && bitOf (cfgLe s 16 1) 4) s1

/-- ALL_STOP at a tray lead (R429, R448). -/
def allStopFrame (f : CanFrame) (s : State) : State :=
  if !(isTrayLead s) then s
  else
    let kind := getLe f.data 0 1
    if !(vlpOk f 8) || f.ident != 0 || kind == 0 || decide (3 < kind) || !(zeroSpan f.data 2 8) then badFrame s
    else leakArrived true true true (releaseFrame f s)

/-! Configuration (R415, R416) -/

/-- Checks and keeps a row configuration; false when R415 refuses it. -/
def acceptConfig (c : List Byte) (s : State) : Bool × State :=
  if rowConfigOk c && decide (heldEpoch s < getLe c 8 4) then (true, updHud (fun h => { h with accepted := c }) s)
  else (false, s)

/-- The accepted configuration comes into force (R416, R418, R430). -/
def applyConfig (s : State) : State :=
  let s1 := updHud (fun h => { h with cfg := h.accepted, accepted := [], chips := [], cool := none }) s
  let s2 := if !(takesPart s1) || setUpStands s1 then s1 else setUpFbc s1
  let s3 := if s2.hud.lead && s2.fbc.master then updHud (fun h => { h with writes := nodeWrites s2 }) s2
    else updHud (fun h => { h with lead := false, wasMaster := false }) s2
  judgeHuddle s3

/-- ROW_CONFIG_APPLY: at the next over whose cycle count is 0, or at once without an over (R416). -/
def rowConfigApply (s : State) : State :=
  if !(isTrayLead s) || s.hud.accepted == [] then s
  else
    match s.fbc.curOver with
    | some o => if o.cycle = 0 then applyConfig s else s
    | none => applyConfig s

/-! ISL_HUDDLE_CMD (R438, R447, R449) -/

/-- A command's result. -/
def hudResult (r : Nat) (s : State) : State := updHud (fun h => { h with result := r }) s

/-- HANDOVER to a rank (R438). -/
def handoverCmd (target : Nat) (s : State) : State :=
  if !s.hud.lead then hudResult 1 s
  else if target = trayRank s ∨ 2 < target ∨ bitOf s.hud.active target = false ∨ isHeard s target = false ∨
      (peerAt s target).role ≠ 2 then hudResult 2 s
  else updHud (fun h => { h with handover := some target, busy := true }) s

/-- ROW_CLEAR (R447, R449). -/
def rowClear (s : State) : State :=
  if !(isTrayLead s) then hudResult 4 s
  else
    let own := s.hud.allStop
    let s1 := updHud (fun h => { h with allStop := false }) s
    let quiet := match s.hud.leakOver with
      | some o => decide (200 ≤ s.fbc.overs - o)
      | none => true
    if !s.hud.lead then hudResult (if own then 0 else 1) s1
    else if quiet then hudResult 0 (setLoopState 1 s1)
    else hudResult 3 s1

/-- ALL_STOP (R447). -/
def allStopCmd (s : State) : State :=
  if !(isTrayLead s) then hudResult 4 s else sendLeak (hudResult 0 (updHud (fun h => { h with allStop := true }) s))

/-- A write of ISL_HUDDLE_CMD. -/
def huddleCmd (v : Nat) (s : State) : State :=
  match fld v 3 0 with
  | 1 => if isTrayLead s then handoverCmd (fld v 9 8) s else hudResult 1 s
  | 2 => rowClear s
  | 3 => allStopCmd s
  | _ => s

/-! The tray SMBus over (R455) -/

/-- A fresh tray report entry (R425). -/
def refreshEntry (p : Nat) (state : List Byte) (s : State) : State :=
  updTmg (fun t => { t with positions := Tbl.upd {} t.positions p (fun x =>
    let seq := (x.seq + 1) % 256
    { x with seq, answered := true, fails := 0, state, readAt := s.dts
             entry := slice state 0 10 ++ leBytes 1 seq ++ leBytes 1 (getLe state 10 1) }) }) s

/-- One transfer's failure (R452). -/
def tsbFailed (s : State) : State :=
  logErr { cls := 19, cause := 1, sev := sevNotice, source := 0x2A } (bumpFld 0x2A00020 15 0 (bumpFldBy 0x2A00020 31 16 3 s))

/-- The order of R455's writes. -/
def tsbOrder (code : Nat) : Nat := match code with | 0x30 => 0 | 0x31 => 1 | 0x33 => 2 | 0x32 => 3 | _ => 4

/-- The writes that are due go out in R455's order; those to a position that does not answer fail. -/
def tsbWrites (silent : Nat → Bool) (s : State) : State :=
  let l := s.tmg.due
  let ordered := (List.range 5).flatMap (fun k => l.filter (fun w => tsbOrder w.code == k))
  let s1 := updTmg (fun t => { t with due := [] }) s
  ordered.foldl (fun t w => if silent w.pos then tsbFailed t else emit (.smbus (0x60 + w.pos) w.code w.data) t) s1

/-- One position's state read: the retries it took and its CHIP_STATE, none when it failed (R452, R455). -/
def readPosition (p retries : Nat) (state : Option (List Byte)) (s : State) : State :=
  match state with
  | some b => refreshEntry p (slice b 0 16) (bumpFldBy 0x2A00020 31 16 (min 3 retries) s)
  | none =>
    updTmg (fun t => { t with positions := Tbl.upd {} t.positions p (fun x => { x with fails := min 4 (x.fails + 1) }) })
      (tsbFailed s)

/-- TRAY_SMBUS_OVER: what the other positions answer in this over (R433, R447, R455). -/
def traySmbusOver (answers : List (Nat × Nat × Option (List Byte))) (s : State) : State :=
  if !(isTrayLead s) then s
  else
    let s0 := sendLeak (judgeHuddle s)
    let failed := fun p => answers.any (fun a => a.1 == p && a.2.2.isNone)
    let s1 := tsbWrites failed s0
    let others := (List.range 4).filter (fun p => p != s.pwr.straps.pos && (bitOf (fittedMask s1) p || (trayRecord s1).isNone))
    let s2 := others.foldl (fun t p =>
      match answers.find? (fun a => a.1 == p) with
      | some a => readPosition p a.2.1 a.2.2 t
      | none => t) s1
    let s3 := refreshEntry s.pwr.straps.pos (chipState s2) s2
    if takesPart s3 && fbcRuns s3 then putTrayReport s3 else s3

end Sys2Proof.Machine
end

