-- ==== Sys2Proof/Machine/FrontOps.lean ====
section
/-! DEFINITION. The work of the command front end's own packets: SIGNAL, WAIT, TIMESTAMP and INLINE_WRITE, and the
packets that others release (R199–R201, R206, R207). -/

namespace Sys2Proof.Machine

/-- What follows a front-end access. -/
def afterFront (id r0 : Nat) : FrontAcc → State
  | .done s => endPkt id 0 r0 0 s
  | .ended st s => finishPkt id st r0 0 s
  | .waiting s => updPkt id (fun q => { q with lastWord := r0 }) s

/-- A packet waits for its turn to make a flag write (R207). -/
def waitFlag (p : Inflight) (s : State) : State := updPkt p.id (fun q => { q with wait := .flag }) s

/-- A flag write in this direction must still wait (R206, R207). -/
def flagHeld (s : State) (p : Inflight) (host : Bool) : Bool := p.signal && earlierPending s p host

/-- The far atomic add of SIGNAL with ADD (R199). -/
def frontAdd (p : Inflight) (dva v : Nat) (s : State) : FrontAcc :=
  match resolve s p.owner dva 8 with
  | .ok (.here dpa) =>
    match poisonIn s dpa 8 with
    | some u => .ended 0x0460 (markLogged p.id (reportPoison p.who 8 dva u s))
    | none => .done (deviceWrite notThread p.owner dpa (leBytes 8 (getLe (readMem s p.owner dpa 8) 0 8 + v)) s)
  | .ok (.away chip dpa) =>
    match remoteIssue (.packet p.id) chip dpa p.owner p.tc (.atomic 0x20 (leBytes 8 v)) s with
    | .sent s1 => .waiting (updPkt p.id (fun q => { q with wait := .remote }) s1)
    | .failed st => .ended st (markLogged p.id (reportErr p.who 8 dva { status := st, addr := chip * 2 ^ 48 + dpa, kind := 3 } s))
    | .full => .ended 0x0781 s
  | .error e =>
    if doesPark s p.owner e then
      .waiting (markLogged p.id (updPkt p.id (fun q => { q with wait := .parked 0 })
        (parkOn p.who (.frontEnd p.id) 8 dva e s).1))
    else .ended (endStatus s p.owner e) (markLogged p.id (reportErr p.who 8 dva e s))

/-- SIGNAL (R199, R207). -/
def doSignal (p : Inflight) (s : State) : State :=
  let a := p.fld 16 8
  let v := p.fld 24 8
  let fl := p.fld 32 1
  if a % 8 ≠ 0 ∨ 3 ≤ fl then finishPkt p.id 0x0303 0 0 s
  else if flagHeld s p (bitOf fl 0) then waitFlag p s
  else if bitOf fl 0 then endPkt p.id 0 0 0 (pktHostWrite p a (leBytes 8 v) true s)
  else if bitOf fl 1 then afterFront p.id 0 (frontAdd p a v s)
  else afterFront p.id 0 (frontWrite p a (leBytes 8 v) 0 s)

/-- TIMESTAMP (R199). -/
def doTimestamp (p : Inflight) (s : State) : State :=
  let a := p.fld 16 8
  let fl := p.fld 24 1
  if a % 8 ≠ 0 ∨ 2 ≤ fl then finishPkt p.id 0x0303 0 0 s
  else if a = 0 then endPkt p.id 0 p.started 0 s
  else if flagHeld s p (bitOf fl 0) then waitFlag p s
  else if bitOf fl 0 then endPkt p.id 0 p.started 0 (pktHostWrite p a (leBytes 8 p.started) true s)
  else afterFront p.id p.started (frontWrite p a (leBytes 8 p.started) 0 s)

/-- The device writes of INLINE_WRITE, page by page from `done` (R201). -/
def inlinePages (p : Inflight) (a : Nat) : Nat → Nat → List (Nat × List Byte) → State → State
  | 0, _, _, s => s
  | _ + 1, done, [], s =>
    if awaits s (· == .packet p.id) then updPkt p.id (fun q => { q with wait := .remote, lastWord := done }) s
    else endPkt p.id 0 done 0 s
  | fuel + 1, done, (dva, bs) :: rest, s =>
    match resolve s p.owner dva 2 with
    | .ok (.here dpa) => inlinePages p a fuel (done + bs.length) rest (deviceWrite notThread p.owner dpa bs s)
    | .ok (.away chip dpa) =>
      match remoteWrites (.packet p.id) chip p.owner p.tc false (chunks 64 bs.length dpa bs) s with
      | .sent s1 => inlinePages p a fuel (done + bs.length) rest s1
      | .failed st => finishPkt p.id st done 0 (markLogged p.id
          (reportErr p.who 2 dva { status := st, addr := chip * 2 ^ 48 + dpa, kind := 3 } s))
      | .full => finishPkt p.id 0x0781 done 0 s
    | .error e =>
      if doesPark s p.owner e then
        markLogged p.id (updPkt p.id (fun q => { q with wait := .parked done })
          (parkOn p.who (.frontEnd p.id) 2 dva e s).1)
      else finishPkt p.id (endStatus s p.owner e) done 0 (markLogged p.id (reportErr p.who 2 dva e s))

/-- INLINE_WRITE from byte `done` on (R201, R205, R207). -/
def doInline (p : Inflight) (done : Nat) (s : State) : State :=
  let a := p.fld 16 8
  let n := p.fld 24 2
  let fl := p.fld 26 1
  let bs := slice p.bytes 64 n
  if n = 0 ∨ 192 < n ∨ 2 ≤ fl then finishPkt p.id 0x0303 0 0 s
  else if bitOf (p.fld 3 1) 0 && flagHeld s p (bitOf fl 0) then waitFlag p s
  else if bitOf fl 0 then endPkt p.id 0 n 0 (pktHostWrite p a bs (p.signal && bitOf (p.fld 3 1) 0) s)
  else inlinePages p a 8 done (chunks 4096 n (a + done) (bs.drop done)) s

/-- (word AND MASK) meets COND against VALUE (R200). -/
def waitMet (p : Inflight) (w : Nat) : Bool :=
  let m := w &&& p.fld 32 8
  let v := p.fld 24 8
  let c := p.fld 44 1
  if c = 0 then m == v else if c = 1 then m != v else if c = 2 then decide (v ≤ m) else decide (m < v)

/-- WAIT reads a word of this chip (R200). -/
def waitRead (p : Inflight) (dpa : Nat) (s : State) : State :=
  match poisonIn s dpa 8 with
  | some u => finishPkt p.id 0x0460 p.lastWord 0 (markLogged p.id (reportPoison p.who 1 (p.fld 16 8) u s))
  | none =>
    let w := getLe (readMem s p.owner dpa 8) 0 8
    if waitMet p w then finishPkt p.id 0 w 0 s
    else updPkt p.id (fun q => { q with wait := .word dpa, lastWord := w }) s

/-- WAIT starts (R200). A word of another chip cannot be watched, as UPARK's cannot. -/
def doWait (p : Inflight) (s : State) : State :=
  let a := p.fld 16 8
  if a % 8 ≠ 0 ∨ 3 < p.fld 44 1 ∨ 2 ≤ p.fld 45 1 then finishPkt p.id 0x0303 0 0 s
  else if bitOf (p.fld 45 1) 0 then
    updPkt p.id (fun q => { q with wait := .host }) (emit (.hostRead p.owner a 8) s)
  else
    match resolve s p.owner a 1 with
    | .ok (.here dpa) => waitRead p dpa s
    | .ok (.away _ _) => finishPkt p.id 0x0348 0 0 s
    | .error e =>
      if doesPark s p.owner e then
        markLogged p.id (updPkt p.id (fun q => { q with wait := .parked 0 })
          (parkOn p.who (.frontEnd p.id) 1 a e s).1)
      else finishPkt p.id (endStatus s p.owner e) 0 0 (markLogged p.id (reportErr p.who 1 a e s))

/-- Runs a front-end packet's body, from byte `done` for INLINE_WRITE. -/
def doFront (p : Inflight) (done : Nat) (s : State) : State :=
  if p.opcode = 2 then doSignal p s
  else if p.opcode = 3 then doWait p s
  else if p.opcode = 4 then doTimestamp p s
  else if p.opcode = 0x12 then doInline p done s
  else s

/-- RESUME of a parked front-end packet (R76). -/
def resumeFront (id : Nat) (abort : Bool) (status : Nat) (s : State) : State :=
  match findPkt s id with
  | none => s
  | some p =>
    match p.wait with
    | .parked done => if abort then finishPkt id status done 0 s else doFront p done s
    | _ => s

/-- A remote answer for a front-end packet: the last one ends it (R234). -/
def answerFront (id status : Nat) (s : State) : State :=
  match findPkt s id with
  | none => s
  | some p =>
    if status ≠ 0 then finishPkt id status p.lastWord 0 (markLogged id s)
    else if p.wait == .remote && !(awaits s (· == .packet id)) then endPkt id 0 p.lastWord 0 s
    else s

/-- One waiting packet that can now go on. -/
def settleOne (p : Inflight) (s : State) : State :=
  match p.wait with
  | .fence => if earlierOpen s p then s else finishPkt p.id 0 0 0 s
  | .flag => doFront p 0 s
  | .word dpa => waitRead p dpa s
  | _ => s

/-- Lets every waiting packet go on that can, oldest first (R200, R206, R207). -/
def settlePackets (s : State) : State :=
  s.hif.started.foldl (fun t p =>
    match findPkt t p.id with
    | some q => settleOne q t
    | none => t) s

end Sys2Proof.Machine
end

