-- ==== Sys2Proof/Machine/Formats.lean ====
section
/-! DEFINITION. The sixteen formats, rounding, conversion and block scaling (R124–R133). -/

namespace Sys2Proof.Machine

/-- A decoded element: a finite value with its sign (`neg` tells −0), an infinity, or a NaN. The magnitude of a
finite value is `n × 2^e / d`. -/
inductive Num where
  | fin (neg : Bool) (n d : Nat) (e : Int)
  | inf (neg : Bool)
  | nan (signalling : Bool)
deriving DecidableEq, Repr

/-- Grid flags in the bit order of R139: NV, OF, UF, SN. -/
abbrev flNV : Nat := 1
abbrev flOF : Nat := 2
abbrev flUF : Nat := 4
abbrev flSN : Nat := 8

/-- Width of an element in bits (R124). -/
def fmtWidth : Nat → Nat
  | 0 => 32 | 1 => 16 | 2 => 16 | 3 => 8 | 4 => 8 | 5 => 6 | 6 => 6 | 7 => 4 | 8 => 8
  | 9 => 32 | 10 => 16 | 11 => 8 | 12 => 8 | 13 => 4 | 14 => 4 | _ => 64

/-- Mantissa bits of a float format (R125). -/
def fmtMant : Nat → Nat
  | 0 => 23 | 1 => 10 | 2 => 7 | 3 => 3 | 4 => 2 | 5 => 2 | 6 => 3 | _ => 1

/-- Bias of a float format (R125). -/
def fmtBias : Nat → Nat
  | 0 => 127 | 1 => 15 | 2 => 127 | 3 => 7 | 4 => 15 | 5 => 3 | _ => 1

/-- Exponent bits of a float format (R125). -/
def fmtExp (f : Nat) : Nat := fmtWidth f - 1 - fmtMant f

/-- A float format. -/
def isFloat (f : Nat) : Bool := decide (f ≤ 7)

/-- An integer format. -/
def isInt (f : Nat) : Bool := decide (9 ≤ f) && decide (f ≤ 14)

/-- A format with an infinity (R125). -/
def hasInf (f : Nat) : Bool := f == 0 || f == 1 || f == 2 || f == 4

/-- A format with a NaN (R125). -/
def hasNan (f : Nat) : Bool := hasInf f || f == 3

/-- Magnitude bits of the largest finite value (R125). -/
def maxBits (f : Nat) : Nat :=
  if hasInf f then (2 ^ fmtExp f - 1) * 2 ^ fmtMant f - 1
  else if f = 3 then 0x7E
  else 2 ^ (fmtWidth f - 1) - 1

/-- The canonical NaN (R126). -/
def canonNan : Nat → Nat
  | 0 => 0x7FC00000 | 1 => 0x7E00 | 2 => 0x7FC0 | 3 => 0x7F | 4 => 0x7E | 8 => 0xFF | _ => 0

/-- The image of an infinity. -/
def infBits (f : Nat) (neg : Bool) : Nat :=
  b2n neg * 2 ^ (fmtWidth f - 1) + (2 ^ fmtExp f - 1) * 2 ^ fmtMant f

/-- Reads a float element (R125, R126). -/
def decodeFloat (f v : Nat) : Num :=
  let m := fmtMant f
  let neg := bitOf v (fmtWidth f - 1)
  let E := v / 2 ^ m % 2 ^ fmtExp f
  let M := v % 2 ^ m
  let top := 2 ^ fmtExp f - 1
  if hasInf f && E == top then
    if M = 0 then .inf neg else .nan (!(bitOf M (m - 1)))
  else if f = 3 ∧ E = 15 ∧ M = 7 then .nan false
  else if E = 0 then .fin neg M 1 (1 - (fmtBias f : Int) - (m : Int))
  else .fin neg (2 ^ m + M) 1 ((E : Int) - (fmtBias f : Int) - (m : Int))

/-- Range of an integer format (R127). -/
def intRange : Nat → Int × Int
  | 9 => (-2147483648, 2147483647) | 10 => (-32768, 32767) | 11 => (-128, 127) | 12 => (0, 255)
  | 13 => (-8, 7) | _ => (0, 15)

/-- Reads an integer element (R127). -/
def decodeInt (f v : Nat) : Int := if f = 12 ∨ f = 14 then (v : Int) else toInt (fmtWidth f) v

/-- An integer as a decoded value. -/
def Num.ofInt (i : Int) : Num := .fin (decide (i < 0)) i.natAbs 1 0

/-- Reads an element of any format but FXC21. -/
def decodeNum (f v : Nat) : Num :=
  if isFloat f then decodeFloat f v
  else if f = 8 then (if v = 0xFF then .nan false else .fin false 1 1 ((v : Int) - 127))
  else Num.ofInt (decodeInt f v)

/-- The two parts of a positive rational `n × 2^e / d` with the power of two folded in. -/
def foldPow (n d : Nat) (e : Int) : Nat × Nat :=
  if 0 ≤ e then (n * 2 ^ e.toNat, d) else (n, d * 2 ^ (-e).toNat)

/-- floor(log2 (a / b)) of positive a and b. -/
def floorLog2 (a b : Nat) : Int :=
  let g : Int := (Nat.log2 a : Int) - (Nat.log2 b : Int)
  let p := foldPow 1 1 g
  if b * p.1 ≤ a * p.2 then g else g - 1

/-- `a / b` rounded to an integer: `rtz` truncates, otherwise to nearest, ties to even (R129). -/
def roundQuot (rtz : Bool) (a b : Nat) : Nat :=
  let q := a / b
  let r := a % b
  if rtz then q
  else if b < 2 * r ∨ (2 * r = b ∧ q % 2 = 1) then q + 1
  else q

/-- Magnitude bits of the exact value `n × 2^e / d` rounded once to a float format with unbounded exponent (R129);
an overflow shows as bits above `maxBits`. -/
def roundBits (f : Nat) (rtz : Bool) (n d : Nat) (e : Int) : Nat :=
  if n = 0 then 0
  else
    let m := fmtMant f
    let p := foldPow n d e
    let E := floorLog2 p.1 p.2
    let q := max (E - (m : Int)) (1 - (fmtBias f : Int) - (m : Int))
    let sc := foldPow p.1 p.2 (-q)
    let k := roundQuot rtz sc.1 sc.2
    if k < 2 ^ m then k
    else (q + (m : Int) + (fmtBias f : Int)).toNat * 2 ^ m + (k - 2 ^ m)

/-- A value rounded to a float format, with the flags of R130. -/
def toFloat (f : Nat) (rtz sat : Bool) (x : Num) : Nat × Nat :=
  let sb (neg : Bool) := b2n neg * 2 ^ (fmtWidth f - 1)
  let big (neg : Bool) := sb neg + maxBits f
  match x with
  | .nan sg =>
    if hasNan f then (canonNan f, if sg then flNV else 0) else (0, flNV)
  | .inf neg =>
    if hasInf f then (infBits f neg, 0)
    else if f = 3 then (if sat then big neg else canonNan 3, flOF)
    else (big neg, flOF)
  | .fin neg n d e =>
    let b := roundBits f rtz n d e
    if maxBits f < b then
      if hasInf f then (if sat || rtz then big neg else infBits f neg, flOF)
      else if f = 3 then (if sat then big neg else canonNan 3, flOF)
      else (big neg, flOF)
    else (sb neg + b, if b = 0 ∧ n ≠ 0 then flUF else 0)

/-- A value rounded to an integer. -/
def roundInt (rtz : Bool) (neg : Bool) (n d : Nat) (e : Int) : Int :=
  let p := foldPow n d e
  let k := roundQuot rtz p.1 p.2
  if neg then -(k : Int) else (k : Int)

/-- Clamps to a range; the flag tells whether it did. -/
def clampInt (lo hi i : Int) : Int × Bool :=
  if i < lo then (lo, true) else if hi < i then (hi, true) else (i, false)

/-- A value converted to an integer format (R130). -/
def toIntFmt (f : Nat) (rtz : Bool) (x : Num) : Nat × Nat :=
  let r := intRange f
  match x with
  | .nan _ => (0, flNV)
  | .inf neg => (ofInt (fmtWidth f) (if neg then r.1 else r.2), flOF)
  | .fin neg n d e =>
    let c := clampInt r.1 r.2 (roundInt rtz neg n d e)
    (ofInt (fmtWidth f) c.1, if c.2 then flOF else 0)

/-- A value converted to E8M0 (R130). -/
def toScale (x : Num) : Nat × Nat :=
  match x with
  | .fin false n d e =>
    if n = 0 then (0xFF, flNV)
    else
      let p := foldPow n d e
      let c := clampInt 0 254 (floorLog2 p.1 p.2 + 127)
      (c.1.toNat, if c.2 then flOF else 0)
  | _ => (0xFF, flNV)

/-- A value converted to any format but FXC21 (R130). -/
def encodeNum (f : Nat) (rtz sat : Bool) (x : Num) : Nat × Nat :=
  if isFloat f then toFloat f rtz sat x else if f = 8 then toScale x else toIntFmt f rtz x

/-! FXC21 (R127, R131) -/

/-- One FP32 coordinate in counts: metres × 2,000, clamped to 21 bits. -/
def toCount (rtz : Bool) (v : Nat) : Option (Int × Bool) :=
  match decodeFloat 0 v with
  | .fin neg n d e => some (clampInt (-1048576) 1048575 (roundInt rtz neg (n * 2000) d e))
  | _ => none

/-- An FP32 triple as an FXC21 word. -/
def toPoint (rtz : Bool) (x y z : Nat) : Nat × Nat :=
  match toCount rtz x, toCount rtz y, toCount rtz z with
  | some a, some b, some c =>
    (2 ^ 63 + ofInt 21 c.1 * 2 ^ 42 + ofInt 21 b.1 * 2 ^ 21 + ofInt 21 a.1, if a.2 || b.2 || c.2 then flOF else 0)
  | _, _, _ => (0, flNV)

/-- One count as FP32 metres. -/
def ofCount (rtz : Bool) (v : Nat) : Nat :=
  let i := toInt 21 v
  (toFloat 0 rtz false (.fin (decide (i < 0)) i.natAbs 2000 0)).1

/-- An FXC21 word as an FP32 triple. -/
def ofPoint (rtz : Bool) (w : Nat) : List Nat :=
  if bitOf w 63 then [ofCount rtz (fld w 20 0), ofCount rtz (fld w 41 21), ofCount rtz (fld w 62 42)]
  else [canonNan 0, canonNan 0, canonNan 0]

/-! Elements in memory (R128) and exact sums (R137) -/

/-- Element `i` of a run: a little-endian stream of elements of `w` bits. -/
def getElem (w : Nat) (bs : List Byte) (i : Nat) : Nat :=
  let b := w * i
  getLe bs (b / 8) ((b % 8 + w + 7) / 8) / 2 ^ (b % 8) % 2 ^ w

/-- Elements packed from the lowest bit of the lowest byte (R128). -/
def packElems (w : Nat) (vs : List Nat) : List Byte :=
  leBytes ((vs.length * w + 7) / 8) (vs.foldr (fun v a => v % 2 ^ w + 2 ^ w * a) 0)

/-- Bytes of a run of `n` elements. -/
def runBytes (f n : Nat) : Nat := (n * fmtWidth f + 7) / 8

/-- An exact dyadic sum: `m × 2^e`, or what infinities and NaNs make of it, with the flags raised. -/
structure Sum where
  m : Int := 0
  e : Int := 0
  posInf : Bool := false
  negInf : Bool := false
  isNan : Bool := false
  flags : Nat := 0
deriving DecidableEq, Repr

/-- Adds the exact value `i × 2^k`. -/
def Sum.addExact (a : Sum) (i : Int) (k : Int) : Sum :=
  if k ≤ a.e then { a with m := a.m * 2 ^ (a.e - k).toNat + i, e := k }
  else { a with m := a.m + i * 2 ^ (k - a.e).toNat }

/-- The signed integer part of a finite dyadic value. -/
def signed (neg : Bool) (n : Nat) : Int := if neg then -(n : Int) else (n : Int)

/-- Adds the product of two elements, scaled by `2^k` (R137). -/
def Sum.addProd (a : Sum) (x y : Num) (k : Int) : Sum :=
  match x, y with
  | .nan g, .nan h => { a with isNan := true, flags := a.flags ||| (if g || h then flNV else 0) }
  | .nan g, _ => { a with isNan := true, flags := a.flags ||| (if g then flNV else 0) }
  | _, .nan g => { a with isNan := true, flags := a.flags ||| (if g then flNV else 0) }
  | .inf s, .inf t => if s == t then { a with posInf := true } else { a with negInf := true }
  | .inf s, .fin t n _ _ =>
    if n = 0 then { a with isNan := true, flags := a.flags ||| flNV }
    else if s == t then { a with posInf := true } else { a with negInf := true }
  | .fin s n _ _, .inf t =>
    if n = 0 then { a with isNan := true, flags := a.flags ||| flNV }
    else if s == t then { a with posInf := true } else { a with negInf := true }
  | .fin s n _ e, .fin t m _ f => a.addExact (signed (s != t) (n * m)) (e + f + k)

/-- The sum as a value: an exact zero is +0, infinities of both signs a NaN (R137). -/
def Sum.value (a : Sum) : Num × Nat :=
  if a.isNan then (.nan false, a.flags)
  else if a.posInf && a.negInf then (.nan false, a.flags ||| flNV)
  else if a.posInf then (.inf false, a.flags)
  else if a.negInf then (.inf true, a.flags)
  else (.fin (decide (a.m < 0)) a.m.natAbs 1 a.e, a.flags)

/-- A value rounded to FP32 inside an accumulation: R137's overflow, and no underflow flag. -/
def roundAcc (rtz : Bool) (x : Num) : Nat × Nat :=
  let r := toFloat 0 rtz false x
  (r.1, r.2 &&& (flNV ||| flOF))

/-- One FP32 addition with one rounding (R137). -/
def addF32 (rtz : Bool) (a b : Nat) : Nat × Nat :=
  let s := ((({} : Sum).addProd (decodeFloat 0 a) (.fin false 1 1 0) 0).addProd (decodeFloat 0 b) (.fin false 1 1 0) 0).value
  let r := roundAcc rtz s.1
  (r.1, s.2 ||| r.2)

/-- One FP32 product rounded (R137). -/
def mulF32 (rtz : Bool) (a b : Nat) : Nat × Nat :=
  let s := (({} : Sum).addProd (decodeFloat 0 a) (decodeFloat 0 b) 0).value
  let r := roundAcc rtz s.1
  (r.1, s.2 ||| r.2)

/-! Block scaling of outputs (R133) -/

/-- emax of an MX element format (R133). -/
def emaxOf : Nat → Int
  | 3 => 8 | 4 => 15 | 5 => 4 | 6 => 2 | 7 => 2 | _ => 0

/-- An MX element format, MXINT8 among them. -/
def isMx (f : Nat) : Bool := (decide (3 ≤ f) && decide (f ≤ 7)) || f == 11

/-- The larger of two magnitudes `n × 2^e / d`. -/
def maxMag (a b : Nat × Nat) : Nat × Nat := if a.1 * b.2 < b.1 * a.2 then b else a

/-- A finite magnitude as a fraction. -/
def magOf : Num → Nat × Nat
  | .fin _ n d e => foldPow n d e
  | _ => (0, 1)

/-- A NaN or an infinity. -/
def Num.special : Num → Bool
  | .fin _ _ _ _ => false
  | _ => true

/-- `x / 2^k`. -/
def Num.scaleDown (k : Int) : Num → Num
  | .fin s n d e => .fin s n d (e - k)
  | y => y

/-- One element of an MX run: always saturating (R133). -/
def mxElem (f : Nat) (rtz : Bool) (E : Int) (x : Num) : Nat × Nat :=
  if f = 11 then toIntFmt 11 rtz (x.scaleDown (E - 6)) else toFloat f rtz true (x.scaleDown E)

/-- A run of 32 output elements: its scale byte, its elements and the flags (R133). -/
def mxRun (f : Nat) (rtz : Bool) (xs : List Num) : Nat × List Nat × Nat :=
  if xs.any Num.special then (0xFF, xs.map (fun _ => 0), flNV)
  else
    let m := xs.foldl (fun a x => maxMag a (magOf x)) (0, 1)
    if m.1 = 0 then (0, xs.map (fun _ => 0), 0)
    else
      let E := (clampInt (-127) 127 (floorLog2 m.1 m.2 - emaxOf f)).1
      let r := xs.map (mxElem f rtz E)
      ((E + 127).toNat, r.map (·.1), r.foldl (fun a x => a ||| x.2) 0)

end Sys2Proof.Machine
end

