-- ==== Sys2Proof/Machine/GridOps.lean ====
section
/-! DEFINITION. The Tensor Grid: configuration, checks at issue, hazards and what each queue entry does
(R132–R149). -/

namespace Sys2Proof.Machine

/-- One cluster's grid. -/
def gridAt (s : State) (c : Nat) : Grid := Tbl.get {} s.fab.grids c

/-- Changes one cluster's grid. -/
def updGrid (c : Nat) (f : Grid → Grid) (s : State) : State :=
  { s with fab := { s.fab with grids := Tbl.upd {} s.fab.grids c f } }

/-! Configuration (R141) -/

/-- Configuration value `i`. -/
def cfgAt (cfg : List Nat) (i : Nat) : Nat := cfg.getD i 0

abbrev afmt (cfg : List Nat) : Nat := fld (cfgAt cfg 0) 3 0
abbrev bfmt (cfg : List Nat) : Nat := fld (cfgAt cfg 0) 7 4
abbrev ofmt (cfg : List Nat) : Nat := fld (cfgAt cfg 0) 11 8
abbrev scaleOn (cfg : List Nat) : Bool := bitOf (cfgAt cfg 0) 12
abbrev rtzOn (cfg : List Nat) : Bool := fld (cfgAt cfg 0) 14 13 == 1
abbrev satOn (cfg : List Nat) : Bool := bitOf (cfgAt cfg 0) 15
abbrev cvtSrc (cfg : List Nat) : Nat := fld (cfgAt cfg 7) 3 0
abbrev cvtDst (cfg : List Nat) : Nat := fld (cfgAt cfg 7) 7 4
abbrev cvtMx (cfg : List Nat) : Bool := bitOf (cfgAt cfg 7) 8
abbrev cvtCount (cfg : List Nat) : Nat := fld (cfgAt cfg 7) 35 12

/-- A value UTSET may write (R141). -/
def cfgLegal (i v : Nat) : Bool :=
  if i = 0 then
    decide (v < 2 ^ 16) && decide (fld v 14 13 ≤ 1) &&
    !([8, 9, 15].contains (fld v 3 0)) && !([8, 9, 15].contains (fld v 7 4)) && !([8, 15].contains (fld v 11 8))
  else if i ≤ 6 then decide (v < 2 ^ 22) && decide (v % 16 = 0)
  else if i = 7 then decide (v < 2 ^ 36) && decide (fld v 11 9 = 0) && decide (fld v 35 12 ≠ 0)
  else false

/-- An operand class (R135). -/
structure Cls where
  /-- FP32 accumulators: a float class or MXINT8. -/
  float : Bool
  k : Nat
  /-- FP32 products rounded one by one. -/
  seq : Bool := false
deriving DecidableEq, Repr

/-- Both of a pair are in a set. -/
def bothIn (l : List Nat) (a b : Nat) : Bool := l.contains a && l.contains b

/-- The class of a pairing with SCALE, or none where R135 lists none. -/
def classOf (a b : Nat) (sc : Bool) : Option Cls :=
  if a = 7 ∧ b = 7 then some { float := true, k := 256 }
  else if bothIn [13, 14] a b then (if sc then none else some { float := false, k := 256 })
  else if bothIn [3, 4, 5, 6, 7] a b then some { float := true, k := 128 }
  else if bothIn [11, 12, 13, 14] a b then
    (if sc then (if a = 11 ∧ b = 11 then some { float := true, k := 128 } else none)
     else some { float := false, k := 128 })
  else if sc then none
  else if bothIn [1, 2, 3, 4, 5, 6, 7] a b && ([1, 2].contains a || [1, 2].contains b) then
    some { float := true, k := 128 }
  else if bothIn [10, 11, 12, 13, 14] a b && (a == 10 || b == 10) then some { float := false, k := 128 }
  else if a = 0 ∧ b = 0 then some { float := true, k := 128, seq := true }
  else none

/-- The class a configuration makes. -/
def cfgClass (cfg : List Nat) : Option Cls := classOf (afmt cfg) (bfmt cfg) (scaleOn cfg)

/-- Banks hold FP32 under this configuration; INT32 otherwise (R142). -/
def bankFloat (cfg : List Nat) : Bool :=
  match cfgClass cfg with
  | some k => k.float
  | none => false

/-! Operands of an entry -/

/-- Rows of UTMMA, UTST and UTLDACC; of UTLDW up to 256. -/
def TEntry.rows (e : TEntry) : Nat :=
  match e.op with
  | .utldw => fld e.rs2 7 0 + 1
  | _ => fld e.rs2 6 0 + 1

abbrev TEntry.bank (e : TEntry) : Nat := fld e.rs2 9 8
abbrev TEntry.plane (e : TEntry) : Nat := fld e.rs2 10 10
abbrev TEntry.acc (e : TEntry) : Bool := bitOf e.rs2 11
abbrev TEntry.row0 (e : TEntry) : Nat := fld e.rs2 18 12

/-- A range of scratch offsets: first and the one after the last. -/
abbrev Ext := Nat × Nat

/-- The extent of a strided operand (R142). -/
def strided (base stride rows n : Nat) : Ext := (base, base + (rows - 1) * stride + n)

/-- Bytes of a UTCVT operand: FXC21 points pair with 12-byte triples. -/
def cvtBytes (f other count : Nat) : Nat :=
  if f = 15 then 8 * count else if other = 15 then 12 * count else runBytes f count

/-- Scratch an entry reads (R136). -/
def TEntry.reads (e : TEntry) (cfg : List Nat) : List Ext :=
  match e.op with
  | .utldw =>
    strided e.rs1 (cfgAt cfg 2) e.rows (runBytes (bfmt cfg) 128) ::
    (if scaleOn cfg then [(cfgAt cfg 5, cfgAt cfg 5 + ceilDiv e.rows 32 * 128)] else [])
  | .utmma =>
    let k := ((cfgClass cfg).map (·.k)).getD 128
    strided e.rs1 (cfgAt cfg 1) e.rows (runBytes (afmt cfg) k) ::
    (if scaleOn cfg then [strided (cfgAt cfg 4) 16 e.rows (k / 32)] else [])
  | .utldacc => [strided e.rs1 (cfgAt cfg 3) e.rows 512]
  | .utcvt =>
    (e.rs1, e.rs1 + cvtBytes (cvtSrc cfg) (cvtDst cfg) (cvtCount cfg)) ::
    (if cvtMx cfg && isMx (cvtSrc cfg) then [(cfgAt cfg 4, cfgAt cfg 4 + cvtCount cfg / 32)] else [])
  | _ => []

/-- Scratch an entry writes (R136). -/
def TEntry.writes (e : TEntry) (cfg : List Nat) : List Ext :=
  match e.op with
  | .utst =>
    strided e.rs1 (cfgAt cfg 3) e.rows (runBytes (ofmt cfg) 128) ::
    (if scaleOn cfg then [strided (cfgAt cfg 6) 16 e.rows 4] else [])
  | .utcvt =>
    (e.rs2, e.rs2 + cvtBytes (cvtDst cfg) (cvtSrc cfg) (cvtCount cfg)) ::
    (if cvtMx cfg && isMx (cvtDst cfg) then [(cfgAt cfg 6, cfgAt cfg 6 + cvtCount cfg / 32)] else [])
  | _ => []

/-! Checks at issue (R142) -/

/-- Named bits of rs2, by operation (R140). -/
def rs2Mask : TOp → Nat
  | .utldw => 0x4FF
  | .utmma => 0x7FF7F
  | .utst | .utldacc => 0x7F37F
  | .utzero => 0x300
  | _ => 2 ^ 64 - 1

/-- The configuration once every UTSET still queued has been applied. -/
def cfgAfter (g : Grid) : List Nat :=
  g.queue.foldl (fun c e => if e.op == .utset && !e.started then c.set e.rs1 e.rs2 else c) g.cfg

/-- The format a plane will hold once every queued UTLDW has run. -/
def planeAfter (g : Grid) (p : Nat) : Nat :=
  (g.queue.foldl (fun (a : List Nat × Nat) e =>
    match e.op with
    | .utset => if e.started then a else (a.1.set e.rs1 e.rs2, a.2)
    | .utldw => if e.plane = p then (a.1, bfmt (if e.started then e.cfg else a.1)) else a
    | _ => a) (g.cfg, if p = 0 then g.plane0.fmt else g.plane1.fmt)).2

/-- Two extents share a byte. -/
def overlap (a b : Ext) : Bool := decide (a.1 < b.2) && decide (b.1 < a.2)

/-- UTCVT converts between these two codes (R131). -/
def cvtPair (a b : Nat) : Bool :=
  a == b || (if a == 8 || a == 15 then b == 0 else if b == 8 || b == 15 then a == 0 else true)

/-- COUNT ends no run inside a byte or a 6-bit group (R128). -/
def countWhole (f n : Nat) : Bool :=
  if fmtWidth f = 4 then n % 2 == 0 else if fmtWidth f = 6 then n % 4 == 0 else true

/-- The trap of an entry at issue, in R142's order: ILLEGAL_INSTRUCTION, TENSOR_RANGE, TENSOR_FORMAT. -/
def entryTrap (g : Grid) (e : TEntry) : Option Nat :=
  let cfg := cfgAfter g
  let legal := match e.op with
    | .utset => cfgLegal e.rs1 e.rs2
    | .utcvt => true
    | op => decide (e.rs2 &&& rs2Mask op = e.rs2)
  let kMax := ((cfgClass cfg).map (·.k)).getD 256
  let exts := e.reads cfg ++ e.writes cfg
  let offs := match e.op with
    | .utset | .utzero => []
    | .utcvt => [e.rs1, e.rs2]
    | _ => [e.rs1]
  let badRow := match e.op with
    | .utldw => decide (kMax < e.rows)
    | .utmma | .utst | .utldacc => decide (128 < e.row0 + e.rows)
    | _ => false
  let badOverlap := match e.op with
    | .utcvt =>
      let a := (e.reads cfg).headD (0, 0)
      let b := (e.writes cfg).headD (0, 0)
      overlap a b && !(e.rs1 == e.rs2 &&
        decide (cvtBytes (cvtDst cfg) (cvtSrc cfg) 1 * 8 ≤ cvtBytes (cvtSrc cfg) (cvtDst cfg) 1 * 8) &&
        decide (fmtWidth (cvtDst cfg) ≤ (if cvtDst cfg = 15 then 96 else fmtWidth (cvtSrc cfg))))
    | _ => false
  let badFmt := match e.op with
    | .utldw => (cfgClass cfg).isNone
    | .utmma => (cfgClass cfg).isNone || bfmt cfg != planeAfter g e.plane
    | .utst => (cfgClass cfg).isNone || (scaleOn cfg && !(isMx (ofmt cfg)))
    | .utldacc => (cfgClass cfg).isNone
    | .utcvt =>
      !(cvtPair (cvtSrc cfg) (cvtDst cfg)) || cvtCount cfg == 0 ||
      !(countWhole (cvtSrc cfg) (cvtCount cfg)) || !(countWhole (cvtDst cfg) (cvtCount cfg)) ||
      (cvtMx cfg && (cvtCount cfg % 32 != 0 || !(isMx (cvtSrc cfg) || isMx (cvtDst cfg))))
    | _ => false
  if !legal then some 0x0340
  else if offs.any (fun o => o % 16 != 0) || badRow || exts.any (fun x => decide (0x400000 < x.2)) || badOverlap then
    some 0x034B
  else if badFmt then some 0x034C
  else none

/-! Starting (R143) -/

/-- The pipes: 0 none, 1 load, 2 compute, 3 store. -/
def TEntry.pipe (e : TEntry) : Nat :=
  match e.op with
  | .utset => 0
  | .utldw | .utldacc | .utzero => 1
  | .utmma => 2
  | .utst | .utcvt => 3

/-- Planes and banks an entry reads: planes 0–1, banks 10–13. -/
def TEntry.unitReads (e : TEntry) : List Nat :=
  match e.op with
  | .utmma => [e.plane, 10 + e.bank]
  | .utst => [10 + e.bank]
  | _ => []

/-- Planes and banks an entry writes. -/
def TEntry.unitWrites (e : TEntry) : List Nat :=
  match e.op with
  | .utldw => [e.plane]
  | .utmma | .utldacc | .utzero => [10 + e.bank]
  | _ => []

/-- An earlier incomplete entry holds a later one back (R143). -/
def holdsBack (e : TEntry) (cfg : List Nat) (x : TEntry) : Bool :=
  let hit (a b : List Ext) := a.any (fun p => b.any (overlap p))
  (e.pipe != 0 && e.pipe != 2 && x.pipe == e.pipe) ||
  x.unitWrites.any (fun u => e.unitReads.contains u || e.unitWrites.contains u) ||
  x.unitReads.any (fun u => e.unitWrites.contains u) ||
  hit (x.writes x.cfg) (e.reads cfg ++ e.writes cfg) || hit (x.reads x.cfg) (e.writes cfg)

/-- Starts the next entry of a queue, when it can start. -/
def Grid.start (g : Grid) : Grid :=
  match g.queue.dropWhile (·.started) with
  | [] => g
  | e :: rest =>
    let before := g.queue.takeWhile (·.started)
    if before.any (holdsBack e g.cfg) then g
    else
      let e' := { e with started := true, cfg := g.cfg }
      { g with
        queue := before ++ e' :: rest
        cfg := if e.op == .utset then g.cfg.set e.rs1 e.rs2 else g.cfg }

/-! What an entry does -/

/-- Bytes of a cluster's scratch. -/
def scratchBytes (s : State) (c off n : Nat) : List Byte := plainBytes s (scratchDpa c + off) n

/-- Some storage unit of a scratch run is poisoned. -/
def scratchPoison (s : State) (c off n : Nat) : Bool := (poisonIn s (scratchDpa c + off) n).isSome

/-- The plane of a grid. -/
def Grid.planeOf (g : Grid) (p : Nat) : Plane := if p = 0 then g.plane0 else g.plane1

/-- A bank word. -/
def Grid.word (g : Grid) (b r col : Nat) : Nat := Tbl.get 0 g.banks (b * 16384 + r * 128 + col)

/-- Writes one bank row and its poison mark. -/
def Grid.putRow (g : Grid) (b r : Nat) (ws : List Nat) (poison : Bool) : Grid :=
  { g with
    banks := (ws.zipIdx).foldl (fun t w => Tbl.set 0 t (b * 16384 + r * 128 + w.2) (w.1 % 2 ^ 32)) g.banks
    poisonRows := if poison then addUnit (b * 128 + r) g.poisonRows else g.poisonRows.filter (· != b * 128 + r) }

/-- UTLDW: the tile's rows, the rest of the plane zero (R142). -/
def doLdw (s : State) (c : Nat) (e : TEntry) (g : Grid) : Grid :=
  let f := bfmt e.cfg
  let rb := runBytes f 128
  let k := ((cfgClass e.cfg).map (·.k)).getD 128
  let rowsOff := (List.range e.rows).map (fun r => e.rs1 + r * cfgAt e.cfg 2)
  let data := rowsOff.flatMap (fun o => scratchBytes s c o rb)
  let nsc := ceilDiv e.rows 32 * 128
  let old := g.planeOf e.plane
  let p : Plane :=
    { fmt := f
      bytes := slice data 0 (k * rb)
      scales := if scaleOn e.cfg then slice (scratchBytes s c (cfgAt e.cfg 5) nsc) 0 1024 else old.scales
      poisoned := rowsOff.any (fun o => scratchPoison s c o rb) ||
        (scaleOn e.cfg && scratchPoison s c (cfgAt e.cfg 5) nsc) }
  if e.plane = 0 then { g with plane0 := p } else { g with plane1 := p }

/-- The value of an A or B element with its scale byte: under SCALE an INT8 is MXINT8 (R132). -/
def elemExp (f : Nat) (sc : Bool) : Int := if sc && f == 11 then -6 else 0

/-- The product sum of one row and column of a float class (R132, R137). -/
def floatSum (cfg : List Nat) (k : Nat) (a asc b bsc : List Byte) (col : Nat) : Sum :=
  let wa := fmtWidth (afmt cfg)
  let wb := fmtWidth (bfmt cfg)
  let rb := runBytes (bfmt cfg) 128
  (List.range k).foldl (fun t i =>
    let x := decodeNum (afmt cfg) (getElem wa a i)
    let y := decodeNum (bfmt cfg) (getElem wb (b.drop (i * rb)) col)
    if scaleOn cfg then
      let ea := getLe asc (i / 32) 1
      let eb := getLe bsc (i / 32 * 128 + col) 1
      if ea = 0xFF ∨ eb = 0xFF then { t with isNan := true, flags := t.flags ||| flSN }
      else t.addProd x y ((ea : Int) - 127 + ((eb : Int) - 127) + elemExp (afmt cfg) true + elemExp (bfmt cfg) true)
    else t.addProd x y 0) {}

/-- The FP32 class: rounded products added in rising k order to +0 (R137). -/
def seqSum (rtz : Bool) (k : Nat) (a b : List Byte) (col : Nat) : Nat × Nat :=
  (List.range k).foldl (fun (t : Nat × Nat) i =>
    let p := mulF32 rtz (getElem 32 a i) (getElem 32 (b.drop (i * 512)) col)
    let q := addF32 rtz t.1 p.1
    (q.1, t.2 ||| p.2 ||| q.2)) (0, 0)

/-- The product sum of an integer class (R138). -/
def intSum (cfg : List Nat) (k : Nat) (a b : List Byte) (col : Nat) : Int :=
  let rb := runBytes (bfmt cfg) 128
  (List.range k).foldl (fun t i =>
    t + decodeInt (afmt cfg) (getElem (fmtWidth (afmt cfg)) a i) *
      decodeInt (bfmt cfg) (getElem (fmtWidth (bfmt cfg)) (b.drop (i * rb)) col)) 0

/-- One result word of UTMMA and its flags (R137, R138). -/
def mmaWord (cfg : List Nat) (k : Cls) (acc : Bool) (old : Nat) (a asc b bsc : List Byte) (col : Nat) : Nat × Nat :=
  if k.float then
    let r := if k.seq then seqSum (rtzOn cfg) k.k a b col
      else
        let v := (floatSum cfg k.k a asc b bsc col).value
        let w := roundAcc (rtzOn cfg) v.1
        (w.1, v.2 ||| w.2)
    if acc then
      let q := addF32 (rtzOn cfg) old r.1
      (q.1, r.2 ||| q.2)
    else r
  else
    let v := intSum cfg k.k a b col + (if acc then toInt 32 old else 0)
    let q := clampInt (-2147483648) 2147483647 v
    (ofInt 32 q.1, if q.2 then flOF else 0)

/-- One A row of UTMMA. -/
def mmaRow (s : State) (c : Nat) (e : TEntry) (k : Cls) (i : Nat) (g : Grid) : Grid :=
  let cfg := e.cfg
  let ao := e.rs1 + i * cfgAt cfg 1
  let an := runBytes (afmt cfg) k.k
  let so := cfgAt cfg 4 + i * 16
  let a := scratchBytes s c ao an
  let asc := if scaleOn cfg then scratchBytes s c so (k.k / 32) else []
  let p := g.planeOf e.plane
  let r := e.row0 + i
  let ws := (List.range 128).map (fun col => mmaWord cfg k e.acc (g.word e.bank r col) a asc p.bytes p.scales col)
  let poison := p.poisoned || scratchPoison s c ao an || (scaleOn cfg && scratchPoison s c so (k.k / 32)) ||
    (e.acc && g.poisonRows.contains (e.bank * 128 + r))
  let g1 := g.putRow e.bank r (ws.map (·.1)) poison
  { g1 with flags := ws.foldl (fun f w => f ||| w.2) g1.flags, rows := (g1.rows + 1) % 2 ^ 64 }

/-- UTMMA from the row its PROGRESS names, for `n` rows. -/
def doMma (s : State) (c : Nat) (e : TEntry) (n : Nat) (g : Grid) : Grid :=
  match cfgClass e.cfg with
  | some k => (run e.progress n).foldl (fun t i => mmaRow s c e k i t) g
  | none => g

/-- UTLDACC: words from scratch into the bank. -/
def doLdacc (s : State) (c : Nat) (e : TEntry) (g : Grid) : Grid :=
  (List.range e.rows).foldl (fun t i =>
    let o := e.rs1 + i * cfgAt e.cfg 3
    let bs := scratchBytes s c o 512
    t.putRow e.bank (e.row0 + i) ((List.range 128).map (fun j => getLe bs (4 * j) 4)) (scratchPoison s c o 512)) g

/-- UTZERO. -/
def doZero (e : TEntry) (g : Grid) : Grid :=
  { g with
    banks := g.banks.filter (fun p => p.1 / 16384 != e.bank)
    poisonRows := g.poisonRows.filter (fun r => r / 128 != e.bank) }

/-- Groups of 32. -/
def by32 {α : Type} : Nat → List α → List (List α)
  | 0, _ => []
  | n + 1, l => if l.isEmpty then [] else l.take 32 :: by32 n (l.drop 32)

/-- A run of output elements: its bytes, its scale bytes and the flags (R130, R133). -/
def encodeRun (f : Nat) (rtz sat mx : Bool) (xs : List Num) : List Byte × List Byte × Nat :=
  if mx then
    let rs := (by32 xs.length xs).map (mxRun f rtz)
    (packElems (fmtWidth f) (rs.flatMap (·.2.1)), rs.map (fun r => BitVec.ofNat 8 r.1), rs.foldl (fun a r => a ||| r.2.2) 0)
  else
    let rs := xs.map (encodeNum f rtz sat)
    (packElems (fmtWidth f) (rs.map (·.1)), [], rs.foldl (fun a r => a ||| r.2) 0)

/-- Adds flags to a grid. -/
def Grid.raise (n : Nat) (g : Grid) : Grid := { g with flags := g.flags ||| n }

/-- A poisoned scratch line the grid writes: marked, and logged DEFERRED (R146). -/
def gridUe (c off : Nat) (s : State) : State :=
  logErr { cls := 7, cause := 2, sev := sevDeferred, addr := scratchDpa c + off, addrKind := 1, source := 0x10,
           index := c } s

/-- Marks every scratch unit of a run poisoned. -/
def poisonRun (c off n : Nat) (s : State) : State :=
  (run ((scratchDpa c + off) / 16) (ceilDiv (off % 16 + n) 16)).foldl (fun t u => markPoison (u * 16) t) s

/-- The grid writes scratch. -/
def gridStore (c off : Nat) (bs : List Byte) (s : State) : State :=
  dropReserve notThread (scratchDpa c + off) bs.length (writeScratch (scratchDpa c + off) bs s)

/-- One output row of UTST. -/
def stRow (c : Nat) (e : TEntry) (i : Nat) (s : State) : State :=
  let g := gridAt s c
  let cfg := e.cfg
  let r := e.row0 + i
  let xs := (List.range 128).map (fun col =>
    let w := g.word e.bank r col
    if bankFloat cfg then decodeFloat 0 w else Num.ofInt (toInt 32 w))
  let o := encodeRun (ofmt cfg) (rtzOn cfg) (satOn cfg) (scaleOn cfg) xs
  let off := e.rs1 + i * cfgAt cfg 3
  let s1 := updGrid c (Grid.raise o.2.2) (gridStore c off o.1 s)
  let s2 := if scaleOn cfg then gridStore c (cfgAt cfg 6 + i * 16) o.2.1 s1 else s1
  if g.poisonRows.contains (e.bank * 128 + r) then
    let s3 := poisonRun c off o.1.length s2
    gridUe c off (if scaleOn cfg then poisonRun c (cfgAt cfg 6 + i * 16) 4 s3 else s3)
  else s2

/-- The source elements of UTCVT with their scales. -/
def cvtElems (cfg : List Nat) (src scales : List Byte) : List Num × Nat :=
  let f := cvtSrc cfg
  let mx := cvtMx cfg && isMx f
  let xs := (List.range (cvtCount cfg)).map (fun i =>
    let x := decodeNum f (getElem (fmtWidth f) src i)
    if mx then
      let e := getLe scales (i / 32) 1
      if e = 0xFF then (Num.nan false, flSN)
      else (x.scaleDown (-((e : Int) - 127 + elemExp f true)), 0)
    else (x, 0))
  (xs.map (·.1), xs.foldl (fun a x => a ||| x.2) 0)

/-- What UTCVT writes: data, scales and flags (R130, R131, R133). -/
def cvtOut (cfg : List Nat) (src scales : List Byte) : List Byte × List Byte × Nat :=
  let a := cvtSrc cfg
  let b := cvtDst cfg
  if a = b then (src, scales, 0)
  else if b = 15 then
    let rs := (List.range (cvtCount cfg)).map (fun i =>
      toPoint (rtzOn cfg) (getLe src (12 * i) 4) (getLe src (12 * i + 4) 4) (getLe src (12 * i + 8) 4))
    (rs.flatMap (fun r => leBytes 8 r.1), [], rs.foldl (fun f r => f ||| r.2) 0)
  else if a = 15 then
    ((List.range (cvtCount cfg)).flatMap (fun i => (ofPoint (rtzOn cfg) (getLe src (8 * i) 8)).flatMap (leBytes 4)), [], 0)
  else
    let xs := cvtElems cfg src scales
    let o := encodeRun b (rtzOn cfg) (satOn cfg) (cvtMx cfg && isMx b) xs.1
    (o.1, o.2.1, xs.2 ||| o.2.2)

/-- UTCVT; poisoned source units poison the output units their elements reach, one DEFERRED entry each (R146). -/
def doCvt (c : Nat) (e : TEntry) (s : State) : State :=
  let cfg := e.cfg
  let sn := cvtBytes (cvtSrc cfg) (cvtDst cfg) (cvtCount cfg)
  let dn := cvtBytes (cvtDst cfg) (cvtSrc cfg) (cvtCount cfg)
  let nsc := if cvtMx cfg && isMx (cvtSrc cfg) then cvtCount cfg / 32 else 0
  let src := scratchBytes s c e.rs1 sn
  let o := cvtOut cfg src (scratchBytes s c (cfgAt cfg 4) nsc)
  let units := (List.range (ceilDiv dn 16)).filter (fun u =>
    let lo := u * 16 * sn / dn
    let hi := min sn (ceilDiv ((u + 1) * 16 * sn) dn)
    scratchPoison s c (e.rs1 + lo) (hi - lo) ||
    (decide (0 < nsc) && scratchPoison s c (cfgAt cfg 4) nsc))
  let s1 := updGrid c (Grid.raise o.2.2) (gridStore c e.rs2 o.1 s)
  let s2 := if cvtMx cfg && isMx (cvtDst cfg) then gridStore c (cfgAt cfg 6) o.2.1 s1 else s1
  units.foldl (fun t u => gridUe c (e.rs2 + u * 16) (poisonRun c (e.rs2 + u * 16) 16 t)) s2

/-- A started entry's whole effect (R140–R142). -/
def entryEffect (c : Nat) (e : TEntry) (s : State) : State :=
  match e.op with
  | .utset => s
  | .utldw => updGrid c (doLdw s c e) s
  | .utmma => updGrid c (doMma s c e (e.rows - e.progress)) s
  | .utldacc => updGrid c (doLdacc s c e) s
  | .utzero => updGrid c (doZero e) s
  | .utst => (List.range e.rows).foldl (fun t i => stRow c e i t) s
  | .utcvt => doCvt c e s

/-- A value the manual leaves open, fresh each time. -/
def freshValue (s : State) : Nat × State :=
  ((Config.freeValue s.free).toNat, { s with free := s.free + 1 })

/-- R148: every started entry stops cleanly: a UTMMA after the rows already streaming, whose number is a free value;
every other runs to completion. -/
def preempt (c : Nat) (s : State) : State :=
  let started := (gridAt s c).queue.filter (·.started)
  let waiting := (gridAt s c).queue.filter (fun e => !e.started)
  let r := started.foldl (fun (a : State × List TEntry) e =>
    if e.op == .utmma then
      let v := freshValue a.1
      let n := v.1 % (e.rows - e.progress + 1)
      let s1 := updGrid c (doMma v.2 c e n) v.2
      (s1, if e.progress + n = e.rows then a.2 else a.2 ++ [{ e with progress := e.progress + n, started := false, cfg := [] }])
    else (entryEffect c e a.1, a.2)) (s, [])
  updGrid c (fun g => { g with queue := r.2 ++ waiting }) r.1

/-! Holding (R105) -/

/-- A grant: configuration and flags read 0 (R141, R147). -/
def Grid.grant (gid : Nat) (g : Grid) : Grid :=
  { g with holder := some gid, cfg := [0, 0, 0, 0, 0, 0, 0, 0], flags := 0, releasing := false,
           waiters := g.waiters.filter (· != gid) }

/-- The group holds the grid and has not released it. -/
def Grid.heldBy (g : Grid) (gid : Nat) : Bool := g.holder == some gid && !g.releasing

/-- R147: a lease change clears the grid. -/
def clearGrid (c : Nat) (s : State) : State := updGrid c (fun g => { ({} : Grid) with rows := g.rows }) s

end Sys2Proof.Machine
end

