-- ==== Sys2Proof/Machine/ThreadOps.lean ====
section
/-! DEFINITION. Launches, groups and threads: registers, traps, placement, waits, barriers, grid grants, the end of
groups and launches (R98–R118). -/

namespace Sys2Proof.Machine

/-! Lookups -/

/-- Changes the thread fabric. -/
def updFab (f : Fabric → Fabric) (s : State) : State := { s with fab := f s.fab }

/-- A resident group. -/
def findGroup (s : State) (gid : Nat) : Option Group := s.fab.groups.find? (·.gid == gid)

/-- Changes a resident group. -/
def updGroup (gid : Nat) (f : Group → Group) (s : State) : State :=
  updFab (fun b => { b with groups := updWhere (·.gid == gid) f b.groups }) s

/-- A live launch. -/
def findLaunch (s : State) (id : Nat) : Option Launch := s.fab.launches.find? (·.id == id)

/-- Changes a live launch. -/
def updLaunch (id : Nat) (f : Launch → Launch) (s : State) : State :=
  updFab (fun b => { b with launches := updWhere (·.id == id) f b.launches }) s

/-- A live launch of an owner, by tag. -/
def launchByTag (s : State) (o tag : Nat) : Option Launch :=
  s.fab.launches.find? (fun l => l.owner == o && l.tag == tag)

/-- The key of a thread: cluster × 96 + slot, also its AGENT_INDEX (R74). -/
abbrev threadKey (c slot : Nat) : Nat := c * 96 + slot

/-- The threads of a group, by key, in thread index order. -/
def groupKeys (g : Group) : List Nat := g.slots.map (threadKey g.cluster)

/-- The groups of a launch that are resident. -/
def launchGroups (s : State) (id : Nat) : List Group := s.fab.groups.filter (·.launch == id)

/-- The launch of a thread. -/
def launchOf (s : State) (t : Thread) : Option Launch :=
  match findGroup s t.gid with
  | some g => findLaunch s g.launch
  | none => none

/-- The owner a thread runs for. -/
def threadOwner (s : State) (t : Thread) : Nat := ((launchOf s t).map (·.owner)).getD 0

/-- A remote access of this thread is outstanding. -/
def threadAwaits (s : State) (k : Nat) : Bool :=
  awaits s (fun a => match a with
    | .load c sl _ => threadKey c sl == k
    | .posted c sl => threadKey c sl == k
    | _ => false)

/-- The thread that may issue in a slot: active, ready and running (R93). -/
def issuing (s : State) (c slot : Nat) : Option Thread :=
  match threadAt s (threadKey c slot) with
  | some t =>
    if t.st == .active && t.notReady == 0 && fclkRuns s &&
        ((launchOf s t).map (fun l => l.st == .running && l.stopped.isNone)).getD false then some t
    else none
  | none => none

/-! Registers -/

/-- x register `r`; x0 reads 0. -/
def getX (t : Thread) (r : Nat) : Nat := if r = 0 then 0 else (Tbl.get 0 t.x r).toNat

/-- Writes x register `r`; x0 discards. -/
def setX (r v : Nat) (t : Thread) : Thread :=
  if r = 0 then t else { t with x := Tbl.set 0 t.x r (BitVec.ofNat 64 v) }

/-- f register `r`, with its NaN box. -/
def getF (t : Thread) (r : Nat) : Nat := (Tbl.get 0 t.f r).toNat

/-- Writes f register `r`. -/
def setF (r v : Nat) (t : Thread) : Thread := { t with f := Tbl.set 0 t.f r (BitVec.ofNat 64 v) }

/-- A loaded value as the register takes it: sign-extended, zero-extended or NaN-boxed. -/
def loadValue (size : Nat) (signed fp : Bool) (v : Nat) : Nat :=
  if fp then 2 ^ 64 - 2 ^ (8 * size) + v
  else if signed then ofInt 64 (toInt (8 * size) v) else v

/-- Moves past an instruction. -/
def Thread.next (n : Nat) (t : Thread) : Thread := { t with pc := (t.pc + n) % 2 ^ 64 }

/-- A thread as the author of an access. -/
def threadWho (s : State) (t : Thread) (k : Nat) : Who :=
  { owner := threadOwner s t, agent := 1, index := k, source := 0x10, sourceIndex := k / 96, tc := t.utc }

/-! The end of launches -/

/-- Drops the parks of an owner whose agent a predicate picks. -/
def dropParks (o : Nat) (p : ParkAgent → Bool) (s : State) : State :=
  updOwner o (fun w => { w with parks := w.parks.filter (fun k => !(p k.agent)) }) s

/-- Ends the packet of a SUSPEND or CONTINUE under way. -/
def endJob (l : Launch) (status : Nat) (s : State) : State :=
  match l.job with
  | some j => finishPkt j.id status 0 0 (updLaunch l.id (fun x => { x with job := none }) s)
  | none => s

/-- A launch completes when its last group has ended, or when it was stopped and no group is left (R101, R102). -/
def maybeLaunchDone (id : Nat) (s : State) : State :=
  match findLaunch s id with
  | none => s
  | some l =>
    if (launchGroups s id).isEmpty && l.saved.isEmpty && (l.stopped.isSome || l.groupsEnded == l.groups) then
      let s1 := endJob l (if l.stopped == some 0x0801 then 0x0801 else 0x0242) s
      finishPkt id (l.stopped.getD 0) 0 l.groupsEnded
        (updFab (fun b => { b with launches := b.launches.filter (·.id != id) }) s1)
    else s

/-- Grants a grid to the group first in line (R105): its waiting threads go on. -/
def grantNext (c : Nat) (s : State) : State :=
  match (gridAt s c).waiters with
  | [] => updGrid c (fun g => { g with holder := none, releasing := false }) s
  | gid :: _ =>
    let s1 := updGrid c (Grid.grant gid) s
    updFab (fun b => { b with threads := b.threads.map (fun p =>
      match p.2 with
      | some t => if t.gid == gid && t.st == .waitGrid then (p.1, some (({ t with st := .active } : Thread).next 4)) else p
      | none => p) }) s1

/-- A group gives up the grid: held, released at once; waiting, out of the line. -/
def leaveGrid (c gid : Nat) (s : State) : State :=
  let s1 := updGrid c (fun g => { g with waiters := g.waiters.filter (· != gid) }) s
  if (gridAt s1 c).holder == some gid then grantNext c s1 else s1

/-- R148: the grid of a stopped group reaches its pre-emption point, loses its queue and its hold. -/
def stopGrid (c gid : Nat) (s : State) : State :=
  let s1 := if (gridAt s c).holder == some gid then updGrid c (fun g => { g with queue := [] }) (preempt c s) else s
  leaveGrid c gid s1

/-- Stops every thread of a group where it stands. -/
def stopGroup (g : Group) (s : State) : State :=
  let s1 := forEachKey (groupKeys g) s
  stopGrid g.cluster g.gid s1
where
  /-- Ends the listed threads. -/
  forEachKey (l : List Nat) (s : State) : State :=
    l.foldl (fun t k => updThread k (fun x => { x with st := .ended, notReady := 0, timeoutAt := 0, reserve := none }) t) s

/-- Stops a whole launch with a status: placement ends, groups stop, parks are discarded, and a suspended launch's
saved groups are gone (R82, R83, R102). -/
def stopLaunch (id status : Nat) (s : State) : State :=
  match findLaunch s id with
  | none => s
  | some l =>
    if l.stopped.isSome then s
    else
      let keys := (launchGroups s id).flatMap groupKeys
      let s1 := updLaunch id (fun x => { x with stopped := some status, saved := [] }) s
      let s2 := (launchGroups s id).foldl (fun t g => stopGroup g t) s1
      let s3 := dropParks l.owner (fun a =>
        match a with
        | .thread c sl => keys.contains (threadKey c sl)
        | .saved x _ _ => x == id
        | _ => false) s2
      maybeLaunchDone id s3

/-! Traps (R102) -/

/-- The entry and fault record of a trap; SECONDARY and no record after the launch's first. Gives the SEQ. -/
def reportTrap (w : Who) (acc : Nat) (dva : Option Nat) (e : AccessErr) (sec : Option Nat) (s : State) : State × Nat :=
  if e.status = 0x0460 then
    let r := logErrE { cls := memClass e.addr, cause := 3, sev := sevContained, status := 0x0460, addr := dva.getD 0,
                       addrKind := 2, owner := some w.owner, source := 0x18, index := memIndex e.addr,
                       agent := w.agent, agentIndex := w.index, access := acc + w.tc * 16, secondaryTo := sec } s
    (r.1, r.2.seq)
  else
    let r := logErrE { cls := 1, cause := if e.status / 256 = 4 then 2 else 1, sev := sevNotice, status := e.status,
                       addr := e.addr, addrKind := e.kind, owner := some w.owner, source := w.source,
                       index := w.sourceIndex, secondaryTo := sec } s
    let s1 := if sec.isSome then r.1
      else faultRecord w.owner { addr := dva.getD e.addr, addrKind := if dva.isSome then 0 else 1, status := e.status,
                                 agent := 1, access := acc + w.tc * 16, index := w.index, level := e.level } r.1
    (s1, r.2.seq)

/-- A thread traps: the first trap of its launch stops the launch with its status (R102). -/
def trapThread (k acc : Nat) (dva : Option Nat) (e : AccessErr) (s : State) : State :=
  match threadAt s k with
  | none => s
  | some t =>
    match launchOf s t with
    | none => s
    | some l =>
      let sec := if l.firstTrap = 0 then none else some l.firstTrap
      let r := reportTrap (threadWho s t k) acc dva e sec s
      if l.stopped.isSome then r.1
      else stopLaunch l.id e.status (updLaunch l.id (fun x => { x with firstTrap := r.2 }) r.1)

/-- A trap that is no access trap: its address is the PC. -/
def trapAt (k status : Nat) (s : State) : State :=
  match threadAt s k with
  | some t => trapThread k 0 (some t.pc) { status, addr := t.pc, kind := 2 } s
  | none => s

/-- An access that failed before the instruction took effect: a fault parks the thread, anything else traps it
(R73, R118). -/
def threadFails (k acc dva : Nat) (e : AccessErr) (s : State) : State :=
  match threadAt s k with
  | none => s
  | some t =>
    if doesPark s (threadOwner s t) e then
      let r := parkOn (threadWho s t k) (.thread (k / 96) (k % 96)) acc dva e s
      updThread k (fun x => { x with st := .parked }) r.1
    else trapThread k acc (some dva) { e with status := endStatus s (threadOwner s t) e } s

/-- Poisoned data consumed by a thread: the DVA of the unit is logged (R162). -/
def threadPoison (k acc dva dpa unit : Nat) (s : State) : State :=
  trapThread k acc (some (dva + (unit - dpa))) { status := 0x0460, addr := unit, kind := 2 } s

/-- A pending deferred trap is taken at a FENCE, UFENCE.G, rl atomic or UEND (R112). -/
def takeDeferred (k : Nat) (t : Thread) (s : State) : Option State :=
  match t.deferred with
  | some (a, kind, st) => some (trapThread k 2 (if kind = 2 then some a else none) { status := st, addr := a, kind } s)
  | none => none

/-- A posted access failed: entry and record at once, the trap later (R112). -/
def postedFails (k acc dva : Nat) (e : AccessErr) (s : State) : State :=
  match threadAt s k with
  | none => s
  | some t =>
    updThread k (fun x => { x with deferred := if x.deferred.isSome then x.deferred else some (dva, 2, e.status) })
      (reportAccess (threadWho s t k) acc (some dva) e 0 s)

/-- RESUME of a parked thread (R76, R118). -/
def resumeThread (k : Nat) (abort : Bool) (p : Park) (s : State) : State :=
  if abort then trapThread k p.acc (some p.dva) { status := p.status, addr := p.dva, kind := 2 } s
  else updThread k (fun t => if t.st == .parked then { t with st := .active } else t) s

/-! Barriers (R106, R107) -/

/-- A group's barrier. -/
def barrierAt (g : Group) (i : Nat) : Barrier := g.barriers.getD i ⟨0, 0, 0⟩

/-- Changes one barrier. -/
def setBarrier (gid i : Nat) (b : Barrier) (s : State) : State :=
  updGroup gid (fun g => { g with barriers := g.barriers.set i b }) s

/-- R107: every live thread waits at a barrier: the lowest one traps. -/
def deadlockCheck (gid : Nat) (s : State) : State :=
  match findGroup s gid with
  | none => s
  | some g =>
    let live := (groupKeys g).filter (fun k =>
      match threadAt s k with
      | some t => t.st != .ended
      | none => false)
    if !live.isEmpty && live.all (fun k => ((threadAt s k).map (fun t => t.st == .waitBar)).getD false) then
      trapAt (live.headD 0) 0x0346 s
    else s

/-- Lets the waits of one barrier return whose phase has changed. -/
def releaseBarrier (gid i phase : Nat) (s : State) : State :=
  updFab (fun b => { b with threads := b.threads.map (fun p =>
    match p.2 with
    | some t =>
      if t.gid == gid && t.st == .waitBar && t.waitId == i && t.waitVal != phase then
        (p.1, some (({ t with st := .active } : Thread).next 4))
      else p
    | none => p) }) s

/-- One arrival; gives the phase it returns. -/
def arrive (g : Group) (i : Nat) (s : State) : State × Nat :=
  let b := barrierAt g i
  if b.arrived + 1 = b.expected then
    let ph := add32 b.phase 1
    (releaseBarrier g.gid i ph (setBarrier g.gid i { b with phase := ph, arrived := 0 } s), b.phase)
  else (setBarrier g.gid i { b with arrived := b.arrived + 1 } s, b.phase)

/-! Copy counters (R108) -/

/-- The signed 31-bit difference of a counter and a target is 0 or more. -/
def copyReached (ctr target : Nat) : Bool := decide (0 ≤ toInt 31 ((ctr % 2 ^ 31 + 2 ^ 31 - target % 2 ^ 31) % 2 ^ 31))

/-- Lets the copy waits of a group return that have reached their target. -/
def releaseCopy (gid : Nat) (s : State) : State :=
  match findGroup s gid with
  | none => s
  | some g =>
    updFab (fun b => { b with threads := b.threads.map (fun p =>
      match p.2 with
      | some t =>
        let c := g.copyCtr.getD t.waitId 0
        if t.gid == gid && t.st == .waitCopy && copyReached c t.waitVal then
          (p.1, some ((setX t.waitRd c { t with st := .active }).next 4))
        else p
      | none => p) }) s

/-- A chain of a group ended: its counter (R108). -/
def copyDone (gid ctr : Nat) (ok : Bool) (s : State) : State :=
  releaseCopy gid (updGroup gid (fun g =>
    let c := g.copyCtr.getD ctr 0
    let v := (c % 2 ^ 31 + 1) % 2 ^ 31 + (if ok then c / 2 ^ 31 % 2 else 1) * 2 ^ 31
    { g with copyCtr := g.copyCtr.set ctr v, copies := g.copies - 1 }) s)

/-! Placement (R99, R100) -/

/-- Slot indexes occupied in a cluster. -/
def busySlots (s : State) (c : Nat) : List Nat :=
  (s.fab.groups.filter (·.cluster == c)).flatMap (·.slots)

/-- Groups resident in a cluster. -/
def groupsIn (s : State) (c : Nat) : Nat := (s.fab.groups.filter (·.cluster == c)).length

/-- CLU_SCR_LIMIT of a cluster, in 4 KiB pages. -/
def scrLimit (s : State) (c : Nat) : Nat := regFld s (0x1000004 + c * 0x10000) 22 12

/-- The scratch reservations of a cluster, in pages: first and one after last. -/
def scrTaken (s : State) (c : Nat) : List Ext :=
  (s.fab.groups.filter (·.cluster == c)).map (fun g => (g.scrOff / 4096, g.scrOff / 4096 + g.scrPg))

/-- The first free run of `n` pages below `limit` (R99). -/
def firstFit (taken : List Ext) (limit n : Nat) : Option Nat :=
  let starts := 0 :: taken.map (·.2)
  starts.foldl (fun best p =>
    if p + n ≤ limit ∧ !(taken.any (fun t => overlap t (p, p + n))) then
      match best with
      | some b => if p < b then some p else some b
      | none => some p
    else best) none

/-- Where a cluster can put a group of a launch (R99). -/
def roomFor (s : State) (l : Launch) (c : Nat) : Option Nat :=
  if leasedTo s c l.owner && decide (l.threads + (busySlots s c).length ≤ 96) && decide (groupsIn s c < 16) then
    firstFit (scrTaken s c) (scrLimit s c) l.scrPg
  else none

/-- The clusters of a launch in the order of its search (R99). -/
def searchOrder (l : Launch) : List Nat :=
  match l.pack, l.last with
  | false, some c => l.clusters.filter (fun x => decide (c < x)) ++ l.clusters.filter (fun x => decide (x ≤ c))
  | _, _ => l.clusters

/-- The free slot of the core with the most free slots, the lowest core on a tie (R100). -/
def nextSlot (busy : List Nat) : Nat :=
  let free (core : Nat) := (List.range 8).filter (fun i => !(busy.contains (core * 8 + i)))
  let best := (List.range 12).foldl (fun b core => if (free b).length < (free core).length then core else b) 0
  best * 8 + (free best).headD 0

/-- Slots for `n` threads, in thread index order (R100). -/
def pickSlots : Nat → List Nat → List Nat
  | 0, _ => []
  | n + 1, busy =>
    let sl := nextSlot busy
    sl :: pickSlots n (sl :: busy)

/-- ULOCAL of a group (R100). -/
def ulocal (l : Launch) (g : Group) : Nat := (l.scrBase + g.cluster * 0x400000 + g.scrOff) % 2 ^ 64

/-- A thread as R100 starts it. -/
def freshThread (l : Launch) (g : Group) (i : Nat) : Thread :=
  let t : Thread := { gid := g.gid, index := i, pc := l.entry, utc := l.utc }
  setX 10 l.arg (setX 11 g.index (setX 12 i
    (setX 2 (if l.scrPg = 0 then 0 else (ulocal l g + l.scrPg * 4096) % 2 ^ 64) t)))

/-- Puts a group and its threads in place. -/
def seatGroup (g : Group) (ts : List (Nat × Thread)) (s : State) : State :=
  let s1 := updFab (fun b => { b with groups := b.groups ++ [g] }) s
  ts.foldl (fun t p => updFab (fun b => { b with threads := Tbl.set none b.threads p.1 (some p.2) }) t) s1

/-- Places the next group of a launch on a cluster (R99, R100). -/
def placeOn (l : Launch) (c page : Nat) (s : State) : State :=
  let g : Group :=
    { gid := s.fab.nextGid, launch := l.id, index := l.next, cluster := c, scrOff := page * 4096, scrPg := l.scrPg
      slots := pickSlots l.threads (busySlots s c)
      barriers := List.replicate 8 ⟨l.threads, 0, 0⟩, copyCtr := List.replicate 8 0
      cycleBase := 0, cycleStart := s.fab.fclkMilli, copies := 0 }
  let s1 := updFab (fun b => { b with nextGid := b.nextGid + 1 }) s
  let s2 := updLaunch l.id (fun x => { x with next := x.next + 1, last := some c }) s1
  seatGroup g (g.slots.zipIdx.map (fun p => (threadKey c p.1, freshThread l g p.2))) s2

/-- The launch of an owner whose groups are placed next: acceptance order (R99). -/
def placingLaunch (s : State) (o : Nat) : Option Launch :=
  s.fab.launches.find? (fun l => l.owner == o && l.stopped.isNone && decide (l.next < l.groups) && l.st == .running)

/-- Places one group of an owner's first waiting launch, where a cluster has room (R99). -/
def placeGroup (o : Nat) (s : State) : State :=
  match placingLaunch s o with
  | none => s
  | some l =>
    match (searchOrder l).findSome? (fun c => (roomFor s l c).map (fun p => (c, p))) with
    | some (c, p) => placeOn l c p s
    | none => s

/-! The end of a group (R101) -/

/-- Every thread has ended, every copy has completed and no access is outstanding. -/
def groupOver (s : State) (g : Group) : Bool :=
  (groupKeys g).all (fun k => ((threadAt s k).map (fun t => t.st == .ended)).getD true && !(threadAwaits s k)) &&
  g.copies == 0

/-- Removes a group and frees its slots. -/
def unseat (g : Group) (s : State) : State :=
  updFab (fun b => { b with
    groups := b.groups.filter (·.gid != g.gid)
    threads := b.threads.filter (fun p => !((groupKeys g).contains p.1)) }) s

/-- A group ends: its resources go free, and the last one completes the LAUNCH (R101). -/
def endGroup (gid : Nat) (s : State) : State :=
  match findGroup s gid with
  | none => s
  | some g =>
    if groupOver s g then
      let s1 := unseat g (leaveGrid g.cluster gid s)
      maybeLaunchDone g.launch (updLaunch g.launch (fun l => { l with groupsEnded := l.groupsEnded + 1 }) s1)
    else s

/-- An ended thread may leave the rest of its group deadlocked (R106, R107). -/
def endThread (k : Nat) (s : State) : State :=
  match threadAt s k with
  | none => s
  | some t => deadlockCheck t.gid (updThread k (fun x => { x with st := .ended, reserve := none }) s)

/-! Remote answers (R112, R114, R234) -/

/-- A remote load's or atomic's value reaches its register (R93). -/
def finishLoad (k : Nat) (s : State) : State :=
  match threadAt s k with
  | none => s
  | some t =>
    let v := getLe t.rbuf 0 t.fin.size
    let w := loadValue t.fin.size t.fin.signed t.fin.fp v
    let u : Thread := { t with st := .active, rbuf := [], rpoison := false, fin := {} }
    let u' := if t.fin.fp then setF t.fin.rd w u else setX t.fin.rd w u
    updThread k (fun _ => u'.next t.fin.len) s

/-- A part of a remote load has come back: bytes, poison, or a failure status. -/
def answerLoad (k off status : Nat) (bs : List Byte) (poison : Bool) (chip dpa : Nat) (s : State) : State :=
  match threadAt s k with
  | none => s
  | some t =>
    if status ≠ 0 then
      trapThread k 1 (some t.fin.dva) { status, addr := chip * 2 ^ 48 + dpa, kind := 3 } s
    else
      let s1 := updThread k (fun x => { x with rbuf := putBytes x.rbuf off bs, rpoison := x.rpoison || poison }) s
      if t.st != .waitRemote || awaits s1 (fun a => match a with
          | .load c sl _ => threadKey c sl == k
          | _ => false) then s1
      else if t.rpoison || poison then
        trapThread k 1 (some t.fin.dva) { status := 0x0460, addr := dpa, kind := 2 } s1
      else finishLoad k s1

/-- A posted access has been performed, or has failed (R112). -/
def answerPosted (k status chip dpa : Nat) (s : State) : State :=
  match threadAt s k with
  | none => s
  | some t =>
    if status = 0 then s
    else
      let a := chip * 2 ^ 48 + dpa
      updThread k (fun x => { x with deferred := if x.deferred.isSome then x.deferred else some (a, 3, status) })
        (reportAccess (threadWho s t k) 2 none { status, addr := a, kind := 3 } 0 s)

/-! Waits that other commands end -/

/-- UEND's conditions hold: accesses performed and the thread's tensor entries complete (R101, R145). -/
def mayEnd (s : State) (k : Nat) : Bool :=
  !(threadAwaits s k) && !((gridAt s (k / 96)).queue.any (·.slot == k % 96))

/-- A thread waiting at UFENCE.G, UTWAIT or UEND goes on when its condition holds. -/
def settleWait (k : Nat) (s : State) : State :=
  match threadAt s k with
  | none => s
  | some t =>
    match t.st with
    | .waitFence =>
      if threadAwaits s k then s
      else
        match takeDeferred k t s with
        | some s1 => s1
        | none => updThread k (fun x => ({ x with st := .active } : Thread).next 4) s
    | .waitTensor =>
      if (gridAt s (k / 96)).queue.isEmpty then updThread k (fun x => ({ x with st := .active } : Thread).next 4) s else s
    | .ending =>
      if mayEnd s k then
        match takeDeferred k t s with
        | some s1 => s1
        | none => endThread k s
      else s
    | _ => s

/-- Lets every such thread go on that can. -/
def settleWaits (s : State) : State := s.fab.threads.foldl (fun t p => settleWait p.1 t) s

/-- A dormant thread wakes with a result (R110). -/
def wake (k result : Nat) (s : State) : State :=
  updThread k (fun t =>
    if t.st == .dormant then (setX t.waitRd result { t with st := .active, timeoutAt := 0 }).next 4 else t) s

/-- Stops every launch of an owner (R83). -/
def stopOwner (o status : Nat) (s : State) : State :=
  (s.fab.launches.filter (·.owner == o)).foldl (fun t l => stopLaunch l.id status t) s

end Sys2Proof.Machine
end

