-- ==== Sys2Proof/Machine/MoverOps.lean ====
section
/-! DEFINITION. Movers: descriptors, steps, RESULT writes and the end of chains (R163–R169, R201). -/

namespace Sys2Proof.Machine

/-- Reads a register through the mirror of R59: offset and bytes. -/
abbrev RegReader := Nat → Nat → State → State × Nat

/-- Changes the movers. -/
def updMov (f : Movers → Movers) (s : State) : State := { s with mov := f s.mov }

/-- The chains of a channel, oldest first. -/
def chainsAt (s : State) (ch : Nat) : List Chain := Tbl.get [] s.mov.chans ch

/-- The channel of a bulk mover. -/
abbrev bulkChan (m : Nat) : Nat := 512 + m

/-- Changes a chain of a channel. -/
def updChain (ch cid : Nat) (f : Chain → Chain) (s : State) : State :=
  updMov (fun m => { m with chans := Tbl.upd [] m.chans ch (updWhere (·.cid == cid) f) }) s

/-- Adds a chain to a channel. -/
def addChain (ch : Nat) (mk : Nat → Chain) (s : State) : State :=
  updMov (fun m => { m with chans := Tbl.upd [] m.chans ch (· ++ [mk m.nextCid]), nextCid := m.nextCid + 1 }) s

/-- The channel and chain of a chain number. -/
def findChain (s : State) (cid : Nat) : Option (Nat × Chain) :=
  s.mov.chans.findSome? (fun p => (p.2.find? (·.cid == cid)).map (fun c => (p.1, c)))

/-- Class of a chain: its current descriptor's. -/
def Chain.tc (c : Chain) : Nat := match c.desc with
  | some d => d.tc
  | none => c.tc0

/-- The chain a channel works on: a cluster channel its oldest, a bulk mover the oldest that `p` picks (R166, R169). -/
def pickChain (s : State) (ch : Nat) (p : Chain → Bool) : Option Chain :=
  if ch < 512 then
    match chainsAt s ch with
    | c :: _ => if p c then some c else none
    | [] => none
  else (chainsAt s ch).find? p

/-- The chain whose step comes next: on a bulk mover, the oldest of the highest class (R169). -/
def stepChain (s : State) (ch : Nat) : Option Chain :=
  let ready (c : Chain) := c.phase == .steps && c.parked.isNone
  [0, 1, 2, 3].findSome? (fun tc => pickChain s ch (fun c => ready c && c.tc == tc))

/-- A chain as the author of an access. -/
def chainWho (s : State) (ch : Nat) (c : Chain) : Who :=
  { owner := c.owner, agent := if ch < 512 then 2 else 3, index := if ch < 512 then ch else ch - 512, source := 0x18
    sourceIndex := if ch < 512 then ch / 4 else ch - 512, tc := c.tc
    tag := match c.origin with
      | .packet id => ((findPkt s id).map (·.tag)).getD 0
      | .counter _ _ => 0
    requester := match c.origin with
      | .packet _ => some c.owner
      | .counter _ _ => none }

/-- The packet of a chain has an error unit entry (R209). -/
def markChain (c : Chain) (s : State) : State :=
  match c.origin with
  | .packet id => markLogged id s
  | .counter _ _ => s

/-! RESULT (R168) -/

/-- The RESULT word. -/
def resultWord (status done : Nat) (written : Bool) : Nat := status + b2n written * 2 ^ 16 + done % 2 ^ 40 * 2 ^ 24

/-- Writes RESULT at a descriptor; a failure is logged and changes nothing else (R168). -/
def writeResult (ch : Nat) (c : Chain) (status done : Nat) (written : Bool) (s : State) : State :=
  if c.ownDesc then s
  else
    let a := (c.dva + 56) % 2 ^ 64
    let bs := leBytes 8 (resultWord status done written)
    let w := chainWho s ch c
    match resolve s c.owner a 2 with
    | .ok (.here dpa) => deviceWrite notThread c.owner dpa bs s
    | .ok (.away chip dpa) =>
      match remoteIssue (.moverResult c.cid) chip dpa c.owner c.tc (.write bs false) s with
      | .sent s1 => s1
      | .failed st => reportErr w 2 a { status := st, addr := chip * 2 ^ 48 + dpa, kind := 3 } s
      | .full => reportErr w 2 a { status := 0x0781, addr := chip * 2 ^ 48 + dpa, kind := 3 } s
    | .error e => reportErr w 2 a e s

/-! Descriptors (R164, R165) -/

/-- A descriptor's fields. -/
def parseDesc (b : List Byte) : Desc :=
  let fl := getLe b 49 1
  { next := getLe b 0 8, src := getLe b 8 8, dst := getLe b 16 8, rowBytes := getLe b 24 4, rows := getLe b 28 4
    srcStride := getLe b 32 8, dstStride := getLe b 40 8, fill := getLe b 48 1 == 1, poisonPass := bitOf fl 0
    srcHost := bitOf fl 1, dstHost := bitOf fl 2, tc := fld fl 5 4 }

/-- Row `i`'s start on a side (R165). -/
def rowAt (base stride i : Nat) : Nat := (base + i * stride) % 2 ^ 64

/-- A row whose source and destination ranges share a DVA. -/
def rowsOverlap (d : Desc) : Bool :=
  !d.fill && !d.srcHost && !d.dstHost && decide (d.src < d.dst) &&
  (List.range d.rows).any (fun i =>
    overlap (rowAt d.src d.srcStride i, rowAt d.src d.srcStride i + d.rowBytes)
      (rowAt d.dst d.dstStride i, rowAt d.dst d.dstStride i + d.rowBytes))

/-- R165's judgement of a fetched descriptor. -/
def descError (bulk : Bool) (b : List Byte) : Option Nat :=
  let d := parseDesc b
  let far (a : Nat) := decide (2 ^ 48 ≤ a)
  if 2 ≤ getLe b 48 1 ∨ bitOf (getLe b 49 1) 3 ∨ fld (getLe b 49 1) 7 6 ≠ 0 ∨ getLe b 50 6 ≠ 0 ∨
      d.rowBytes = 0 ∨ d.rows = 0 ∨ d.next % 64 ≠ 0 ∨ 2 ^ 40 ≤ d.rowBytes * d.rows ∨
      (!bulk && (d.srcHost || d.dstHost)) ∨ (d.srcHost && d.fill) ∨
      far d.next ∨ (!d.fill && !d.srcHost && far d.src) ∨ (!d.dstHost && far d.dst) then some 0x0360
  else if rowsOverlap d then some 0x0361
  else none

/-- Logs a failure of R165: the descriptor's DVA, or the packet's ring and tag. -/
def logDesc (ch : Nat) (c : Chain) (status : Nat) (s : State) : State :=
  match c.ownDesc, c.origin with
  | true, .packet id =>
    match findPkt s id with
    | some p =>
      markLogged id (logAccess 1 (some c.owner) 0x18
        { addr := p.local_ + p.tag * 2 ^ 32, status, agent := 3, access := c.tc * 16, index := ch - 512 } 7 p.tag p.ring s)
    | none => s
  | _, _ =>
    markChain c (reportAccess (chainWho s ch c) 1 (some c.dva) { status, addr := c.dva, kind := 2 } 0 s)

/-- The descriptor of a chain is over. -/
def descOver (ch cid status : Nat) (s : State) : State := updChain ch cid (fun c => { c with phase := .curOver status }) s

/-- A fetched descriptor is checked and taken up (R165, R166). -/
def takeDesc (ch : Nat) (c : Chain) (b : List Byte) (s : State) : State :=
  match descError (decide (512 ≤ ch)) b with
  | some st => descOver ch c.cid st (logDesc ch c st s)
  | none => updChain ch c.cid (fun x => { x with desc := some (parseDesc b), phase := .steps, row := 0, off := 0, done := 0 }) s

/-- An access of a chain failed: a fault parks it, with RESULT; anything else ends its descriptor (R167, R168). -/
def chainFails (ch : Nat) (c : Chain) (acc dva : Nat) (e : AccessErr) (s : State) : State :=
  let w := chainWho s ch c
  if doesPark s c.owner e then
    let agent : ParkAgent := if ch < 512 then .clusterMover (ch / 4) (ch % 4) else .bulkMover (ch - 512)
    let r := parkOn w agent acc dva e s
    markChain c (updChain ch c.cid (fun x => { x with parked := some r.2 }) (writeResult ch c e.status c.done false r.1))
  else descOver ch c.cid (endStatus s c.owner e) (markChain c (reportErr w acc dva e s))

/-- DESCRIPTOR_START: fetches and checks the next descriptor of a chain (R166); the 4,097th fails unfetched (R165). -/
def startDesc (ch : Nat) (s : State) : State :=
  match pickChain s ch (fun c => c.phase == .fetch && c.parked.isNone) with
  | none => s
  | some c =>
    if c.count = 4096 then
      descOver ch c.cid 0x0362 (updChain ch c.cid (fun x => { x with desc := none, done := 0 }) (logDesc ch c 0x0362 s))
    else
      let s1 := updChain ch c.cid (fun x => { x with done := 0 }) s
      let c := { c with done := 0 }
      let go (t : State) := updChain ch c.cid (fun x => { x with count := x.count + 1 }) t
      match resolve s1 c.owner c.dva 1 with
      | .ok (.here dpa) =>
        match poisonIn s1 dpa 64 with
        | some u => descOver ch c.cid 0x0460 (go (markChain c (reportPoison (chainWho s1 ch c) 1 (c.dva + (u - dpa)) u s1)))
        | none => takeDesc ch c (readMem s1 c.owner dpa 64) (go (countBytes dpa 64 false s1))
      | .ok (.away chip dpa) =>
        match remoteIssue (.moverDesc c.cid) chip dpa c.owner c.tc (.read 64) s1 with
        | .sent s2 => updChain ch c.cid (fun x => { x with phase := .fetching }) (go s2)
        | .failed st => descOver ch c.cid st (go (markChain c (reportErr (chainWho s1 ch c) 1 c.dva
            { status := st, addr := chip * 2 ^ 48 + dpa, kind := 3 } s1)))
        | .full => s
      | .error e => chainFails ch c 1 c.dva e (if e.parks then s1 else go s1)

/-! Steps (R166–R168) -/

/-- The current step: source address, destination address, bytes. -/
def stepOf (d : Desc) (c : Chain) : Nat × Nat × Nat :=
  let src := (rowAt d.src d.srcStride c.row + c.off) % 2 ^ 64
  let dst := (rowAt d.dst d.dstStride c.row + c.off) % 2 ^ 64
  let n := min (d.rowBytes - c.off) (4096 - dst % 4096)
  (src, dst, if d.fill then n else min n (4096 - src % 4096))

/-- A step's bytes have been performed: the chain moves on, and its descriptor is over after the last step. -/
def stepDone (ch cid n : Nat) (s : State) : State :=
  updChain ch cid (fun c =>
    match c.desc with
    | none => c
    | some d =>
      let off := c.off + n
      let c1 := { c with done := c.done + n, buffer := [], bufPoison := [] }
      let c2 := if off < d.rowBytes then { c1 with off, phase := .steps }
        else { c1 with row := c1.row + 1, off := 0, phase := if c1.row + 1 < d.rows then .steps else .curOver 0 }
      match c2.cancel, c2.phase with
      | some st, .steps => { c2 with phase := .curOver st }
      | _, _ => c2) s

/-- A host write of a chain, unless an FLR muted its packet; the packet's flush read follows the last (R188). -/
def chainHostWrite (c : Chain) (addr : Nat) (bs : List Byte) (poison : Bool) (s : State) : State :=
  let muted := match c.origin with
    | .packet id => ((findPkt s id).map (·.muted)).getD false
    | .counter _ _ => false
  if (muted : Bool) then s
  else
    let s1 := if poison then (if s.err.isolated then s else emit (.hostPoison c.owner addr bs) s)
      else hostWrite c.owner addr bs ((fnAt s c.owner).ero && regBit s 0x800004 0) s
    match c.origin with
    | .packet id => updPkt id (fun q => { q with lastHost := some addr }) s1
    | .counter _ _ => s1

/-- The pieces of a step for a host destination: cut at 64 bytes of source where some byte is poisoned (R162). -/
def hostPieces (bs : List Byte) (poison : List Nat) : List (Nat × List Byte × Bool) :=
  if poison.isEmpty then [(0, bs, false)]
  else (chunks 64 bs.length 0 bs).map (fun p => (p.1, p.2, poison.any (fun o => decide (p.1 ≤ o) && decide (o < p.1 + p.2.length))))

/-- The write side of a step: the bytes and the offsets of those that came from poisoned units. -/
def stepWrite (ch : Nat) (c : Chain) (d : Desc) (dst : Nat) (bs : List Byte) (poison : List Nat) (s : State) : State :=
  if d.dstHost then
    stepDone ch c.cid bs.length ((hostPieces bs poison).foldl (fun t p => chainHostWrite c (dst + p.1) p.2.1 p.2.2 t) s)
  else
    match resolve s c.owner dst 2 with
    | .error e => chainFails ch c 2 dst e s
    | .ok (.here dpa) =>
      let s1 := deviceWrite notThread c.owner dpa bs (chargeTc0 dpa d.tc s)
      stepDone ch c.cid bs.length (poison.foldl (fun t o => markPoison (dpa + o) t) s1)
    | .ok (.away chip dpa) =>
      let parts := chunks 64 bs.length dpa bs
      let hurt (p : Nat × List Byte) := poison.any (fun o => decide (p.1 ≤ dpa + o) && decide (dpa + o < p.1 + p.2.length))
      if 8192 < s.elk.outstanding.length + parts.length then
        updChain ch c.cid (fun x => { x with phase := .steps }) s
      else
        let r := parts.foldl (fun (a : Except Nat State) p =>
          match a with
          | .error st => .error st
          | .ok t =>
            match remoteIssue (.moverWrite c.cid) chip p.1 c.owner d.tc (.write p.2 (hurt p)) t with
            | .sent t1 => .ok t1
            | .failed st => .error st
            | .full => .error 0x0781) (.ok s)
        match r with
        | .ok t => updChain ch c.cid (fun x => { x with phase := .writing, buffer := bs, bufPoison := poison }) t
        | .error st => chainFails ch c 2 dst { status := st, addr := chip * 2 ^ 48 + dpa, kind := 3 } s

/-- The bytes of a register-space source: one aligned access of 4 or 8 bytes, else BAD_ACCESS and zeros (R182). -/
def regBytes (rr : RegReader) (off n : Nat) (s : State) : State × List Byte :=
  if (n = 4 ∨ n = 8) ∧ off % n = 0 then
    let r := rr off n s
    (r.1, leBytes n r.2)
  else (logCfg 3 off .mirror s, zeros n)

/-- What ECC finds in the first unit a read touches (R160, R161). -/
def applyEcc (e : Ecc) (dpa : Nat) (s : State) : State :=
  match e with
  | .ok => s
  | .ce => if poisonedAt s dpa then s else foundCe dpa s
  | .ue => if poisonedAt s dpa then s else foundUe dpa s

/-- The read side of a step that translates, then its write side (R166–R168). -/
def stepRead (rr : RegReader) (ch : Nat) (c : Chain) (d : Desc) (src dst n : Nat) (ecc : Ecc) (s : State) : State :=
  match resolve s c.owner src 1 with
  | .error e => chainFails ch c 1 src e s
  | .ok t =>
    match (if d.dstHost then none else match resolve s c.owner dst 2 with
        | .error e => some e
        | .ok _ => none : Option AccessErr) with
    | some e => chainFails ch c 2 dst e s
    | none =>
      match t with
      | .here dpa =>
        if regionOf dpa = some .regs then
          let r := regBytes rr (dpa - 0x4F_0000_0000) n s
          stepWrite ch c d dst r.2 [] r.1
        else
          let s1 := applyEcc ecc dpa (countBytes dpa n false (chargeTc0 dpa d.tc s))
          match poisonIn s1 dpa n, d.poisonPass with
          | some u, false =>
            descOver ch c.cid 0x0460 (markChain c (reportPoison (chainWho s1 ch c) 1 (src + (u - dpa)) u s1))
          | _, _ =>
            stepWrite ch c d dst (readMem s1 c.owner dpa n) ((List.range n).filter (fun o => poisonedAt s1 (dpa + o))) s1
      | .away chip dpa =>
        let parts := chunks 64 n dpa (zeros n)
        if 8192 < s.elk.outstanding.length + parts.length then s
        else
          let r := parts.foldl (fun (a : Except Nat State) p =>
            match a with
            | .error st => .error st
            | .ok t =>
              match remoteIssue (.moverRead c.cid (p.1 - dpa)) chip p.1 c.owner d.tc (.read p.2.length) t with
              | .sent t1 => .ok t1
              | .failed st => .error st
              | .full => .error 0x0781) (.ok s)
          match r with
          | .ok t => updChain ch c.cid (fun x => { x with phase := .reading, buffer := zeros n, bufPoison := [] }) t
          | .error st => chainFails ch c 1 src { status := st, addr := chip * 2 ^ 48 + dpa, kind := 3 } s

/-- A host read of a chain failed: HOST_ERROR, which does not park (R167, R187). -/
def chainHostError (ch : Nat) (c : Chain) (addr : Nat) (s : State) : State :=
  descOver ch c.cid 0x0461 (markChain c (hostError 1 c.owner addr 3 (chainWho s ch c).tag s))

/-- MOVER_STEP: one step of the chain whose turn it is. `host` is the host's answer to a host source. -/
def moverStepOps (rr : RegReader) (ch : Nat) (ecc : Ecc) (host : Option (List Byte)) (s : State) : State :=
  if !(fclkRuns s) then s
  else
    match stepChain s ch with
    | none => s
    | some c =>
      match c.desc with
      | none => s
      | some d =>
        let (src, dst, n) := stepOf d c
        if d.fill then
          stepWrite ch c d dst ((List.range n).map (fun i => BitVec.ofNat 8 (d.src / 2 ^ (8 * ((c.off + i) % 8))))) [] s
        else if d.srcHost then
          match (if d.dstHost then none else match resolve s c.owner dst 2 with
              | .error e => some e
              | .ok _ => none : Option AccessErr) with
          | some e => chainFails ch c 2 dst e s
          | none =>
            let s1 := emit (.hostRead c.owner src n) s
            match host with
            | some bs => stepWrite ch c d dst (slice bs 0 n) [] s1
            | none => chainHostError ch c src s1
        else stepRead rr ch c d src dst n ecc s

/-- Remote answers of a chain: a descriptor, bytes of a step, a write or a RESULT performed, or a failure. -/
def answerMover (agent : RemoteAgent) (status : Nat) (bs : List Byte) (poison : Bool) (chip dpa : Nat) (s : State) : State :=
  let fail (cid acc dva : Nat) : State :=
    match findChain s cid with
    | none => s
    | some (ch, c) => chainFails ch c acc dva { status, addr := chip * 2 ^ 48 + dpa, kind := 3 } s
  match agent with
  | .moverDesc cid =>
    match findChain s cid with
    | none => s
    | some (ch, c) =>
      if c.phase != .fetching then s
      else if status ≠ 0 then fail cid 1 c.dva
      else if poison then descOver ch cid 0x0460 (markChain c (reportPoison (chainWho s ch c) 1 c.dva dpa s))
      else takeDesc ch c bs s
  | .moverRead cid off =>
    match findChain s cid with
    | none => s
    | some (ch, c) =>
      match c.desc with
      | none => s
      | some d =>
        let (src, dst, n) := stepOf d c
        if c.phase != .reading then s
        else if status ≠ 0 then fail cid 1 (src + off)
        else if poison && !d.poisonPass then
          descOver ch cid 0x0460 (markChain c (reportPoison (chainWho s ch c) 1 (src + off) dpa s))
        else
          let c1 := { c with buffer := putBytes c.buffer off bs,
                             bufPoison := if poison then c.bufPoison ++ run off bs.length else c.bufPoison }
          let s1 := updChain ch cid (fun _ => c1) s
          if awaits s1 (fun a => match a with
              | .moverRead x _ => x == cid
              | _ => false) then s1
          else stepWrite ch c1 d dst (slice c1.buffer 0 n) c1.bufPoison s1
  | .moverWrite cid =>
    match findChain s cid with
    | none => s
    | some (ch, c) =>
      match c.desc with
      | none => s
      | some d =>
        if c.phase != .writing then s
        else if status ≠ 0 then fail cid 2 (stepOf d c).2.1
        else if awaits s (· == .moverWrite cid) then s
        else stepDone ch cid (stepOf d c).2.2 s
  | .moverResult cid =>
    match findChain s cid with
    | none => s
    | some (ch, c) =>
      if status = 0 then s
      else reportErr (chainWho s ch c) 2 (c.dva + 56) { status, addr := chip * 2 ^ 48 + dpa, kind := 3 } s
  | _ => s

/-! The end of descriptors and chains (R108, R168, R169, R211) -/

/-- A chain's descriptor is over. -/
def isOver (c : Chain) : Bool :=
  match c.phase with
  | .curOver _ => true
  | _ => false

/-- A chain is finished. -/
def isFinished (c : Chain) : Bool :=
  match c.phase with
  | .finished _ => true
  | _ => false

/-- NEXT of a chain's current descriptor, 0 where it has none. -/
def nextDva (c : Chain) : Nat :=
  match c.desc with
  | some d => if c.ownDesc then 0 else d.next
  | none => 0

/-- The phase after a descriptor that ended with a status. -/
def phaseAfter (st next : Nat) (cancel : Option Nat) : ChainPhase :=
  if st ≠ 0 then .finished st
  else match cancel with
    | some k => .finished k
    | none => if next = 0 then .finished 0 else .fetch

/-- DESCRIPTOR_END: RESULT is written and the chain continues or ends (R168). -/
def endDesc (ch : Nat) (s : State) : State :=
  match pickChain s ch isOver with
  | none => s
  | some c =>
    match c.phase with
    | .curOver st =>
      let next := nextDva c
      updChain ch c.cid (fun x => { x with
        total := x.total + x.done
        done := 0
        phase := phaseAfter st next x.cancel
        dva := if st = 0 ∧ next ≠ 0 then next else x.dva
        desc := none, tc0 := x.tc }) (writeResult ch c st c.done true s)
    | _ => s

/-- A finished chain leaves its channel and signals its counter or packet (R108, R211). -/
def finishChain (ch : Nat) (c : Chain) (st : Nat) (s : State) : State :=
  let s1 := updMov (fun m => { m with chans := Tbl.upd [] m.chans ch (List.filter (·.cid != c.cid)) }) s
  match c.origin with
  | .counter gid ctr => copyDone gid ctr (st == 0) s1
  | .packet id => endPkt id st c.total (if c.ownDesc then 0 else c.count - 1)
      (updPkt id (fun q => { q with pendD := false, pendH := false }) s1)

/-- MOVER_CHAIN_COMPLETE: a finished chain whose RESULT writes have been performed completes. -/
def completeChain (ch : Nat) (s : State) : State :=
  match pickChain s ch isFinished with
  | none => s
  | some c =>
    match c.phase with
    | .finished st => if awaits s (· == .moverResult c.cid) then s else finishChain ch c st s
    | _ => s

/-- A chain's park is dropped from its owner. -/
def unpark (ch : Nat) (c : Chain) (s : State) : State :=
  match c.parked with
  | some t =>
    updChain ch c.cid (fun x => { x with parked := none })
      (updOwner c.owner (fun w => { w with parks := w.parks.filter (·.token != t) }) s)
  | none => s

/-- RESUME of a parked channel (R76, R167). -/
def resumeChain (ch : Nat) (abort : Bool) (p : Park) (s : State) : State :=
  match (chainsAt s ch).find? (·.parked == some p.token) with
  | none => s
  | some c =>
    let s1 := updChain ch c.cid (fun x => { x with parked := none }) s
    if abort then
      descOver ch c.cid p.status
        (if c.phase == .fetch then updChain ch c.cid (fun x => { x with count := x.count + 1 }) s1 else s1)
    else s1

/-- A forced end of a chain (R169): at a step boundary its descriptor ends with the status, RESULT written; with
remote requests out, when they return; one not begun ends without a RESULT. -/
def cancelChain (ch : Nat) (c : Chain) (status : Nat) (s : State) : State :=
  let s1 := unpark ch c s
  match c.phase with
  | .fetch =>
    if c.parked.isSome then
      finishChain ch c status (writeResult ch c status 0 true s1)
    else finishChain ch c status s1
  | .steps => finishChain ch { c with total := c.total + c.done } status (writeResult ch c status c.done true s1)
  | .curOver st => finishChain ch { c with total := c.total + c.done } status (writeResult ch c (if st = 0 then 0 else st) c.done true s1)
  | .finished _ => finishChain ch c status s1
  | _ => updChain ch c.cid (fun x => { x with cancel := some status }) s1

/-- Channels of a cluster. -/
def clusterChans (c : Nat) : List Nat := run (c * 4) 4

/-- Cancels every chain of a channel that a predicate picks. -/
def cancelChans (chans : List Nat) (p : Chain → Bool) (status : Nat) (s : State) : State :=
  chans.foldl (fun t ch => ((chainsAt t ch).filter p).foldl (fun u c => cancelChain ch c status u) t) s

/-- The bulk mover a packet names; 0xFF takes the one with the fewest chains, the lowest on a tie (R201). -/
def pickMover (s : State) (m : Nat) : Nat :=
  if m = 0xFF then
    (List.range 16).foldl (fun b i => if (chainsAt s (bulkChan i)).length < (chainsAt s (bulkChan b)).length then i else b) 0
  else m

/-- COPY and FILL without CHAIN: the packet's own descriptor (R201). -/
def inlineDesc (p : Inflight) : Desc :=
  let fill := p.opcode == 0x11
  let fl := p.fld 49 1
  { next := 0
    src := if fill then p.fld 32 8 else p.fld 16 8
    dst := if fill then p.fld 16 8 else p.fld 24 8
    rowBytes := if fill then p.fld 24 8 else p.fld 32 8
    rows := 1, srcStride := 0, dstStride := 0, fill
    poisonPass := bitOf fl 2, srcHost := bitOf fl 0, dstHost := bitOf fl 1, tc := fld fl 5 4 }

/-- The failure of R165 that a packet's own descriptor can meet. -/
def inlineError (d : Desc) : Option Nat :=
  if (!d.fill && !d.srcHost && decide (2 ^ 48 ≤ d.src)) || (!d.dstHost && decide (2 ^ 48 ≤ d.dst)) then some 0x0360
  else if rowsOverlap d then some 0x0361
  else none

/-- COPY with CHAIN (R201). -/
def isChainCopy (p : Inflight) : Bool := p.opcode == 0x10 && bitOf (p.fld 49 1) 3

/-- The body of COPY or FILL is malformed (R201). -/
def copyBad (p : Inflight) : Bool :=
  let fl := p.fld 49 1
  if p.opcode = 0x11 then decide (fl &&& 0xCD ≠ 0) || p.fld 24 8 == 0 || decide (2 ^ 40 ≤ p.fld 24 8)
  else if isChainCopy p then
    decide (fl &&& 0xF7 ≠ 0) || p.fld 16 8 != 0 || p.fld 24 8 != 0 || p.fld 32 8 != 0 || p.fld 40 8 % 64 != 0
  else decide (fl &&& 0xC0 ≠ 0) || p.fld 32 8 == 0 || decide (2 ^ 40 ≤ p.fld 32 8) || p.fld 40 8 != 0

/-- The chain of COPY or FILL on channel `ch` (R201). -/
def queueCopy (p : Inflight) (ch : Nat) (s : State) : State :=
  let chain := isChainCopy p
  let d := inlineDesc p
  let s1 := updPkt p.id (fun q => { q with wait := .mover, pendD := chain || !d.dstHost, pendH := chain || d.dstHost }) s
  addChain ch (fun i =>
    { cid := i, owner := p.owner, origin := .packet p.id, dva := (if chain then p.fld 40 8 else 0)
      ownDesc := !chain, tc0 := p.tc }) s1

/-- The packet's own descriptor is checked and taken up (R165, R201). -/
def takeInline (p : Inflight) (ch cid : Nat) (s : State) : State :=
  match inlineError (inlineDesc p), findChain s cid with
  | some st, some (_, c) => descOver ch cid st (logDesc ch c st s)
  | _, _ => updChain ch cid (fun x => { x with desc := some (inlineDesc p), phase := .steps, count := 1 }) s

/-- COPY and FILL: body checks, then the chain on a bulk mover (R201). -/
def doCopy (p : Inflight) (s : State) : State :=
  let m := p.fld 48 1
  if copyBad p then finishPkt p.id 0x0303 0 0 s
  else if 16 ≤ m ∧ m ≠ 0xFF then finishPkt p.id 0x0303 0 0 s
  else
    let ch := bulkChan (pickMover s m)
    let s1 := queueCopy p ch s
    if isChainCopy p then s1 else takeInline p ch s.mov.nextCid s1

end Sys2Proof.Machine
end

