-- ==== Sys2Proof/Machine/ThreadRun.lean ====
section
/-! DEFINITION. What each thread instruction does (R93–R118, R140–R146). Operands name a cluster, a slot and the
instruction's fields. -/

namespace Sys2Proof.Machine

/-- Runs an instruction of the thread in a slot, where one may issue. -/
def withThread (c slot : Nat) (s : State) (f : Thread → State → State) : State :=
  match issuing s c slot with
  | some t => f t s
  | none => s

/-- The instruction retires: the thread's new image, past the instruction. -/
def retire (k len : Nat) (f : Thread → Thread) (s : State) : State := updThread k (fun t => (f t).next len) s

/-- A base register plus a displacement. -/
def addrOf (t : Thread) (rs1 : Nat) (imm : Int) : Nat := (((getX t rs1 : Int) + imm) % (2 ^ 64 : Int)).toNat

/-- Translates every part of an access before any is performed (R116); a failure names its part's DVA. -/
def resolveParts (s : State) (o acc : Nat) : List (Nat × List Byte) → Except (Nat × AccessErr) (List (Nat × List Byte × Target))
  | [] => .ok []
  | (dva, bs) :: rest =>
    match resolve s o dva acc with
    | .error e => .error (dva, e)
    | .ok t =>
      match resolveParts s o acc rest with
      | .error e => .error e
      | .ok l => .ok ((dva, bs, t) :: l)

/-- Remote requests find room, with `n` more (R234). -/
def linkRoom (s : State) (n : Nat) : Bool := decide (s.elk.outstanding.length + n ≤ 8192)

/-- Posted accesses of a thread to other chips that have no answer yet. -/
def postedOut (s : State) (c slot : Nat) : Nat :=
  (s.elk.outstanding.filter (fun o => o.agent == .posted c slot)).length

/-! Loads and stores -/

/-- What reading the local parts of a load gives: the bytes with holes for remote parts, or the first poisoned unit. -/
def readParts (rr : RegReader) (o : Nat) (tc : Nat) (ecc : Ecc) :
    List (Nat × List Byte × Target) → State → State × List Byte × Option (Nat × Nat × Nat)
  | [], s => (s, [], none)
  | (dva, bs, .away _ _) :: rest, s =>
    let r := readParts rr o tc ecc rest s
    let _ := dva
    (r.1, bs ++ r.2.1, r.2.2)
  | (dva, bs, .here dpa) :: rest, s =>
    if regionOf dpa = some .regs then
      let g := regBytes rr (dpa - 0x4F_0000_0000) bs.length s
      let r := readParts rr o tc ecc rest g.1
      (r.1, g.2 ++ r.2.1, r.2.2)
    else
      let s1 := applyEcc ecc dpa (countBytes dpa bs.length false (chargeTc0 dpa tc s))
      match poisonIn s1 dpa bs.length with
      | some u => (s1, bs, some (dva, dpa, u))
      | none =>
        let r := readParts rr o tc .ok rest s1
        (r.1, readMem s1 o dpa bs.length ++ r.2.1, r.2.2)

/-- Issues the remote parts of a load. -/
def issueReads (c slot o tc : Nat) : Nat → List (Nat × List Byte × Target) → State → Except (Nat × Nat × Nat) State
  | _, [], s => .ok s
  | off, (dva, bs, .away chip dpa) :: rest, s =>
    match remoteIssue (.load c slot off) chip dpa o tc (.read bs.length) s with
    | .sent s1 => issueReads c slot o tc (off + bs.length) rest s1
    | .failed st => .error (dva, st, chip * 2 ^ 48 + dpa)
    | .full => .error (dva, 0x0781, chip * 2 ^ 48 + dpa)
  | off, (_, bs, .here _) :: rest, s => issueReads c slot o tc (off + bs.length) rest s

/-- A part lies on another chip. -/
def isAway (p : Nat × List Byte × Target) : Bool :=
  match p.2.2 with
  | .away _ _ => true
  | .here _ => false

/-- THREAD_LOAD (R95, R113, R116, R162). -/
def threadLoad (rr : RegReader) (c slot rd rs1 : Nat) (imm : Int) (size : Nat) (sg fp : Bool) (len : Nat) (ecc : Ecc)
    (s : State) : State :=
  withThread c slot s (fun t s =>
    let k := threadKey c slot
    let o := threadOwner s t
    let a := addrOf t rs1 imm
    match resolveParts s o 1 (chunks 64 size a (zeros size)) with
    | .error (dva, e) => threadFails k 1 dva e s
    | .ok parts =>
      if !(linkRoom s (parts.filter isAway).length) then s
      else
        let r := readParts rr o t.utc ecc parts s
        match r.2.2 with
        | some (dva, dpa, u) => threadPoison k 1 dva dpa u r.1
        | none =>
          let u : Thread := { t with rbuf := r.2.1, fin := { rd, size, signed := sg, fp, len, dva := a } }
          if parts.any isAway then
            match issueReads c slot o t.utc 0 parts r.1 with
            | .ok s1 => updThread k (fun _ => { u with st := .waitRemote }) s1
            | .error (dva, st, g) => threadFails k 1 dva { status := st, addr := g, kind := 3 } r.1
          else finishLoad k (updThread k (fun _ => u) r.1))

/-- Performs the parts of a store: local ones now, remote ones posted (R112). -/
def storeParts (c slot o tc : Nat) : List (Nat × List Byte × Target) → State → State
  | [], s => s
  | (_, bs, .here dpa) :: rest, s =>
    storeParts c slot o tc rest (deviceWrite (threadKey c slot) o dpa bs (chargeTc0 dpa tc s))
  | (dva, bs, .away chip dpa) :: rest, s =>
    match remoteIssue (.posted c slot) chip dpa o tc (.write bs false) s with
    | .sent s1 => storeParts c slot o tc rest s1
    | .failed st => storeParts c slot o tc rest
        (postedFails (threadKey c slot) 2 dva { status := st, addr := chip * 2 ^ 48 + dpa, kind := 3 } s)
    | .full => storeParts c slot o tc rest s

/-- A failed posted access: a target that failed traps later; anything else before it takes effect (R112). -/
def postedError (k acc len dva : Nat) (e : AccessErr) (s : State) : State :=
  if e.status / 256 = 7 then retire k len id (postedFails k acc dva e s) else threadFails k acc dva e s

/-- THREAD_STORE (R93, R112, R116): a 17th posted access toward other chips waits for an answer. -/
def threadStore (c slot rs2 rs1 : Nat) (imm : Int) (size : Nat) (fp : Bool) (len : Nat) (s : State) : State :=
  withThread c slot s (fun t s =>
    let k := threadKey c slot
    let o := threadOwner s t
    let v := if fp then getF t rs2 else getX t rs2
    match resolveParts s o 2 (chunks 64 size (addrOf t rs1 imm) (leBytes size v)) with
    | .error (dva, e) => postedError k 2 len dva e s
    | .ok parts =>
      if !(linkRoom s (parts.filter isAway).length) || parts.any isAway && decide (16 ≤ postedOut s c slot) then s
      else retire k len id (storeParts c slot o t.utc parts s))

/-! Fetch, fences and traps -/

/-- The instruction cache line that holds a DPA, in a core. -/
def icLine (s : State) (core dpa : Nat) : Option ICLine :=
  s.fab.icache.find? (fun l => l.core == core && l.line == dpa / 64)

/-- Two bytes of an instruction: from the core's cache where it holds the line, else from memory, filling it (R117). -/
def fetchHalf (core o dpa : Nat) (hit : Bool) (s : State) : State × Nat :=
  match (if hit then icLine s core dpa else none) with
  | some l => (s, getLe l.bytes (dpa % 64) 2)
  | none =>
    let base := dpa / 64 * 64
    let bs := readMem s o base 64
    let keep (l : ICLine) := !(l.core == core && l.line == dpa / 64)
    let new : ICLine := { core, line := dpa / 64, bytes := bs }
    (updFab (fun b => { b with icache := b.icache.filter keep ++ [new] }) s, getLe bs (dpa % 64) 2)

/-- One half of a fetch: where it comes from, or how it failed. -/
def fetchPart (c slot : Nat) (t : Thread) (pc : Nat) (hit : Bool) (ecc : Ecc) (s : State) : Except State (State × Nat) :=
  let k := threadKey c slot
  let o := threadOwner s t
  match resolve s o pc 4 with
  | .error e =>
    if e.status = 0x0780 ∨ e.status = 0x0327 then .error (trapAt k 0x0349 s) else .error (threadFails k 4 pc e s)
  | .ok (.away _ _) => .error (trapAt k 0x0349 s)
  | .ok (.here dpa) =>
    if regionOf dpa = some .regs then .error (threadFails k 4 pc { status := 0x0325, addr := dpa, kind := 1 } s)
    else
      let core := c * 16 + slot / 8
      if hit && (icLine s core dpa).isSome then .ok (fetchHalf core o dpa true s)
      else
        let s1 := applyEcc ecc dpa s
        match poisonIn s1 (dpa / 64 * 64) 64 with
        | some u => .error (threadPoison k 4 pc dpa (max u dpa) s1)
        | none => .ok (fetchHalf core o dpa false s1)

/-- INSTRUCTION_FETCH: the instruction at the PC. `hit` says whether the core's cache still holds its lines (R92, R117). -/
def fetchInsn (c slot : Nat) (hit : Bool) (ecc : Ecc) (s : State) : State :=
  withThread c slot s (fun t s =>
    match fetchPart c slot t t.pc hit ecc s with
    | .error s1 => s1
    | .ok (s1, lo) =>
      if lo % 4 ≠ 3 then updThread (threadKey c slot) (fun x => { x with ir := lo }) s1
      else
        match fetchPart c slot t ((t.pc + 2) % 2 ^ 64) hit ecc s1 with
        | .error s2 => s2
        | .ok (s2, hi) => updThread (threadKey c slot) (fun x => { x with ir := lo + hi * 65536 }) s2)

/-- FENCE.I: the core's instruction cache is empty (R117). -/
def fenceI (c slot : Nat) (s : State) : State :=
  withThread c slot s (fun _ s =>
    retire (threadKey c slot) 4 id
      (updFab (fun b => { b with icache := b.icache.filter (·.core != c * 16 + slot / 8) }) s))

/-- FENCE: on-chip order holds already; a deferred trap is taken (R112, R114). -/
def threadFence (c slot : Nat) (s : State) : State :=
  withThread c slot s (fun t s =>
    match takeDeferred (threadKey c slot) t s with
    | some s1 => s1
    | none => retire (threadKey c slot) 4 id s)

/-- UFENCE.G: waits for every earlier access (R114). -/
def ufenceG (c slot : Nat) (s : State) : State :=
  withThread c slot s (fun _ s =>
    settleWait (threadKey c slot) (updThread (threadKey c slot) (fun x => { x with st := .waitFence }) s))

/-- ECALL (0), EBREAK (1) or a privileged instruction (2) traps (R95). -/
def threadCall (c slot kind : Nat) (s : State) : State :=
  withThread c slot s (fun _ s =>
    trapAt (threadKey c slot) (if kind = 0 then 0x0341 else if kind = 1 then 0x0342 else 0x0340) s)

/-- ILLEGAL_INSTRUCTION (R103). -/
def threadIllegal (c slot : Nat) (s : State) : State :=
  withThread c slot s (fun _ s => trapAt (threadKey c slot) 0x0340 s)

/-- A CSR's value, where it is present (R96). -/
def csrRead (s : State) (c slot : Nat) (t : Thread) (n : Nat) : Option Nat :=
  let g := findGroup s t.gid
  let l := launchOf s t
  match n with
  | 0x001 => some (fld t.fcsr 4 0)
  | 0x002 => some (fld t.fcsr 7 5)
  | 0x003 => some t.fcsr
  | 0x800 => some t.utc
  | 0x801 => some t.uptmo
  | 0xCC0 => some t.index
  | 0xCC1 => some ((g.map (·.index)).getD 0)
  | 0xCC2 => some ((g.map (·.slots.length)).getD 0)
  | 0xCC3 => some ((l.map (·.groups)).getD 0)
  | 0xCC4 => some c
  | 0xCC5 => some s.elk.selfId
  | 0xCC6 => some (match l, g with
      | some a, some b => ulocal a b
      | _, _ => 0)
  | 0xCC7 => some slot
  | 0xCC8 => some s.dts
  | 0xCC9 => some ((g.map (fun b => (b.cycleBase + (s.fab.fclkMilli - b.cycleStart)) / 1000)).getD 0)
  | _ => none

/-- Writes a writable CSR. -/
def csrWrite (n v : Nat) (t : Thread) : Thread :=
  match n with
  | 0x001 => { t with fcsr := setFld t.fcsr 4 0 v }
  | 0x002 => { t with fcsr := setFld t.fcsr 7 5 v }
  | 0x003 => { t with fcsr := v % 256 }
  | 0x800 => { t with utc := v % 4 }
  | 0x801 => { t with uptmo := v % 2 ^ 32 }
  | _ => t

/-- CSR_ACCESS: CSRRW, CSRRS, CSRRC and their immediate forms, by funct3 (R96). -/
def csrAccess (c slot f3 csr rd rs1 : Nat) (s : State) : State :=
  withThread c slot s (fun t s =>
    let k := threadKey c slot
    let src := if 4 ≤ f3 then rs1 else getX t rs1
    let writes := f3 % 4 == 1 || rs1 != 0
    match csrRead s c slot t csr with
    | none => trapAt k 0x0340 s
    | some old =>
      if writes && csr / 0x400 == 3 then trapAt k 0x0340 s
      else
        let v := if f3 % 4 = 1 then src else if f3 % 4 = 2 then old ||| src else old - (old &&& src)
        retire k 4 (fun x => setX rd old (if writes then csrWrite csr v x else x)) s)

/-- PAUSE: not ready for 64 FCLK cycles (R93). -/
def threadPause (c slot : Nat) (s : State) : State :=
  withThread c slot s (fun _ s => retire (threadKey c slot) 4 (fun x => { x with notReady := 64 }) s)

/-- UYIELD: not ready for at most 8 FCLK cycles (R109). -/
def threadYield (c slot : Nat) (s : State) : State :=
  withThread c slot s (fun _ s => retire (threadKey c slot) 4 (fun x => { x with notReady := 8 }) s)

/-! Barriers and copies (R106–R108) -/

/-- Runs an instruction whose rs1 names one of eight; a larger number is a reserved operand (R104). -/
def withId (c slot rs1 : Nat) (s : State) (f : Thread → Group → Nat → State → State) : State :=
  withThread c slot s (fun t s =>
    let i := getX t rs1
    match findGroup s t.gid with
    | none => s
    | some g => if 8 ≤ i then trapAt (threadKey c slot) 0x0340 s else f t g i s)

/-- UBAR.INIT. -/
def ubarInit (c slot rs1 rs2 : Nat) (s : State) : State :=
  withId c slot rs1 s (fun t g i s =>
    let n := getX t rs2
    let b := barrierAt g i
    if b.arrived ≠ 0 ∨ g.slots.length < n then trapAt (threadKey c slot) 0x0345 s
    else retire (threadKey c slot) 4 id
      (setBarrier g.gid i { b with expected := if n = 0 then g.slots.length else n } s))

/-- UBAR.ARRIVE. -/
def ubarArrive (c slot rd rs1 : Nat) (s : State) : State :=
  withId c slot rs1 s (fun _ g i s =>
    let r := arrive g i s
    retire (threadKey c slot) 4 (setX rd r.2) r.1)

/-- Waits at a barrier while its phase is `ph` (R106). -/
def barWait (c slot i ph : Nat) (g : Group) (s : State) : State :=
  let k := threadKey c slot
  if (barrierAt ((findGroup s g.gid).getD g) i).phase ≠ ph then retire k 4 id s
  else deadlockCheck g.gid (updThread k (fun x => { x with st := .waitBar, waitId := i, waitVal := ph }) s)

/-- UBAR.WAIT. -/
def ubarWait (c slot rs1 rs2 : Nat) (s : State) : State :=
  withId c slot rs1 s (fun t g i s => barWait c slot i (getX t rs2 % 2 ^ 32) g s)

/-- UBAR.SYNC. -/
def ubarSync (c slot rs1 : Nat) (s : State) : State :=
  withId c slot rs1 s (fun _ g i s =>
    let r := arrive g i s
    barWait c slot i r.2 g r.1)

/-- UCOPY: the chain enters a mover channel of the cluster; a full channel stalls (R108, R118). -/
def ucopy (c slot rs1 rs2 : Nat) (s : State) : State :=
  withThread c slot s (fun t s =>
    let k := threadKey c slot
    let v := getX t rs2
    let a := getX t rs1
    if 32 ≤ v then trapAt k 0x0340 s
    else if 16 ≤ (chainsAt s (c * 4 + v % 4)).length then s
    else
      match resolve s (threadOwner s t) a 1 with
      | .error e => threadFails k 1 a e s
      | .ok _ =>
        let s1 := addChain (c * 4 + v % 4)
          (fun i => { cid := i, owner := threadOwner s t, origin := .counter t.gid (v / 4), dva := a, ownDesc := false, tc0 := t.utc }) s
        retire k 4 id (updGroup t.gid (fun g => { g with copies := g.copies + 1 }) s1))

/-- UCWAIT. -/
def ucwait (c slot rd rs1 rs2 : Nat) (s : State) : State :=
  withId c slot rs1 s (fun t g i s =>
    let k := threadKey c slot
    let v := getX t rs2 % 2 ^ 31
    let ctr := g.copyCtr.getD i 0
    if copyReached ctr v then retire k 4 (setX rd ctr) s
    else updThread k (fun x => { x with st := .waitCopy, waitId := i, waitVal := v, waitRd := rd }) s)

/-- UCREAD. -/
def ucread (c slot rd rs1 : Nat) (s : State) : State :=
  withId c slot rs1 s (fun _ g i s => retire (threadKey c slot) 4 (setX rd (g.copyCtr.getD i 0)) s)

/-- UCSET. -/
def ucset (c slot rs1 rs2 : Nat) (s : State) : State :=
  withId c slot rs1 s (fun t g i s =>
    releaseCopy g.gid (retire (threadKey c slot) 4 id
      (updGroup g.gid (fun b => { b with copyCtr := b.copyCtr.set i (getX t rs2 % 2 ^ 32) }) s)))

/-- UEND (R101). -/
def uend (c slot : Nat) (s : State) : State :=
  withThread c slot s (fun _ s =>
    settleWait (threadKey c slot) (updThread (threadKey c slot) (fun x => { x with st := .ending }) s))

/-! Dormancy (R110) -/

/-- The word a watcher sees. -/
def wordAt (rr : RegReader) (o dpa : Nat) (s : State) : State × Nat :=
  if regionOf dpa = some .regs then rr (dpa - 0x4F_0000_0000) 8 s else (s, getLe (readMem s o dpa 8) 0 8)

/-- UPARK. -/
def upark (rr : RegReader) (c slot rd rs1 rs2 : Nat) (ecc : Ecc) (s : State) : State :=
  withThread c slot s (fun t s =>
    let k := threadKey c slot
    let a := getX t rs1
    let v := getX t rs2
    if a % 8 ≠ 0 then trapAt k 0x0343 s
    else
      match resolve s (threadOwner s t) a 1 with
      | .error e => if e.status = 0x0780 ∨ e.status = 0x0327 then trapAt k 0x0348 s else threadFails k 1 a e s
      | .ok (.away _ _) => trapAt k 0x0348 s
      | .ok (.here dpa) =>
        let s0 := if regionOf dpa = some .regs then s else applyEcc ecc dpa s
        match poisonIn s0 dpa 8 with
        | some u => threadPoison k 1 a dpa (max u dpa) s0
        | none =>
          let r := wordAt rr (threadOwner s t) dpa s0
          if r.2 ≠ v then retire k 4 (setX rd 0) r.1
          else if t.wakePending then retire k 4 (fun x => setX rd 1 { x with wakePending := false }) r.1
          else updThread k (fun x => { x with
            st := .dormant, waitAddr := a, waitDpa := dpa, waitVal := v, waitRd := rd
            timeoutAt := if x.uptmo = 0 then 0 else s.dts + x.uptmo }) r.1)

/-- UPARK_TIMEOUT: the instant a dormant thread's UPTMO ends (R110). -/
def uparkTimeout (c slot : Nat) (s : State) : State :=
  match threadAt s (threadKey c slot) with
  | some t =>
    if t.st == .dormant && t.timeoutAt != 0 then
      wake (threadKey c slot) 2 { s with dts := max s.dts t.timeoutAt }
    else s
  | none => s

/-- UWAKE of one thread. -/
def wakeOne (k : Nat) (s : State) : State :=
  match threadAt s k with
  | some t => if t.st == .dormant then wake k 1 s else updThread k (fun x => { x with wakePending := true }) s
  | none => s

/-- UWAKE. -/
def uwake (c slot rs1 : Nat) (s : State) : State :=
  withThread c slot s (fun t s =>
    match findGroup s t.gid with
    | none => s
    | some g =>
      let i := getX t rs1
      if i = 2 ^ 64 - 1 then retire (threadKey c slot) 4 id ((groupKeys g).foldl (fun u k => wakeOne k u) s)
      else if g.slots.length ≤ i then trapAt (threadKey c slot) 0x0340 s
      else retire (threadKey c slot) 4 id (wakeOne ((groupKeys g).getD i 0) s))

/-- Dormant threads whose word has changed wake with 0 (R110); a poisoned word traps (R162). -/
def settleDormant (rr : RegReader) (s : State) : State :=
  s.fab.threads.foldl (fun u p =>
    match threadAt u p.1 with
    | some t =>
      if t.st != .dormant then u
      else
        match poisonIn u t.waitDpa 8 with
        | some n => threadPoison p.1 1 t.waitAddr t.waitDpa (max n t.waitDpa) u
        | none =>
          let r := wordAt rr (threadOwner u t) t.waitDpa u
          if r.2 ≠ t.waitVal then wake p.1 0 u else u
    | none => u) s

/-! Atomics (R111, R112, R115) -/

/-- The new value of a far atomic, or none for a reserved operation (R111). -/
def amoNew (op bytes old v : Nat) : Option Nat :=
  let n := 8 * bytes
  let a := old % 2 ^ n
  let b := v % 2 ^ n
  match op with
  | 0 => some ((a + b) % 2 ^ n)
  | 1 => some b
  | 2 => some (a &&& b)
  | 3 => some (a ||| b)
  | 4 => some (a ^^^ b)
  | 5 => some (if toInt n b < toInt n a then b else a)
  | 6 => some (if toInt n a < toInt n b then b else a)
  | 7 => some (min a b)
  | 8 => some (max a b)
  | 9 => if bytes = 4 then some (addF32 false a b).1 else none
  | _ => none

/-- A far atomic: alignment, rl's wait, translation, then at the memory or at the target chip. `f` gives the new value
from the old; `unit` and `mod` are the ATOMIC message's. -/
def farAtomic (rr : RegReader) (c slot rd rs1 bytes : Nat) (aq rl : Bool) (mod : Nat) (unit : List Byte) (ecc : Ecc)
    (f : Nat → Nat) (t : Thread) (s : State) : State :=
  let k := threadKey c slot
  let o := threadOwner s t
  let a := getX t rs1
  let posted := rd == 0
  match (if rl then takeDeferred k t s else none) with
  | some s1 => s1
  | none =>
    if a % bytes ≠ 0 then trapAt k 0x0343 s
    else if rl && threadAwaits s k then s
    else
      match resolve s o a 8 with
      | .error e => if posted then postedError k 8 4 a e s else threadFails k 8 a e s
      | .ok (.here dpa) =>
        if regionOf dpa = some .regs then
          let r := rr (dpa - 0x4F_0000_0000) bytes s
          retire k 4 (setX rd (loadValue bytes (bytes == 4) false r.2)) (deviceWrite k o dpa (leBytes bytes (f r.2)) r.1)
        else
          let s1 := applyEcc ecc dpa (chargeTc0 dpa t.utc s)
          match poisonIn s1 dpa bytes with
          | some u => threadPoison k 8 a dpa (max u dpa) s1
          | none =>
            let old := getLe (readMem s1 o dpa bytes) 0 bytes
            retire k 4 (setX rd (loadValue bytes (bytes == 4) false old)) (deviceWrite k o dpa (leBytes bytes (f old)) s1)
      | .ok (.away chip dpa) =>
        let agent : RemoteAgent := if posted then .posted c slot else .load c slot 0
        match remoteIssue agent chip dpa o t.utc (.atomic mod unit) s with
        | .sent s1 =>
          if posted then
            if aq then updThread k (fun x => { x with st := .waitFence }) s1 else retire k 4 id s1
          else updThread k (fun x => { x with
              st := .waitRemote, rbuf := zeros bytes, rpoison := false
              fin := { rd, size := bytes, signed := bytes == 4, len := 4, dva := a } }) s1
        | .failed st =>
          let e : AccessErr := { status := st, addr := chip * 2 ^ 48 + dpa, kind := 3 }
          if posted then postedError k 8 4 a e s else threadFails k 8 a e s
        | .full => s

/-- UAMO, and the standard AMO that matches it (R111). -/
def uamo (rr : RegReader) (c slot op rd rs1 rs2 : Nat) (dword aq rl : Bool) (ecc : Ecc) (s : State) : State :=
  withThread c slot s (fun t s =>
    let bytes := if dword then 8 else 4
    let v := getX t rs2
    if (amoNew op bytes 0 v).isNone then trapAt (threadKey c slot) 0x0340 s
    else farAtomic rr c slot rd rs1 bytes aq rl (op + (if dword then 32 else 0)) (units16 (leBytes bytes v)) ecc
      (fun old => (amoNew op bytes old v).getD 0) t s)

/-- UCAS (R111). -/
def ucas (rr : RegReader) (c slot rd rs1 rs2 rs3 : Nat) (dword aq rl : Bool) (ecc : Ecc) (s : State) : State :=
  withThread c slot s (fun t s =>
    let bytes := if dword then 8 else 4
    let cmp := getX t rs2 % 2 ^ (8 * bytes)
    let new := getX t rs3 % 2 ^ (8 * bytes)
    farAtomic rr c slot rd rs1 bytes aq rl (0x1F + (if dword then 32 else 0)) (leBytes 8 cmp ++ leBytes 8 new) ecc
      (fun old => if old % 2 ^ (8 * bytes) = cmp then new else old) t s)

/-- Where an LR or SC goes: scratch of this chip, or a trap (R115, R95). -/
def lrscTarget (s : State) (c slot acc bytes a : Nat) (t : Thread) : Except State Nat :=
  let k := threadKey c slot
  if a % bytes ≠ 0 then .error (trapAt k 0x0343 s)
  else
    match resolve s (threadOwner s t) a acc with
    | .error e => if e.status = 0x0780 ∨ e.status = 0x0327 then .error (trapAt k 0x0344 s) else .error (threadFails k acc a e s)
    | .ok (.away _ _) => .error (trapAt k 0x0344 s)
    | .ok (.here dpa) =>
      match regionOf dpa with
      | some (.scratch _) => .ok dpa
      | _ => .error (trapAt k 0x0344 s)

/-- LR (R115). -/
def loadReserved (c slot rd rs1 : Nat) (dword aq rl : Bool) (ecc : Ecc) (s : State) : State :=
  withThread c slot s (fun t s =>
    let bytes := if dword then 8 else 4
    let k := threadKey c slot
    let a := getX t rs1
    match (if rl then takeDeferred k t s else none) with
    | some s1 => s1
    | none =>
      let _ := aq
      if rl && threadAwaits s k then s
      else
        match lrscTarget s c slot 1 bytes a t with
        | .error s1 => s1
        | .ok dpa =>
          let s1 := applyEcc ecc dpa s
          match poisonIn s1 dpa bytes with
          | some u => threadPoison k 1 a dpa (max u dpa) s1
          | none =>
            let v := getLe (readMem s1 (threadOwner s t) dpa bytes) 0 bytes
            retire k 4 (fun x => setX rd (loadValue bytes true false v) { x with reserve := some (dpa / 64) }) s1)

/-- SC: 0 on success, 1 when the reservation is lost (R115). -/
def storeConditional (c slot rd rs1 rs2 : Nat) (dword aq rl : Bool) (s : State) : State :=
  withThread c slot s (fun t s =>
    let bytes := if dword then 8 else 4
    let k := threadKey c slot
    let a := getX t rs1
    match (if rl then takeDeferred k t s else none) with
    | some s1 => s1
    | none =>
      let _ := aq
      if rl && threadAwaits s k then s
      else
        match lrscTarget s c slot 2 bytes a t with
        | .error s1 => s1
        | .ok dpa =>
          if t.reserve = some (dpa / 64) then
            retire k 4 (fun x => setX rd 0 { x with reserve := none })
              (deviceWrite k (threadOwner s t) dpa (leBytes bytes (getX t rs2)) s)
          else retire k 4 (fun x => setX rd 1 { x with reserve := none }) s)

/-- LR_RESERVATION_EXPIRY: 1,024 FCLK cycles after the LR (R115). -/
def reserveExpiry (c slot : Nat) (s : State) : State :=
  updThread (threadKey c slot) (fun t => { t with reserve := none }) s

/-! The grid (R105, R140–R145) -/

/-- UGRID.ACQ. -/
def ugridAcq (c slot : Nat) (s : State) : State :=
  withThread c slot s (fun t s =>
    let g := gridAt s c
    let k := threadKey c slot
    if g.heldBy t.gid then retire k 4 id s
    else if g.holder.isNone && g.waiters.isEmpty then retire k 4 id (updGrid c (Grid.grant t.gid) s)
    else
      updGrid c (fun x => if x.waiters.contains t.gid then x else { x with waiters := x.waiters ++ [t.gid] })
        (updThread k (fun x => { x with st := .waitGrid }) s))

/-- UGRID.TRY. -/
def ugridTry (c slot rd : Nat) (s : State) : State :=
  withThread c slot s (fun t s =>
    let g := gridAt s c
    let k := threadKey c slot
    if g.heldBy t.gid then retire k 4 (setX rd 1) s
    else if g.holder.isNone && g.waiters.isEmpty then retire k 4 (setX rd 1) (updGrid c (Grid.grant t.gid) s)
    else retire k 4 (setX rd 0) s)

/-- A release takes effect once the queue is empty (R105). -/
def settleRelease (c : Nat) (s : State) : State :=
  let g := gridAt s c
  if g.releasing && g.queue.isEmpty then grantNext c s else s

/-- UGRID.REL. -/
def ugridRel (c slot : Nat) (s : State) : State :=
  withThread c slot s (fun t s =>
    if (gridAt s c).heldBy t.gid then
      settleRelease c (updGrid c (fun g => { g with releasing := true }) (retire (threadKey c slot) 4 id s))
    else trapAt (threadKey c slot) 0x0347 s)

/-- Runs a tensor instruction of a thread whose group holds the grid (R105). -/
def withGrid (c slot : Nat) (s : State) (f : Thread → State → State) : State :=
  withThread c slot s (fun t s =>
    if (gridAt s c).heldBy t.gid then f t s else trapAt (threadKey c slot) 0x0347 s)

/-- The instruction word of a tensor instruction (R140). -/
def tensorWord (f7 f3 rs2 rs1 : Nat) : Nat := f7 * 2 ^ 25 + rs2 * 2 ^ 20 + rs1 * 2 ^ 15 + f3 * 2 ^ 12 + 0x0B

/-- Queues a tensor instruction: checked at issue; a full queue stalls (R142, R143). -/
def issueTensor (c slot : Nat) (op : TOp) (insn rs1 rs2 : Nat) (s : State) : State :=
  withGrid c slot s (fun t s =>
    let e : TEntry := { op, insn, rs1 := getX t rs1, rs2 := getX t rs2, slot }
    let g := gridAt s c
    match entryTrap g e with
    | some st => trapAt (threadKey c slot) st s
    | none =>
      if 16 ≤ g.queue.length then s
      else retire (threadKey c slot) 4 id (updGrid c (fun x => { x with queue := x.queue ++ [e] }) s))

/-- UTZERO: a non-zero rs1 field is illegal (R142). -/
def utzero (c slot rs1 rs2 : Nat) (s : State) : State :=
  if rs1 = 0 then issueTensor c slot .utzero (tensorWord 2 3 rs2 0) 0 rs2 s
  else withGrid c slot s (fun _ s => trapAt (threadKey c slot) 0x0340 s)

/-- UTGET: as of every earlier UTSET (R140). -/
def utget (c slot rd rs1 : Nat) (s : State) : State :=
  withGrid c slot s (fun t s =>
    let i := getX t rs1
    if 8 ≤ i then trapAt (threadKey c slot) 0x0340 s
    else retire (threadKey c slot) 4 (setX rd (cfgAt (cfgAfter (gridAt s c)) i)) s)

/-- UTWAIT (R145). -/
def utwait (c slot : Nat) (s : State) : State :=
  withGrid c slot s (fun _ s =>
    settleWait (threadKey c slot) (updThread (threadKey c slot) (fun x => { x with st := .waitTensor }) s))

/-- UTFLAGS (R139). -/
def utflags (c slot rd : Nat) (s : State) : State :=
  withGrid c slot s (fun _ s =>
    retire (threadKey c slot) 4 (setX rd (gridAt s c).flags) (updGrid c (fun g => { g with flags := 0 }) s))

/-- TENSOR_ENTRY_START (R143, R145). -/
def tensorStart (c : Nat) (s : State) : State :=
  if !(fclkRuns s) then s
  else
    match (gridAt s c).queue.dropWhile (·.started) with
    | e :: _ =>
      if threadAwaits s (threadKey c e.slot) && !(e.reads (gridAt s c).cfg).isEmpty then s else updGrid c Grid.start s
    | [] => s

/-- What ECC finds in a plane or bank at an entry: CORRECTED, or DEFERRED with the rows poisoned (R146). -/
def tensorEcc (c : Nat) (e : TEntry) (ecc : Ecc) (s : State) : State :=
  match ecc with
  | .ok => s
  | .ce => logErr { cls := 7, cause := 1, sev := sevCorrected, source := 0x10, index := c } s
  | .ue =>
    let rows := match e.op with
      | .utmma | .utst | .utldacc => run (e.bank * 128 + e.row0) e.rows
      | .utzero => run (e.bank * 128) 128
      | _ => []
    logErr { cls := 7, cause := 2, sev := sevDeferred, source := 0x10, index := c }
      (updGrid c (fun g => { g with
        poisonRows := rows.foldl (fun l r => addUnit r l) g.poisonRows
        plane0 := if e.op == .utldw && e.plane == 0 then { g.plane0 with poisoned := true } else g.plane0
        plane1 := if e.op == .utldw && e.plane != 0 then { g.plane1 with poisoned := true } else g.plane1 }) s)

/-- TENSOR_ENTRY_COMPLETE: the started entry at a queue position lands (R143). -/
def tensorComplete (c pos : Nat) (ecc : Ecc) (s : State) : State :=
  match (gridAt s c).queue[pos]? with
  | some e =>
    if e.started && fclkRuns s then
      let early := match e.op with
        | .utst => true
        | _ => false
      let s1 := if early then entryEffect c e (tensorEcc c e ecc s) else tensorEcc c e ecc (entryEffect c e s)
      settleRelease c (updGrid c (fun g => { g with queue := g.queue.eraseIdx pos }) s1)
    else s
  | none => s

end Sys2Proof.Machine
end

