-- ==== Sys2Proof/Machine/LaunchOps.lean ====
section
/-! DEFINITION. LAUNCH, SUSPEND and CONTINUE (R97–R99, R119–R122, R148, R149). -/

namespace Sys2Proof.Machine

/-! LAUNCH -/

/-- The clusters a 16-byte CLUSTERS field names. -/
def clusterBits (v : Nat) : List Nat := (List.range 128).filter (fun i => v.testBit i)

/-- A LAUNCH body carries a reserved value (R97). -/
def launchReserved (b : List Byte) : Bool :=
  getLe b 40 4 == 0 || getLe b 44 1 == 0 || decide (96 < getLe b 44 1) || bitOf (getLe b 16 8) 0 ||
  getLe b 32 8 % 0x400000 != 0 || decide (1024 < getLe b 46 2) || getLe b 45 1 / 8 != 0

/-- LAUNCH's checks and acceptance (R97, R98). -/
def doLaunch (p : Inflight) (s : State) : State :=
  let entry := p.fld 16 8
  let scr := p.fld 32 8
  let groups := p.fld 40 4
  let threads := p.fld 44 1
  let fl := p.fld 45 1
  let pg := p.fld 46 2
  let mask := p.fld 48 16
  if launchReserved p.bytes then finishPkt p.id 0x0303 0 0 s
  else if (launchByTag s p.owner p.tag).isSome then finishPkt p.id 0x0245 0 0 s
  else
    let named := if mask = 0 then List.range 128 else clusterBits mask
    let cl := named.filter (fun c => leasedTo s c p.owner)
    if cl.isEmpty then finishPkt p.id 0x0241 0 0 s
    else if cl.all (fun c => decide (scrLimit s c < pg)) then finishPkt p.id 0x0240 0 0 s
    else
      let l : Launch :=
        { id := p.id, owner := p.owner, tag := p.tag, ring := p.ring, entry, arg := p.fld 24 8, scrBase := scr, groups
          threads, utc := fl % 4, pack := bitOf fl 2, scrPg := pg, clusters := cl }
      updPkt p.id (fun q => { q with wait := .launch, pendD := true })
        (updFab (fun b => { b with
          launches := b.launches ++ [l]
          icache := b.icache.filter (fun x => !(cl.contains (x.core / 16))) }) s)

/-! SUSPEND (R119–R121) -/

/-- Bytes of a group record's parts: header and threads, scratch image, grid block. -/
def recImg (threads : Nat) : Nat := ceilDiv (256 + threads * 576) 4096 * 4096

/-- Size of a group record (R121). -/
def recBytes (threads scrPg : Nat) (grid : Bool) : Nat :=
  recImg threads + scrPg * 4096 + (if grid then 397312 else 0)

/-- A group holds its cluster's grid. -/
def holdsGrid (s : State) (g : Group) : Bool := (gridAt s g.cluster).holder == some g.gid

/-- Groups of a launch in rising index. -/
def groupsByIndex (s : State) (id : Nat) : List Group :=
  (launchGroups s id).mergeSort (fun a b => decide (a.index ≤ b.index))

/-- The size R121 gives a launch's resident groups. -/
def saveSize (s : State) (id : Nat) : Nat :=
  4096 + (launchGroups s id).foldl (fun n g => n + recBytes g.slots.length g.scrPg (holdsGrid s g)) 0

/-- The body checks SUSPEND and CONTINUE share: the owner named, or none where a value is reserved. -/
def launchNamed (p : Inflight) (suspend : Bool) : Option Nat :=
  let o := p.fld 21 1
  if 64 ≤ o ∨ (p.owner ≠ 0 ∧ o ≠ p.owner) ∨ p.fld 24 8 % 4096 ≠ 0 ∨
      (if suspend then 2 ≤ p.fld 20 1 else p.fld 20 1 ≠ 0) then none
  else some o

/-- Copies of a launch that FORCE aborts: those of parked channels (R120). -/
def abortParked (s : State) (id : Nat) : State :=
  let gids := (launchGroups s id).map (·.gid)
  s.mov.chans.foldl (fun t p =>
    cancelChans [p.1] (fun c => c.parked.isSome && (match c.origin with
      | .counter g _ => gids.contains g
      | .packet _ => false)) 0x0560 t) s

/-- SUSPEND: placement stops and the threads stop (R120). -/
def doSuspend (p : Inflight) (s : State) : State :=
  match launchNamed p true with
  | none => finishPkt p.id 0x0303 0 0 s
  | some o =>
    if (ownerAt s o).st != .active then finishPkt p.id 0x0225 0 0 s
    else
      match launchByTag s o (p.fld 16 4) with
      | none => finishPkt p.id 0x0242 0 0 s
      | some l =>
        if l.st != .running || l.stopped.isSome then finishPkt p.id 0x0242 0 0 s
        else if p.fld 32 8 < saveSize s l.id then finishPkt p.id 0x0244 0 0 s
        else
          let force := bitOf (p.fld 20 1) 0
          let s1 := updLaunch l.id (fun x => { x with
            st := .suspending, job := some { id := p.id, dva := p.fld 24 8, bytes := p.fld 32 8, force } }) s
          let s2 := updPkt p.id (fun q => { q with wait := .launch, pendD := true }) s1
          if force then abortParked s2 l.id else s2

/-- A waiting instruction's operands as the save area shows them (R121). -/
def waitFields (t : Thread) : Nat × Nat × Nat :=
  match t.st with
  | .waitBar | .waitCopy => (t.waitId, 0, t.waitVal)
  | .dormant => (0, t.waitAddr, t.waitVal)
  | _ => (0, 0, 0)

/-- A thread record (R121). -/
def threadRecord (now : Nat) (t : Thread) (token : Nat) : List Byte :=
  let w := waitFields t
  leBytes 8 t.pc ++ (run 1 31).flatMap (fun r => leBytes 8 (getX t r)) ++
  (List.range 32).flatMap (fun r => leBytes 8 (getF t r)) ++ leBytes 4 t.fcsr ++ leBytes 1 t.st.code ++
  leBytes 1 t.utc ++ leBytes 1 w.1 ++ leBytes 1 (b2n t.wakePending + b2n t.deferred.isSome * 2) ++
  leBytes 8 w.2.1 ++ leBytes 8 w.2.2 ++ leBytes 4 token ++ leBytes 4 t.uptmo ++
  leBytes 4 (if t.st == .dormant && t.timeoutAt != 0 then t.timeoutAt - now else 0) ++ zeros 28

/-- The grid state block (R149). -/
def gridBlock (g : Grid) : List Byte :=
  leBytes 2 1 ++ leBytes 1 g.queue.length ++ zeros 1 ++ leBytes 4 g.flags ++ g.cfg.flatMap (leBytes 8) ++
  slice (g.queue.flatMap (fun e => leBytes 4 e.insn ++ leBytes 2 e.progress ++ zeros 2 ++ leBytes 8 e.rs1 ++
    leBytes 8 e.rs2 ++ zeros 8)) 0 512 ++
  slice g.plane0.scales 0 1024 ++ slice g.plane1.scales 0 1024 ++ leBytes 2 (g.plane0.fmt + g.plane1.fmt * 16) ++
  zeros 1462 ++ slice g.plane0.bytes 0 65536 ++ slice g.plane1.bytes 0 65536 ++
  (List.range 65536).flatMap (fun i => leBytes 4 (Tbl.get 0 g.banks i))

/-- UCYCLE of a group, in milli-cycles. -/
def groupCycle (s : State) (g : Group) : Nat := g.cycleBase + (s.fab.fclkMilli - g.cycleStart)

/-- A group header (R121). -/
def groupHeader (s : State) (l : Launch) (g : Group) (held waiting : Bool) : List Byte :=
  let n := g.slots.length
  leBytes 2 1 ++ leBytes 1 n ++ leBytes 1 (b2n held + 2 * b2n waiting) ++ leBytes 4 g.index ++ leBytes 4 l.tag ++
  leBytes 1 g.cluster ++ zeros 3 ++ leBytes 4 g.scrOff ++ leBytes 4 (g.scrPg * 4096) ++ leBytes 4 (recImg n) ++
  leBytes 4 (if held then recImg n + g.scrPg * 4096 else 0) ++ leBytes 4 (recBytes n g.scrPg held) ++ zeros 4 ++
  leBytes 8 (groupCycle s g / 1000) ++
  g.barriers.flatMap (fun b => leBytes 8 (b.expected % 128 + b.arrived % 128 * 256 + b.phase * 2 ^ 32)) ++
  g.copyCtr.flatMap (leBytes 4) ++ zeros 112

/-- The park token a thread holds, 0 for none. -/
def parkToken (s : State) (o k : Nat) : Nat :=
  (((ownerAt s o).parks.find? (fun p => match p.agent with
    | .thread c sl => threadKey c sl == k
    | _ => false)).map (·.token)).getD 0

/-- A group record (R121). -/
def groupRecord (s : State) (l : Launch) (g : Group) : List Byte :=
  let held := holdsGrid s g
  let hd := groupHeader s l g held ((gridAt s g.cluster).waiters.contains g.gid) ++
    (groupKeys g).flatMap (fun k => match threadAt s k with
      | some t => threadRecord s.dts t (if t.st == .parked then parkToken s l.owner k else 0)
      | none => zeros 576)
  slice hd 0 (recImg g.slots.length) ++ scratchBytes s g.cluster g.scrOff (g.scrPg * 4096) ++
  (if held then gridBlock (gridAt s g.cluster) else [])

/-- The launch header (R121). -/
def launchHeader (s : State) (l : Launch) (total n : Nat) : List Byte :=
  leBytes 2 1 ++ zeros 2 ++ leBytes 4 l.tag ++ leBytes 4 n ++ leBytes 4 l.next ++ leBytes 8 total ++ leBytes 8 s.dts ++
  zeros 4064

/-- Writes the save area line by line; the first failure stops it (R120). -/
def saveLines (o : Nat) : List (Nat × List Byte) → State → State × Option (Nat × AccessErr)
  | [], s => (s, none)
  | (dva, bs) :: rest, s =>
    match resolve s o dva 2 with
    | .ok (.here dpa) => saveLines o rest (deviceWrite notThread o dpa bs s)
    | .ok (.away chip dpa) => (s, some (dva, { status := 0x0327, addr := chip * 2 ^ 48 + dpa, kind := 3 }))
    | .error e => (s, some (dva, e))

/-- A saved group, for CONTINUE (R122). -/
def savedOf (s : State) (l : Launch) (g : Group) : SavedGroup :=
  { group := { g with cycleBase := groupCycle s g }
    threads := (groupKeys g).filterMap (fun k => (threadAt s k).map (fun t =>
      { slot := k % 96, thread := { t with
          reserve := none, timeoutAt := if t.timeoutAt = 0 then 0 else t.timeoutAt - s.dts }
        park := if t.st == .parked then some (parkToken s l.owner k) else none }))
    gridHeld := holdsGrid s g
    gridWait := (gridAt s g.cluster).waiters.contains g.gid
    grid := if holdsGrid s g then some (gridAt s g.cluster) else none
    placed := false }

/-- The parks of a saved launch's threads travel with it (R77). -/
def savePark (id : Nat) (gs : List Group) (a : ParkAgent) : ParkAgent :=
  match a with
  | .thread c sl =>
    match gs.find? (fun g => g.cluster == c && g.slots.contains sl) with
    | some g => .saved id g.index (g.slots.idxOf sl)
    | none => a
  | _ => a

/-- The clean point of R120 has been reached. -/
def cleanPoint (s : State) (id : Nat) : Bool :=
  (launchGroups s id).all (fun g => g.copies == 0 && (groupKeys g).all (fun k => !(threadAwaits s k)))

/-- SUSPEND_SAVE_DONE: the save area is written and the groups' resources go free (R120). -/
def suspendDone (o tag : Nat) (s : State) : State :=
  match launchByTag s o tag with
  | none => s
  | some l =>
    match l.st, l.job with
    | .suspending, some j =>
      let s0 := if j.force then abortParked s l.id else s
      if !(cleanPoint s0 l.id) then s0
      else
        let gs := groupsByIndex s0 l.id
        let s1 := gs.foldl (fun t g => if holdsGrid t g then preempt g.cluster t else t) s0
        let recs := gs.map (groupRecord s1 l)
        let body := recs.flatten
        let total := 4096 + body.length
        let r := saveLines o (chunks 64 total j.dva (launchHeader s1 l total gs.length ++ body)) s1
        match r.2 with
        | some (dva, e) =>
          let w : Who := { owner := o, agent := 7, index := 0, source := 0x04 }
          let s2 := reportErr w 2 dva e r.1
          finishPkt j.id (endStatus s o e) 0 0
            (markLogged j.id (updLaunch l.id (fun x => { x with st := .running, job := none }) s2))
        | none =>
          let saved := gs.map (savedOf s1 l)
          let s2 := updOwner o (fun w => { w with parks := w.parks.map (fun k => { k with agent := savePark l.id gs k.agent }) }) r.1
          let s3 := gs.foldl (fun t g => unseat g (leaveGrid g.cluster g.gid
            (if holdsGrid t g then updGrid g.cluster (fun x => { x with queue := [] }) t else t))) s2
          finishPkt j.id 0 0 0 (updLaunch l.id (fun x => { x with st := .suspended, job := none, saved }) s3)
    | _, _ => s

/-! CONTINUE (R122) -/

/-- Reads the save area as the launch's owner. -/
def readArea (s : State) (o : Nat) : List (Nat × List Byte) → Except (Nat × AccessErr) (List Byte)
  | [] => .ok []
  | (dva, bs) :: rest =>
    match resolve s o dva 1 with
    | .error e => .error (dva, e)
    | .ok (.away chip dpa) => .error (dva, { status := 0x0327, addr := chip * 2 ^ 48 + dpa, kind := 3 })
    | .ok (.here dpa) =>
      match poisonIn s dpa bs.length with
      | some u => .error (dva, { status := 0x0460, addr := u, kind := 2 })
      | none =>
        match readArea s o rest with
        | .error x => .error x
        | .ok l => .ok (readMem s o dpa bs.length ++ l)

/-- The operation of a saved tensor instruction word. -/
def opOfInsn (i : Nat) : Option TOp :=
  match fld i 14 12, fld i 31 25 with
  | 0, 0 => some .utset | 1, 0 => some .utldw | 2, 0 => some .utmma | 3, 0 => some .utst
  | 3, 1 => some .utldacc | 3, 2 => some .utzero | 4, 0 => some .utcvt | _, _ => none

/-- The queue entries of a grid block, checked against the configuration as it builds up (R149). -/
def readQueue (b : List Byte) (old : List TEntry) : Nat → Nat → Grid → Option Grid
  | 0, _, g => some g
  | n + 1, i, g =>
    let e := slice b (72 + 32 * i) 32
    match opOfInsn (getLe e 0 4) with
    | none => none
    | some op =>
      let x : TEntry := { op, insn := getLe e 0 4, rs1 := getLe e 8 8, rs2 := getLe e 16 8
                          slot := ((old[i]?).map (·.slot)).getD 0, progress := getLe e 4 2 }
      if getLe e 6 2 ≠ 0 ∨ getLe e 24 8 ≠ 0 ∨ (entryTrap g x).isSome ∨ x.rows < x.progress then none
      else readQueue b old n (i + 1) { g with queue := g.queue ++ [x] }

/-- The grid of a grid state block, or none where it does not match (R149). -/
def readGrid (b : List Byte) (old : Grid) : Option Grid :=
  let cfg := (List.range 8).map (fun i => getLe b (8 + 8 * i) 8)
  let okCfg := (List.range 8).all (fun i => cfg.getD i 0 == 0 || cfgLegal i (cfg.getD i 0))
  if getLe b 0 2 ≠ 1 ∨ 16 < getLe b 2 1 ∨ getLe b 3 1 ≠ 0 ∨ 16 ≤ getLe b 4 4 ∨ !okCfg ∨ 256 ≤ getLe b 2632 2 ∨
      !(allZero (slice b 2634 1462)) then none
  else
    let f0 := getLe b 2632 1 % 16
    let f1 := getLe b 2632 1 / 16
    let g : Grid := { old with
      cfg, flags := getLe b 4 4, queue := []
      plane0 := { fmt := f0, bytes := slice b 4096 65536, scales := slice b 584 1024, poisoned := old.plane0.poisoned }
      plane1 := { fmt := f1, bytes := slice b 69632 65536, scales := slice b 1608 1024, poisoned := old.plane1.poisoned }
      banks := (List.range 65536).foldl (fun t i => Tbl.set 0 t i (getLe b (135168 + 4 * i) 4)) [] }
    readQueue b old.queue (getLe b 2 1) 0 g

/-- A thread with the registers its record holds, or none where the record does not match (R122). -/
def readThread (b : List Byte) (t : Thread) : Option Thread :=
  if getLe b 516 1 ≠ t.st.code ∨ 4 ≤ getLe b 517 1 ∨ 4 ≤ getLe b 519 1 ∨ !(allZero (slice b 548 28)) then none
  else
    let x := (run 1 31).foldl (fun u r => setX r (getLe b (8 * r) 8) u) t
    let f := (List.range 32).foldl (fun u r => setF r (getLe b (256 + 8 * r) 8) u) x
    some { f with pc := getLe b 0 8, fcsr := getLe b 512 4 % 256 }

/-- The threads of a group record. -/
def readThreads (b : List Byte) : Nat → List SavedThread → Option (List SavedThread)
  | _, [] => some []
  | i, t :: rest =>
    match readThread (slice b (256 + 576 * i) 576) t.thread, readThreads b (i + 1) rest with
    | some u, some l => some ({ t with thread := u } :: l)
    | _, _ => none

/-- Barrier words carry nothing outside their fields. -/
def barriersClean (b : List Byte) : Bool :=
  (List.range 8).all (fun i =>
    let v := getLe b (48 + 8 * i) 8
    v &&& 0xFFFF8080 == 0)

/-- A group record read back, or none where it does not match the suspension (R122). -/
def readRecord (l : Launch) (b : List Byte) (g : SavedGroup) : Option SavedGroup :=
  let n := g.group.slots.length
  let img := recImg n
  if getLe b 0 2 ≠ 1 ∨ getLe b 2 1 ≠ n ∨ 4 ≤ getLe b 3 1 ∨ getLe b 4 4 ≠ g.group.index ∨ getLe b 8 4 ≠ l.tag ∨
      getLe b 13 3 ≠ 0 ∨ getLe b 36 4 ≠ 0 ∨ !(allZero (slice b 144 112)) ∨ !(barriersClean b) then none
  else
    match readThreads b 0 g.threads with
    | none => none
    | some ts =>
      let image := slice b img (g.group.scrPg * 4096)
      match g.grid with
      | none => some { g with threads := ts, image }
      | some old =>
        match readGrid (slice b (img + g.group.scrPg * 4096) 397312) old with
        | none => none
        | some gr => some { g with threads := ts, image, grid := some gr }

/-- Every record of a save area. -/
def readRecords (l : Launch) : List Byte → List SavedGroup → Option (List SavedGroup)
  | _, [] => some []
  | b, g :: rest =>
    let n := recBytes g.group.slots.length g.group.scrPg g.gridHeld
    match readRecord l (slice b 0 n) g, readRecords l (b.drop n) rest with
    | some x, some r => some (x :: r)
    | _, _ => none

/-- The whole area, launch header included. -/
def readSave (l : Launch) (b : List Byte) : Option (List SavedGroup) :=
  if getLe b 0 2 ≠ 1 ∨ getLe b 2 2 ≠ 0 ∨ getLe b 4 4 ≠ l.tag ∨ !(allZero (slice b 32 4064)) then none
  else readRecords l (b.drop 4096) l.saved

/-- CONTINUE: the save area is read and checked (R122). -/
def doContinue (p : Inflight) (s : State) : State :=
  match launchNamed p false with
  | none => finishPkt p.id 0x0303 0 0 s
  | some o =>
    if (ownerAt s o).st != .active then finishPkt p.id 0x0225 0 0 s
    else
      match launchByTag s o (p.fld 16 4) with
      | none => finishPkt p.id 0x0242 0 0 s
      | some l =>
        if l.st != .suspended then finishPkt p.id 0x0242 0 0 s
        else
          let total := 4096 + l.saved.foldl (fun n g => n + recBytes g.group.slots.length g.group.scrPg g.gridHeld) 0
          match readArea s o (chunks 64 total (p.fld 24 8) (zeros total)) with
          | .error (dva, e) =>
            finishPkt p.id (endStatus s o e) 0 0 (markLogged p.id (reportErr { p.who with owner := o } 1 dva e s))
          | .ok b =>
            match readSave l b with
            | none => finishPkt p.id 0x034A 0 0 s
            | some saved =>
              if saved.any (fun g => (leaseAt s g.group.cluster).owner != some o) then finishPkt p.id 0x0243 0 0 s
              else
                updPkt p.id (fun q => { q with wait := .launch })
                  (updLaunch l.id (fun x => { x with
                    st := .restoring, saved, job := some { id := p.id, dva := p.fld 24 8, bytes := 0, force := false } }) s)

/-- A saved group's slots, scratch, group count and grid are free (R122). -/
def canSeat (s : State) (o : Nat) (g : SavedGroup) : Bool :=
  let c := g.group.cluster
  leasedTo s c o && decide (groupsIn s c < 16) && g.group.slots.all (fun x => !((busySlots s c).contains x)) &&
  !((scrTaken s c).any (overlap (g.group.scrOff / 4096, g.group.scrOff / 4096 + g.group.scrPg))) &&
  (!g.gridHeld || (gridAt s c).holder.isNone)

/-- A saved thread acts first on a recorded RESUME, and its park is live again (R77). -/
def restoreParks (l : Launch) (g : SavedGroup) (s : State) : State :=
  let c := g.group.cluster
  g.threads.foldl (fun t x =>
    match x.park with
    | none => t
    | some tok =>
      match (ownerAt t l.owner).parks.find? (·.token == tok) with
      | none => updThread (threadKey c x.slot) (fun u => { u with st := .active }) t
      | some p =>
        match p.recorded with
        | none =>
          let live (k : Park) : Park := { k with agent := .thread c x.slot }
          updOwner l.owner (fun w => { w with parks := updWhere (·.token == tok) live w.parks }) t
        | some abort =>
          resumeThread (threadKey c x.slot) abort p
            (updOwner l.owner (fun w => { w with parks := w.parks.filter (·.token != tok) }) t)) s

/-- Puts one saved group back (R122). -/
def seatSaved (l : Launch) (g : SavedGroup) (s : State) : State :=
  let c := g.group.cluster
  let grp := { g.group with cycleStart := s.fab.fclkMilli }
  let ts := g.threads.map (fun x => (threadKey c x.slot, x.thread))
  let s1 := seatGroup grp ts (writeScratch (scratchDpa c + g.group.scrOff) g.image s)
  let s2 := match g.grid with
    | some gr => updGrid c (fun x => { gr with holder := some grp.gid, waiters := x.waiters, releasing := false, rows := x.rows }) s1
    | none => s1
  let s3 := if g.gridWait then updGrid c (fun x => { x with waiters := x.waiters ++ [grp.gid] }) s2 else s2
  updLaunch l.id (fun x => { x with saved := updWhere (fun y => y.group.gid == grp.gid) (fun y => { y with placed := true }) x.saved }) s3

/-- All saved groups are back: the launch runs, and CONTINUE completes (R122). -/
def restartLaunch (l : Launch) (s : State) : State :=
  let keys := (launchGroups s l.id).flatMap groupKeys
  let s1 := keys.foldl (fun t k => updThread k (fun x =>
    if x.st == .dormant && x.timeoutAt != 0 then { x with timeoutAt := s.dts + x.timeoutAt } else x) t) s
  let s2 := updLaunch l.id (fun x => { x with st := .running, job := none, saved := [] }) s1
  let s3 := l.saved.foldl (fun t g => restoreParks l g t) s2
  let s4 := l.saved.foldl (fun t g => releaseCopy g.group.gid t) s3
  let s5 := l.saved.foldl (fun t g =>
    if g.gridWait && (gridAt t g.group.cluster).holder.isNone then grantNext g.group.cluster t else t) s4
  match l.job with
  | some j => finishPkt j.id 0 0 0 s5
  | none => s5

/-- CONTINUE_PLACE: the next saved group that fits is put back (R122). -/
def continuePlace (o tag : Nat) (s : State) : State :=
  match launchByTag s o tag with
  | none => s
  | some l =>
    if l.st != .restoring then s
    else
      let s1 := match l.saved.find? (fun g => !g.placed && canSeat s o g) with
        | some g => seatSaved l g s
        | none => s
      match findLaunch s1 l.id with
      | some l1 => if l1.saved.all (·.placed) then restartLaunch l1 s1 else s1
      | none => s1

end Sys2Proof.Machine
end

