-- ==== Sys2Proof/Machine/EngineIo.lean ====
section
/-! DEFINITION. Accesses of the engines and of packets that read descriptors: here or on another chip, with parks
(R61, R73, R84, R234, R272, R305). -/

namespace Sys2Proof.Machine

/-- How an access of an engine went. -/
inductive Io (α : Type) where
  | ok (a : α) (s : State)
  /-- A remote read is out; the job runs again when it is answered. -/
  | wait (s : State)
  /-- The access failed at a DVA. -/
  | stop (dva acc : Nat) (e : AccessErr) (s : State)

/-- Bytes of another chip: from the answers that have come, or by asking (R234). -/
def farLines (agent : Nat → RemoteAgent) (w : Who) (far : List (Nat × List Byte)) (chip : Nat) :
    List (Nat × Nat × Nat) → State → Io (List Byte)
  | [], s => .ok [] s
  | (dva, dpa, n) :: rest, s =>
    match far.find? (fun x => x.1 == dva && x.2.length == n) with
    | some x =>
      match farLines agent w far chip rest s with
      | .ok l t => .ok (x.2 ++ l) t
      | r => r
    | none =>
      match remoteIssue (agent dva) chip dpa w.owner w.tc (.read n) s with
      | .sent t => .wait t
      | .failed st => .stop dva 1 { status := st, addr := chip * 2 ^ 48 + dpa, kind := 3 } s
      | .full => .wait s

/-- Reads pieces that each lie in one page. -/
def readPieces (agent : Nat → RemoteAgent) (w : Who) (far : List (Nat × List Byte)) :
    List (Nat × List Byte) → State → Io (List Byte)
  | [], s => .ok [] s
  | (dva, bs) :: rest, s =>
    let n := bs.length
    let here : Io (List Byte) :=
      match resolve s w.owner dva 1 with
      | .error e => .stop dva 1 e s
      | .ok (.here dpa) =>
        match poisonIn s dpa n with
        | some u => .stop dva 1 { status := 0x0460, addr := u, kind := 2 } s
        | none => .ok (readMem s w.owner dpa n) (countBytes dpa n false (chargeTc0 dpa w.tc s))
      | .ok (.away chip dpa) =>
        farLines agent w far chip ((chunks 64 n dpa bs).map (fun c => (dva + (c.1 - dpa), c.1, c.2.length))) s
    match here with
    | .ok l t =>
      match readPieces agent w far rest t with
      | .ok m u => .ok (l ++ m) u
      | r => r
    | r => r

/-- Reads `n` bytes at a DVA. -/
def engRead (agent : Nat → RemoteAgent) (w : Who) (far : List (Nat × List Byte)) (dva n : Nat) (s : State) :
    Io (List Byte) :=
  readPieces agent w far (chunks 4096 n dva (zeros n)) s

/-- Writes pieces that each lie in one page. -/
def writePieces (agent : RemoteAgent) (w : Who) : List (Nat × List Byte) → State → Io Unit
  | [], s => .ok () s
  | (dva, bs) :: rest, s =>
    match resolve s w.owner dva 2 with
    | .error e => .stop dva 2 e s
    | .ok (.here dpa) => writePieces agent w rest (deviceWrite notThread w.owner dpa bs (chargeTc0 dpa w.tc s))
    | .ok (.away chip dpa) =>
      match remoteWrites agent chip w.owner w.tc false (chunks 64 bs.length dpa bs) s with
      | .sent t => writePieces agent w rest t
      | .failed st => .stop dva 2 { status := st, addr := chip * 2 ^ 48 + dpa, kind := 3 } s
      | .full => .wait s

/-- Writes bytes at a DVA. -/
def engWrite (agent : RemoteAgent) (w : Who) (dva : Nat) (bs : List Byte) (s : State) : Io Unit :=
  writePieces agent w (chunks 4096 bs.length dva bs) s

/-- A packet's read of device memory, and what follows it (R73, R84). -/
def pktRead (p : Inflight) (dva n : Nat) (s : State) (k : List Byte → State → State) : State :=
  match engRead (.packetRead p.id) p.who p.far dva n s with
  | .ok l t => k l t
  | .wait t => updPkt p.id (fun q => { q with wait := .remote }) t
  | .stop a acc e t =>
    if doesPark t p.owner e then
      markLogged p.id (updPkt p.id (fun q => { q with wait := .parked 0 }) (parkOn p.who (.frontEnd p.id) acc a e t).1)
    else finishPkt p.id (endStatus t p.owner e) 0 0 (markLogged p.id (reportErr p.who acc a e t))

/-- A generation-counted structure written to the host: START, body, END (R91). -/
def genWrite (o addr gen : Nat) (body : List Byte) (s : State) : State :=
  let g := leBytes 4 gen
  hostWrite o (addr + 4 + body.length) g false
    (hostWrite o (addr + 4) body false (hostWrite o addr g false s))

end Sys2Proof.Machine
end

