-- ==== Sys2Proof/Machine/SqeOps.lean ====
section
/-! DEFINITION. The Sequence Engine's bookkeeping: pages, admission, eviction, journals, events and the batch
(R243–R269). -/

namespace Sys2Proof.Machine

/-- Changes the engine. -/
def updSqe (f : Sqe → Sqe) (s : State) : State := { s with sqe := f s.sqe }

/-- One stream. -/
def strm (s : State) (i : Nat) : Stream := Tbl.get {} s.sqe.streams i

/-- Changes one stream. -/
def updStrm (i : Nat) (f : Stream → Stream) (s : State) : State :=
  updSqe (fun e => { e with streams := Tbl.upd {} e.streams i f }) s

/-- A channel's policy. -/
def seqChan (s : State) (c : Nat) : SeqChannel := Tbl.get {} s.sqe.channels c

/-- A class of a stream. -/
def seqClass (s : State) (i c : Nat) : SeqClass := Tbl.get {} (strm s i).classes c

/-- A sequence ID (R243). -/
def Seq.id (q : Seq) : Nat := q.gen * 65536 + q.slot

/-- The live sequence of an ID (R243). -/
def findSeq (s : State) (id : Nat) : Option Seq := s.sqe.seqs.find? (fun q => q.id == id)

/-- Changes the live sequence in a slot. -/
def updSeq (slot : Nat) (f : Seq → Seq) (s : State) : State :=
  updSqe (fun e => { e with seqs := updWhere (·.slot == slot) f e.seqs }) s

/-- The live sequences of a stream. -/
def seqsOf (s : State) (i : Nat) : List Seq := s.sqe.seqs.filter (·.stream == i)

/-- Sum over a list. -/
def sumOf {α : Type} (f : α → Nat) (l : List α) : Nat := l.foldl (fun n x => n + f x) 0

/-- Page size in bytes (R248). -/
def kvPageSize (s : State) : Nat := 2 ^ regFld s 0x2200000 4 0

/-- FREE: the region's free pages (R250). -/
def freePages (s : State) (i : Nat) : Nat := (strm s i).pageCount - sumOf (fun q => q.pages.length) (seqsOf s i)

/-- HELD of a class, with what start() has charged (R250, R263). -/
def heldPages (s : State) (i c : Nat) : Nat :=
  sumOf (fun q => if q.cls = c then q.pages.length + q.need else 0) (seqsOf s i)

/-- The unused reservations of the classes above c (R250). -/
def reservedAbove (s : State) (i c : Nat) : Nat :=
  sumOf (fun k => (seqClass s i k).res - heldPages s i k) (List.range c)

/-- A sequence's pages are already promised to others. -/
def Seq.leaving (q : Seq) : Bool := q.victim || q.copying

/-- AVAIL(c) as admissions see it: with chosen victims' pages, less what is charged and not allocated (R250, R263). -/
def availPages (s : State) (i c : Nat) : Int :=
  ((freePages s i + sumOf (fun q => if q.leaving then q.pages.length else 0) (seqsOf s i) : Nat) : Int) -
  ((sumOf (·.need) (seqsOf s i) + reservedAbove s i c : Nat) : Int)

/-- Sequences not QUEUED. -/
def startedCount (s : State) (i : Nat) : Nat := ((seqsOf s i).filter (·.st != .queued)).length

/-- Sequences QUEUED in a class. -/
def queuedIn (s : State) (i c : Nat) : Nat := ((seqsOf s i).filter (fun q => q.st == .queued && q.cls == c)).length

/-- Walk order: class, then arrival (R252). -/
def seqBefore (a b : Seq) : Bool :=
  decide (a.cls < b.cls) || (a.cls == b.cls && (decide (a.arrival < b.arrival) ||
    (a.arrival == b.arrival && decide (a.order ≤ b.order))))

/-- A stream's sequences in walk order. -/
def walkOrder (s : State) (i : Nat) : List Seq := (seqsOf s i).mergeSort seqBefore

/-! Host writes: journals, events and status (R266, R269, R270) -/

/-- A journal header's three writes (R91, R266). -/
def headerLines (q : Seq) (now gen status : Nat) : List HostLine :=
  let body := leBytes 2 1 ++ leBytes 2 (b2n (status != 0)) ++ leBytes 4 q.id ++ leBytes 4 q.prompt ++
    leBytes 4 q.tokens ++ leBytes 2 status ++ zeros 2 ++ leBytes 8 now ++ zeros 28
  [⟨q.journal, leBytes 4 gen⟩, ⟨q.journal + 4, body⟩, ⟨q.journal + 60, leBytes 4 gen⟩]

/-- Host writes issued in order. -/
def putLines (o : Nat) (l : List HostLine) (s : State) : State :=
  l.foldl (fun t x => hostWrite o x.addr x.bytes false t) s

/-- An event record without its FLAGS byte (R269). -/
def eventRec (now seqId status ev cls user tokens aux stream : Nat) : List Byte :=
  leBytes 8 now ++ leBytes 4 seqId ++ leBytes 2 status ++ leBytes 1 ev ++ leBytes 1 cls ++ leBytes 4 user ++
  leBytes 4 tokens ++ leBytes 4 aux ++ leBytes 1 stream ++ zeros 2

/-- The status block's body (R270). -/
def statusBody (s : State) (i : Nat) : List Byte :=
  let x := strm s i
  let l := seqsOf s i
  let cnt (p : Seq → Bool) : Nat := (l.filter p).length
  leBytes 2 1 ++ leBytes 1 x.st.code ++
  leBytes 1 (b2n (x.wait == .parked) + b2n x.stallAll * 2 + b2n x.gateWait * 4) ++ leBytes 8 x.step ++ leBytes 8 s.dts ++
  leBytes 4 (cnt (·.st != .queued)) ++ leBytes 4 (cnt (·.st == .queued)) ++ leBytes 4 (freePages s i) ++
  leBytes 4 (cnt (·.st == .stalled)) ++ leBytes 4 x.evProd ++ leBytes 4 x.evLost ++ leBytes 4 x.patched ++
  leBytes 4 x.rebuilt ++
  (List.range 8).flatMap (fun c => leBytes 2 (min 65535 (cnt (fun q => q.cls == c && q.st != .queued)))) ++
  (List.range 8).flatMap (fun c => leBytes 2 (min 65535 (cnt (fun q => q.cls == c && q.st == .queued)))) ++
  (List.range 8).flatMap (fun c => leBytes 4 (heldPages s i c)) ++ zeros 132

/-- Writes the status block (R270). -/
def putStatus (i : Nat) (s : State) : State :=
  let x := strm s i
  match x.desc with
  | none => s
  | some d =>
    genWrite x.owner d.status (add32 x.statusGen 1) (statusBody s i)
      (updStrm i (fun y => { y with statusGen := add32 y.statusGen 1 }) s)

/-- Writes one event record, or counts it lost; `cons` is what a re-read of EV_CONS gives (R269). -/
def putEvent (i cons : Nat) (rec_ : List Byte) (s : State) : State :=
  let x := strm s i
  match x.desc with
  | none => s
  | some d =>
    let size := 2 ^ d.evLog2
    let full (c : Nat) : Bool := decide (size ≤ sub32 x.evProd c)
    let c := if full x.evCons then cons else x.evCons
    let s0 := if full x.evCons then emit (.hostRead x.owner d.evCons 4) s else s
    if full c then updStrm i (fun y => { y with evCons := c, evLost := add32 y.evLost 1 }) s0
    else
      let s1 := hostWrite x.owner (d.evBase + x.evProd % size * 32)
        (rec_ ++ leBytes 1 (if x.evProd / size % 2 = 0 then 128 else 0)) false s0
      sendVec x.owner d.vector (updStrm i (fun y => { y with evCons := c, evProd := add32 y.evProd 1 }) s1)

/-- Events, then the status block. -/
def putEvents (i cons : Nat) (l : List (List Byte)) (s : State) : State :=
  putStatus i (l.foldl (fun t r => putEvent i cons r t) s)

/-- Journal lines and events that wait for step 9 of the running boundary (R256). -/
def later (i : Nat) (ls : List HostLine) (es : List (List Byte)) (s : State) : State :=
  updStrm i (fun x => { x with lines := x.lines ++ ls, events := x.events ++ es }) s

/-- Issues what step 9 owes: journal writes, event records, status block (R256). -/
def flushBoundary (i cons : Nat) (s : State) : State :=
  let x := strm s i
  let s1 := updStrm i (fun y => { y with lines := [], events := [] }) s
  putEvents i cons x.events (putLines x.owner x.lines s1)

/-! Ends (R262, R265, R269) -/

/-- A sequence leaves the table with its ENDED event and its journal's last header. -/
def endSeq (q : Seq) (status aux : Nat) (s : State) : State :=
  let gen := add32 q.jgen 1
  later q.stream (headerLines q s.dts gen status)
    [eventRec s.dts q.id status 2 q.cls q.user q.tokens aux q.stream]
    (updSqe (fun e => { e with seqs := e.seqs.filter (·.slot != q.slot) }) s)

/-- Pages a K needs. -/
def pagesFor (tpp k : Nat) : Nat := ceilDiv k tpp

/-- A victim's swap area holds its image (R265). -/
def swapFits (s : State) (q : Seq) : Bool :=
  match (strm s q.stream).desc with
  | none => false
  | some d => q.swap != 0 && decide (4096 + pagesFor d.tpp q.committed * kvPageSize s ≤ q.swapBytes)

/-- A victim leaves (R262, R265): at once, or when its swap image is written. The boolean asks for the copy. -/
def evictSeq (q : Seq) (s : State) : State × Bool :=
  let ch := seqChan s q.channel
  if q.st == .draining then (endSeq q 0x0590 0 s, false)
  else if ch.drop || !(swapFits s q) then (endSeq q 0x0691 0 s, false)
  else
    (updSeq q.slot (fun x => { x with
      st := .ending, copying := true, victim := false, drafts := [], pages := x.pages.filter (fun p => !p.prov) }) s, true)

/-! Admission (R258, R263, R264) -/

/-- A sequence may be evicted for one of class c (R264). -/
def evictable (s : State) (c : Nat) (q : Seq) : Bool :=
  (q.st == .running || q.st == .stalled || q.st == .draining) && (seqChan s q.channel).evictable &&
  decide (c < q.cls) && !q.victim && !q.swapIn

/-- Candidates by highest class number, then latest arrival (R264). -/
def candidates (s : State) (i c : Nat) : List Seq := ((walkOrder s i).reverse).filter (evictable s c)

/-- The candidates that cover a shortfall, or none (R264). -/
def pickVictims : List Seq → Nat → Option (List Seq)
  | _, 0 => some []
  | [], _ + 1 => none
  | q :: rest, n + 1 => (pickVictims rest (n + 1 - q.pages.length)).map (q :: ·)

/-- Plans the evictions that let `need` pages be had by class c, or says they cannot (R264). -/
def planEvictions (i c : Nat) (need : Nat) (s : State) : Option State :=
  let short := (need : Int) - availPages s i c
  if short ≤ 0 then some s
  else
    match pickVictims (candidates s i c) short.toNat with
    | none => none
    | some l => some (l.foldl (fun t q => updSeq q.slot (fun x => { x with victim := true }) t) s)

/-- can_start, with the evictions it plans (R263). -/
def canStartSeq (i c need : Nat) (s : State) : Option State :=
  match (strm s i).desc with
  | none => none
  | some d => if startedCount s i = d.seqLimit then none else planEvictions i c need s

/-- The lowest free block table index (R249). -/
def freeBti (s : State) (i limit : Nat) : Nat :=
  ((List.range limit).find? (fun b => !((seqsOf s i).any (fun q => q.bti == some b)))).getD limit

/-- Asks the journal for the next prompt tokens a step may take (R257). -/
def askPrompt (slot : Nat) (s : State) : State :=
  match s.sqe.seqs.find? (·.slot == slot) with
  | none => s
  | some q =>
    match (strm s q.stream).desc with
    | none => s
    | some d =>
      let want := min (q.fillTo - q.committed) d.chunk
      if q.st == .queued || q.reading.isSome || want ≤ q.have_.length then s
      else
        let first := q.committed + q.have_.length
        let n := want - q.have_.length
        updSeq slot (fun x => { x with reading := some { first, count := n } })
          (emit (.hostRead (strm s q.stream).owner (q.journal + 64 + 4 * first) (4 * n)) s)

/-- start(): a BTI, the charge, and the first prompt read (R263). -/
def startSeq (slot need : Nat) (s : State) : State :=
  match s.sqe.seqs.find? (·.slot == slot) with
  | none => s
  | some q =>
    match (strm s q.stream).desc with
    | none => s
    | some d =>
      let b := freeBti s q.stream d.seqLimit
      askPrompt slot (updSeq slot (fun x => { x with st := .running, bti := some b, need }) s)

/-- The first pages need of a sequence (R266). -/
def firstNeed (tpp : Nat) (q : Seq) : Nat :=
  pagesFor tpp ((if q.restore = 1 then q.committed else if q.sample then q.prompt else q.fillTo) + 1)

/-- Starts the heads of one class's queue while they can start; false when a head cannot (R258). -/
def startClass (i c tpp : Nat) : Nat → State → State × Bool
  | 0, s => (s, true)
  | fuel + 1, s =>
    match (walkOrder s i).find? (fun q => q.st == .queued && q.cls == c) with
    | none => (s, true)
    | some q =>
      let need := firstNeed tpp q
      match canStartSeq i c need s with
      | none => (s, false)
      | some t =>
        let ev := eventRec t.dts q.id 0 1 q.cls q.user q.tokens ((strm t i).step - q.queuedStep) i
        startClass i c tpp fuel (later i [] [ev] (startSeq q.slot need t))

/-- Starts queued sequences in class order (R258). -/
def startQueued (i tpp : Nat) : List Nat → State → State
  | [], s => s
  | c :: cs, s =>
    let r := startClass i c tpp (queuedIn s i c) s
    if r.2 then startQueued i tpp cs r.1 else r.1

/-! Pages (R259, R260) -/

/-- The lowest free pages of a region. -/
def takePages (s : State) (i n : Nat) : List Nat :=
  let used := (seqsOf s i).flatMap (fun q => q.pages.map (·.page))
  ((run (strm s i).pageFirst (strm s i).pageCount).filter (fun p => !(used.contains p))).take n

/-- Gives a sequence `n` more pages, marked PROV by R260. -/
def grow (slot n tpp : Nat) (s : State) : State :=
  match s.sqe.seqs.find? (·.slot == slot) with
  | none => s
  | some q =>
    let base := q.pages.length
    let new := (takePages s q.stream n).mapIdx (fun j p =>
      ({ page := p, prov := decide (q.committed ≤ (base + j) * tpp) } : KvPage))
    updSeq slot (fun x => { x with pages := x.pages ++ new, need := 0 }) s

/-- Pages of class c that can be had right now: AVAIL, of pages that are free. -/
def obtainable (s : State) (i c : Nat) : Nat := min (freePages s i) (availPages s i c).toNat

/-- Marks committed pages and frees provisional ones at or beyond K (R260). -/
def settlePages (tpp k : Nat) (ps : List KvPage) : List KvPage :=
  (ps.mapIdx (fun j p => (j, if j * tpp < k then { p with prov := false } else p))).filterMap (fun x =>
    if x.2.prov then none else some x.2)

/-! Results (R255, R260, R261) -/

/-- A result entry (R255). -/
structure StepResult where
  stop : Bool
  accepted : Nat
  token : Nat
  drafts : List Nat

/-- Reads a result entry; none where R255 refuses it. -/
def readResult (b : List Byte) (ndraft : Nat) : Option StepResult :=
  let n := getLe b 2 1
  if 1 < getLe b 0 1 ∨ ndraft < getLe b 1 1 ∨ 14 < n ∨ getLe b 3 1 ≠ 0 then none
  else some { stop := getLe b 0 1 == 1, accepted := getLe b 1 1, token := getLe b 4 4
              drafts := (List.range n).map (fun j => getLe b (8 + 4 * j) 4) }

/-- The tokens that stand, and the end status they meet: 0 for none (R261). -/
def cutTokens (stops : List Nat) (stopLast : Bool) (limit : Nat) : List Nat → Nat → List Nat × Nat
  | [], _ => ([], 0)
  | t :: rest, gen =>
    if stops.contains t ∨ (stopLast ∧ rest = []) then ([t], 0x0090)
    else if limit ≤ gen + 1 then ([t], 0x0091)
    else
      let r := cutTokens stops stopLast limit rest (gen + 1)
      (t :: r.1, r.2)

/-- The journal lines of new tokens and their header (R266). -/
def tokenLines (q : Seq) (toks : List Nat) : List HostLine :=
  toks.mapIdx (fun j t => ⟨q.journal + 64 + 4 * (q.tokens + j), leBytes 4 t⟩)

/-- The generated tokens so far. -/
def Seq.generated (q : Seq) : Nat := q.tokens + q.hidden - q.prompt

/-- Applies one sampled slot: commit, journal, stop, length, pages, drafts (R261, R262). -/
def applyTokens (q : Seq) (plan : SlotPlan) (r : StepResult) (tpp : Nat) (s : State) : State :=
  let a := if plan.kind = 3 then r.accepted else 0
  let k := if plan.kind = 3 then q.committed + a + 1 else q.committed + plan.ntok
  let new := (plan.toks.drop 1).take a ++ [r.token]
  let new := if plan.kind = 3 then new else [r.token]
  let ch := seqChan s q.channel
  let noted := q.st == .draining
  let cut := cutTokens (ch.stops) r.stop q.maxNew new q.generated
  let pages := settlePages tpp k q.pages
  if noted then
    if cut.2 ≠ 0 then endSeq q 0x0590 0 s
    else updSeq q.slot (fun x => { x with
      committed := k, pendingTok := some r.token, pages, drafts := if x.spec then r.drafts.take x.draftMax else []
      have_ := [], hidden := x.hidden + new.length }) s
  else
    let gen := add32 q.jgen 1
    let q1 := { q with
      committed := k, tokens := q.tokens + cut.1.length, pendingTok := some r.token, pages, have_ := [], jgen := gen
      drafts := if q.spec then r.drafts.take q.draftMax else [] }
    let s1 := later q.stream (tokenLines q cut.1) [] s
    if cut.2 ≠ 0 then endSeq { q1 with jgen := q.jgen } cut.2 0 s1
    else later q.stream (headerLines q1 s.dts gen 0) [] (updSeq q.slot (fun _ => q1) s1)

/-- Applies one slot of the ended step (R261). -/
def applySlot (plan : SlotPlan) (bytes : List Byte) (tpp : Nat) (s : State) : State :=
  match findSeq s plan.seqId with
  | none => s
  | some q =>
    if plan.kind = 1 then
      updSeq q.slot (fun x => { x with
        committed := x.committed + plan.ntok, have_ := x.have_.drop plan.ntok
        pages := settlePages tpp (x.committed + plan.ntok) x.pages }) s
    else
      match readResult bytes plan.ndraft with
      | none => s
      | some r => applyTokens q plan r tpp s

/-! The batch (R254, R258, R259) -/

/-- What the walk has used so far. -/
structure Budget where
  toks : Nat := 0
  slots : Nat := 0
  lowToks : Nat := 0
  lowSlots : Nat := 0
  stop : Bool := false
  plans : List SlotPlan := []

/-- Tokens a class may still take, 0 without a slot (R258). -/
def Budget.left (b : Budget) (d : StreamDesc) (c : Nat) : Nat :=
  let t := d.maxTokens - b.toks
  let n := d.maxSlots - b.slots
  if c = 0 then (if n = 0 then 0 else t)
  else if n = 0 ∨ d.maxSlots - d.c0Slots ≤ b.lowSlots then 0
  else min t (d.maxTokens - d.c0Tokens - b.lowToks)

/-- A slot is taken. -/
def Budget.take (b : Budget) (p : SlotPlan) : Budget :=
  let low := p.cls != 0
  { b with
    toks := b.toks + p.ntok, slots := b.slots + 1
    lowToks := if low then b.lowToks + p.ntok else b.lowToks
    lowSlots := if low then b.lowSlots + 1 else b.lowSlots, plans := b.plans ++ [p] }

/-- The slot of a sequence with a kind and its tokens. -/
def planOf (q : Seq) (kind : Nat) (toks : List Nat) (ndraft npages : Nat) : SlotPlan :=
  { slot := q.slot, seqId := q.id, cls := q.cls, channel := q.channel, user := q.user, bti := q.bti.getD 0
    pos := q.committed, ntok := toks.length, kind, spec := q.spec, draining := q.st == .draining, ndraft, toks, npages }

/-- What a sequence would do in the next step. -/
inductive Wish where
  /-- Tokens with KIND; drafts may be cut. -/
  | slot (kind : Nat) (toks drafts : List Nat)
  /-- Nothing now: prompt tokens or a page copy have not come, or it is leaving. -/
  | out

/-- R258: the tokens of one sequence under a budget of at least one token. -/
def wishOf (q : Seq) (d : StreamDesc) (left : Nat) : Wish :=
  if q.leaving || q.swapIn || q.need != 0 then .out
  else if q.committed < q.fillTo then
    let n := min (q.fillTo - q.committed) (min d.chunk left)
    if q.have_.length < n then .out
    else .slot (if q.committed + n = q.fillTo ∧ q.sample then 2 else 1) (q.have_.take n) []
  else
    match q.pendingTok with
    | none => .out
    | some t => .slot 3 [t] (q.drafts.take (left - 1))

/-- The drafts that pages allow (R259): as many as fit, down to none. -/
def fitDrafts (tpp pos have_ can : Nat) : Nat → Option Nat
  | 0 => if pagesFor tpp (pos + 1) - have_ ≤ can then some 0 else none
  | n + 1 => if pagesFor tpp (pos + 1 + (n + 1)) - have_ ≤ can then some (n + 1) else fitDrafts tpp pos have_ can n

/-- A sequence stalls (R259). -/
def stallSeq (q : Seq) (s : State) : State :=
  if q.st == .running then
    later q.stream [] [eventRec s.dts q.id 0 3 q.cls q.user q.tokens 0 q.stream]
      (updSeq q.slot (fun x => { x with st := .stalled }) s)
  else s

/-- A STALLED sequence has its pages (R259). -/
def unstallSeq (q : Seq) (s : State) : State :=
  if q.st == .stalled then
    later q.stream [] [eventRec s.dts q.id 0 4 q.cls q.user q.tokens 0 q.stream]
      (updSeq q.slot (fun x => { x with st := .running }) s)
  else s

/-- A slot cannot get its pages: evict for it, and stall (R259). -/
def shortOf (q : Seq) (need : Nat) (s : State) : State :=
  stallSeq q ((planEvictions q.stream q.cls need s).getD s)

/-- One sequence of the walk (R258, R259). -/
def walkSeq (d : StreamDesc) (slot : Nat) (acc : State × Budget) : State × Budget :=
  let s := acc.1
  let b := acc.2
  match s.sqe.seqs.find? (·.slot == slot) with
  | none => acc
  | some q =>
    if b.stop then acc
    else
      let left := b.left d q.cls
      if left = 0 then (s, { b with stop := true })
      else
        match wishOf q d left with
        | .out => acc
        | .slot kind toks drafts =>
          let have_ := q.pages.length
          let can := obtainable s q.stream q.cls
          let base := pagesFor d.tpp (q.committed + toks.length) - have_
          if can < base then (shortOf q base s, b)
          else
            let nd := if kind = 3 then (fitDrafts d.tpp q.committed have_ can drafts.length).getD 0 else 0
            let add := pagesFor d.tpp (q.committed + toks.length + nd) - have_
            let s1 := unstallSeq q (if add = 0 then s else grow slot add d.tpp s)
            let s2 := askPrompt slot s1
            match s2.sqe.seqs.find? (·.slot == slot) with
            | none => (s2, b)
            | some q2 => (s2, b.take (planOf q2 kind (toks ++ drafts.take nd) nd (have_ + add)))

/-- Started sequences that wait for their first pages take them (R263). -/
def allocNeeds (i tpp : Nat) (s : State) : State :=
  (walkOrder s i).foldl (fun t q =>
    if q.need = 0 ∨ freePages t i < q.need then t
    else
      let t1 := grow q.slot q.need tpp t
      if q.swapIn then
        emit (.hostRead (strm t i).owner (q.swap + 4096) (pagesFor tpp q.committed * kvPageSize t)) t1
      else t1) s

/-- The whole walk: which slots step N+1 has (R258, R259). -/
def buildBatch (i : Nat) (d : StreamDesc) (s : State) : State × List SlotPlan :=
  let s0 := allocNeeds i d.tpp s
  let order := ((walkOrder s0 i).filter (fun q => q.st == .running || q.st == .draining || q.st == .stalled)).map (·.slot)
  let s1 := order.foldl (fun t sl => askPrompt sl t) s0
  let r := order.foldl (fun acc sl => walkSeq d sl acc) (s1, {})
  (r.1, r.2.plans)

/-- Every sequence that holds pages is STALLED (R259). -/
def allStalled (s : State) (i : Nat) : Bool :=
  let l := (seqsOf s i).filter (fun q => !q.pages.isEmpty)
  !l.isEmpty && l.all (·.st == .stalled)

/-- Evicts chosen victims; the slots whose swap copies are to be made. -/
def evictList (l : List Seq) (s : State) : State × List Nat :=
  l.foldl (fun (acc : State × List Nat) q =>
    let r := evictSeq q acc.1
    (r.1, if r.2 then acc.2 ++ [q.slot] else acc.2)) (s, [])

/-- A batch of a stream in which nothing runs: victims leave at once, and a stall of all evicts (R259). -/
def buildIdle (i : Nat) (d : StreamDesc) : Nat → State → State × List SlotPlan × List Nat
  | 0, s => (s, [], [])
  | fuel + 1, s =>
    let r := buildBatch i d s
    if !r.2.isEmpty then (r.1, r.2, [])
    else
      let vs := (walkOrder r.1 i).filter (·.victim)
      if !vs.isEmpty then
        let e := evictList vs r.1
        let z := buildIdle i d fuel e.1
        (z.1, z.2.1, e.2 ++ z.2.2)
      else if allStalled r.1 i then
        match ((walkOrder r.1 i).reverse).find? (fun q => q.st == .stalled && (seqChan r.1 q.channel).evictable) with
        | some q =>
          let e := evictList [q] r.1
          let z := buildIdle i d fuel e.1
          (z.1, z.2.1, e.2 ++ z.2.2)
        | none =>
          if (strm r.1 i).stallAll then (r.1, [], [])
          else
            (later i [] [eventRec r.1.dts 0 0 6 0 0 0 0 i] (updStrm i (fun x => { x with stallAll := true }) r.1), [], [])
      else (r.1, [], [])

/-! Metadata (R249, R254) -/

/-- A slot entry. -/
def slotBytes (p : SlotPlan) (tokIdx : Nat) : List Byte :=
  leBytes 4 p.seqId ++ leBytes 4 p.bti ++ leBytes 4 p.pos ++ leBytes 2 p.ntok ++ leBytes 1 p.kind ++
  leBytes 1 (b2n p.spec + b2n p.draining * 2) ++ leBytes 4 tokIdx ++ leBytes 1 p.ndraft ++ leBytes 1 p.cls ++
  leBytes 1 p.channel ++ zeros 1 ++ leBytes 4 p.user ++ leBytes 2 p.npages ++ zeros 2

/-- The slot entries, each with the index of its first token. -/
def slotArray : List SlotPlan → Nat → List Byte
  | [], _ => []
  | p :: rest, i => slotBytes p i ++ slotArray rest (i + p.ntok)

/-- The metadata's body between START and END (R254). -/
def metaBody (s : State) (i step : Nat) (d : StreamDesc) (l : List SlotPlan) : List Byte :=
  leBytes 2 1 ++ leBytes 1 i ++ zeros 1 ++ leBytes 8 step ++ leBytes 4 l.length ++ leBytes 4 (sumOf (·.ntok) l) ++
  leBytes 8 d.kv ++ leBytes 8 d.bt ++ leBytes 8 (if step % 2 = 0 then d.result0 else d.result1) ++
  leBytes 1 (regFld s 0x2200000 4 0) ++ zeros 1 ++ leBytes 2 d.tpp ++ leBytes 2 d.maxBlocks ++ zeros 10 ++
  slotArray l 0 ++ l.flatMap (fun p => p.toks.flatMap (leBytes 4))

/-- A block table's entries (R249). -/
def tableBytes (q : Seq) : List Byte := q.pages.flatMap (fun p => leBytes 4 (p.page + b2n p.prov * 2 ^ 31))

/-- The writes that prepare a step: metadata, then block tables (R254, R256). -/
def metaWrites (s : State) (i step : Nat) (d : StreamDesc) (l : List SlotPlan) : List StreamJob :=
  let a := if step % 2 = 0 then d.meta0 else d.meta1
  let g := leBytes 4 (add32 (strm s i).metaGen 1)
  let body := metaBody s i step d l
  [.write a g, .write (a + 4) body, .write (a + 4 + body.length) g] ++
  l.filterMap (fun p => (findSeq s p.seqId).map (fun q =>
    .write (d.bt + p.bti * d.maxBlocks * 4) (tableBytes q)))

/-! The plan for the governor (R275) -/

/-- One projected sequence: prompt left, and tokens it may still generate. -/
abbrev Proj := Nat × Nat

/-- The tokens of one projected step, and what is left of each sequence. -/
def projectStep (d : StreamDesc) (l : List Proj) : Nat × Nat × List Proj :=
  l.foldl (fun (acc : Nat × Nat × List Proj) x =>
    if d.maxSlots ≤ acc.2.1 ∨ d.maxTokens ≤ acc.1 then (acc.1, acc.2.1, acc.2.2 ++ [x])
    else if 0 < x.1 then
      let n := min x.1 (min d.chunk (d.maxTokens - acc.1))
      let left := if n = x.1 then x.2 - 1 else x.2
      (acc.1 + n, acc.2.1 + 1, if n = x.1 ∧ left = 0 then acc.2.2 else acc.2.2 ++ [(x.1 - n, left)])
    else
      (acc.1 + 1, acc.2.1 + 1, if x.2 ≤ 1 then acc.2.2 else acc.2.2 ++ [(0, x.2 - 1)])) (0, 0, [])

/-- Steps after the prepared one, projected with no arrivals. -/
def projectSteps (d : StreamDesc) (reg : Nat) : Nat → List Proj → List PlanStep
  | 0, _ => []
  | n + 1, l =>
    let r := projectStep d l
    { prog := d.program, reg, tokens := r.1, slots := r.2.1 } :: projectSteps d reg n r.2.2

/-- The plan of steps N+1 to N+16: the prepared batch, then the projection (R275). -/
def planSteps (s : State) (i : Nat) (d : StreamDesc) (l : List SlotPlan) : List PlanStep :=
  let reg := ((Tbl.get none s.sqe.programs d.program).map (·.reg)).getD 0
  let seqs := (walkOrder s i).filter (fun q => q.st == .running || q.st == .draining)
  let after : List Proj := seqs.filterMap (fun (q : Seq) =>
    let taken : Nat := ((l.find? (·.seqId == q.id)).map (·.ntok)).getD 0
    let fill : Nat := q.fillTo - q.committed
    let gen : Nat := q.maxNew - (q.tokens - q.prompt)
    if 0 < fill then some (fill - min taken fill, if taken = fill ∧ q.sample then gen - 1 else gen)
    else
      let g : Nat := if taken = 0 then gen else gen - 1
      if g = 0 then none else some (0, g))
  { prog := d.program, reg, tokens := sumOf (·.ntok) l, slots := l.length } :: projectSteps d reg 15 after

end Sys2Proof.Machine
end

