-- ==== Sys2Proof/Machine/SqeRun.lean ====
section
/-! DEFINITION. The Sequence Engine's steps, walks and packets (R245–R277). -/

namespace Sys2Proof.Machine

/-! Failing and parking (R253, R272) -/

/-- A stream enters FAILED: the event, the log entry and the status block (R253, R483). -/
def failStream (i status cons : Nat) (s : State) : State :=
  let x := strm s i
  let s1 := logErr { cls := 12, cause := 1, sev := sevNotice, status, owner := some x.owner, source := 0x22, index := i } s
  putEvents i cons [eventRec s.dts 0 status 5 0 0 0 x.step i] (updStrm i (fun y => { y with st := .failed }) s1)

/-- The ended or running step fails: START fires it again (R253). -/
def failStep (i status cons : Nat) (s : State) : State :=
  failStream i status cons (updStrm i (fun y => { y with
    next := some y.batch, again := true, jobs := [], results := [], far := [], wait := .none, ended := false }) s)

/-- A stream's walk as the author of accesses (R74). -/
def streamWho (s : State) (i tc : Nat) : Who :=
  { owner := (strm s i).owner, agent := 4, index := i, source := 0x22, sourceIndex := i, tc }

/-- The walk is still before step 3 of R256: the results of the ended step are being read. -/
def readingResults (x : Stream) : Bool := x.jobs.any (fun j => match j with
  | .result _ => true
  | .apply b => b
  | _ => false)

/-- The walk ends with a status (R255, R272). A step whose results are read already stands; its step 9 is done. -/
def abortWalk (i status cons : Nat) (s : State) : State :=
  let x := strm s i
  if readingResults x then failStep i status cons s
  else
    let s1 := x.jobs.foldl (fun t j => match j with
      | .swapOut slot => (match t.sqe.seqs.find? (·.slot == slot) with
        | some q => endSeq q 0x0691 0 t
        | none => t)
      | .swapIn slot => (match t.sqe.seqs.find? (·.slot == slot) with
        | some q => endSeq q 0x0691 0 t
        | none => t)
      | _ => t) s
    let s2 := flushBoundary i cons (updStrm i (fun y => { y with
      next := none, jobs := [], far := [], wait := .none, stepping := false }) s1)
    failStream i status cons s2

/-- What an access of the walk leaves, with what follows a success. -/
def walkIo {α : Type} (i cons tc : Nat) (r : Io α) (k : α → State → State) : State :=
  match r with
  | .ok a s => k a s
  | .wait s => updStrm i (fun x => { x with wait := .remote }) s
  | .stop dva acc e s =>
    let w := streamWho s i tc
    if doesPark s w.owner e then
      updStrm i (fun x => { x with wait := .parked }) (parkOn w (.stream i) acc dva e s).1
    else abortWalk i (endStatus s w.owner e) cons (reportErr w acc dva e s)

/-! The jobs of the walk -/

/-- The first job is done. -/
def popJob (i : Nat) (s : State) : State := updStrm i (fun x => { x with jobs := x.jobs.drop 1, far := [] }) s

/-- The bytes of a victim's committed pages, in pieces by DVA (R268). -/
def swapPieces (s : State) (q : Seq) (d : StreamDesc) : List (Nat × List Byte) :=
  let ps := kvPageSize s
  q.pages.flatMap (fun p => chunks 4096 ps (d.kv + (p.page - (strm s q.stream).pageFirst) * ps) (zeros ps))

/-- A swap image's header region (R268). -/
def swapHeader (s : State) (q : Seq) (d : StreamDesc) : List Byte :=
  leBytes 2 1 ++ leBytes 1 (regFld s 0x2200000 4 0) ++ zeros 1 ++ leBytes 2 d.tpp ++ zeros 2 ++ leBytes 4 q.id ++
  leBytes 4 q.committed ++ leBytes 4 (pagesFor d.tpp q.committed) ++ leBytes 4 q.tokens ++ leBytes 8 s.dts ++ zeros 4064

/-- Steps 3 to 8 of R256: results, ends, evictions, admissions, pages and the next batch. -/
def applyBoundary (i : Nat) (d : StreamDesc) (real : Bool) (s : State) : State :=
  let x := strm s i
  let s1 := ((walkOrder s i).filter (·.reclaim)).foldl (fun t q => endSeq q 0x0591 0 t) s
  let s2 := if real then (x.batch.zip x.results).foldl (fun t p => applySlot p.1 p.2 d.tpp t) s1 else s1
  let e := evictList ((walkOrder s2 i).filter (·.victim)) s2
  let s3 := startQueued i d.tpp (List.range 8) e.1
  let b := buildIdle i d ((seqsOf s3 i).length + 1) s3
  let s4 := b.1
  let plans := b.2.1
  let changed := (plans.filter (fun p => !(x.batch.any (·.seqId == p.seqId)))).length +
    (x.batch.filter (fun p => !(plans.any (·.seqId == p.seqId)))).length
  let rebuilt := decide (plans.length < 4 * changed)
  let writes := if plans.isEmpty then [] else metaWrites s4 i (x.step + 1) d plans
  let jobs := writes ++ [StreamJob.finish real] ++ (e.2 ++ b.2.2).map StreamJob.swapOut
  let s5 := updStrm i (fun y => { y with
    jobs := jobs ++ y.jobs.drop 1, far := [], results := [], batch := if real then [] else y.batch
    next := if plans.isEmpty then none else some plans, again := false
    metaGen := if plans.isEmpty then y.metaGen else add32 y.metaGen 1
    stallAll := y.stallAll && allStalled s4 i
    patched := if real && !rebuilt then add32 y.patched 1 else y.patched
    rebuilt := if real && rebuilt then add32 y.rebuilt 1 else y.rebuilt }) s4
  if real then forecast (updGov i (fun g => { g with plan := some (planSteps s5 i d plans) }) s5) else s5

/-- PAUSE and STOP take effect, and their packets complete (R245, R272). -/
def settleCtl (i : Nat) (s : State) : State :=
  let x := strm s i
  if x.ctl.isEmpty || x.stepping then s
  else
    let s1 := updStrm i (fun y => { y with
      ctl := [], st := if y.st == .failed then .failed else ((x.ctl.getLast?).map (·.2)).getD y.st }) s
    x.ctl.foldl (fun t c => finishPkt c.1 0 x.step 0 t) s1

/-- Step 9 of R256. -/
def finishBoundary (i cons : Nat) (real : Bool) (s : State) : State :=
  let x := strm s i
  let s1 := if real || !x.lines.isEmpty || !x.events.isEmpty then flushBoundary i cons s else s
  settleCtl i (popJob i s1)

/-- A copied-in sequence goes on with its pending token (R267). -/
def swapInDone (i slot : Nat) (s : State) : State :=
  popJob i (updSeq slot (fun q => { q with swapIn := false, copying := false }) s)

/-- One job. -/
def runJob (i cons : Nat) (d : StreamDesc) (j : StreamJob) (s : State) : State :=
  let x := strm s i
  match j with
  | .result k =>
    match x.batch[k]? with
    | none => popJob i s
    | some p =>
      if p.kind = 1 then popJob i (updStrm i (fun y => { y with results := y.results ++ [[]] }) s)
      else
        let a := (if x.step % 2 = 0 then d.result0 else d.result1) + 64 * k
        walkIo i cons 0 (engRead (.streamRead i) (streamWho s i 0) x.far a 64 s) (fun b t =>
          match readResult b p.ndraft with
          | none => failStep i 0x0303 cons t
          | some _ => popJob i (updStrm i (fun y => { y with results := y.results ++ [b] }) t))
  | .apply real => applyBoundary i d real s
  | .write dva bytes =>
    walkIo i cons 0 (engWrite (.streamWrite i) (streamWho s i 0) dva bytes s) (fun _ t => popJob i t)
  | .finish real => finishBoundary i cons real s
  | .swapOut slot =>
    match s.sqe.seqs.find? (·.slot == slot) with
    | none => popJob i s
    | some q =>
      walkIo i cons 2 (readPieces (.streamRead i) (streamWho s i 2) x.far (swapPieces s q d) s) (fun b t =>
        popJob i (hostWrite x.owner (q.swap + 4096) b false (hostWrite x.owner q.swap (swapHeader t q d) false t)))
  | .swapIn slot => swapInDone i slot s

/-- Runs the walk until it ends, parks or waits (R272). -/
def runJobs (i cons : Nat) : Nat → State → State
  | 0, s => s
  | fuel + 1, s =>
    let x := strm s i
    match x.desc, x.jobs with
    | some d, j :: _ => if x.wait == .none then runJobs i cons fuel (runJob i cons d j s) else s
    | _, _ => s

/-- More jobs than any boundary makes. -/
abbrev jobFuel : Nat := 1048576

/-- RESUME of a parked stream (R272). -/
def resumeStream (i : Nat) (abort : Bool) (status cons : Nat) (s : State) : State :=
  if (strm s i).wait != .parked then s
  else
    let s1 := updStrm i (fun x => { x with wait := .none }) s
    if abort then settleCtl i (abortWalk i status cons s1) else runJobs i cons jobFuel s1

/-- A remote answer for a stream's walk: the bytes of a read at a DVA, or a write's end (R234). -/
def answerStream (i dva : Nat) (read : Bool) (status : Nat) (bytes : List Byte) (cons : Nat) (s : State) : State :=
  let x := strm s i
  if status ≠ 0 then
    settleCtl i (abortWalk i status cons (updStrm i (fun y => { y with wait := .none }) s))
  else if read then
    let s1 := updStrm i (fun y => { y with far := y.far ++ [(dva, bytes)], wait := if x.wait == .parked then .parked else .none }) s
    runJobs i cons jobFuel s1
  else s

/-! Steps (R253, R256, R257) -/

/-- A program's packet as a step runs it: ARG and CLUSTERS filled in (R253). -/
def stepPacket (b : List Byte) (arg clusters : Nat) : List Byte :=
  if getLe b 0 1 = 0x20 then putBytes (putBytes b 24 (leBytes 8 arg)) 48 (leBytes 16 clusters) else b

/-- Starts the step's packets in order, as a BULK ring would (R192, R253). -/
def startPackets (i : Nat) : Nat → State → State
  | 0, s => s
  | fuel + 1, s =>
    let x := strm s i
    match x.left with
    | [] => s
    | b :: rest =>
      let fl := inflightOf s (1024 + i)
      if fl.any (fun q => blocking q.opcode) || decide (64 ≤ fl.length) then s
      else
        let op := getLe b 0 1
        let q : Inflight :=
          { id := s.hif.nextId, ring := 1024 + i, owner := x.owner, local_ := 0, opcode := op, tag := getLe b 4 4
            flags := getLe b 1 1, signal := false, logged := false, started := s.dts, bytes := b, muted := false
            pendD := false, pendH := false, wait := if op = 1 then .fence else .engine, lastHost := none, lastWord := 0 }
        let s1 := updHif (fun h => { h with started := h.started ++ [q], nextId := h.nextId + 1 })
          (updStrm i (fun y => { y with left := rest }) s)
        let s2 := if op = 1 then (if earlierOpen s1 q then s1 else finishPkt q.id 0 0 0 s1) else doLaunch q s1
        startPackets i fuel s2

/-- STEP_PACKET_COMPLETE: the stream takes one ended packet's status (R253). -/
def stepPacketComplete (i cons : Nat) (s : State) : State :=
  let x := strm s i
  match x.dones with
  | [] => s
  | st :: rest =>
    let bad := st / 256 != 0
    let s1 := updStrm i (fun y => { y with dones := rest, left := if bad then [] else y.left }) s
    let s2 := if bad && x.failed.isNone && x.stepping then
        failStep i st cons (updStrm i (fun y => { y with failed := some st }) s1)
      else s1
    let s3 := startPackets i 4096 s2
    let y := strm s3 i
    if y.left.isEmpty && y.dones.isEmpty && (inflightOf s3 (1024 + i)).isEmpty then
      if y.failed.isSome then settleCtl i (updStrm i (fun z => { z with stepping := false, failed := none }) s3)
      else updStrm i (fun z => { z with ended := true }) s3
    else s3

/-- STEP_BOUNDARY: the last packet has completed, and the walk of R256 begins; `uj` is the package energy since the
fire (R347). -/
def stepBoundary (i cons uj : Nat) (s : State) : State :=
  let x := strm s i
  if !x.stepping || !x.ended then s
  else
    let s1 := govBoundary i uj (updStrm i (fun y => { y with
      stepping := false, ended := false
      jobs := y.jobs ++ (List.range y.batch.length).map StreamJob.result ++ [.apply true] }) s)
    runJobs i cons jobFuel s1

/-- Streams other than i whose step runs. -/
def otherSteps (s : State) (i : Nat) : List Nat := (List.range 8).filter (fun j => j != i && (strm s j).stepping)

/-- Fires the prepared batch (R253, R256, R275). -/
def fireStep (i : Nat) (d : StreamDesc) (b : List SlotPlan) (s : State) : State :=
  let x := strm s i
  let n := if x.again then x.step else x.step + 1
  let packets := ((Tbl.get none s.sqe.programs d.program).map (·.packets)).getD []
  let arg := if n % 2 = 0 then d.meta0 else d.meta1
  let s1 := updStrm i (fun y => { y with
    step := n, stepping := true, batch := b, next := none, again := false, gateWait := false, ended := packets.isEmpty
    failed := none, dones := [], left := packets.map (fun q => stepPacket q arg y.clusters) }) s
  let s2 := govFire i (otherSteps s i) (if d.pace then passGate i s1 else s1)
  startPackets i 4096 s2

/-- STEP_FIRE: an idle stream first builds a batch (R245, R256). -/
def stepFire (i cons : Nat) (s : State) : State :=
  let x := strm s i
  match x.desc with
  | none => s
  | some d =>
    if x.st != .running || x.stepping || !x.jobs.isEmpty || x.wait != .none || !x.ctl.isEmpty ||
        !(inflightOf s (1024 + i)).isEmpty || awaits s (· == .streamWrite i) then s
    else
      let s1 := if x.next.isNone then
          runJobs i cons jobFuel (updStrm i (fun y => { y with jobs := [.apply false] }) s)
        else s
      let y := strm s1 i
      match y.next with
      | none => s1
      | some b =>
        if y.st != .running || !y.jobs.isEmpty || y.wait != .none || awaits s1 (· == .streamWrite i) then s1
        else if d.pace && !(gateReady s1 i) then
          if y.gateWait then s1 else putStatus i (updStrm i (fun z => { z with gateWait := true }) s1)
        else fireStep i d b s1

/-! Step programs (R253) -/

/-- The 64-byte packets of a chain. -/
def chainPackets (b : List Byte) : List (List Byte) := (List.range (b.length / 64)).map (fun i => slice b (64 * i) 64)

/-- R253 cause 1. -/
def badKind (b : List Byte) : Bool := (getLe b 0 1 != 0x20 && getLe b 0 1 != 0x01) || getLe b 2 1 != 1

/-- R253 cause 2. -/
def badLaunch (b : List Byte) : Bool :=
  getLe b 0 1 == 0x20 && (getLe b 24 8 != 0 || getLe b 48 16 != 0 || getLe b 8 8 != 0 || launchReserved b)

/-- R253 cause 3. -/
def sameTags (l : List (List Byte)) : Bool :=
  let tags := (l.filter (fun b => getLe b 0 1 == 0x20)).map (fun b => getLe b 4 4)
  tags.eraseDups.length != tags.length

/-- Packets in the program store, without one program. -/
def storedPackets (s : State) (but : Nat) : Nat :=
  sumOf (fun (p : Nat × Option StepProgram) =>
    if p.1 = but then 0 else ((p.2.map (·.packets.length)).getD 0)) s.sqe.programs

/-- R253 cause 5. -/
def programBusy (s : State) (o n : Nat) : Bool :=
  (match Tbl.get none s.sqe.programs n with
    | some g => g.owner != o
    | none => false) ||
  (List.range 8).any (fun i => (strm s i).st == .running && ((strm s i).desc.map (·.program)) == some n)

/-- The cause that refuses a registration, 0 for none (R253). -/
def programCause (s : State) (o n : Nat) (l : List (List Byte)) : Nat :=
  if l.any badKind then 1
  else if l.any badLaunch then 2
  else if sameTags l then 3
  else if 4096 < storedPackets s n + l.length then 4
  else if programBusy s o n then 5
  else 0

/-- STEP_PROGRAM_REG (R253, R276). -/
def doStepProgram (p : Inflight) (s : State) : State :=
  let n := p.fld 16 2
  let cnt := p.fld 18 2
  let fl := p.fld 20 1
  if 255 < n ∨ 1 < fl then finishPkt p.id 0x0303 0 0 s
  else if fl = 1 then
    if programBusy s p.owner n then finishPkt p.id 0x0390 0 5 s
    else finishPkt p.id 0 0 0 (updSqe (fun e => { e with programs := Tbl.set none e.programs n none }) s)
  else if cnt = 0 ∨ 256 < cnt ∨ p.fld 24 8 % 64 ≠ 0 then finishPkt p.id 0x0303 0 0 s
  else
    pktRead p (p.fld 24 8) (64 * cnt) s (fun b t =>
      let l := chainPackets b
      let c := programCause t p.owner n l
      if c ≠ 0 then finishPkt p.id 0x0390 0 c t
      else
        let g : StepProgram := { owner := p.owner, packets := l, eStep := p.fld 32 4, eToken := p.fld 36 4
                                 eSlot := p.fld 40 4, reg := t.sqe.nextReg }
        finishPkt p.id 0 0 0 (updSqe (fun e => { e with
          programs := Tbl.set none e.programs n (some g), nextReg := e.nextReg + 1 }) t))

/-! Submission (R263, R266, R267) -/

/-- Static reserved values of a SEQ_SUBMIT (R267, R276). -/
def submitReserved (p : Inflight) (s : State) : Bool :=
  let ch := seqChan s (p.fld 16 1)
  let foreign := match ch.stream with
    | none => true
    | some i => (strm s i).st != .unbound && (strm s i).owner != p.owner
  let q := p.fld 18 1
  let draft := p.fld 19 1
  !ch.enable || foreign || (decide (8 ≤ p.fld 17 1) && p.fld 17 1 != 0xFF) || decide (8 ≤ q) || fld q 2 1 == 3 ||
  decide (14 < draft) || (!(bitOf q 0) && draft != 0) || p.fld 36 4 == 0 ||
  decide (p.fld 32 4 < p.fld 20 4 + p.fld 36 4)

/-- PROMPT against the journal's header (R267). -/
def promptMatches (restore prompt : Nat) (hdr : List Byte) : Bool :=
  if restore = 0 then getLe hdr 12 4 == prompt else getLe hdr 16 4 == prompt

/-- A swap image's header matches the stream and the journal (R268). -/
def swapMatches (s : State) (d : StreamDesc) (hdr img : List Byte) : Bool :=
  getLe img 0 2 == 1 && getLe img 2 1 == regFld s 0x2200000 4 0 && getLe img 3 1 == 0 && getLe img 4 2 == d.tpp &&
  getLe img 6 2 == 0 && getLe img 20 4 == getLe hdr 16 4 && getLe img 16 4 == pagesFor d.tpp (getLe img 12 4) &&
  allZero (slice img 32 4064)

/-- The lowest slot no live sequence holds. -/
def freeSlot (s : State) : Nat :=
  ((List.range 65536).find? (fun k => !(s.sqe.seqs.any (·.slot == k)))).getD 65536

/-- The sequence a submission makes (R243, R267). -/
def newSeq (p : Inflight) (s : State) (i cls : Nat) (hdr : List Byte) (pend k : Nat) : Seq :=
  let q := p.fld 18 1
  let restore := fld q 2 1
  let prompt := getLe hdr 12 4
  let toks := getLe hdr 16 4
  let replay := restore == 2 && decide (prompt < toks)
  let slot := freeSlot s
  { slot, gen := (Tbl.get 0 s.sqe.gens slot + 1) % 65536, stream := i, channel := p.fld 16 1, cls, user := p.fld 52 4
    st := .queued, arrival := p.started, order := s.sqe.nextOrder, spec := bitOf q 0, draftMax := p.fld 19 1
    restore, fillTo := if restore = 1 then 0 else if replay then toks - 1 else prompt
    sample := !(replay || restore == 1), journal := p.fld 24 8, journalCap := p.fld 32 4, prompt, maxNew := p.fld 36 4
    swap := p.fld 40 8, swapBytes := p.fld 48 4, tokens := if restore = 0 then prompt else toks
    committed := if restore = 1 then k else 0, pendingTok := if replay || restore == 1 then some pend else none
    hidden := 0, drafts := [], have_ := [], reading := none, bti := none, pages := [], need := 0, reclaim := false
    victim := false, copying := false, swapIn := restore == 1, queuedStep := (strm s i).step, jgen := getLe hdr 0 4 }

/-- The sequence takes its slot, and its journal's header names it (R243, R266). -/
def takeSlot (q : Seq) (s : State) : State :=
  let g := add32 q.jgen 1
  putLines (strm s q.stream).owner (headerLines q s.dts g 0)
    (updSqe (fun e => { e with
      seqs := e.seqs ++ [{ q with jgen := g }], gens := Tbl.set 0 e.gens q.slot q.gen, nextOrder := e.nextOrder + 1 }) s)

/-- The admission outcome (R263). -/
def takeIn (p : Inflight) (i cls : Nat) (d : StreamDesc) (q : Seq) (s : State) : State :=
  let x := strm s i
  let c := seqClass s i cls
  let need := firstNeed d.tpp q
  let ceiling := x.pageCount - sumOf (fun k => (seqClass s i k).res) (List.range cls)
  let owned := (s.sqe.seqs.filter (fun y => (strm s y.stream).owner == x.owner)).length
  if x.st != .paused && x.st != .running then finishPkt p.id 0x0294 0 0 s
  else if !c.enabled then finishPkt p.id 0x0292 0 0 s
  else if regFld s (0x2200100 + 4 * x.owner) 16 0 ≤ owned then finishPkt p.id 0x0293 0 0 s
  else if s.sqe.seqs.length = 65536 then finishPkt p.id 0x0295 0 0 s
  else if ceiling < need then finishPkt p.id 0x0290 0 0 s
  else
    let queued := queuedIn s i cls
    match (if queued = 0 then canStartSeq i cls need s else none) with
    | some t => finishPkt p.id 0 q.id 0 (startSeq q.slot need (takeSlot q t))
    | none =>
      if c.qmax ≤ queued then finishPkt p.id 0x0291 0 0 s
      else finishPkt p.id 0x0190 q.id (queued + 1) (takeSlot q s)

/-- SEQ_SUBMIT, with what its host reads give: the journal's header, the token at TOKENS − 1, and the swap image's
header region; none is a host error (R263, R266–R268). -/
def doSeqSubmit (hdr : Option (List Byte)) (pend : Nat) (img : Option (List Byte)) (p : Inflight) (s : State) : State :=
  if submitReserved p s then finishPkt p.id 0x0303 0 0 s
  else
    let ch := seqChan s (p.fld 16 1)
    let i := ch.stream.getD 0
    match (strm s i).desc with
    | none => finishPkt p.id 0x0294 0 0 s
    | some d =>
      let restore := fld (p.fld 18 1) 2 1
      let a := p.fld 24 8
      if d.maxBlocks < pagesFor d.tpp (p.fld 20 4 + p.fld 36 4 + p.fld 19 1) then finishPkt p.id 0x0303 0 0 s
      else
        let s1 := emit (.hostRead p.owner a 64) s
        match hdr with
        | none => finishPkt p.id 0x0461 0 0 (markLogged p.id (hostError 1 p.owner a 4 p.tag s1))
        | some h =>
          if !(promptMatches restore (p.fld 20 4) h) then finishPkt p.id 0x0303 0 0 s1
          else
            let cls := if p.fld 17 1 = 0xFF then ch.defClass else p.fld 17 1
            let s2 := if restore = 0 then s1 else emit (.hostRead p.owner (a + 64 + 4 * (getLe h 16 4 - 1)) 4) s1
            if restore ≠ 1 then takeIn p i cls d (newSeq p s2 i cls h pend 0) s2
            else if p.fld 40 8 = 0 then finishPkt p.id 0x0391 0 0 s2
            else
              let s3 := emit (.hostRead p.owner (p.fld 40 8) 4096) s2
              match img with
              | none => finishPkt p.id 0x0461 0 0 (markLogged p.id (hostError 1 p.owner (p.fld 40 8) 4 p.tag s3))
              | some m =>
                if swapMatches s3 d h m then takeIn p i cls d (newSeq p s3 i cls h pend (getLe m 12 4)) s3
                else finishPkt p.id 0x0391 0 0 s3

/-- JOURNAL_READ_DONE: prompt tokens arrive, or the journal fails (R257, R272). -/
def journalReadDone (id : Nat) (toks : Option (List Nat)) (cons : Nat) (s : State) : State :=
  match findSeq s id with
  | none => s
  | some q =>
    match q.reading with
    | none => s
    | some r =>
      let s1 := updSeq q.slot (fun x => { x with reading := none }) s
      match toks with
      | some l => updSeq q.slot (fun x => { x with
          have_ := if q.committed + q.have_.length = r.first then x.have_ ++ l.take r.count else x.have_ }) s1
      | none =>
        failStream q.stream 0x0461 cons (hostError 1 (strm s q.stream).owner (q.journal + 64 + 4 * r.first) 4 0 s1)

/-! Cancellation and queries (R262, R276) -/

/-- A packet of the stream's owner or owner 0. -/
def mayControl (s : State) (o i : Nat) : Bool := o == 0 || ((strm s i).st != .unbound && (strm s i).owner == o)

/-- The step at whose boundary a cancellation acts, 0 if none is running or built (R276). -/
def actingStep (x : Stream) : Nat :=
  if x.stepping || (readingResults x) then x.step
  else if x.next.isSome || !x.jobs.isEmpty then (if x.again then x.step else x.step + 1)
  else 0

/-- SEQ_CANCEL (R262). -/
def doSeqCancel (cons : Nat) (p : Inflight) (s : State) : State :=
  match findSeq s (p.fld 16 4) with
  | none => finishPkt p.id 0x0296 0 0 s
  | some q =>
    let i := q.stream
    if !(mayControl s p.owner i) then finishPkt p.id 0x0303 0 0 s
    else
      let reclaim := (seqChan s q.channel).reclaim
      let n := actingStep (strm s i)
      let fin (t : State) (step : Nat) : State := finishPkt p.id 0 step q.st.code t
      match q.st with
      | .queued => fin (flushBoundary i cons (endSeq q (if reclaim then 0x0591 else 0x0590) 0 s)) 0
      | .running | .stalled =>
        if !reclaim then fin (updSeq q.slot (fun x => { x with st := .draining }) s) n
        else if n = 0 then fin (flushBoundary i cons (endSeq q 0x0591 0 s)) 0
        else fin (updSeq q.slot (fun x => { x with reclaim := true }) s) n
      | .draining | .ending => fin s 0

/-- SEQ_QUERY (R276). -/
def doSeqQuery (p : Inflight) (s : State) : State :=
  match findSeq s (p.fld 16 4) with
  | none => finishPkt p.id 0x0296 0 0 s
  | some q =>
    if !(mayControl s p.owner q.stream) then finishPkt p.id 0x0303 0 0 s
    else
      let pos := if q.st == .queued then
          (((walkOrder s q.stream).filter (fun x => x.st == .queued && x.cls == q.cls)).map (·.slot)).idxOf q.slot + 1
        else 0
      finishPkt p.id 0 (q.tokens + q.st.code * 2 ^ 32 + q.cls * 2 ^ 40 + pos % 65536 * 2 ^ 48) q.pages.length s

/-! Streams (R245–R248) -/

/-- Every live sequence of a stream ends, and the stream returns to UNBOUND (R246, R273). -/
def unbindStream (i status cons : Nat) (s : State) : State :=
  let o := (strm s i).owner
  let s1 := (walkOrder s i).foldl (fun t q => endSeq q status 0 t) s
  let s2 := flushBoundary i cons s1
  let s3 := ((strm s2 i).ctl).foldl (fun t c => finishPkt c.1 status 0 0 t) s2
  let isIt (a : ParkAgent) : Bool := a == .stream i
  let s4 := updOwner o (fun w => { w with parks := w.parks.filter (fun k => !(isIt k.agent)) }) s3
  let s5 := updHif (fun h => { h with started := updWhere (·.ring == 1024 + i) (fun q => { q with muted := true }) h.started }) s4
  updGov i (fun _ => {}) (updStrm i (fun _ => {}) s5)

/-- Two page runs overlap. -/
def runsOverlap (a n b m : Nat) : Bool := decide (a < b + m) && decide (b < a + n)

/-- STREAM_BIND (R246). -/
def doStreamBind (cons : Nat) (p : Inflight) (s : State) : State :=
  let i := p.fld 16 1
  let o := p.fld 17 1
  let fl := p.fld 18 1
  let first := p.fld 20 4
  let cnt := p.fld 24 4
  if 8 ≤ i ∨ 1 < fl then finishPkt p.id 0x0303 0 0 s
  else if fl = 1 then
    if (strm s i).st == .running then finishPkt p.id 0x0303 0 0 s
    else finishPkt p.id 0 0 0 (unbindStream i 0x0591 cons s)
  else if o = 0 ∨ 63 < o ∨ cnt = 0 ∨ p.fld 48 16 = 0 ∨ 2 ^ 22 < first + cnt ∨ (strm s i).st != .unbound ∨
      !(regBit s 0x2200000 31) ∨
      (List.range 8).any (fun j => (strm s j).st != .unbound &&
        runsOverlap first cnt (strm s j).pageFirst (strm s j).pageCount) then finishPkt p.id 0x0303 0 0 s
  else if !(ownerActive s o) then finishPkt p.id 0x0225 0 0 s
  else
    finishPkt p.id 0 0 0 (updStrm i (fun _ =>
      { st := .paused, owner := o, clusters := p.fld 48 16, pageFirst := first, pageCount := cnt }) s)

/-- A stream descriptor's fields (R247). -/
def parseStream (b : List Byte) : StreamDesc :=
  { program := getLe b 2 2, maxTokens := getLe b 4 4, c0Tokens := getLe b 8 4, maxSlots := getLe b 12 2
    c0Slots := getLe b 14 2, chunk := getLe b 16 4, tpp := getLe b 20 2, maxBlocks := getLe b 22 2
    seqLimit := getLe b 24 4, pace := bitOf (getLe b 28 4) 0, kv := getLe b 32 8, bt := getLe b 40 8
    meta0 := getLe b 48 8, meta1 := getLe b 56 8, result0 := getLe b 64 8, result1 := getLe b 72 8
    evBase := getLe b 80 8, evCons := getLe b 88 8, status := getLe b 96 8, evLog2 := getLe b 104 1
    vector := getLe b 106 2 }

/-- A value lies in a range. -/
def inR (lo hi v : Nat) : Bool := decide (lo ≤ v) && decide (v ≤ hi)

/-- The descriptor's own checks (R247). -/
def descOk (s : State) (i : Nat) (b : List Byte) (d : StreamDesc) : Bool :=
  let owned := match Tbl.get none s.sqe.programs d.program with
    | some g => g.owner == (strm s i).owner
    | none => false
  getLe b 0 2 == 1 && owned && inR 1 65536 d.maxTokens && decide (d.c0Tokens ≤ d.maxTokens) && inR 1 1024 d.maxSlots &&
  decide (d.c0Slots ≤ d.maxSlots) && inR 1 65536 d.chunk && inR 1 4096 d.tpp && inR 1 65535 d.maxBlocks &&
  inR 1 65536 d.seqLimit && decide (getLe b 28 4 < 2) && d.kv % kvPageSize s == 0 && d.bt % 4096 == 0 &&
  d.meta0 % 64 == 0 && d.meta1 % 64 == 0 && d.result0 % 64 == 0 && d.result1 % 64 == 0 && d.evBase % 4096 == 0 &&
  d.evCons % 8 == 0 && d.status % 256 == 0 && inR 6 16 d.evLog2 && getLe b 105 1 == 0 && allZero (slice b 108 20)

/-- Fields that stay while sequences live (R247). -/
def descFixed (d e : StreamDesc) : Bool :=
  d == { e with
    program := d.program, maxTokens := d.maxTokens, c0Tokens := d.c0Tokens, maxSlots := d.maxSlots
    c0Slots := d.c0Slots, chunk := d.chunk, pace := d.pace, vector := d.vector }

/-- STREAM_CONFIG (R247). -/
def doStreamConfig (p : Inflight) (s : State) : State :=
  let i := p.fld 16 1
  if 8 ≤ i ∨ p.fld 24 8 % 64 ≠ 0 then finishPkt p.id 0x0303 0 0 s
  else if (strm s i).st == .unbound || (strm s i).owner != p.owner then finishPkt p.id 0x0303 0 0 s
  else
    pktRead p (p.fld 24 8) 128 s (fun b t =>
      let d := parseStream b
      let fixed := match (strm t i).desc with
        | some e => (seqsOf t i).isEmpty || descFixed d e
        | none => true
      if descOk t i b d && fixed then finishPkt p.id 0 0 0 (updStrm i (fun x => { x with desc := some d }) t)
      else finishPkt p.id 0x0303 0 0 t)

/-- STREAM_CTRL's OP 1 (R245, R276). -/
def doStreamStart (p : Inflight) (s : State) : State :=
  let i := p.fld 16 1
  if 8 ≤ i ∨ !(mayControl s p.owner i) then finishPkt p.id 0x0303 0 0 s
  else
    let x := strm s i
    if x.st == .unbound || x.desc.isNone then finishPkt p.id 0x0294 0 0 s
    else finishPkt p.id 0 x.step 0 (if x.st == .running then s else updStrm i (fun y => { y with st := .running }) s)

/-- STREAM_CTRL's OP 2 and 3 (R245, R272). -/
def doStreamHalt (dest : StreamState) (p : Inflight) (s : State) : State :=
  let i := p.fld 16 1
  if 8 ≤ i ∨ !(mayControl s p.owner i) then finishPkt p.id 0x0303 0 0 s
  else
    let x := strm s i
    if x.st == .unbound then finishPkt p.id 0x0294 0 0 s
    else if x.stepping || !x.jobs.isEmpty then updStrm i (fun y => { y with ctl := y.ctl ++ [(p.id, dest)] }) s
    else finishPkt p.id 0 x.step 0 (if x.st == .failed then s else updStrm i (fun y => { y with st := dest }) s)

/-- CHANNEL_CONFIG (R251, R276). -/
def doChannelConfig (p : Inflight) (s : State) : State :=
  let c := p.fld 16 1
  let i := p.fld 17 1
  let fl := p.fld 18 1
  let old := (seqChan s c).stream
  let mine (j : Nat) : Bool := (strm s j).st != .unbound && (strm s j).owner == p.owner
  let oldOk := match old with
    | none => true
    | some j => mine j
  if (8 ≤ i ∧ i ≠ 0xFF) ∨ 16 ≤ fl ∨ 8 ≤ p.fld 19 1 ∨ 4 < p.fld 36 1 ∨
      (p.owner ≠ 0 ∧ !(oldOk && (i == 0xFF || mine i))) then finishPkt p.id 0x0303 0 0 s
  else
    let ch : SeqChannel :=
      { stream := if i = 0xFF then none else some i, enable := bitOf fl 0, reclaim := bitOf fl 1, evictable := bitOf fl 2
        drop := bitOf fl 3, defClass := p.fld 19 1
        stops := (List.range (p.fld 36 1)).map (fun j => p.fld (20 + 4 * j) 4) }
    finishPkt p.id 0 0 0 (updSqe (fun e => { e with channels := Tbl.set {} e.channels c ch }) s)

/-- CLASS_CONFIG (R250, R276). -/
def doClassConfig (p : Inflight) (s : State) : State :=
  let i := p.fld 16 1
  let c := p.fld 17 1
  let res := p.fld 24 4
  let sum := sumOf (fun k => if k = c then res else (seqClass s i k).res) (List.range 8)
  if 8 ≤ i ∨ 8 ≤ c ∨ 2 ≤ p.fld 18 1 ∨ 65536 < p.fld 20 4 ∨ (strm s i).st == .unbound ∨ (strm s i).owner ≠ p.owner ∨
      (strm s i).pageCount < sum then finishPkt p.id 0x0303 0 0 s
  else
    let k : SeqClass := { enabled := p.fld 18 1 == 1, qmax := p.fld 20 4, res }
    finishPkt p.id 0 0 0 (updStrm i (fun x => { x with classes := Tbl.set {} x.classes c k }) s)

/-! Swap copies (R265, R267) -/

/-- SWAP_COPY_DONE: a victim's image is written, or its copy met a host error (R265). -/
def swapCopyDone (id : Nat) (ok : Bool) (cons : Nat) (s : State) : State :=
  match findSeq s id with
  | none => s
  | some q =>
    if q.st != .ending || !q.copying || (strm s q.stream).jobs.any (fun j => j == .swapOut q.slot) then s
    else if ok then flushBoundary q.stream cons (endSeq q 0x0690 q.pages.length s)
    else
      flushBoundary q.stream cons (endSeq q 0x0691 0 (hostError 1 (strm s q.stream).owner q.swap 4 0 s))

/-- SWAP_IN_COPY_DONE: the image's pages arrive and are written to their pool pages, or the copy met a host error. -/
def swapInCopyDone (id : Nat) (data : Option (List Byte)) (cons : Nat) (s : State) : State :=
  match findSeq s id with
  | none => s
  | some q =>
    let i := q.stream
    match (strm s i).desc with
    | none => s
    | some d =>
      if !q.swapIn || q.need != 0 || q.copying || q.st == .queued then s
      else
        match data with
        | none => flushBoundary i cons (endSeq q 0x0691 0 (hostError 1 (strm s i).owner q.swap 4 0 s))
        | some b =>
          let ps := kvPageSize s
          let n := pagesFor d.tpp q.committed
          let w := ((q.pages.take n).mapIdx (fun j p =>
            StreamJob.write (d.kv + (p.page - (strm s i).pageFirst) * ps) (slice b (j * ps) ps)))
          let s1 := updSeq q.slot (fun x => { x with
            copying := true, pages := x.pages.mapIdx (fun j p => if j < n then { p with prov := false } else p) }) s
          runJobs i cons jobFuel (updStrm i (fun x => { x with jobs := x.jobs ++ w ++ [.swapIn q.slot] }) s1)

/-- OWNER_DESTROY: the owner's streams end (R273); `cons` gives EV_CONS by stream. -/
def streamsGone (o : Nat) (cons : List Nat) (s : State) : State :=
  (List.range 8).foldl (fun t i =>
    if (strm t i).st != .unbound && (strm t i).owner == o then unbindStream i 0x0801 (cons.getD i 0) t else t) s

end Sys2Proof.Machine
end

