-- ==== Sys2Proof/Machine/FpOps.lean ====
section
/-! DEFINITION. FP32 arithmetic under round-to-nearest-even for the Sweep Engine, and the sine and cosine of a binary
angle (R290, R291). -/

namespace Sys2Proof.Machine

/-- A value rounded once to FP32. -/
def f32 (x : Num) : Nat := (toFloat 0 false false x).1

/-- FP32 sum. -/
def fAdd (a b : Nat) : Nat := (addF32 false a b).1

/-- FP32 product. -/
def fMul (a b : Nat) : Nat := (mulF32 false a b).1

/-- The negated value. -/
def fNeg (a : Nat) : Nat := if bitOf a 31 then a - 2 ^ 31 else a + 2 ^ 31

/-- FP32 difference. -/
def fSub (a b : Nat) : Nat := fAdd a (fNeg b)

/-- Fused multiply-add `a × b + c`. -/
def fFma (a b c : Nat) : Nat :=
  f32 ((({} : Sum).addProd (decodeFloat 0 a) (decodeFloat 0 b) 0).addProd (decodeFloat 0 c) (.fin false 1 1 0) 0).value.1

/-- An integer rounded to FP32. -/
def fOfInt (i : Int) : Nat := f32 (Num.ofInt i)

/-- FP32 quotient. -/
def fDiv (a b : Nat) : Nat :=
  match decodeFloat 0 a, decodeFloat 0 b with
  | .fin s n d e, .fin t m c f =>
    if m = 0 then (if n = 0 then canonNan 0 else infBits 0 (s != t)) else f32 (.fin (s != t) (n * c) (d * m) (e - f))
  | .inf s, .fin t _ _ _ => infBits 0 (s != t)
  | .fin s _ _ _, .inf t => b2n (s != t) * 2 ^ 31
  | _, _ => canonNan 0

/-- The integer square root of `n`, from its bit `i − 1` down. -/
def isqrt (n : Nat) : Nat → Nat → Nat
  | 0, r => r
  | i + 1, r => if (r + 2 ^ i) * (r + 2 ^ i) ≤ n then isqrt n i (r + 2 ^ i) else isqrt n i r

/-- Correctly rounded FP32 square root. -/
def fSqrt (a : Nat) : Nat :=
  match decodeFloat 0 a with
  | .fin s n _ e =>
    if n = 0 then a
    else if s then canonNan 0
    else
      let odd := e % 2 != 0
      let m := (if odd then n * 2 else n) * 2 ^ 60
      let h := (if odd then e - 1 else e) / 2
      let r := isqrt m 50 0
      f32 (.fin false (2 * r + (if r * r = m then 0 else 1)) 1 (h - 31))
  | .inf false => infBits 0 false
  | _ => canonNan 0

/-- A finite FP32 value. -/
def isFinite (a : Nat) : Bool :=
  match decodeFloat 0 a with
  | .fin _ _ _ _ => true
  | _ => false

/-! Binary angles: fixed point with 128 fraction bits, far finer than FP32's nearest value needs -/

/-- π with 128 fraction bits. -/
def piFixed : Nat := 31415926535897932384626433832795028841971693993751058209749445923 * 2 ^ 128 / 10 ^ 64

/-- Terms of a sine or cosine series: each is the last × x² / (k (k + 1)), with alternating signs. -/
def series (x2 : Nat) : Nat → Nat → Nat → Int → Int
  | 0, _, _, acc => acc
  | fuel + 1, k, t, acc =>
    let t1 := t * x2 / 2 ^ 128 / (k * (k + 1))
    let t2 := t1 * x2 / 2 ^ 128 / ((k + 2) * (k + 3))
    series x2 fuel (k + 4) t2 (acc - (t1 : Int) + (t2 : Int))

/-- sin and cos of `r × π / 32,768` for r up to 8,192, in fixed point. -/
def sinCosLow (r : Nat) : Nat × Nat :=
  let x := piFixed * r / 32768
  let x2 := x * x / 2 ^ 128
  ((series x2 8 2 x (x : Int)).toNat, (series x2 8 1 (2 ^ 128) (2 ^ 128)).toNat)

/-- sin and cos of a first-quadrant binary angle. -/
def sinCosQuad (r : Nat) : Nat × Nat :=
  if r ≤ 8192 then sinCosLow r
  else
    let c := sinCosLow (16384 - r)
    (c.2, c.1)

/-- A fixed-point value rounded to FP32. -/
def ofFixed (neg : Bool) (v : Nat) : Nat := if v = 0 then 0 else f32 (.fin neg v 1 (-128))

/-- sinb (R291). -/
def sinb (az : Nat) : Nat :=
  let q := az % 65536 / 16384
  let p := sinCosQuad (az % 16384)
  ofFixed (decide (2 ≤ q)) (if q % 2 = 0 then p.1 else p.2)

/-- cosb (R291). -/
def cosb (az : Nat) : Nat := sinb (az + 16384)

/-! Vectors and rotations (R290, R291) -/

/-- Products summed left to right. -/
def fDot (a b : List Nat) : Nat :=
  match a.zip b with
  | [] => 0
  | p :: rest => rest.foldl (fun acc x => fAdd acc (fMul x.1 x.2)) (fMul p.1 p.2)

/-- Component-wise `fma(al, b − a, a)`. -/
def fLerp (al : Nat) (a b : List Nat) : List Nat := (a.zip b).map (fun p => fFma al (fSub p.2 p.1) p.1)

/-- FP32 2.0 and 1.0. -/
abbrev fTwo : Nat := 0x40000000
abbrev fOne : Nat := 0x3F800000

/-- `1 − 2 (p + q)`. -/
def diagTerm (p q : Nat) : Nat := fSub fOne (fMul fTwo (fAdd p q))

/-- The rotation of a unit quaternion W, X, Y, Z, row-major (R290). -/
def quatMat (q : List Nat) : List Nat :=
  let w := q.getD 0 0
  let x := q.getD 1 0
  let y := q.getD 2 0
  let z := q.getD 3 0
  let tw (a b : Nat) : Nat := fMul fTwo (fSub a b)
  let tp (a b : Nat) : Nat := fMul fTwo (fAdd a b)
  [ diagTerm (fMul y y) (fMul z z), tw (fMul x y) (fMul w z), tp (fMul x z) (fMul w y),
    tp (fMul x y) (fMul w z), diagTerm (fMul x x) (fMul z z), tw (fMul y z) (fMul w x),
    tw (fMul x z) (fMul w y), tp (fMul y z) (fMul w x), diagTerm (fMul x x) (fMul y y) ]

/-- `m × v + t`: each row a dot, then an add. -/
def affine (m v t : List Nat) : List Nat :=
  (List.range 3).map (fun i => fAdd (fDot ((m.drop (3 * i)).take 3) v) (t.getD i 0))

/-- The exact sum of squares differs from 1 by at most 2^−10 (R282). -/
def unitNorm (q : List Nat) : Bool :=
  let s := q.foldl (fun (a : Sum) v => a.addProd (decodeFloat 0 v) (decodeFloat 0 v) 0) {}
  match s.value.1 with
  | .fin _ n d e =>
    let p := foldPow n d e
    decide (((p.1 - p.2) + (p.2 - p.1)) * 1024 ≤ p.2)
  | _ => false

/-- A coordinate lies within ±524 m (R282). -/
def within524 (v : Nat) : Bool :=
  match decodeFloat 0 v with
  | .fin _ n d e =>
    let p := foldPow n d e
    decide (p.1 ≤ 524 * p.2)
  | _ => false

end Sys2Proof.Machine
end

