-- ==== Sys2Proof/Machine/SweOps.lean ====
section
/-! DEFINITION. The Sweep Engine: records, slices, poses, outputs and control (R278–R307). -/

namespace Sys2Proof.Machine

/-- Changes a channel. -/
def updSweep (c : Nat) (f : Sweep → Sweep) (s : State) : State :=
  { s with swe := { s.swe with chans := Tbl.upd {} s.swe.chans c f } }

/-- Changes a held revolution. -/
def updRev (c r : Nat) (f : Rev → Rev) (s : State) : State :=
  updSweep c (fun x => { x with revs := updWhere (·.rev == r) f x.revs }) s

/-- A held revolution. -/
def revAt (s : State) (c r : Nat) : Option Rev := (sweepAt s c).revs.find? (·.rev == r)

/-- Changes one slice. -/
def updSlice (c r i : Nat) (f : Slice → Slice) (s : State) : State :=
  updRev c r (fun v => { v with slices := v.slices.mapIdx (fun j x => if j = i then f x else x) }) s

/-- The channel as the author of accesses (R74, R279). -/
def sweepWho (s : State) (c : Nat) : Who :=
  { owner := (sweepAt s c).owner, agent := 5, index := c, source := 0x24, sourceIndex := c
    tc := ((sweepAt s c).desc.map (·.tc)).getD 0 }

/-- The signed difference of two revolution numbers (R286). -/
def revDiff (a b : Nat) : Int := toInt 32 (sub32 a b)

/-- L: the lower held revolution, or none (R286). -/
def lowRev (x : Sweep) : Option Nat := (x.revs.head?).map (·.rev)

/-- A revolution's phase cycle as the channel counts cycles (R283). -/
def cycleOf (s : State) (d : SweepDesc) (off r : Nat) : Nat :=
  let now := (phaseCh s d.phase).cycle
  ((now : Int) + toInt 32 (sub32 (add32 r off) (now % 2 ^ 32))).toNat

/-- The start and period of a cycle: latched, or predicted from the present model (R289). -/
def cycleStart (s : State) (c cyc : Nat) : Nat × Nat :=
  let ch := phaseCh s c
  (if ch.cycle ≤ cyc then ch.start + (cyc - ch.cycle) * ch.period else ch.start - (ch.cycle - cyc) * ch.period, ch.period)

/-- The width of a slice in counts (R285). -/
def SweepDesc.width (d : SweepDesc) : Nat := 65536 / d.slices

/-- The phase at which a slice closes (R285). -/
def closePhase (d : SweepDesc) (v : Rev) (i : Nat) : Nat := v.cycle * 65536 + (i + 1) * d.width + d.lag

/-! Done records (R302) -/

/-- A done record without its FLAGS byte. -/
def doneRec (now rev status c kind kept dropped used buf : Nat) : List Byte :=
  leBytes 8 now ++ leBytes 4 rev ++ leBytes 2 status ++ leBytes 1 c ++ leBytes 1 kind ++ leBytes 4 kept ++
  leBytes 4 dropped ++ leBytes 4 used ++ leBytes 1 buf ++ zeros 2

/-- Writes one done record, or counts it lost; `cons` is what a re-read of DONE_CONS gives (R302). -/
def putDone (c cons : Nat) (rec_ : List Byte) (s : State) : State :=
  let x := sweepAt s c
  match x.desc with
  | none => s
  | some d =>
    let size := 2 ^ d.doneLog2
    let full (k : Nat) : Bool := decide (size ≤ sub32 x.doneProd k)
    let k := if full x.doneCons then cons else x.doneCons
    let s0 := if full x.doneCons then emit (.hostRead x.owner d.doneCons 4) s else s
    if full k then
      bumpFld (0x2401018 + c * 0x100) 31 0 (updSweep c (fun y => { y with doneCons := k }) s0)
    else
      let s1 := hostWrite x.owner (d.doneBase + x.doneProd % size * 32)
        (rec_ ++ leBytes 1 (if x.doneProd / size % 2 = 0 then 128 else 0)) false s0
      sendVec x.owner d.vector (updSweep c (fun y => { y with doneCons := k, doneProd := add32 y.doneProd 1 }) s1)

/-! Slices closing (R285, R286, R289, R292, R304) -/

/-- Closes one open slice. -/
def closeSlice (c r i : Nat) (forced : Bool) (s : State) : State :=
  let hold := match (sweepAt s c).desc with
    | some d => (phaseCh s d.phase).st == .holdover
    | none => false
  updRev c r (fun v => { v with
    holdover := v.holdover || hold
    slices := v.slices.mapIdx (fun j x => if j = i ∧ x.closed.isNone then { x with closed := some s.dts, forced } else x) }) s

/-- Closes every open slice of a revolution at once, marked FORCED. -/
def forceRev (c r : Nat) (s : State) : State :=
  match revAt s c r with
  | none => s
  | some v =>
    let any := v.slices.any (·.closed.isNone)
    let s1 := (List.range v.slices.length).foldl (fun t i => closeSlice c r i true t) s
    if any then updRev c r (fun w => { w with forced := true }) s1 else s1

/-- Closes every open slice of a channel. -/
def forceAll (c : Nat) (s : State) : State := (sweepAt s c).revs.foldl (fun t v => forceRev c v.rev t) s

/-- The pose time of a slice (R289). -/
def poseTime (d : SweepDesc) (v : Rev) (i : Nat) : Nat :=
  v.start + (i * d.width + d.width / 2) * v.period / 65536

/-- The held poses around an instant (R290). -/
def posePair (gapNs t : Nat) : List Pose → Option (Pose × Option Pose)
  | [] => none
  | [a] => if a.dts = t then some (a, none) else none
  | a :: b :: rest =>
    if a.dts = t then some (a, none)
    else if a.dts < t ∧ t < b.dts then (if b.dts - a.dts ≤ gapNs then some (a, some b) else none)
    else posePair gapNs t (b :: rest)

/-- The poses of a slice, if the channel holds them. -/
def slicePose (x : Sweep) (d : SweepDesc) (v : Rev) (i : Nat) : Option (Pose × Option Pose) :=
  posePair (d.poseGap * 1000) (poseTime d v i) x.poses

/-- t(s) lies before the oldest pose held (R292). -/
def poseTooOld (x : Sweep) (d : SweepDesc) (v : Rev) (i : Nat) : Bool :=
  match x.poses with
  | [] => false
  | a :: _ => decide (poseTime d v i < a.dts)

/-- The first closed slice that is not processed: revolution and index. -/
def nextSlice (x : Sweep) : Option (Rev × Nat × Slice) :=
  x.revs.findSome? (fun v =>
    ((v.slices.mapIdx (fun i y => (i, y))).find? (fun p => p.2.closed.isSome && !p.2.written)).map (fun p => (v, p.1, p.2)))

/-- A closed slice is ready: it has its poses, or is pose-missing (R292). -/
def sliceReady (x : Sweep) (d : SweepDesc) (v : Rev) (i : Nat) (y : Slice) : Bool :=
  y.missing || poseTooOld x d v i || (slicePose x d v i).isSome

/-- A slice of the channel waits for a pose. -/
def poseWaiting (x : Sweep) : Bool :=
  match x.desc, nextSlice x with
  | some d, some (v, i, y) => !(sliceReady x d v i y)
  | _, _ => false

/-- Every closed slice of a revolution that waits for a pose is pose-missing (R287). -/
def giveUp (c r : Nat) (s : State) : State :=
  let x := sweepAt s c
  match x.desc with
  | none => s
  | some d =>
    updRev c r (fun v => { v with slices := v.slices.mapIdx (fun i y =>
      if y.closed.isSome && !y.written && !(sliceReady x d v i y) then { y with missing := true } else y) }) s

/-! Opening (R287, R300) -/

/-- Output, range image and voxel buffers of a revolution. -/
def SweepDesc.outOf (d : SweepDesc) (r : Nat) : Nat := if r % 2 = 0 then d.out0 else d.out1
/-- Its range image. -/
def SweepDesc.rimgOf (d : SweepDesc) (r : Nat) : Nat := if r % 2 = 0 then d.rimg0 else d.rimg1
/-- Its voxel table: the first where the channel accumulates. -/
def SweepDesc.voxOf (d : SweepDesc) (r : Nat) : Nat := if d.accum ∨ r % 2 = 0 then d.vox0 else d.vox1

/-- Bytes of a voxel table. -/
def SweepDesc.voxBytes (d : SweepDesc) : Nat := 2 ^ d.voxLog2 * 32

/-- A revolution opens: it is held, and START and the clears are to be written before anything else. -/
def openRev (c r : Nat) (d : SweepDesc) (off : Nat) (s : State) : State :=
  let cyc := cycleOf s d off r
  let cs := cycleStart s d.phase cyc
  let v : Rev := { rev := r, cycle := cyc, start := cs.1, period := cs.2, slices := List.replicate d.slices {} }
  let even := decide (r % 2 = 0)
  updSweep c (fun x =>
    let g := add32 (if even then x.outGen0 else x.outGen1) 1
    let jobs := [SweepJob.put (d.outOf r) (leBytes 4 g)] ++
      (if d.rimg then [.zero (d.rimgOf r) (d.beams.length * d.cols * 4)] else []) ++
      (if d.vox && !d.accum then [.zero (d.voxOf r) d.voxBytes] else [])
    { x with
      revs := x.revs ++ [v], jobs := jobs ++ x.jobs
      outGen0 := if even then g else x.outGen0, outGen1 := if even then x.outGen1 else g
      voxUsed0 := if even && !d.accum then 0 else x.voxUsed0, voxUsed1 := if even || d.accum then x.voxUsed1 else 0 }) s

/-! Ends of a revolution (R299–R302) -/

/-- Totals over slices. -/
def Rev.total (v : Rev) (f : Slice → Nat) : Nat := v.slices.foldl (fun n x => n + f x) 0

/-- The sweep STATUS (R301). -/
def sweepStatus (v : Rev) : Nat :=
  if v.slices.any (·.missing) then 0x02B1
  else if v.forced || v.slices.any (·.forced) || v.total (·.late) != 0 then 0x00B1
  else if v.total (·.capDrop) != 0 || v.voxDrop != 0 then 0x00B0
  else 0

/-- Occupied entries of the table a revolution enters. -/
def usedOf (x : Sweep) (d : SweepDesc) (r : Nat) : Nat := if d.accum ∨ r % 2 = 0 then x.voxUsed0 else x.voxUsed1

/-- The header from VERSION on (R299). -/
def headerBody (x : Sweep) (d : SweepDesc) (v : Rev) (c now status : Nat) : List Byte :=
  leBytes 2 1 ++ leBytes 1 c ++ leBytes 1 (b2n (v.forced || v.slices.any (·.forced)) + b2n v.holdover * 2) ++
  leBytes 4 v.rev ++ leBytes 4 v.cycle ++ leBytes 8 v.start ++ leBytes 8 now ++ leBytes 2 status ++ leBytes 2 d.slices ++
  leBytes 4 v.kept ++ leBytes 4 (v.total (·.capDrop)) ++ leBytes 4 (v.total (·.late)) ++ leBytes 4 v.poseDrop ++
  leBytes 4 v.filtered ++ leBytes 4 v.outOfFrame ++ leBytes 4 v.voxDrop ++ leBytes 4 (usedOf x d v.rev) ++ zeros 188

/-- The offset of END in an output area. -/
def SweepDesc.endOff (d : SweepDesc) : Nat := 256 + 16 * d.slices + 8 * d.cap

/-- A revolution is done: its record, the counts, and FLUSH packets that waited for it (R302, R303). -/
def revDone (c r status cons : Nat) (s : State) : State :=
  let x := sweepAt s c
  match x.desc, revAt s c r with
  | some d, some v =>
    let s1 := updSweep c (fun y => { y with
      revs := y.revs.filter (·.rev != r), sweeps := add32 y.sweeps 1
      lastDone := match y.lastDone with
        | some l => if revDiff r l ≤ 0 then some l else some r
        | none => some r
      flushing := y.flushing.map (fun f => (f.1, f.2.filter (· != r))) }) s
    let s2 := putDone c cons (doneRec s.dts r status c 1 v.kept (v.total (·.capDrop) + v.total (·.late) + v.poseDrop)
      (usedOf x d r) (r % 2)) s1
    let curOver := (sweepAt s2 c).flushing.filter (fun f => f.2.isEmpty)
    let low := (lowRev (sweepAt s2 c)).getD 0
    curOver.foldl (fun t f => finishPkt f.1 0 low 0 t)
      (updSweep c (fun y => { y with flushing := y.flushing.filter (fun f => !f.2.isEmpty) }) s2)
  | _, _ => s

/-- A revolution ends early: its header and END as far as they can be written, and its done record (R301, R303). -/
def dropRev (c r status cons : Nat) (s : State) : State :=
  match (sweepAt s c).desc, revAt s c r with
  | some d, some v =>
    let w := sweepWho s c
    let g := leBytes 4 (if r % 2 = 0 then (sweepAt s c).outGen0 else (sweepAt s c).outGen1)
    let s1 := match engWrite (.sweepWrite c) w (d.outOf r + 4) (headerBody (sweepAt s c) d v c s.dts status) s with
      | .ok _ t => (match engWrite (.sweepWrite c) w (d.outOf r + d.endOff) g t with
        | .ok _ u => u
        | _ => t)
      | _ => s
    revDone c r status cons s1
  | _, _ => s

/-! Parks and failures (R305) -/

/-- The revolution a job works on. -/
def jobRev : SweepJob → Option Nat
  | .bin _ r _ _ _ => some r
  | .slice r _ _ => some r
  | .close r => some r
  | _ => none

/-- The packet a job completes. -/
def jobPkt : SweepJob → Option Nat
  | .intake id => some id
  | .bin id _ _ _ _ => some id
  | .snapshot id _ => some id
  | .clear id => some id
  | _ => none

/-- RESUME ABORT, or an access that fails without parking (R305). -/
def sweepAbort (c status cons : Nat) (s : State) : State :=
  let x := sweepAt s c
  let r := (x.jobs.findSome? jobRev).getD ((x.revs.getLast?).map (·.rev) |>.getD 0)
  let isPut := (x.jobs.head?).any (fun j => match j with
    | .intake _ => false
    | .snapshot _ _ => false
    | .clear _ => false
    | _ => true)
  let pk := (x.jobs.head?).bind jobPkt
  let isBin := x.jobs.any (fun j => match j with
    | .bin id _ _ _ _ => pk.isNone || pk == some id
    | .intake _ => pk.isNone
    | _ => false)
  let pk2 := if isBin && pk.isNone then x.jobs.findSome? jobPkt else pk
  let s1 := updSweep c (fun y => { y with
    jobs := y.jobs.filter (fun j => jobRev j != some r && jobPkt j != pk2 && (match j with
      | .put _ _ => false
      | .zero _ _ => false
      | _ => true))
    parked := false, remote := false, far := [], stamped := false
    held := y.held.filter (fun h => pk2 != some h.1) }) s
  let s2 := match pk2 with
    | some id => finishPkt id status 0 0 s1
    | none => s1
  if isPut then dropRev c r 0x05B0 cons s2 else s2

/-- What an access leaves, with what follows a success. -/
def sweepIo {α : Type} (c cons : Nat) (r : Io α) (k : α → State → State) : State :=
  match r with
  | .ok a s => k a s
  | .wait s => updSweep c (fun x => { x with remote := true }) s
  | .stop dva acc e s =>
    let w := sweepWho s c
    if doesPark s w.owner e then updSweep c (fun x => { x with parked := true }) (parkOn w (.sweep c) acc dva e s).1
    else sweepAbort c (endStatus s w.owner e) cons (reportErr w acc dva e s)

/-- The first job is done. -/
def popSweep (c : Nat) (s : State) : State := updSweep c (fun x => { x with jobs := x.jobs.drop 1, far := [] }) s

/-- The first job goes on as another. -/
def putSweep (c : Nat) (j : SweepJob) (s : State) : State :=
  updSweep c (fun x => { x with jobs := j :: x.jobs.drop 1, far := [] }) s

/-! Intake (R281, R283, R284, R286) -/

/-- The point words of a record. -/
def recordPoints (b : List Byte) : List Nat := (List.range ((b.length - 32) / 8)).map (fun i => getLe b (32 + 8 * i) 8)

/-- A record is valid but for its REV (R281). -/
def recordOk (c : Nat) (d : SweepDesc) (b : List Byte) : Bool :=
  let n := getLe b 16 4
  getLe b 0 2 == 1 && getLe b 2 1 == c && getLe b 3 1 == 0 && inR 1 4096 n && b.length == 32 + 8 * n &&
  allZero (slice b 20 12) && (recordPoints b).all (fun w => w / 2 ^ 58 == 0 && decide (fld w 23 16 < d.beams.length))

/-- A record's packet leaves the queue. -/
def submitEnds (c id status r0 r1 : Nat) (s : State) : State :=
  finishPkt id status r0 r1 (popSweep c (updSweep c (fun x => { x with
    held := x.held.filter (·.1 != id), stamped := false }) s))

/-- The stamp of R284, once per record. -/
def recordStamp (c : Nat) (d : SweepDesc) (b : List Byte) (s : State) : State :=
  if !d.azFeed || (sweepAt s c).stamped || regFld s (chReg d.phase 0) 30 28 != 0 then s
  else
    let a := (fld (getLe b 32 8) 15 0 + d.azOff) % 65536
    updSweep c (fun x => { x with stamped := true }) (softStamp d.phase (getLe b 8 8) a s).1

/-- The cycle offset a record sets (R283). -/
def offsetFor (s : State) (d : SweepDesc) (b : List Byte) : Nat :=
  let ch := phaseCh s d.phase
  let t := getLe b 8 8
  let back := if ch.start ≤ t ∨ ch.period = 0 then 0 else ceilDiv (ch.start - t) ch.period
  sub32 ((ch.cycle - back) % 2 ^ 32) (getLe b 4 4)

/-- A record that passed R281 meets the revolution window (R286, R287). -/
def windowRecord (c id : Nat) (d : SweepDesc) (b : List Byte) (s : State) : State :=
  let r := getLe b 4 4
  let s1 := if (sweepAt s c).offset.isSome then s
    else updSweep c (fun x => { x with offset := some (offsetFor s d b) }) s
  let x := sweepAt s1 c
  let off := x.offset.getD 0
  let low := (lowRev x).getD r
  let df := revDiff r low
  let done := match x.lastDone with
    | some l => (revAt s1 c r).isNone && decide (revDiff r l ≤ 0)
    | none => false
  if df < 0 ∨ done = true then
    submitEnds c id 0 0 0 (updSweep c (fun y => { y with lateRecords := satInc 0xFFFFFFFF y.lateRecords }) s1)
  else if df ≤ 1 then
    let s2 := putSweep c (.bin id r (recordPoints b) 0 0) s1
    if (revAt s1 c r).isSome then s2 else openRev c r d off s2
  else
    let s2 := forceRev c low s1
    popSweep c (if df = 2 then giveUp c low s2 else s2)

/-- A record's bytes are in hand (R281, R284, R304). -/
def takeRecord (c id : Nat) (d : SweepDesc) (b : List Byte) (s : State) : State :=
  let x := sweepAt s c
  let r := getLe b 4 4
  let ahead := decide (16 < revDiff r ((lowRev x).getD r))
  if !(recordOk c d b) || ahead then submitEnds c id 0x03B0 0 0 s
  else
    let s1 := recordStamp c d b s
    if (sweepAt s1 c).st == .waitPhase then submitEnds c id 0x02C1 0 0 s1
    else windowRecord c id d b s1

/-! Binning (R288, R296) -/

/-- A slice's quota and the index of its first place in a staging half (R288). -/
def SweepDesc.quota (d : SweepDesc) (i : Nat) : Nat × Nat :=
  (d.cap / d.slices + (if i < d.cap % d.slices then 1 else 0), i * (d.cap / d.slices) + min i (d.cap % d.slices))

/-- The range image cell of a point (R295, R296). -/
def cellDva (d : SweepDesc) (r w : Nat) : Nat :=
  let b := fld w 23 16
  let adj := ((d.beams[b]?).map (·.adj)).getD 0
  d.rimgOf r + (b * d.cols + (fld w 15 0 + adj) % 65536 * d.cols / 65536) * 4

/-- A point enters the range image (R296). -/
def enterImage (c cons r w : Nat) (d : SweepDesc) (s : State) (k : State → State) : State :=
  if !d.rimg then k s
  else
    let a := cellDva d r w
    sweepIo c cons (engRead (.sweepRead c) (sweepWho s c) (sweepAt s c).far a 4 s) (fun b t =>
      let old := getLe b 0 4 % 2 ^ 24
      if old = 0 ∨ fld w 55 32 < old then
        sweepIo c cons (engWrite (.sweepWrite c) (sweepWho t c) a (leBytes 4 (fld w 31 24 * 2 ^ 24 + fld w 55 32)) t)
          (fun _ u => k u)
      else k t)

/-- Bins the next point (R288). -/
def binPoint (c cons id r w : Nat) (rest : List Nat) (stored dropped : Nat) (d : SweepDesc) (s : State) : State :=
  match revAt s c r with
  | none => submitEnds c id 0 stored (dropped + rest.length + 1) s
  | some v =>
    let rng := fld w 55 32
    let i := (fld w 15 0 + d.azOff) % 65536 / d.width
    let y := (v.slices[i]?).getD {}
    if rng < d.minRange ∨ d.maxRange < rng then
      putSweep c (.bin id r rest stored dropped) (updRev c r (fun q => { q with filtered := add32 q.filtered 1 }) s)
    else if y.closed.isSome then
      putSweep c (.bin id r rest stored (dropped + 1)) (updSlice c r i (fun q => { q with late := q.late + 1 }) s)
    else
      enterImage c cons r w d s (fun t =>
        let q := d.quota i
        if q.1 ≤ y.stored then
          putSweep c (.bin id r rest stored (dropped + 1)) (updSlice c r i (fun z => { z with capDrop := z.capDrop + 1 }) t)
        else
          let a := d.stage + (r % 2) * d.cap * 8 + (q.2 + y.stored) * 8
          sweepIo c cons (engWrite (.sweepWrite c) (sweepWho t c) a (leBytes 8 w) t) (fun _ u =>
            putSweep c (.bin id r rest (stored + 1) dropped) (updSlice c r i (fun z => { z with stored := z.stored + 1 }) u)))

/-! Processing (R290, R291, R294, R297, R298) -/

/-- The rotation and translation of a slice from its poses (R290). -/
def sliceFrame (t : Nat) (p : Pose × Option Pose) : List Nat × List Nat :=
  match p.2 with
  | none => (quatMat p.1.q, p.1.t)
  | some b =>
    let a := p.1
    let al := fDiv (fOfInt ((t : Int) - (a.dts : Int))) (fOfInt ((b.dts : Int) - (a.dts : Int)))
    let dot := fDot a.q b.q
    let neg := match decodeFloat 0 dot with
      | .fin n m _ _ => n && m != 0
      | .inf n => n
      | .nan _ => false
    let qb := if neg then b.q.map fNeg else b.q
    let q := fLerp al a.q qb
    let n := fSqrt (fDot q q)
    (quatMat (q.map (fun v => fDiv v n)), fLerp al a.t b.t)

/-- A point in the frame: its FXC21 word, and whether it was clamped (R291). -/
def framePoint (d : SweepDesc) (frame : List Nat × List Nat) (w : Nat) : Nat × Bool :=
  let bm := (d.beams[fld w 23 16]?).getD { sinEl := 0, cosEl := 0, adj := 0 }
  let rng := fDiv (fOfInt (fld w 55 32)) 0x44FA0000
  let az := (fld w 15 0 + bm.adj) % 65536
  let h := fMul rng bm.cosEl
  let sv := [fMul h (cosb az), fMul h (sinb az), fMul rng bm.sinEl]
  let v := affine d.extR sv d.extT
  let o := affine frame.1 v frame.2
  let r := toPoint false (o.getD 0 0) (o.getD 1 0) (o.getD 2 0)
  let bad := r.2 != 0 || !(bitOf r.1 63)
  (if bad && bitOf r.1 63 then r.1 - 2 ^ 63 else r.1, bad)

/-- The voxel of counts: index and offset of one coordinate (R297). -/
def voxCoord (size v : Nat) : Int × Nat :=
  let x := toInt 21 v
  let q := x / (size : Int)
  (q, (x - q * (size : Int)).toNat)

/-- A voxel's key (R297). -/
def voxKey (d : SweepDesc) (p : Nat) : Nat :=
  let k (hi lo : Nat) : Nat := ofInt 21 (voxCoord d.voxSize (fld p hi lo)).1
  k 62 42 * 2 ^ 42 + k 41 21 * 2 ^ 21 + k 20 0

/-- Where a key lies in the table. -/
inductive VoxFind where
  | found (j : Nat) (entry : List Byte)
  | fresh (j : Nat)
  | none

/-- The probe of R297, from probe `i`. -/
def voxProbe (c : Nat) (d : SweepDesc) (base key used h : Nat) : Nat → Nat → State → Io VoxFind
  | 0, _, s => .ok .none s
  | fuel + 1, i, s =>
    let j := (h + i) % 2 ^ d.voxLog2
    match engRead (.sweepRead c) (sweepWho s c) (sweepAt s c).far (base + j * 32) 32 s with
    | .ok b t =>
      if getLe b 0 8 = 2 ^ 63 + key then .ok (.found j b) t
      else if getLe b 0 8 < 2 ^ 63 then .ok (if used = d.voxCap then .none else .fresh j) t
      else voxProbe c d base key used h fuel (i + 1) t
    | .wait t => .wait t
    | .stop a b e t => .stop a b e t

/-- An entry after one more point (R298). -/
def voxAdd (d : SweepDesc) (key rev intensity p : Nat) (old : Option (List Byte)) : List Byte :=
  let dx := (voxCoord d.voxSize (fld p 20 0)).2
  let dy := (voxCoord d.voxSize (fld p 41 21)).2
  let dz := (voxCoord d.voxSize (fld p 62 42)).2
  let b := old.getD (leBytes 8 (2 ^ 63 + key) ++ leBytes 2 0 ++ leBytes 2 dz ++ leBytes 2 dz ++ zeros 18)
  let n := getLe b 8 2
  let full := n == 65535
  leBytes 8 (2 ^ 63 + key) ++ leBytes 2 (if full then n else n + 1) ++ leBytes 2 (min dz (getLe b 10 2)) ++
  leBytes 2 (max dz (getLe b 12 2)) ++ leBytes 1 (max intensity (getLe b 14 1)) ++ zeros 1 ++ leBytes 4 rev ++
  leBytes 4 (if full then getLe b 20 4 else getLe b 20 4 + dx) ++
  leBytes 4 (if full then getLe b 24 4 else getLe b 24 4 + dy) ++
  leBytes 4 (if full then getLe b 28 4 else getLe b 28 4 + dz)

/-- One entry of the table is used in addition. -/
def bumpUsed (c r : Nat) (d : SweepDesc) (s : State) : State :=
  updSweep c (fun x => if d.accum ∨ r % 2 = 0 then { x with voxUsed0 := x.voxUsed0 + 1 }
    else { x with voxUsed1 := x.voxUsed1 + 1 }) s

/-- Enters a point with V 1 into the voxel table (R294, R297, R298). -/
def enterVoxel (c cons r intensity p : Nat) (d : SweepDesc) (s : State) (k : State → State) : State :=
  if !d.vox then k s
  else
    let base := d.voxOf r
    let key := voxKey d p
    let h := key * 0x9E3779B97F4A7C15 % 2 ^ 64 / 2 ^ (64 - d.voxLog2)
    sweepIo c cons (voxProbe c d base key (usedOf (sweepAt s c) d r) h 32 0 s) (fun f t =>
      let put (j : Nat) (old : Option (List Byte)) (k2 : State → State) : State :=
        sweepIo c cons (engWrite (.sweepWrite c) (sweepWho t c) (base + j * 32) (voxAdd d key r intensity p old) t)
          (fun _ u => k2 (updSweep c (fun x => { x with lastRev := r }) u))
      match f with
      | .none => k (updRev c r (fun v => { v with voxDrop := add32 v.voxDrop 1 }) t)
      | .found j b => put j (some b) k
      | .fresh j => put j none (fun u => k (bumpUsed c r d u)))

/-- The slice's entry, and what follows the last one (R294, R299). -/
def endSlice (c cons r i : Nat) (d : SweepDesc) (v : Rev) (y : Slice) (s : State) : State :=
  let kept := v.kept - y.first
  let e := leBytes 4 y.first ++ leBytes 4 kept ++ leBytes 2 (min 65535 y.capDrop) ++ leBytes 2 (min 65535 y.late) ++
    leBytes 1 (b2n y.missing + b2n y.forced * 2) ++ zeros 3
  sweepIo c cons (engWrite (.sweepWrite c) (sweepWho s c) (d.outOf r + 256 + 16 * i) e s) (fun _ t =>
    let t1 := updSlice c r i (fun z => { z with written := true }) t
    if i + 1 = d.slices then putSweep c (.close r) t1 else popSweep c t1)

/-- One point of a slice, or its end (R294). -/
def processPoint (c cons r i n : Nat) (d : SweepDesc) (s : State) : State :=
  match revAt s c r with
  | none => popSweep c s
  | some v =>
    let y := (v.slices[i]?).getD {}
    if y.missing ∨ y.stored ≤ n then endSlice c cons r i d v y s
    else
      match slicePose (sweepAt s c) d v i with
      | none => endSlice c cons r i d v y s
      | some ps =>
        let a := d.stage + (r % 2) * d.cap * 8 + ((d.quota i).2 + n) * 8
        sweepIo c cons (engRead (.sweepRead c) (sweepWho s c) (sweepAt s c).far a 8 s) (fun b t =>
          let w := getLe b 0 8
          let p := framePoint d (sliceFrame (poseTime d v i) ps) w
          let o := d.outOf r + 256 + 16 * d.slices + 8 * v.kept
          sweepIo c cons (engWrite (.sweepWrite c) (sweepWho t c) o (leBytes 8 p.1) t) (fun _ u =>
            let next (z : State) : State :=
              putSweep c (.slice r i (n + 1)) (updRev c r (fun q => { q with
                kept := q.kept + 1, outOfFrame := if p.2 then q.outOfFrame + 1 else q.outOfFrame }) z)
            if p.2 then next u else enterVoxel c cons r (fld w 31 24) p.1 d u next))

/-- Writes the header counts and END, then the done record (R294, R300). -/
def closeRev (c cons r : Nat) (d : SweepDesc) (s : State) : State :=
  match revAt s c r with
  | none => popSweep c s
  | some v =>
    let st := sweepStatus v
    let x := sweepAt s c
    let g := leBytes 4 (if r % 2 = 0 then x.outGen0 else x.outGen1)
    sweepIo c cons (engWrite (.sweepWrite c) (sweepWho s c) (d.outOf r + 4) (headerBody x d v c s.dts st) s) (fun _ t =>
      sweepIo c cons (engWrite (.sweepWrite c) (sweepWho t c) (d.outOf r + d.endOff) g t) (fun _ u =>
        revDone c r st cons (popSweep c u)))

/-- One part of a snapshot, or its end (R303). -/
def snapStep (c cons id off : Nat) (d : SweepDesc) (s : State) : State :=
  let x := sweepAt s c
  if d.voxBytes ≤ off then
    let s1 := putDone c cons (doneRec s.dts x.lastRev 0 c 2 0 0 x.voxUsed0 1)
      (popSweep c (updSweep c (fun y => { y with voxUsed1 := y.voxUsed0 }) s))
    finishPkt id 0 ((lowRev x).getD 0) x.voxUsed0 s1
  else
    sweepIo c cons (engRead (.sweepRead c) (sweepWho s c) x.far (d.vox0 + off) 4096 s) (fun b t =>
      sweepIo c cons (engWrite (.sweepWrite c) (sweepWho t c) (d.vox1 + off) b t) (fun _ u =>
        putSweep c (.snapshot id (off + 4096)) u))

/-- One job of a channel. -/
def runSweepJob (c cons : Nat) (d : SweepDesc) (j : SweepJob) (s : State) : State :=
  let x := sweepAt s c
  match j with
  | .intake id =>
    (match findPkt s id, x.held.find? (·.1 == id) with
    | some _, some (_, some b) => takeRecord c id d b s
    | some p, some (_, none) =>
      let n := p.fld 32 4
      if n < 32 ∨ 32800 < n then submitEnds c id 0x03B0 0 0 s
      else
        sweepIo c cons (engRead (.sweepRead c) (sweepWho s c) x.far (p.fld 24 8) n s) (fun b t => takeRecord c id d b t)
    | _, _ => popSweep c (updSweep c (fun y => { y with held := y.held.filter (·.1 != id) }) s))
  | .bin id r pts st dr =>
    (match pts with
    | [] => submitEnds c id 0 st dr s
    | w :: rest => binPoint c cons id r w rest st dr d s)
  | .put dva bytes => sweepIo c cons (engWrite (.sweepWrite c) (sweepWho s c) dva bytes s) (fun _ t => popSweep c t)
  | .zero dva n => sweepIo c cons (engWrite (.sweepWrite c) (sweepWho s c) dva (zeros n) s) (fun _ t => popSweep c t)
  | .slice r i n => processPoint c cons r i n d s
  | .close r => closeRev c cons r d s
  | .snapshot id off => snapStep c cons id off d s
  | .clear id =>
    sweepIo c cons (engWrite (.sweepWrite c) (sweepWho s c) d.vox0 (zeros d.voxBytes) s) (fun _ t =>
      finishPkt id 0 ((lowRev x).getD 0) 0 (popSweep c (updSweep c (fun y => { y with voxUsed0 := 0 }) t)))

/-- Runs a channel's jobs until they end, park or wait. -/
def runSweep (c cons : Nat) : Nat → State → State
  | 0, s => s
  | fuel + 1, s =>
    let x := sweepAt s c
    match x.desc, x.jobs with
    | some d, j :: _ => if x.parked || x.remote then s else runSweep c cons fuel (runSweepJob c cons d j s)
    | _, _ => s

/-! What follows every command (R283, R289, R304) -/

/-- The latches of held revolutions' cycles. -/
def latchRevs (c : Nat) (d : SweepDesc) (s : State) : State :=
  let ch := phaseCh s d.phase
  if (sweepAt s c).revs.any (fun v => v.cycle == ch.cycle) then
    updSweep c (fun x => { x with revs := x.revs.map (fun v =>
      if v.cycle = ch.cycle then { v with start := ch.start, period := ch.period, latched := true } else v) }) s
  else s

/-- The channel follows its phase channel (R304). -/
def followPhase (c : Nat) (d : SweepDesc) (s : State) : State :=
  let x := sweepAt s c
  if x.st == .running && !(phaseKnown s d.phase) then
    updSweep c (fun y => { y with st := .waitPhase, offset := none }) (forceAll c s)
  else if x.st == .waitPhase && (phaseCh s d.phase).st == .locked then updSweep c (fun y => { y with st := .running }) s
  else s

/-- A channel with nothing to do takes its next record (R306), unless that waits for its revolution (R286). -/
def nextIntake (c : Nat) (d : SweepDesc) (s : State) : State :=
  let x := sweepAt s c
  if !x.jobs.isEmpty || x.parked || x.remote then s
  else
    match x.held with
    | [] => s
    | (id, _) :: _ =>
      let _ := d
      runSweep c x.doneCons jobFuel (updSweep c (fun y => { y with jobs := [.intake id] }) s)

/-- Settles one channel. -/
def settleSweep (c : Nat) (s : State) : State :=
  match (sweepAt s c).desc with
  | none => s
  | some d =>
    let s1 := followPhase c d (latchRevs c d s)
    let r := (sweepAt s1 c).revs.map (·.rev)
    let s2 := nextIntake c d s1
    let x := sweepAt s2 c
    if x.held.length < (sweepAt s1 c).held.length || x.revs.map (·.rev) != r then nextIntake c d s2 else s2

/-- Passes on the FLUSH actions of the event table (R303, R319). -/
def drainFlushes (s : State) : State :=
  let s1 := s.ptu.flushes.foldl (fun t c =>
    if (sweepAt t c).st == .running || (sweepAt t c).st == .waitPhase then forceAll c t else t) s
  updPtu (fun u => { u with flushes := [] }) s1

/-- Settles the engine. -/
def settleSweeps (s : State) : State := (List.range 8).foldl (fun t c => settleSweep c t) (drainFlushes s)

/-! Events in time (R285, R287, R292, R293) -/

/-- SLICE_CLOSE: the channel's next open slice closes, with every other whose angle is reached. -/
def sliceClose (c : Nat) (s : State) : State :=
  let x := sweepAt s c
  match x.desc with
  | none => s
  | some d =>
    let opens (v : Rev) : List (Nat × Nat × Nat) :=
      (List.range v.slices.length).filterMap (fun i =>
        if ((v.slices[i]?).getD {}).closed.isNone then some (v.rev, i, closePhase d v i) else none)
    let l := x.revs.flatMap opens
    match l.head? with
    | none => s
    | some p =>
      match reachAt s d.phase p.2.2 with
      | none => s
      | some t =>
        let s1 := latchRevs c d (advanceTo t s)
        l.foldl (fun u q => if q.2.2 ≤ phaseAt s1 d.phase then closeSlice c q.1 q.2.1 false u else u) s1

/-- POSE_WAIT_EXPIRY (R292). -/
def poseWaitExpiry (c : Nat) (s : State) : State :=
  let x := sweepAt s c
  match x.desc, nextSlice x with
  | some d, some (v, i, y) =>
    if sliceReady x d v i y then s
    else updSlice c v.rev i (fun z => { z with missing := true }) (advanceTo (y.closed.getD s.dts + d.poseWait * 1000) s)
  | _, _ => s

/-- REVOLUTION_OPEN (R286, R287). -/
def revolutionOpen (c cons : Nat) (s : State) : State :=
  let x := sweepAt s c
  match x.desc, x.offset with
  | some d, some off =>
    let nxt := match x.revs.getLast?, x.lastDone with
      | some v, _ => some (add32 v.rev 1)
      | none, some l => some (add32 l 1)
      | none, none => none
    match nxt with
    | none => s
    | some r =>
      if x.st != .running then s
      else
        match reachAt s d.phase (cycleOf s d off r * 65536) with
        | none => s
        | some t =>
          let s1 := advanceTo t s
          if 2 ≤ x.revs.length then giveUp c ((lowRev x).getD 0) s1
          else if x.parked || x.remote then s1
          else runSweep c cons jobFuel (openRev c r d off s1)
  | _, _ => s

/-- The channel whose ready slice comes first: by close instant, then channel (R293). -/
def readyChannel (s : State) : Option Nat :=
  ((List.range 8).foldl (fun (b : Option (Nat × Nat)) c =>
    let x := sweepAt s c
    match x.desc, nextSlice x with
    | some d, some (v, i, y) =>
      if x.parked || x.remote || !x.jobs.isEmpty || !(sliceReady x d v i y) then b
      else
        let t := y.closed.getD 0
        (match b with
        | some q => if q.1 ≤ t then b else some (t, c)
        | none => some (t, c))
    | _, _ => b) none).map (·.2)

/-- SLICE_PROCESS (R293, R294). -/
def sliceProcess (cons : Nat) (s : State) : State :=
  match readyChannel s with
  | none => s
  | some c =>
    let x := sweepAt s c
    match x.desc, nextSlice x with
    | some d, some (v, i, y) =>
      let miss := y.missing || (poseTooOld x d v i && (slicePose x d v i).isNone)
      let s1 := updSlice c v.rev i (fun z => { z with missing := miss, first := v.kept }) s
      let s2 := if miss then updRev c v.rev (fun w => { w with poseDrop := w.poseDrop + y.stored }) s1 else s1
      runSweep c cons jobFuel (updSweep c (fun z => { z with jobs := [.slice v.rev i 0] }) s2)
    | _, _ => s

/-- RESUME of a parked channel (R305). -/
def resumeSweep (c : Nat) (abort : Bool) (status cons : Nat) (s : State) : State :=
  if !(sweepAt s c).parked then s
  else if abort then sweepAbort c status cons s
  else runSweep c cons jobFuel (updSweep c (fun x => { x with parked := false }) s)

/-- A remote answer for a channel (R234). -/
def answerSweep (c dva : Nat) (read : Bool) (status : Nat) (bytes : List Byte) (cons : Nat) (s : State) : State :=
  if status ≠ 0 then sweepAbort c status cons s
  else if read then
    runSweep c cons jobFuel (updSweep c (fun x => { x with far := x.far ++ [(dva, bytes)], remote := false }) s)
  else s

/-! Packets (R280, R282, R303, R306) -/

/-- SWEEP_BIND. -/
def doSweepBind (p : Inflight) (s : State) : State :=
  let c := p.fld 16 1
  let o := p.fld 17 1
  let fl := p.fld 18 1
  let x := sweepAt s c
  if 8 ≤ c ∨ 1 < fl then finishPkt p.id 0x0303 0 0 s
  else if fl = 1 then
    if x.st == .idle then finishPkt p.id 0 0 0 (updSweep c (fun _ => {}) s) else finishPkt p.id 0x0303 0 0 s
  else if o = 0 ∨ 63 < o ∨ x.st != .unbound then finishPkt p.id 0x0303 0 0 s
  else if !(ownerActive s o) then finishPkt p.id 0x0225 0 0 s
  else finishPkt p.id 0 0 0 (updSweep c (fun _ => { st := .idle, owner := o }) s)

/-- A channel descriptor's fields (R280). -/
def parseSweep (b : List Byte) (beams : List Beam) : SweepDesc :=
  let m := getLe b 3 1
  { phase := getLe b 2 1, azFeed := bitOf m 0, accum := bitOf m 1, rimg := bitOf m 2, vox := bitOf m 3, tc := fld m 5 4
    slices := getLe b 4 2, beams, cap := getLe b 8 4, azOff := getLe b 12 2, lag := getLe b 14 2
    minRange := getLe b 16 4, maxRange := getLe b 20 4, poseWait := getLe b 24 4, poseGap := getLe b 28 4
    voxLog2 := getLe b 32 1, voxSize := getLe b 34 2, voxCap := getLe b 36 4, cols := getLe b 40 2
    doneLog2 := getLe b 44 1, vector := getLe b 46 2, extR := (List.range 9).map (fun i => getLe b (48 + 4 * i) 4)
    extT := (List.range 3).map (fun i => getLe b (84 + 4 * i) 4), stage := getLe b 104 8, out0 := getLe b 112 8
    out1 := getLe b 120 8, rimg0 := getLe b 128 8, rimg1 := getLe b 136 8, vox0 := getLe b 144 8, vox1 := getLe b 152 8
    doneBase := getLe b 160 8, doneCons := getLe b 168 8 }

/-- A power of two within a range. -/
def pow2In (lo hi v : Nat) : Bool := inR lo hi v && 2 ^ Nat.log2 v == v

/-- The descriptor's own checks (R280). -/
def sweepDescOk (b : List Byte) (d : SweepDesc) : Bool :=
  let pair (on : Bool) (x y : Nat) : Bool := if on then x % 64 == 0 && y % 64 == 0 else x == 0 && y == 0
  getLe b 0 2 == 1 && inR 6 7 d.phase && decide (getLe b 3 1 < 64) && pow2In 16 4096 d.slices && inR 1 256 (getLe b 6 2) &&
  inR d.slices (2 ^ 24) d.cap && decide (d.lag ≤ 16384) && inR 1 d.maxRange d.minRange &&
  decide (d.maxRange < 2 ^ 24) && inR 1 1000000 d.poseWait && inR 1 1000000 d.poseGap && inR 10 24 d.voxLog2 &&
  getLe b 33 1 == 0 && inR 1 4096 d.voxSize && inR 1 (2 ^ d.voxLog2) d.voxCap && pow2In 256 8192 d.cols &&
  getLe b 42 2 == 0 && inR 6 16 d.doneLog2 && getLe b 45 1 == 0 && d.extR.all isFinite && d.extT.all isFinite &&
  getLe b 96 8 % 64 == 0 && d.stage % 64 == 0 && d.out0 % 64 == 0 && d.out1 % 64 == 0 && pair d.rimg d.rimg0 d.rimg1 &&
  pair d.vox d.vox0 d.vox1 && d.doneBase % 4096 == 0 && d.doneCons % 8 == 0 && allZero (slice b 176 80)

/-- One beam table entry, if it is valid (R280). -/
def parseBeam (b : List Byte) : Option Beam :=
  if isFinite (getLe b 0 4) && isFinite (getLe b 4 4) && allZero (slice b 10 6) then
    some { sinEl := getLe b 0 4, cosEl := getLe b 4 4, adj := getLe b 8 2 }
  else none

/-- The packet's channel is its sender's (R278). -/
def sweepMine (s : State) (p : Inflight) : Bool :=
  let c := p.fld 16 1
  decide (c < 8) && (sweepAt s c).st != .unbound && (sweepAt s c).owner == p.owner

/-- SWEEP_CONFIG (R280). -/
def doSweepConfig (p : Inflight) (s : State) : State :=
  let c := p.fld 16 1
  if !(sweepMine s p) ∨ p.fld 24 8 % 64 ≠ 0 then finishPkt p.id 0x0303 0 0 s
  else if (sweepAt s c).st != .idle then finishPkt p.id 0x02B0 0 0 s
  else
    pktRead p (p.fld 24 8) 256 s (fun b t =>
      let n := getLe b 6 2
      if !(sweepDescOk b (parseSweep b [])) then finishPkt p.id 0x0303 0 0 t
      else
        pktRead p (getLe b 96 8) (16 * n) t (fun e u =>
          let l := (List.range n).map (fun i => parseBeam (slice e (16 * i) 16))
          if l.any (·.isNone) then finishPkt p.id 0x0303 0 0 u
          else finishPkt p.id 0 0 0 (updSweep c (fun x => { x with desc := some (parseSweep b (l.filterMap id)) }) u)))

/-- SWEEP_CTRL checks: the sender, and RUNNING or WAIT_PHASE where the OP needs it. -/
def sweepActive (x : Sweep) : Bool := x.st == .running || x.st == .waitPhase

/-- SWEEP_CTRL START; an OP value outside R303 comes here too. -/
def doSweepStart (p : Inflight) (s : State) : State :=
  let c := p.fld 16 1
  let x := sweepAt s c
  if !(sweepMine s p) ∨ p.fld 17 1 ≠ 1 then finishPkt p.id 0x0303 0 0 s
  else
    match x.desc with
    | none => finishPkt p.id 0x02B0 0 0 s
    | some d =>
      if x.st != .idle then finishPkt p.id 0x02B0 0 0 s
      else finishPkt p.id 0 0 0 (updSweep c (fun y => { y with
        st := if phaseKnown s d.phase then .running else .waitPhase, offset := none, lastDone := none }) s)

/-- SWEEP_CTRL STOP. -/
def doSweepStop (cons : Nat) (p : Inflight) (s : State) : State :=
  let c := p.fld 16 1
  let x := sweepAt s c
  if !(sweepMine s p) then finishPkt p.id 0x0303 0 0 s
  else if !(sweepActive x) then finishPkt p.id 0x02B0 0 0 s
  else
    let low := (lowRev x).getD 0
    let s1 := x.revs.foldl (fun t v => dropRev c v.rev 0x05B0 cons t) s
    let ctl := (x.jobs.filterMap (fun j => match j with
      | .snapshot id _ => some id
      | .clear id => some id
      | _ => none))
    let s2 := (x.held.map (·.1) ++ ctl).foldl (fun t id => finishPkt id 0x02B0 0 0 t) s1
    let isIt (a : ParkAgent) : Bool := a == .sweep c
    let s3 := updOwner x.owner (fun w => { w with parks := w.parks.filter (fun k => !(isIt k.agent)) }) s2
    finishPkt p.id 0 low 0 (updSweep c (fun y => { y with
      st := .idle, offset := none, held := [], jobs := [], parked := false, remote := false, far := [], stamped := false }) s3)

/-- SWEEP_CTRL FLUSH. -/
def doSweepFlush (p : Inflight) (s : State) : State :=
  let c := p.fld 16 1
  let x := sweepAt s c
  if !(sweepMine s p) then finishPkt p.id 0x0303 0 0 s
  else if !(sweepActive x) then finishPkt p.id 0x02B0 0 0 s
  else
    let s1 := forceAll c s
    if x.revs.isEmpty then finishPkt p.id 0 0 0 s1
    else updSweep c (fun y => { y with flushing := y.flushing ++ [(p.id, x.revs.map (·.rev))] }) s1

/-- A control packet that works on the accumulating table. -/
def doSweepTable (any : Bool) (job : Nat → SweepJob) (cons : Nat) (p : Inflight) (s : State) : State :=
  let c := p.fld 16 1
  let x := sweepAt s c
  let acc := (x.desc.map (fun d => d.accum)).getD false
  if !(sweepMine s p) ∨ !acc then finishPkt p.id 0x0303 0 0 s
  else if !any && !(sweepActive x) then finishPkt p.id 0x02B0 0 0 s
  else runSweep c cons jobFuel (updSweep c (fun y => { y with jobs := y.jobs ++ [job p.id] }) s)

/-- SNAPSHOT (R303). -/
def doSnapshot (cons : Nat) (p : Inflight) (s : State) : State := doSweepTable false (fun id => .snapshot id 0) cons p s

/-- VOX_RESET (R303). -/
def doVoxReset (cons : Nat) (p : Inflight) (s : State) : State := doSweepTable true (fun id => .clear id) cons p s

/-- SWEEP_SUBMIT: the record joins the channel's queue (R278, R305, R306); `host` is what the read of a HOST record gives. -/
def doSweepSubmit (host : Option (List Byte)) (p : Inflight) (s : State) : State :=
  let c := p.fld 16 1
  let x := sweepAt s c
  if !(sweepMine s p) ∨ 1 < p.fld 17 1 ∨ p.fld 24 8 % 8 ≠ 0 then finishPkt p.id 0x0303 0 0 s
  else if !(sweepActive x) then finishPkt p.id 0x02B0 0 0 s
  else if p.fld 17 1 = 0 then updSweep c (fun y => { y with held := y.held ++ [(p.id, none)] }) s
  else
    let s1 := emit (.hostRead p.owner (p.fld 24 8) (p.fld 32 4)) s
    match host with
    | none => finishPkt p.id 0x0461 0 0 (markLogged p.id (hostError 1 p.owner (p.fld 24 8) 5 p.tag s1))
    | some b =>
      updSweep c (fun y => { y with held := y.held ++ [(p.id, some (slice b 0 (min 32801 (p.fld 32 4))))] }) s1

/-- One inline pose. -/
def parsePose (b : List Byte) : Pose :=
  { dts := getLe b 0 8, t := (List.range 3).map (fun i => getLe b (8 + 4 * i) 4)
    q := (List.range 4).map (fun i => getLe b (20 + 4 * i) 4) }

/-- A pose R282 accepts, but for its place in time. -/
def poseOk (b : List Byte) : Bool :=
  let p := parsePose b
  p.t.all isFinite && p.q.all isFinite && p.t.all within524 && unitNorm p.q && allZero (slice b 36 28)

/-- Instants rise strictly from a bound. -/
def rising : Option Nat → List Nat → Bool
  | _, [] => true
  | none, t :: rest => rising (some t) rest
  | some b, t :: rest => decide (b < t) && rising (some t) rest

/-- POSE_PUSH (R282). -/
def doPosePush (p : Inflight) (s : State) : State :=
  let c := p.fld 16 1
  let n := p.fld 17 1
  let x := sweepAt s c
  if !(sweepMine s p) ∨ n = 0 ∨ 3 < n then finishPkt p.id 0x0303 0 0 s
  else if !(sweepActive x) then finishPkt p.id 0x02B0 0 0 s
  else
    let l := (List.range n).map (fun i => slice p.bytes (64 + 64 * i) 64)
    let ps := l.map parsePose
    if l.all poseOk && rising ((x.poses.getLast?).map (·.dts)) (ps.map (·.dts)) then
      let all := x.poses ++ ps
      let kept := all.drop (all.length - 256)
      finishPkt p.id 0 kept.length 0 (updSweep c (fun y => { y with poses := kept }) s)
    else finishPkt p.id 0x03B1 0 0 s

/-- OWNER_DESTROY: the owner's channels end (R305); `cons` gives DONE_CONS by channel. -/
def sweepsGone (o : Nat) (cons : List Nat) (s : State) : State :=
  (List.range 8).foldl (fun t c =>
    let x := sweepAt t c
    if x.st == .unbound || x.owner != o then t
    else
      let t1 := x.revs.foldl (fun u v => dropRev c v.rev 0x0801 (cons.getD c 0) u) t
      let ids := x.held.map (·.1) ++ (sweepAt t1 c).flushing.map (·.1) ++ x.jobs.filterMap jobPkt
      updSweep c (fun _ => {}) (ids.foldl (fun u id => finishPkt id 0x0801 0 0 u) t1)) s

end Sys2Proof.Machine
end

