-- ==== Sys2Proof/Machine/LinkState.lean ====
section
/-! DEFINITION. Eriati Link: ends of remote requests, port states, suspicion, fences and the domain's commands
(R224–R230, R234–R240). -/

namespace Sys2Proof.Machine

/-- The hub datapath runs, so the links can (R49, R496). -/
def linkRuns (s : State) : Bool := fclkRuns s

/-- A notice or error of the link's own classes. -/
def linkLog (cls cause sev index info : Nat) (s : State) : State :=
  logErr { cls, cause, sev, source := 0x20, index, info } s

/-! Ends of remote requests (R234) -/

/-- Runs a packet again that reads descriptors, with the bytes that have come (R247, R253, R280). -/
def rerunPacket (id : Nat) (s : State) : State :=
  match findPkt s id with
  | none => s
  | some p =>
    if p.opcode = 0x21 then doStepProgram p s
    else if p.opcode = 0x34 then doStreamConfig p s
    else if p.opcode = 0x41 then doSweepConfig p s
    else doFront p 0 s

/-- A failed remote access of a packet: logged with its global address, and the packet ends (R87, R234). -/
def packetFails (id status acc chip dpa : Nat) (s : State) : State :=
  match findPkt s id with
  | none => s
  | some p => finishPkt id status p.lastWord 0 (markLogged id
      (reportAccess p.who acc none { status, addr := chip * 2 ^ 48 + dpa, kind := 3 } 0 s))

/-- Poisoned data consumed by a packet's or an engine's remote read ends it (R162). -/
def farPoison (w : Who) (dva dpa : Nat) (s : State) : State := reportPoison w 1 dva dpa s

/-- One outstanding request's answer reaches its agent (R234). -/
def completeRemote (cons : Cons) (o : Outstanding) (status : Nat) (bs : List Byte) (poison : Bool) (s : State) : State :=
  let bad : AccessErr := { status, addr := o.chip * 2 ^ 48 + o.dpa, kind := 3 }
  match o.agent with
  | .load c sl off => answerLoad (threadKey c sl) off status bs poison o.chip o.dpa s
  | .posted c sl => answerPosted (threadKey c sl) status o.chip o.dpa s
  | .packet id => if status ≠ 0 then packetFails id status 2 o.chip o.dpa s else answerFront id 0 s
  | .packetRead id dva =>
    if status ≠ 0 then packetFails id status 1 o.chip o.dpa s
    else
      match findPkt s id with
      | none => s
      | some p =>
        if poison then finishPkt id 0x0460 0 0 (markLogged id (farPoison p.who dva o.dpa s))
        else rerunPacket id (updPkt id (fun q => { q with far := q.far ++ [(dva, bs)], wait := .engine }) s)
  | .streamRead i dva =>
    if status ≠ 0 then answerStream i dva true status [] (cons.streams.getD i 0) (reportErr (streamWho s i 0) 1 dva bad s)
    else if poison then
      answerStream i dva true 0x0460 [] (cons.streams.getD i 0) (farPoison (streamWho s i 0) dva o.dpa s)
    else answerStream i dva true 0 bs (cons.streams.getD i 0) s
  | .streamWrite i =>
    if status ≠ 0 then
      answerStream i 0 false status [] (cons.streams.getD i 0) (reportAccess (streamWho s i 0) 2 none bad 0 s)
    else s
  | .sweepRead c dva =>
    if status ≠ 0 then answerSweep c dva true status [] (cons.sweeps.getD c 0) (reportErr (sweepWho s c) 1 dva bad s)
    else if poison then answerSweep c dva true 0x0460 [] (cons.sweeps.getD c 0) (farPoison (sweepWho s c) dva o.dpa s)
    else answerSweep c dva true 0 bs (cons.sweeps.getD c 0) s
  | .sweepWrite c =>
    if status ≠ 0 then
      answerSweep c 0 false status [] (cons.sweeps.getD c 0) (reportAccess (sweepWho s c) 2 none bad 0 s)
    else s
  | .window a n =>
    let w : Who := { owner := o.owner, agent := 6, index := 0, source := 0x20, requester := some 0 }
    if n = 0 then (if status ≠ 0 then reportAccess w 2 none bad 0 s else s)
    else if status ≠ 0 then emit (.answer (.fn 0) a .abort) (reportAccess w 1 none bad 0 s)
    else if poison then emit (.answer (.fn 0) a (.poisoned (getLe bs 0 n))) s
    else emit (.answer (.fn 0) a (.ok (getLe bs 0 n))) s
  | a => answerMover a status bs poison o.chip o.dpa s

/-- Takes some outstanding requests out and completes each with a status (R230, R236, R238). -/
def completeAll (cons : Cons) (p : Outstanding → Bool) (status : Nat) (s : State) : State :=
  let l := s.elk.outstanding.filter p
  let s1 := updElk (fun e => { e with outstanding := e.outstanding.filter (fun o => !(p o)) }) s
  l.foldl (fun t o => completeRemote cons o status [] false t) s1

/-! The peer of a port -/

/-- The manifest's entry of a serial, with its index. -/
def entryOf (m : Manifest) (serial : Nat) : Option (Nat × ChipEntry) :=
  ((List.range m.chips.length).zip m.chips).find? (fun x => x.2.serial == serial)

/-- The logical ID of a port's peer: the manifest's where it lists the serial, else HELLO's. -/
def peerOf (s : State) (p : Nat) : Option Nat :=
  let x := portAt s p
  match s.elk.manifest with
  | some m =>
    match entryOf m x.peerSerial with
    | some e => if e.2.spare then none else some e.2.id
    | none => if x.peerHasId then some x.peerId else none
  | none => if x.peerHasId then some x.peerId else none

/-- A link entry joins this chip and port to the peer and its port (R228). -/
def linkJoined (m : Manifest) (p peer peerPort : Nat) : Bool :=
  match m.selfIndex with
  | none => false
  | some me => m.links.any (fun l =>
      (l.a == me && l.pa == p && l.b == peer && l.pb == peerPort) ||
      (l.b == me && l.pb == p && l.a == peer && l.pa == peerPort))

/-! Domain messages (R231) -/

/-- A DOMAIN message. -/
def domainMsg (s : State) (dst dtype addr : Nat) (data : List Byte) : List Byte :=
  msgHead 0xC0 dst 0 s.elk.selfId 0 0 0 (ceilDiv data.length 16) dtype addr ++ units16 data

/-- Puts a FENCE for an ID on a port. -/
def sendFence (id p : Nat) (s : State) : State :=
  let epoch := (s.elk.manifest.map (·.epoch)).getD 0
  enqueue p 8 (domainMsg s 0x3F 0x20 (id + epoch * 2 ^ 32) []) s

/-- The digest and epoch of FINISHED and REDIGEST. -/
def digestBytes (s : State) : List Byte :=
  leBytes 8 ((s.elk.manifest.map (·.digest)).getD 0) ++ leBytes 4 ((s.elk.manifest.map (·.epoch)).getD 0) ++ zeros 4

/-- HELLO's data unit. -/
def helloBytes (s : State) (p : Nat) : List Byte :=
  leBytes 8 Config.serial.toNat ++ leBytes 4 ((s.elk.manifest.map (·.epoch)).getD 0) ++ leBytes 1 p ++
  leBytes 1 (s.elk.selfId + b2n s.elk.hasId * 128) ++ zeros 2

/-! Suspicion (R237) -/

/-- Sends one PROBE to an ID on an available route. -/
def sendProbe (id : Nat) (s : State) : State :=
  let s1 := updElk (fun e => { e with nextNonce := e.nextNonce + 1 }) s
  match sendTo id 8 (domainMsg s id 0x10 s.elk.nextNonce []) s1 with
  | some (_, t) => t
  | none => s1

/-- Suspicion of an ID starts. -/
def suspect (id : Nat) (s : State) : State :=
  if s.elk.suspects.contains id || (routeAt s id).fenced || (s.elk.hasId && s.elk.selfId == id) then s
  else sendProbe id (updElk (fun e => { e with suspects := addUnit id e.suspects }) s)

/-- Suspicion of an ID ends. -/
def cleared (id : Nat) (s : State) : State := updElk (fun e => { e with suspects := e.suspects.filter (· != id) }) s

/-! Port states (R227–R230) -/

/-- A port has left UP: its requests end, and its peer may come under suspicion (R230, R237). -/
def leftUp (cons : Cons) (p : Nat) (s : State) : State :=
  let s1 := completeAll cons (·.port == p) 0x0781 s
  match peerOf s1 p with
  | none => s1
  | some id => if elkPorts.any (fun q => portUp s1 q && peerOf s1 q == some id) then s1 else suspect id s1

/-- The parts of a port that a retraining starts afresh; counters and the last HELLO's fields stay. -/
def Port.idle (x : Port) (st : PortState) (cause : Nat) : Port :=
  { st, cause, peerId := x.peerId, peerHasId := x.peerHasId, peerPort := x.peerPort, peerSerial := x.peerSerial,
    uncorr := x.uncorr, tagFail := x.tagFail, replay := x.replay, backoff := x.backoff }

/-- Leaves the current state for another idle one. -/
def portIdle (cons : Cons) (p : Nat) (st : PortState) (cause : Nat) (s : State) : State :=
  let was := portUp s p
  let s1 := updPort p (fun x => x.idle st cause) s
  if was then leftUp cons p s1 else s1

/-- The back-off after this DOWN (R227). -/
def nextBackoff (now : Nat) (x : Port) : Nat :=
  let b := if x.st == .up && decide (x.upSince + 1000000000 ≤ now) then 10 else x.backoff
  min 1000 (2 * b)

/-- A port enters DOWN and logs its cause (R227, R228). -/
def portDown (cons : Cons) (p cause : Nat) (s : State) : State :=
  let b := nextBackoff s.dts (portAt s p)
  let s1 := linkLog 10 (if cause = 3 then 3 else 2) sevContained p 0
    (updPort p (fun x => { x with backoff := b }) s)
  portIdle cons p .down cause s1

/-- A trained port enters UP: full credits on both sides, and its peer is alive (R221, R237). -/
def portGoesUp (p : Nat) (s : State) : State :=
  let s1 := updPort p (fun x => { x with st := .up, upSince := s.dts }) s
  match peerOf s1 p with
  | some id => cleared id s1
  | none => s1

/-- A port enters or stays in QUARANTINE (R228, R230). -/
def portQuarantine (cons : Cons) (p cause : Nat) (s : State) : State :=
  let was := portUp s p
  let s1 := linkLog 10 4 sevNotice p 0
    (updPort p (fun x => { x with st := .quarantine, cause
                                  queues := x.queues.filter (fun q => q.1 == 8 || q.1 == 9) }) s)
  if was then leftUp cons p s1 else s1

/-- The peer checks of R228 and R230; `sig` is whether the peer's KEY verifies under the DEVKEY now listed. -/
def judgePort (cons : Cons) (p : Nat) (sig : Bool) (s : State) : State :=
  let x := portAt s p
  match s.elk.manifest with
  | none => portQuarantine cons p 5 s
  | some m =>
    match entryOf m x.peerSerial with
    | none => portQuarantine cons p 5 s
    | some e =>
      if !sig then portDown cons p 3 s
      else if !(linkJoined m p e.1 x.peerPort) then portQuarantine cons p 5 s
      else if x.peerDigest != some m.digest then portQuarantine cons p 4 s
      else if portUp s p then s
      else portGoesUp p s

/-- A port with EN 1 starts PHY training; one on a lost reference stays DOWN (R49, R227). -/
def portStart (p : Nat) (s : State) : State :=
  let ok := if p < 2 then s.pwr.okElk0 else s.pwr.okElk1
  if regBit s (0x2000000 + p * 0x100) 31 && ok then updPort p (fun x => x.idle .phy x.cause) s else s

/-- ELK_PORT_CTRL has been written (R227). -/
def portCtrlWritten (cons : Cons) (p : Nat) (s : State) : State :=
  if regBit s (0x2000000 + p * 0x100) 31 then
    if (portAt s p).st == .disabled && linkRuns s then portStart p s else s
  else portIdle cons p .disabled (portAt s p).cause s

/-- PHY training ended: `half` none at ×16, true at ×8; `ok` false when no half passes (R216). -/
def phyTrained (cons : Cons) (p : Nat) (lanes : Nat) (s : State) : State :=
  if !(linkRuns s) || (portAt s p).st != .phy then s
  else
    let lo := lanes % 256 == 255
    let hi := lanes / 256 % 256 == 255
    if !lo && !hi then portDown cons p 2 s
    else emit (.linkMsg p 1 (helloBytes s p)) (updPort p (fun x => { x with st := .hello, x8 := !(lo && hi) }) s)

/-- HELLO from the peer (R227, R231). -/
def helloReceived (p serial peerPort id : Nat) (hasId : Bool) (s : State) : State :=
  if !(linkRuns s) || (portAt s p).st != .hello then s
  else
    let s1 := updPort p (fun x => { x with
      st := .keyx, peerSerial := serial, peerPort := peerPort % 4, peerId := id % 64, peerHasId := hasId }) s
    emit (.linkMsg p 2 ((List.range 192).map (Config.linkKey p s.dts))) s1

/-- KEY from the peer, with the verdict on its signature (R228). -/
def keyReceived (cons : Cons) (p : Nat) (key : List Byte) (sig : Bool) (s : State) : State :=
  if !(linkRuns s) || (portAt s p).st != .keyx then s
  else
    let listed := match s.elk.manifest with
      | some m => (entryOf m (portAt s p).peerSerial).isSome
      | none => false
    if listed && !sig then portDown cons p 3 s
    else emit (.linkMsg p 3 (digestBytes s)) (updPort p (fun x => { x with peerKey := some key, keySigOk := sig }) s)

/-- FINISHED from the peer (R228). -/
def finishedReceived (cons : Cons) (p digest : Nat) (tagOk : Bool) (s : State) : State :=
  let x := portAt s p
  if !(linkRuns s) || x.st != .keyx || x.peerKey.isNone then s
  else if !tagOk then portDown cons p 3 s
  else judgePort cons p x.keySigOk (updPort p (fun y => { y with peerDigest := some digest }) s)

/-- REDIGEST from the peer (R230). -/
def redigestReceived (cons : Cons) (p digest : Nat) (sig : Bool) (s : State) : State :=
  let x := portAt s p
  if !(linkRuns s) || !(x.st == .up || x.st == .quarantine) then s
  else judgePort cons p sig (updPort p (fun y => { y with peerDigest := some digest, keySigOk := sig }) s)

/-! Losing a chip (R237–R239) -/

/-- The chip declares an ID lost, or takes a FENCE for it (R238). -/
def declareLost (cons : Cons) (id : Nat) (s : State) : State :=
  if (routeAt s id).fenced then s
  else
    let s1 := updRoute id (fun r => { r with fenced := true }) (cleared id s)
    let s2 := linkLog 11 1 sevContained 0 id (completeAll cons (·.chip == id) 0x0780 s1)
    elkPorts.foldl (fun t p => if portUp t p && peerOf t p != some id then sendFence id p t else t) s2

/-- LOSS_HOLD ends (R237). -/
def lossHoldExpiry (cons : Cons) (id : Nat) (s : State) : State :=
  if linkRuns s && s.elk.suspects.contains id then declareLost cons id s else s

/-- PROBE_TIMER: one more PROBE to each ID under suspicion (R237). -/
def probeTimer (s : State) : State := if linkRuns s then s.elk.suspects.foldl (fun t id => sendProbe id t) s else s

/-- A PROBE_RSP ends suspicion of its source (R237). -/
def probeAnswered (id : Nat) (s : State) : State := if linkRuns s then cleared id s else s

/-- FENCE arrives on a port (R229, R238). -/
def fenceReceived (cons : Cons) (p id epoch : Nat) (s : State) : State :=
  if !(linkRuns s) || !(portUp s p) then s
  else if (routeAt s id).fenced || s.elk.manifest.map (·.epoch) != some epoch then linkLog 11 2 sevNotice p id s
  else declareLost cons id s

/-- A request's time is up (R236). -/
def requestTimeout (cons : Cons) (tag : Nat) (s : State) : State :=
  match s.elk.outstanding.find? (·.tag == tag) with
  | none => s
  | some o =>
    if !(linkRuns s) then s
    else
      let rest := s.dts + 2 * regFld s 0x2008030 15 0 * 100000
      let s1 := updElk (fun e => { e with retired := e.retired.filter (fun r => decide (s.dts < r.2)) ++ [(tag, rest)] }) s
      suspect o.chip (completeAll cons (·.tag == tag) 0x0781 s1)

/-! The domain's commands (R224–R226, R240) -/

/-- One chip entry of a manifest. -/
def parseChip (b : List Byte) (i : Nat) : ChipEntry :=
  let a := 64 + 112 * i
  { serial := getLe b a 8, id := getLe b (a + 8) 1 % 64, spare := bitOf (getLe b (a + 8) 1) 7, devKey := slice b (a + 16) 96 }

/-- One link entry of a manifest. -/
def parseLink (b : List Byte) (chips j : Nat) : LinkEntry :=
  let a := 64 + 112 * chips + 4 * j
  { a := getLe b a 1, pa := getLe b (a + 1) 1, b := getLe b (a + 2) 1, pb := getLe b (a + 3) 1 }

/-- Strictly rising by a relation between neighbours. -/
def risesBy {α : Type} (lt : α → α → Bool) : List α → Bool
  | [] => true
  | [_] => true
  | x :: y :: t => lt x y && risesBy lt (y :: t)

/-- No repeat. -/
def noRepeat : List Nat → Bool
  | [] => true
  | x :: t => !(t.contains x) && noRepeat t

/-- The manifest that bytes hold, when they are valid (R225); `epoch` is the committed manifest's. -/
def parseManifest (b : List Byte) (epoch : Option Nat) : Option Manifest :=
  let n := getLe b 6 1
  let k := getLe b 7 1
  let chips := (List.range n).map (parseChip b)
  let links := (List.range k).map (parseLink b n)
  let me := ((List.range n).zip chips).find? (fun x => x.2.serial == Config.serial.toNat)
  let reservedOk := allZero (slice b 16 48) && (List.range n).all (fun i =>
    let c := getLe b (64 + 112 * i + 8) 1
    !(bitOf c 6) && (!(bitOf c 7) || c % 64 == 0) && allZero (slice b (64 + 112 * i + 9) 7))
  let ids := (chips.filter (fun c => !c.spare)).map (·.id)
  let ends := links.flatMap (fun l => [l.a * 256 + l.pa, l.b * 256 + l.pb])
  let linksOk := links.all (fun l => decide (l.a < l.b) && decide (l.b < n) && decide (l.pa < 4) && decide (l.pb < 4)) &&
    risesBy (fun x y => decide (x.a * 256 + x.pa < y.a * 256 + y.pa)) links && noRepeat ends
  let ok := decide (8 ≤ b.length) && decide (1 ≤ n ∧ n ≤ 64 ∧ k ≤ 128) && b.length == 64 + 112 * n + 4 * k &&
    getLe b 0 4 == 0x4D4B4C45 && getLe b 4 2 == 1 && reservedOk &&
    risesBy (fun x y => decide (x.serial < y.serial)) chips && noRepeat ids && linksOk &&
    (match epoch with
      | some e => decide (e < getLe b 12 4)
      | none => true)
  if ok then
    some { domainId := getLe b 8 4, epoch := getLe b 12 4, chips, links,
           digest := ofLe ((List.range 8).map (Config.sha256 b)), selfIndex := me.map (·.1),
           selfId := me.bind (fun x => if x.2.spare then none else some x.2.id) }
  else none

/-- A command ends with a status. -/
def elkDone (status : Nat) (s : State) : State := updElk (fun e => { e with busy := false, status }) s

/-- STAGE's host read has come back, or failed (R226). -/
def stageAnswer (host : Option (List Byte)) (s : State) : State :=
  if !s.elk.staging then s
  else
    let s1 := updElk (fun e => { e with staging := false }) s
    match host with
    | none => elkDone 0x0461 (hostError 1 0 (rawAt s 0x2008010) 7 0 s1)
    | some b =>
      let bytes := slice b 0 (rawAt s 0x2008018)
      match parseManifest bytes (s.elk.manifest.map (·.epoch)) with
      | some m => elkDone 0 (updElk (fun e => { e with staged := some m }) s1)
      | none => elkDone 0x0303 s1

/-- A commit of this manifest must not take force: it changes or removes the self ID with an owner ACTIVE (R226). -/
def commitRefused (s : State) (m : Manifest) : Bool :=
  s.elk.hasId && (s.elk.manifest.bind (·.selfId)) != m.selfId && (run 1 63).any (ownerActive s)

/-- The staged manifest becomes current; `sigs` are the verdicts on the kept KEY messages, by port (R226, R230). -/
def commitNow (cons : Cons) (sigs : List Bool) (s : State) : State :=
  match s.elk.staged with
  | none => elkDone 0x0280 (updElk (fun e => { e with commitAt := none }) s)
  | some m =>
    if commitRefused s m then elkDone 0x0225 (updElk (fun e => { e with commitAt := none }) s)
    else
      let s1 := elkDone 0 (updElk (fun e => { e with commitAt := none, staged := none, manifest := some m }) s)
      elkPorts.foldl (fun t p =>
        let x := portAt t p
        if x.st == .up || x.st == .quarantine then
          judgePort cons p (sigs.getD p false) (enqueue p 8 (domainMsg t 0x3F 0x04 0 (digestBytes t)) t)
        else t) s1

/-- A commit that is due takes force. -/
def commitDue (cons : Cons) (sigs : List Bool) (s : State) : State :=
  match s.elk.commitAt with
  | some t => if t ≤ s.dts then commitNow cons sigs s else s
  | none => s

/-- ELK_CMD is written with a legal value while not BUSY (R226, R240). -/
def elkCmd (cons : Cons) (v : Nat) (s : State) : State :=
  let op := fld v 3 0
  let id := fld v 13 8
  let own := s.elk.hasId && s.elk.selfId == id
  let r := routeAt s id
  if op = 1 then
    emit (.hostRead 0 (rawAt s 0x2008010) (rawAt s 0x2008018))
      (updElk (fun e => { e with busy := true, staging := true }) s)
  else if op = 2 then
    match s.elk.staged with
    | none => elkDone 0x0280 s
    | some m =>
      let t := rawAt s 0x2008020
      if s.dts + 2 ^ 36 < t then elkDone 0x0305 s
      else if commitRefused s m then elkDone 0x0225 s
      else updElk (fun e => { e with busy := true, commitAt := some (max t s.dts) }) s
  else if op = 3 then
    if own then elkDone 0x0303 s
    else if r.valid && !r.fenced then elkDone 0x0281 s
    else elkDone 0 (updRoute id (fun x => { x with
      valid := true, fenced := false, altEn := bitOf v 20, alt := fld v 19 18, primary := fld v 17 16, usingAlt := false }) s)
  else if op = 4 then
    if own then updElk (fun e => { e with busy := true, selfFence := true }) s
    else elkDone 0 (declareLost cons id s)
  else if own then elkDone 0x0303 s
  else if !r.fenced then elkDone 0x0281 s
  else elkDone 0 (updRoute id (fun x => { x with fenced := false }) s)

end Sys2Proof.Machine
end

