-- ==== Sys2Proof/Machine/LinkFlit.lean ====
section
/-! DEFINITION. Eriati Link: messages at their target and at forwarders, flits in both directions, retry and
acknowledgement (R217–R223, R231–R236, R239). -/

namespace Sys2Proof.Machine

/-! Messages -/

/-- A message's header fields. -/
structure Msg where
  mtype : Nat
  dst : Nat
  tc : Nat
  src : Nat
  hops : Nat
  owner : Nat
  tag : Nat
  size : Nat
  mod : Nat
  addr : Nat
  data : List Byte
  bytes : List Byte
deriving DecidableEq, Repr

/-- Reads a message: its header and its data (R223). -/
def parseMsg (b : List Byte) : Msg :=
  { mtype := getLe b 0 1, dst := getLe b 1 1 % 64, tc := getLe b 1 1 / 64, src := getLe b 2 1 % 64,
    hops := getLe b 2 1 / 64, owner := getLe b 3 1, tag := getLe b 4 2, size := getLe b 6 1, mod := getLe b 7 1,
    addr := getLe b 8 8, data := b.drop 16, bytes := b }

/-- Data units that follow a header of this type and size (R223). -/
def dataUnits (mtype size : Nat) : Nat :=
  if mtype = 0x02 ∨ mtype = 0x81 then ceilDiv (size + 1) 16
  else if mtype = 0x03 ∨ mtype = 0x83 then 1
  else if mtype = 0xC0 then size
  else 0

/-- A request: READ, WRITE, ATOMIC, or a DOMAIN message that asks. -/
def isRequest (mtype : Nat) : Bool := mtype == 0x01 || mtype == 0x02 || mtype == 0x03

/-- A response. -/
def isResponse (mtype : Nat) : Bool := mtype == 0x81 || mtype == 0x82 || mtype == 0x83 || mtype == 0x8F

/-- The channel half a message travels in: class × 2, or MGMT, plus 1 for responses (R221, R231). -/
def halfOf (m : Msg) : Nat :=
  if m.mtype = 0xC0 then (if m.mod = 0x11 then 9 else 8) else m.tc * 2 + b2n (isResponse m.mtype)

/-- A known DOMAIN type. -/
def domainType (d : Nat) : Bool :=
  d == 0x01 || d == 0x02 || d == 0x03 || d == 0x04 || d == 0x10 || d == 0x11 || d == 0x20

/-- The data units each DOMAIN type carries (R231). -/
def domainUnits (d : Nat) : Nat := if d = 0x02 then 12 else if d = 0x01 ∨ d = 0x03 ∨ d = 0x04 then 1 else 0

/-- Widths, operations and line bounds an ATOMIC may name (R111, R223). -/
def atomicLegal (m : Msg) : Bool :=
  let bytes := if bitOf m.mod 5 then 8 else 4
  fld m.mod 7 6 == 0 && (fld m.mod 4 0 == 31 || (amoNew (fld m.mod 4 0) bytes 0 0).isSome) && m.addr % bytes == 0

/-- No reserved value stands in the header (R223). -/
def headerLegal (m : Msg) : Bool :=
  decide (m.owner < 64) &&
  (if m.mtype = 0x01 then
      decide (m.size < 64) && m.mod == 0 && decide (m.addr < 2 ^ 48) && decide (m.addr % 64 + m.size < 64)
   else if m.mtype = 0x02 then
      decide (m.size < 64) && (m.mod == 0 || m.mod == 64) && decide (m.addr < 2 ^ 48) &&
      decide (m.addr % 64 + m.size < 64)
   else if m.mtype = 0x03 then m.size == 0 && decide (m.addr < 2 ^ 48) && atomicLegal m
   else if m.mtype = 0x81 then decide (m.size < 64) && (m.mod == 0 || m.mod == 64) && m.addr == 0
   else if m.mtype = 0x82 ∨ m.mtype = 0x83 then m.size == 0 && m.mod == 0 && m.addr == 0
   else if m.mtype = 0x8F then m.size == 0 && m.mod == 0 && decide (m.addr < 65536)
   else if m.mtype = 0xC0 then
      domainType m.mod && m.size == domainUnits m.mod && m.owner == 0 &&
      (if m.mod = 0x20 then fld m.addr 31 6 == 0 else m.mod == 0x10 || m.mod == 0x11 || m.addr == 0)
   else false)

/-- Sends a response or NACK to a source: by its route, or back where the request came from. -/
def replyTo (p src half : Nat) (msg : List Byte) (s : State) : State :=
  if (portAt s p).st == .quarantine || !(routeAt s src).valid then enqueue p half msg s
  else
    match sendTo src half msg s with
    | some (_, t) => t
    | none => enqueue p half msg s

/-- Answers a request with NACK (R223, R232, R235). -/
def nack (p : Nat) (m : Msg) (status : Nat) (s : State) : State :=
  let half := if m.mtype = 0xC0 then 9 else m.tc * 2 + 1
  replyTo p m.src half (msgHead 0x8F m.src m.tc s.elk.selfId 0 m.owner m.tag 0 0 status) s

/-- Logs a message with a reserved value, or one that is discarded (R223). -/
def logMsg (p status : Nat) (m : Msg) (s : State) : State :=
  logErr { cls := 1, cause := 1, sev := sevNotice, status, source := 0x20, index := p, tag := m.tag, info := m.src } s

/-- A late, unknown or fenced answer is discarded and logged (R236, R238). -/
def lateAnswer (p : Nat) (m : Msg) (s : State) : State := linkLog 11 3 sevNotice p m.src s

/-- A request fails the target's checks: NACK, log and fault record with AGENT 8 (R87, R235). -/
def targetRefuses (p : Nat) (m : Msg) (status : Nat) (s : State) : State :=
  let acc := if m.mtype = 0x01 then 1 else if m.mtype = 0x02 then 2 else 8
  let s1 := nack p m status s
  if status / 256 = 3 ∨ status = 0x0460 then
    logAccess 1 (some m.owner) 0x20
      { addr := s.elk.selfId * 2 ^ 48 + m.addr, addrKind := 1, status, agent := 8, access := acc + m.tc * 16,
        index := m.src } 1 0 p s1
  else s1

/-- The target's checks, the fenced source first (R235). -/
def targetError (s : State) (m : Msg) : Option Nat :=
  if (routeAt s m.src).fenced then some 0x0780
  else if !(ownerActive s m.owner) then some 0x0803
  else
    match regionOf m.addr with
    | none => some 0x0320
    | some .regs => some 0x0325
    | some _ => (localCheck s m.owner m.addr (m.mtype != 0x01)).map (·.status)

/-- READ at the target (R162, R235). `ecc` is what ECC finds in the line. -/
def targetRead (p : Nat) (m : Msg) (ecc : Ecc) (s : State) : State :=
  let n := m.size + 1
  let s1 := match ecc with
    | .ok => s
    | .ce => foundCe m.addr s
    | .ue => foundUe m.addr s
  let bad := (poisonIn s1 m.addr n).isSome
  let s2 := countBytes m.addr n false (chargeTc0 m.addr m.tc s1)
  replyTo p m.src (m.tc * 2 + 1)
    (msgHead 0x81 m.src m.tc s.elk.selfId 0 m.owner m.tag m.size (if bad then 64 else 0) 0 ++
      units16 (readMem s2 m.owner m.addr n)) s2

/-- WRITE at the target: poisoned data marks what it covers (R162). -/
def targetWrite (p : Nat) (m : Msg) (s : State) : State :=
  let n := m.size + 1
  let s1 := deviceWrite notThread m.owner m.addr (slice m.data 0 n) (chargeTc0 m.addr m.tc s)
  let s2 := if bitOf m.mod 6 then (run m.addr n).foldl (fun t a => if poisonedAt t a then t else markPoison a t) s1 else s1
  replyTo p m.src (m.tc * 2 + 1) (msgHead 0x82 m.src m.tc s.elk.selfId 0 m.owner m.tag 0 0 0) s2

/-- The value an ATOMIC stores (R111, R223). -/
def atomicNew (m : Msg) (old : Nat) : Nat :=
  let bytes := if bitOf m.mod 5 then 8 else 4
  if fld m.mod 4 0 = 31 then (if old = getLe m.data 0 bytes then getLe m.data 8 bytes else old)
  else (amoNew (fld m.mod 4 0) bytes old (getLe m.data 0 bytes)).getD old

/-- ATOMIC at the target (R111, R235). -/
def targetAtomic (p : Nat) (m : Msg) (ecc : Ecc) (s : State) : State :=
  let bytes := if bitOf m.mod 5 then 8 else 4
  let s1 := match ecc with
    | .ok => s
    | .ce => foundCe m.addr s
    | .ue => foundUe m.addr s
  if (poisonIn s1 m.addr bytes).isSome then targetRefuses p m 0x0460 s1
  else
    let old := getLe (readMem s1 m.owner m.addr bytes) 0 bytes
    let s2 := deviceWrite notThread m.owner m.addr (leBytes bytes (atomicNew m old)) (chargeTc0 m.addr m.tc s1)
    replyTo p m.src (m.tc * 2 + 1)
      (msgHead 0x83 m.src m.tc s.elk.selfId 0 m.owner m.tag 0 0 0 ++ units16 (leBytes bytes old)) s2

/-- A request for this chip (R235). -/
def serveRequest (p : Nat) (m : Msg) (ecc : Ecc) (s : State) : State :=
  match targetError s m with
  | some st => targetRefuses p m st s
  | none =>
    if m.mtype = 0x01 then targetRead p m ecc s
    else if m.mtype = 0x02 then targetWrite p m s
    else targetAtomic p m ecc s

/-- A response or NACK for this chip (R234, R236, R238). -/
def takeAnswer (cons : Cons) (p : Nat) (m : Msg) (s : State) : State :=
  match s.elk.outstanding.find? (·.tag == m.tag) with
  | none => lateAnswer p m s
  | some o =>
    if (routeAt s m.src).fenced then lateAnswer p m s
    else
      let s1 := updElk (fun e => { e with outstanding := e.outstanding.filter (fun x => x.tag != o.tag) }) s
      if m.mtype = 0x8F then completeRemote cons o m.addr [] false s1
      else completeRemote cons o 0 (if m.mtype = 0x81 then slice m.data 0 (m.size + 1) else slice m.data 0 8)
        (m.mtype == 0x81 && bitOf m.mod 6) s1

/-- A message for another chip goes on toward it (R232). -/
def forward (p : Nat) (m : Msg) (s : State) : State :=
  let asks := isRequest m.mtype || m.mtype == 0xC0 && m.mod == 0x10
  if m.hops = 3 then
    let s1 := linkLog 11 4 sevNotice p m.src s
    if asks then nack p m 0x0781 s1 else s1
  else
    let fwd := slice m.bytes 0 2 ++ leBytes 1 (m.src + (m.hops + 1) * 64) ++ m.bytes.drop 3
    match (if (routeAt s m.dst).valid then sendTo m.dst (halfOf m) fwd s else none) with
    | some (_, t) => t
    | none => if asks then nack p m 0x0781 s else s

/-- A DOMAIN message for this chip (R228–R231, R237, R238). `sig` is the verdict on a signature it brings or recalls. -/
def takeDomain (cons : Cons) (p : Nat) (m : Msg) (sig : Bool) (s : State) : State :=
  if m.mod = 0x01 then
    helloReceived p (getLe m.data 0 8) (getLe m.data 12 1) (getLe m.data 13 1) (bitOf (getLe m.data 13 1) 7) s
  else if m.mod = 0x02 then keyReceived cons p (slice m.data 0 192) sig s
  else if m.mod = 0x03 then finishedReceived cons p (getLe m.data 0 8) true s
  else if m.mod = 0x04 then redigestReceived cons p (getLe m.data 0 8) sig s
  else if !(portUp s p) then s
  else if m.mod = 0x10 then
    replyTo p m.src 9 (msgHead 0xC0 m.src m.tc s.elk.selfId 0 0 m.tag 0 0x11 m.addr) s
  else if m.mod = 0x11 then probeAnswered m.src s
  else fenceReceived cons p (m.addr % 64) (m.addr / 2 ^ 32) s

/-- The message is for this chip (R223, R232). -/
def forMe (s : State) (m : Msg) : Bool :=
  if m.mtype = 0xC0 && (m.mod != 0x10 && m.mod != 0x11) then true
  else s.elk.hasId && m.dst == s.elk.selfId

/-- One message that arrived on a port in UP or QUARANTINE. -/
def receiveMsg (cons : Cons) (p : Nat) (ecc : Ecc) (sig : Bool) (m : Msg) (s : State) : State :=
  let x := portAt s p
  if !(headerLegal m) then
    let s1 := logMsg p 0x0303 m s
    if isRequest m.mtype then nack p m 0x0303 s1 else s1
  else if x.st == .quarantine && m.mtype != 0xC0 then
    if isRequest m.mtype then nack p m 0x0380 s else s
  else if x.st == .quarantine && (m.mod == 0x10 || m.mod == 0x11 || m.mod == 0x20) then s
  else if forMe s m then
    if isRequest m.mtype then serveRequest p m ecc s
    else if isResponse m.mtype then takeAnswer cons p m s
    else takeDomain cons p m sig s
  else if m.dst = 0x3F || !s.elk.hasId then
    if isRequest m.mtype then nack p m 0x0781 s else s
  else forward p m s

/-! Flits out (R217–R222) -/

/-- 16-byte units of a channel half's receive buffer (R221). -/
def halfUnits (h : Nat) : Nat := if h / 2 = 4 then 128 else if h / 2 = 0 ∨ h / 2 = 3 then 512 else 2048

/-- Units of a message. -/
def msgUnits (m : List Byte) : Nat := m.length / 16

/-- The head of a half can leave in the units left, with credits for all of it. -/
def canSend (x : Port) (left h : Nat) : Bool :=
  match Tbl.get [] x.queues h with
  | [] => false
  | m :: _ => decide (msgUnits m ≤ left) && decide (Tbl.get 0 x.used h + msgUnits m ≤ halfUnits h)

/-- The weight of class 1–3 (R157). -/
def classWeight (s : State) (c : Nat) : Nat :=
  if c = 1 then regFld s 0x1800000 11 8 else if c = 2 then regFld s 0x1800000 7 4 else regFld s 0x1800000 3 0

/-- Units of payload a port direction carries in 1 µs: 781 flits of 15. -/
abbrev portWindow : Nat := 11715

/-- The port direction is within its TC0 share (R156). -/
def shareLeft (s : State) (p : Nat) : Bool :=
  decide ((Tbl.get 0 s.mov.tc0Used (0x4_0000 + p) + 1) * 100 ≤ regFld s 0x1800000 28 24 * portWindow)

/-- The halves of class `c`, responses first; TC1 takes over TC0's messages beyond its share (R156, R222). -/
def classHalves (curOver : Bool) (c : Nat) : List Nat :=
  if c = 1 && curOver then [1, 0, 3, 2] else [c * 2 + 1, c * 2]

/-- The half that sends next, with the class whose turn it is. -/
def nextHalf (s : State) (p left : Nat) : Option (Nat × Nat) :=
  let x := portAt s p
  let within := shareLeft s p
  let pick (c : Nat) : Option (Nat × Nat) := ((classHalves (!within) c).find? (canSend x left)).map (fun h => (h, c))
  let quarantine := x.st == .quarantine
  if !quarantine && within && canSend x left 1 then some (1, 0)
  else if !quarantine && within && canSend x left 0 then some (0, 0)
  else if canSend x left 9 then some (9, 4)
  else if canSend x left 8 then some (8, 4)
  else if quarantine then none
  else
    match ([1, 2, 3].filter (fun c => decide (Tbl.get 0 x.turns c < classWeight s c))).findSome? pick with
    | some r => some r
    | none => [1, 2, 3].findSome? pick

/-- Takes one message of a half out, charging credits, turns and the TC0 share. -/
def takeMsg (p h c : Nat) (s : State) : State × List Byte :=
  let x := portAt s p
  match Tbl.get [] x.queues h with
  | [] => (s, [])
  | m :: rest =>
    let turns := if c = 0 ∨ c = 4 then x.turns
      else if Tbl.get 0 x.turns c < classWeight s c then Tbl.upd 0 x.turns c (· + 1) else [(c, 1)]
    let s1 := updPort p (fun y => { y with
      queues := Tbl.set [] y.queues h rest, used := Tbl.upd 0 y.used h (· + msgUnits m), turns }) s
    let s2 : State := if c = 0 then
        { s1 with mov := { s1.mov with tc0Used := Tbl.upd 0 s1.mov.tc0Used (0x4_0000 + p) (· + msgUnits m) } }
      else if c = 1 && decide (h < 2) then { s1 with mov := { s1.mov with tc0Over := (s1.mov.tc0Over + 1) % 2 ^ 64 } }
      else s1
    (s2, m)

/-- Fills up to 15 units (R222, R223). -/
def fillFlit (p : Nat) : Nat → Nat → List Byte → State → State × List Byte
  | 0, _, acc, s => (s, acc)
  | fuel + 1, left, acc, s =>
    match nextHalf s p left with
    | none => (s, acc)
    | some (h, c) =>
      let r := takeMsg p h c s
      fillFlit p fuel (left - msgUnits r.2) (acc ++ r.2) r.1

/-- The credits a flit returns: the first half that owes some (R218, R221). -/
def owedHalf (x : Port) : Nat × Nat :=
  match x.owed with
  | [] => (0, 0)
  | (h, n) :: _ => (h, min n 255)

/-- The header word (R218). -/
def flitHead (ftype kep nak seq ack cvc crsp credits : Nat) : Nat :=
  ftype * 2 ^ 62 + kep * 2 ^ 61 + nak * 2 ^ 60 + seq % 4096 * 2 ^ 48 + ack % 4096 * 2 ^ 36 + cvc * 2 ^ 33 +
  crsp * 2 ^ 32 + credits * 2 ^ 24

/-- Seals a flit (R219). -/
def sealFlit (x : Port) (head : Nat) (payload : List Byte) : List Byte :=
  let plain := leBytes 8 head ++ payload
  leBytes 8 head ++ (List.range 248).map (Config.sealByte (x.peerKey.getD []) x.rekey x.sealed plain)

/-- A new flit: DATA when there is something to send and room to retry it, else IDLE (R218–R222). -/
def newFlit (p : Nat) (s : State) : State :=
  let room := decide ((portAt s p).unacked.length < 512)
  let r := if room then fillFlit p 15 15 [] s else (s, [])
  let isData := !r.2.isEmpty
  let x := portAt r.1 p
  let turn := decide (0 < x.sealed ∧ x.sealed % 2 ^ 30 = 0)
  let y : Port := if turn then { x with rekey := x.rekey + 1, kep := !x.kep } else x
  let c := owedHalf y
  let head := flitHead (b2n isData) (b2n y.kep) (b2n y.nak) (if isData then y.txSeq else y.txSeq + 4095)
    (y.rxSeq + 4095) (c.1 / 2) (c.1 % 2) c.2
  let f := sealFlit y head (slice r.2 0 240)
  let z : Port := { y with
    sealed := y.sealed + 1, nak := false, ackOwed := 0
    owed := Tbl.upd 0 y.owed c.1 (· - c.2)
    txSeq := if isData then (y.txSeq + 1) % 4096 else y.txSeq
    unacked := if isData then y.unacked ++ [(y.txSeq, f)] else y.unacked }
  emit (.flit p f) (updPort p (fun _ => z) r.1)

/-- FLIT_TRANSMIT: a flit to be resent goes first, as stored (R219, R220). -/
def flitTransmit (p : Nat) (s : State) : State :=
  let x := portAt s p
  if !(linkRuns s) || !(x.st == .up || x.st == .quarantine) then s
  else
    match x.resend with
    | f :: rest => emit (.flit p f) (updPort p (fun y => { y with resend := rest, replay := satInc 0xFFFFFFFF y.replay }) s)
    | [] => newFlit p s

/-- A replay of every unacknowledged flit starts (R220). -/
def startReplay (cons : Cons) (p : Nat) (s : State) : State :=
  let x := portAt s p
  if x.unacked.isEmpty then s
  else if 8 ≤ x.noProgress + 1 then portDown cons p 6 s
  else linkLog 10 1 sevCorrected p 0
    (updPort p (fun y => { y with resend := y.unacked.map (·.2), noProgress := y.noProgress + 1 }) s)

/-- REPLAY_TIMEOUT (R220). -/
def replayTimeout (cons : Cons) (p : Nat) (s : State) : State :=
  let x := portAt s p
  if linkRuns s && (x.st == .up || x.st == .quarantine) then startReplay cons p s else s

/-! Flits in (R220) -/

/-- Acknowledges what an ACK_SEQ covers. -/
def takeAck (ack : Nat) (x : Port) : Port :=
  if x.unacked.any (·.1 == ack) then
    let keep := (x.unacked.dropWhile (·.1 != ack)).drop 1
    { x with unacked := keep, acked := ack, noProgress := 0, resend := x.resend.drop (x.resend.length - keep.length) }
  else x

/-- Splits a payload into messages (R223): an end unit closes it, and only end units may follow. -/
def splitMsgs : Nat → List Byte → List (List Byte)
  | 0, _ => []
  | fuel + 1, b =>
    if b.length < 16 ∨ getLe b 0 1 = 0 then []
    else
      let n := 16 * (1 + dataUnits (getLe b 0 1) (getLe b 6 1))
      b.take n :: splitMsgs fuel (b.drop n)

/-- Something follows the end unit, or a message runs out of the payload. -/
def payloadBad (b : List Byte) : Bool :=
  let used := (splitMsgs 15 b).foldl (fun n m => n + m.length) 0
  let want := (splitMsgs 15 b).foldl (fun n m => n + 16 * (1 + dataUnits (getLe m 0 1) (getLe m 6 1))) 0
  want != used || !(allZero (b.drop used))

/-- A discarded flit is answered with NAK; 16 tag failures in a row end the link (R220). -/
def discardFlit (cons : Cons) (p : Nat) (tagFail : Bool) (s : State) : State :=
  let s1 := updPort p (fun y => { y with
    nak := true, tagFail := if tagFail then satInc 0xFFFF y.tagFail else y.tagFail
    tagRun := if tagFail then y.tagRun + 1 else y.tagRun }) s
  if 16 ≤ (portAt s1 p).tagRun then portDown cons p 6 s1 else s1

/-- The messages of an accepted DATA flit, and the buffer space they free (R221). -/
def acceptMsgs (cons : Cons) (p : Nat) (ecc : Ecc) (sig : Bool) (payload : List Byte) (s : State) : State :=
  let ms := splitMsgs 15 payload
  let s1 := if payloadBad payload then logMsg p 0x0303 (parseMsg (slice payload 0 16)) s else s
  ms.foldl (fun t b =>
    let m := parseMsg b
    receiveMsg cons p ecc sig m (updPort p (fun y => { y with owed := Tbl.upd 0 y.owed (halfOf m) (· + msgUnits b) }) t)) s1

/-- FLIT_RECEIVE: header, decrypted payload, whether the tag verifies, and uncorrectable codewords (R218–R220). -/
def flitReceive (cons : Cons) (p head : Nat) (payload : List Byte) (tagOk : Bool) (uncorr : Nat) (ecc : Ecc) (sig : Bool)
    (s : State) : State :=
  let x := portAt s p
  if !(linkRuns s) || !(x.st == .up || x.st == .quarantine) then s
  else if uncorr ≠ 0 then
    discardFlit cons p false (updPort p (fun y => { y with uncorr := min 0xFFFF (y.uncorr + uncorr) }) s)
  else if !tagOk then discardFlit cons p true s
  else if 2 ≤ fld head 63 62 ∨ 5 ≤ fld head 35 33 ∨ fld head 23 0 ≠ 0 then discardFlit cons p false s
  else
    let h := fld head 35 33 * 2 + fld head 32 32
    let kep := bitOf head 61
    let s1 := updPort p (fun y =>
      let z := takeAck (fld head 47 36) y
      { z with
        tagRun := 0, used := Tbl.upd 0 z.used h (· - fld head 31 24)
        rxRekey := if kep != z.rxKep then z.rxRekey + 1 else z.rxRekey, rxKep := kep }) s
    let s2 := if bitOf head 60 then startReplay cons p s1 else s1
    if fld head 63 62 = 0 ∨ (portAt s2 p).st = .down then s2
    else if fld head 59 48 ≠ (portAt s2 p).rxSeq then discardFlit cons p false s2
    else
      let s3 := updPort p (fun y => { y with rxSeq := (y.rxSeq + 1) % 4096, nak := false, ackOwed := y.ackOwed + 1 }) s2
      let s4 := acceptMsgs cons p ecc sig (slice payload 0 240) s3
      if 32 ≤ (portAt s4 p).ackOwed then flitTransmit p s4 else s4

/-- ACK_TIMER: an acknowledgement leaves while a DATA flit is unacknowledged (R220). -/
def ackTimer (p : Nat) (s : State) : State := if 0 < (portAt s p).ackOwed then flitTransmit p s else s

/-- A message row: a request or an answer arrives whole on a port in UP or QUARANTINE. -/
def messageArrives (cons : Cons) (p : Nat) (ecc : Ecc) (sig : Bool) (want : Nat → Bool) (bytes : List Byte) (s : State) :
    State :=
  let x := portAt s p
  let m := parseMsg bytes
  if linkRuns s && (x.st == .up || x.st == .quarantine) && want m.mtype &&
      decide (bytes.length = 16 * (1 + dataUnits m.mtype m.size)) then receiveMsg cons p ecc sig m s
  else s

/-! The end of a self-fence (R239) -/

/-- With nothing outstanding, a self-fence sends FENCE for the chip's own ID on every UP port and disables its ports. -/
def settleElk (s : State) : State :=
  if !s.elk.selfFence || !s.elk.outstanding.isEmpty || !(linkRuns s) then s
  else
    let s1 := if s.elk.hasId then
        elkPorts.foldl (fun t p => if portUp t p then flitTransmit p (sendFence s.elk.selfId p t) else t) s
      else s
    let s2 := elkPorts.foldl (fun t p =>
      setRegFld (0x2000000 + p * 0x100) 31 31 0 (updPort p (fun x => x.idle .disabled 9) t)) s1
    updElk (fun e => { e with selfFence := false, busy := e.busy && (e.staging || e.commitAt.isSome)
                              status := if e.busy && !(e.staging || e.commitAt.isSome) then 0 else e.status }) s2

end Sys2Proof.Machine
end

