-- ==== Sys2Proof/Machine/MmpOps.lean ====
section
/-! DEFINITION. Receiving, answering and relaying MMP, tray SMBus targets and PTP (R453–R457, R467–R481). -/

namespace Sys2Proof.Machine

/-! Responses (R467, R470–R472) -/

/-- The ROM's recovery path runs (R513). -/
def inRecovery (s : State) : Bool := s.boot.path != 0

/-- Commands of R474. -/
def mmpListed : List Nat :=
  [0x0001, 0x0002, 0x0010, 0x0011, 0x0012, 0x0020, 0x0021, 0x0022, 0x0030, 0x0031, 0x0032, 0x0033, 0x0034, 0x0040,
   0x0050, 0x0051, 0x0060]

/-- Commands the recovery path answers (R513). -/
def mmpRecovery : List Nat := [0x0001, 0x0002, 0x0050, 0x0051, 0x0060]

/-- A field of a request's header. -/
def reqField (q : MmpRequest) (off n : Nat) : Nat := getLe q.packet off n

/-- A request's COMMAND. -/
def reqCommand (q : MmpRequest) : Nat := reqField q 24 2

/-- A request's payload. -/
def reqPayload (q : MmpRequest) : List Byte := slice q.packet 32 (reqField q 28 2)

/-- A request's tag. -/
def reqTag (q : MmpRequest) : List Byte := slice q.packet (32 + reqField q 28 2) 16

/-- A response leaves, with the DTS at which it was formed (R467). -/
def respond (q : MmpRequest) (status : Nat) (payload : List Byte) (s : State) : State :=
  let s1 := nextCounter s
  sendOut q.proxied 1 q.src
    (mmpPacket s1 2 (reqField q 7 1) (reqField q 20 4) (reqCommand q) status (leBytes 8 s.dts ++ payload)) s1

/-- An executed request's response: kept for R471, and the request floor's reserve written first (R470). -/
def answerReq (q : MmpRequest) (status : Nat) (payload : List Byte) (s : State) : State :=
  let kept := leBytes 8 s.dts ++ payload
  respond q status payload (updMgp (fun m => { m with
    lastTag := some (reqField q 8 8, reqTag q), lastResponse := kept, lastKey := reqField q 7 1
    lastSeq := reqField q 20 4, lastCmd := reqCommand q, lastStatus := status }) s)

/-- The request at the front of the queue leaves it, its reserve persisted (R470, R472). -/
def takeRequest (s : State) : Option (MmpRequest × State) :=
  match s.mgp.queue with
  | [] => none
  | q :: rest =>
    let c := reqField q 8 8
    some (q, updMgp (fun m => { m with queue := rest, reserve := if m.reserve < c then c + 2 ^ 20 else m.reserve }) s)

/-- Executes the front request when it carries a command of a given length, Lead or not (R474). `f` gives status,
payload and state. -/
def runMmp (cmd : Nat) (size : Nat → Bool) (leadOnly : Bool) (f : List Byte → State → Nat × List Byte × State)
    (s : State) : State :=
  match s.mgp.queue.head? with
  | none => s
  | some q =>
    if reqCommand q ≠ cmd ∨ romRuns s = false then s
    else
      match takeRequest s with
      | none => s
      | some (_, s1) =>
        if !(size (reqField q 28 2)) then answerReq q 0x0304 [] s1
        else if leadOnly && !(isTrayLead s1) then answerReq q 0x02E0 [] s1
        else
          let r := f (reqPayload q) s1
          answerReq q r.1 r.2.1 r.2.2

/-- Commands that are not listed, or that recovery does not answer, at the front of the queue (R474, R513). -/
def settleMmp : Nat → State → State
  | 0, s => s
  | n + 1, s =>
    match takeRequest s with
    | none => s
    | some (q, s1) =>
      let known := if inRecovery s then mmpRecovery.contains (reqCommand q) else mmpListed.contains (reqCommand q)
      if known then s else settleMmp n (answerReq q 0x0301 [] s1)

/-- Counts a packet that R469 turns away. -/
def mmpCount (lo hi l : Nat) (s : State) : State := bumpFld lo hi l s

/-- A kept response goes out again (R471). -/
def resendKept (q : MmpRequest) (s : State) : State :=
  let s1 := nextCounter s
  let m := s1.mgp
  sendOut q.proxied 1 q.src (mmpPacket s1 2 m.lastKey m.lastSeq m.lastCmd m.lastStatus m.lastResponse) s1

/-- R469's checks from the key on. -/
def mmpChecked (q : MmpRequest) (s : State) : State :=
  let p := q.packet
  let key := mmpKeyAt s (reqField q 7 1)
  let body := slice p 0 (32 + reqField q 28 2)
  let bare := s.boot.path == 1 && s.mgp.key0 == [] && s.mgp.key1 == [] && reqCommand q == 0x0060 &&
    getLe (reqPayload q) 0 1 == 0
  let serial := reqField q 16 4
  if !bare && (key == [] || mmpTag key body != reqTag q) then mmpCount 0x2B00010 31 16 s
  else if serial != serialLo && !(serial == 0xFFFFFFFF && reqCommand q == 1) then mmpCount 0x2B00014 15 0 s
  else
    let c := reqField q 8 8
    if c ≤ s.mgp.floor then
      if s.mgp.lastTag = some (c, reqTag q) ∧ c = s.mgp.floor then resendKept q s
      else respond q 0x0303 (leBytes 8 s.mgp.floor) (mmpCount 0x2B00014 31 16 s)
    else if 16 ≤ s.mgp.queue.length then mmpCount 0x2B00014 15 0 s
    else updMgp (fun m => { m with floor := c, queue := m.queue ++ [q] }) s

/-- R469's first check: the header and the length. -/
def mmpFormed (p : List Byte) : Bool :=
  getLe p 0 4 == 0x31504D4D && getLe p 4 1 == 1 && getLe p 5 1 == 1 && decide (getLe p 28 2 ≤ 1024) &&
  p.length == 48 + getLe p 28 2 && decide (getLe p 6 1 < 4) && decide (getLe p 7 1 < 2) && getLe p 30 2 == 0

/-- A fragment list of a packet, as PROXY_REQ sends it (R453). -/
def proxyFrags : Nat → List Byte → Nat → List (List Byte)
  | 0, _, _ => []
  | n + 1, p, i =>
    let last := decide (p.length ≤ 240)
    (leBytes 1 (i + (if last then 128 else 0)) ++ p.take 240) :: (if last then [] else proxyFrags n (p.drop 240) (i + 1))

/-- The tray lead relays a packet to another position (R473). -/
def proxyForward (pos : Nat) (q : MmpRequest) (s : State) : State :=
  let w : ProxyWait := { pos, seq := reqField q 20 4, key := reqField q 7 1, command := reqCommand q, src := q.src, since := s.dts }
  let silent := decide (4 ≤ (posAt s pos).fails)
  if silent then
    respond { q with proxied := false } 0x0781 [] s
  else
    updTmg (fun t => { t with proxies := t.proxies ++ [w] })
      ((proxyFrags 5 q.packet 0).foldl (fun t b => emit (.smbus (0x60 + pos) 0x40 b) t) s)

/-- A packet from the port or from the tray lead (R469, R473). -/
def mmpReceive (src packet : List Byte) (proxied : Bool) (s : State) : State :=
  if !(romRuns s) then s
  else if !(mmpFormed packet) then mmpCount 0x2B00010 15 0 s
  else
    let q : MmpRequest := { src, proxied, packet }
    let target := getLe packet 6 1
    if target ≠ s.pwr.straps.pos then
      if isTrayLead s && !proxied then proxyForward target q s else mmpCount 0x2B00014 15 0 s
    else mmpChecked q s

/-! Relaying (R473) -/

/-- PROXY_TIMEOUT: the oldest relayed request has waited 100 ms. -/
def proxyTimeout (s : State) : State :=
  match s.tmg.proxies with
  | [] => s
  | w :: rest =>
    let s1 := nextCounter (updTmg (fun t => { t with proxies := rest }) (advanceTo (w.since + 100000000) s))
    emit (.mmp w.src (mmpPacket s1 2 w.key w.seq w.command 0x0781 (leBytes 8 s1.dts))) s1

/-- OUTBOX_POLL: a PROXY_RSP block of a position; an empty one means its outbox is empty (R453, R473). -/
def outboxPoll (pos : Nat) (block : List Byte) (s : State) : State :=
  if !(isTrayLead s) || decide (block.length < 2) then s
  else
    let frag := getLe block 0 1
    let part := (Tbl.get [] s.tmg.readFrag pos) ++ (if frag % 128 = 0 then block.drop 1 else block.drop 2)
    if !(bitOf frag 7) then updTmg (fun t => { t with readFrag := Tbl.set [] t.readFrag pos part }) s
    else
      let s1 := updTmg (fun t => { t with readFrag := Tbl.erase t.readFrag pos }) s
      let kind := getLe part 0 1
      if kind = 2 then emit (.mmp (slice part 1 18) (part.drop 19)) s1
      else
        let pkt := part.drop 1
        match s1.tmg.proxies.find? (fun w => w.pos == pos && w.seq == getLe pkt 20 4) with
        | some w => emit (.mmp w.src pkt) (updTmg (fun t => { t with proxies := t.proxies.filter (· != w) }) s1)
        | none => s1

/-- PROXY_REQ: a fragment of a packet for this chip (R453, R473). -/
def proxyReq (block : List Byte) (s : State) : State :=
  if block.length < 2 ∨ 242 < block.length then s
  else
    let s0 := heardLead s
    let frag := getLe block 0 1
    let i := frag % 128
    if i ≠ 0 ∧ i ≠ s0.tmg.inNext then updTmg (fun t => { t with inFrag := [], inNext := 0 }) s0
    else
      let part := (if i = 0 then [] else s0.tmg.inFrag) ++ block.drop 1
      if bitOf frag 7 then mmpReceive (zeros 18) part true (updTmg (fun t => { t with inFrag := [], inNext := 0 }) s0)
      else updTmg (fun t => { t with inFrag := part, inNext := i + 1 }) s0

/-- PROXY_RSP: the next fragment of the outbox's first packet (R453). -/
def proxyRsp (s : State) : State :=
  let s0 := heardLead s
  let me := 0x60 + s.pwr.straps.pos
  match s0.tmg.outbox with
  | [] => emit (.smbus me 0x41 []) s0
  | p :: rest =>
    let whole := (if p.kind = 2 then slice p.dest 0 18 else []) ++ p.bytes
    let i := s0.tmg.outFrag
    let room := 240
    let piece := (whole.drop (i * room)).take room
    let last := decide (whole.length ≤ (i + 1) * room)
    let block := leBytes 1 (i + (if last then 128 else 0)) ++ leBytes 1 p.kind ++ piece
    emit (.smbus me 0x41 block)
      (updTmg (fun t => if last then { t with outbox := rest, outFrag := 0 } else { t with outFrag := i + 1 }) s0)

/-! Tray SMBus targets (R453, R456) -/

/-- A write of LEAK: 1 acts as TFU_LEAK_REMOTE, 2 as TFU_LEAK_CLEAR. -/
def tsbLeak (v : Nat) (s : State) : State :=
  let s1 := heardLead s
  if v = 1 then leakTrigger none s1 else if v = 2 then leakClear s1 else s1

/-- A write of QUORUM. -/
def tsbQuorum (v : Nat) (s : State) : State :=
  let s1 := heardLead s
  if v = 0 then writeQuorum false s1 else if v = 1 then writeQuorum true s1 else s1

/-- A write of ALLOC: CODE and ANGLE. -/
def tsbAlloc (code angle : Nat) (s : State) : State :=
  let s1 := heardLead s
  if code ≤ 250 then armHuddle (250 + 5 * code) angle s1 else s1

/-- TRAY_LEAD_SILENCE: 100 ms without a valid transfer of the tray lead (R456). -/
def trayLeadSilence (s : State) : State :=
  if isTrayLead s then s
  else
    match s.tmg.lastLead with
    | none => writeQuorum false s
    | some t => writeQuorum false (advanceTo (t + 100000000) s)

/-! PTP (R479–R481) -/

/-- MGP_PTP_STATUS's image. -/
def ptpStatus (s : State) : Nat :=
  let p := s.mgp.ptp
  p.st * 2 ^ 29 + b2n p.slewing * 2 ^ 28 + ofInt 16 p.trim

/-- The PTP state; a change sends a PTP event (R481). -/
def ptpState (st : Nat) (s : State) : State :=
  if s.mgp.ptp.st = st then s
  else
    let s1 := updMgp (fun m => { m with ptp := { m.ptp with st } }) s
    queueEvent 0 0x0B00 (leBytes 4 (ptpStatus s1)) s1

/-- MGP_PTP_CFG was written. -/
def ptpCfgWritten (old : Nat) (s : State) : State :=
  let en := regBit s 0x2B00040 31
  if en == bitOf old 31 then s
  else if en then ptpState 1 s
  else
    let p : Ptp := { st := s.mgp.ptp.st, trim := s.mgp.ptp.trim, offset := s.mgp.ptp.offset }
    ptpState 0 (updMgp (fun m => { m with ptp := p }) s)

/-- PTP_EXCHANGE_COMPLETE: the instants in ns and the correction fields (R479, R480). The trim toward zero offset is a
free value within ±200 ppm: the manual bounds it and does not state it. -/
def ptpExchange (t1 t2 t3 t4 : Nat) (c1 c2 : Int) (s : State) : State :=
  if !(regBit s 0x2B00040 31) || s.mgp.ptp.st == 0 || !(islandRuns s) then s
  else
    let t2' : Int := t2 - regFld s 0x2B00044 15 0
    let t3' : Int := t3 + regFld s 0x2B00044 31 16
    let o := Int.tdiv ((t2' - t1 - c1) - (t4 - t3' - c2)) 2
    let step : Int := regFld s 0x2B00040 15 0 * 1000
    let far := decide (o < -step) || decide (step < o)
    let good := if -1000 ≤ o ∧ o ≤ 1000 then s.mgp.ptp.good + 1 else 0
    let trim : Int := (((Config.freeValue s.free).toNat % 40001 : Nat) : Int) - 20000
    let s1 := updMgp (fun m => { m with ptp := { m.ptp with
      offset := o, good
      slewing := decide (step < o), slew := if step < o then o.toNat else 0
      trim := if far then m.ptp.trim else trim } }) { s with free := s.free + 1 }
    let s2 := if o < -step then { s1 with dts := s1.dts + (-o).toNat } else s1
    ptpState (if far then 2 else if 8 ≤ good ∨ s.mgp.ptp.st = 3 then 3 else 2) s2

/-- PTP_ANNOUNCE: a grandmaster identity and its place in IEEE 1588's comparison, lower first (R479, R481). -/
def ptpAnnounce (gm rank : Nat) (s : State) : State :=
  if !(regBit s 0x2B00040 31) || s.mgp.ptp.st == 0 then s
  else
    let better := match s.mgp.ptp.gmRank with
      | none => true
      | some r => decide (rank < r)
    if s.mgp.ptp.gmRank.isSome && gm == s.mgp.ptp.gm then
      updMgp (fun m => { m with ptp := { m.ptp with gmRank := some rank } }) s
    else if better then
      ptpState 2 (updMgp (fun m => { m with ptp := { m.ptp with gm, gmRank := some rank, good := 0 } }) s)
    else s

/-- PTP_ANNOUNCE_TIMEOUT (R481). -/
def ptpTimeout (s : State) : State :=
  if s.mgp.ptp.st ≤ 1 then s
  else ptpState 1 (updMgp (fun m => { m with ptp := { m.ptp with gmRank := none, good := 0 } }) s)

/-! The PHY (R466) -/

/-- MGP_PHY_LINK_CHANGE: the link, its speed (1 for 100 Mb/s, 2 for 1,000 Mb/s) and the addresses in use. -/
def phyLink (up : Bool) (speed : Nat) (v4 v6 : Bool) (s : State) : State :=
  if !s.mgp.phyReleased then s
  else
    let ok := up && (speed == 1 || speed == 2)
    updMgp (fun m => { m with link := ok, speed := if ok then speed else 0, ipv4 := ok && v4, ipv6 := ok && v6 }) s

end Sys2Proof.Machine
end

