-- ==== Sys2Proof/Machine/RegRead.lean ====
section
/-! DEFINITION. What each register reads as: stored fields, and the read-only fields the state gives (chapters 2–18,
"Registers"). -/

namespace Sys2Proof.Machine

/-- Bits of a predicate over `n` indices. -/
def bitsOf (n : Nat) (p : Nat → Bool) : Nat := (List.range n).foldl (fun a i => a + b2n (p i) * 2 ^ i) 0

/-- A field of 2's complement or saturating width. -/
def sat (w v : Nat) : Nat := min v (2 ^ w - 1)

/-- ERR and the last-gasp registers (R482–R500). -/
def imgErr (s : State) (lo : Nat) : Option Nat :=
  let c := (lo - 0x100100) / 0x10
  let x := classAt s c
  if lo = 0x100000 then
    some (b2n s.err.isolated * 2 ^ 31 + b2n s.err.fatalHold * 2 ^ 30 + bitsOf 20 (fun i => (classAt s i).handling))
  else if lo = 0x100008 then some (((s.err.log.filter (·.closed)).getLast?.map (·.seq)).getD 0)
  else if lo = 0x100010 then some ((s.err.log.head?.map (·.seq)).getD 0)
  else if lo < 0x100100 then none
  else if (lo - 0x100100) % 0x10 = 0 then
    some (b2n x.handling * 2 ^ 31 + x.sev * 2 ^ 28 + b2n x.waitHost * 2 ^ 27 + b2n x.preempted * 2 ^ 26 + x.secondary)
  else if (lo - 0x100100) % 0x10 = 8 then some (if x.handling then x.primary else 0)
  else none

/-- Clusters leased to an owner. -/
def leasedCount (s : State) (o : Nat) : Nat := (s.mem.leases.filter (fun p => p.2.owner == some o)).length

/-- A leaf of this chip maps bytes of a frame. -/
def leafIn (s : State) (f : Nat) (l : Leaf) : Bool :=
  l.chip == s.elk.selfId && lineStored l.dpa &&
  decide (l.dpa < frameDpa f + 0x200000) && decide (frameDpa f < l.dpa + pageSize l.ps)

/-- DAT, OWN and KEY (R67, R74–R83). -/
def imgOwn (s : State) (lo : Nat) : Option Nat :=
  let o := (lo - 0x210000) / 0x100
  let w := ownerAt s o
  if lo = 0x200024 then
    let f := rawAt s 0x200020
    let g := grantAt s f
    some (sat 16 (s.mem.leaves.filter (leafIn s f)).length * 256 + b2n g.isSome * 128 +
      (match g with
        | some x => b2n x.table * 64 + x.owner
        | none => 0))
  else if lo = 0x220000 then
    some (b2n s.mem.rngOk * 2 ^ 31 + (s.mem.owners.filter (fun p => p.2.key.isSome)).length)
  else if lo < 0x210000 then none
  else if (lo - 0x210000) % 0x100 = 0 then
    some (w.st.code * 2 ^ 30 + w.keyGen * 2 ^ 16 + leasedCount s o * 256 + sat 8 w.parks.length)
  else if (lo - 0x210000) % 0x100 = 0x1C then some w.fringProd
  else none

/-- Pending bits of 32 vectors of a function from `v`. -/
def pbaWord (s : State) (fn v : Nat) : Nat := bitsOf 32 (fun i => Tbl.get false s.hif.pba (fn * 2048 + v + i))

/-- CMD and HIF (R177–R194). -/
def imgHif (s : State) (lo : Nat) : Option Nat :=
  let h := s.hif
  let r := (lo - 0x400000) / 0x40
  let g := ringAt s r
  if lo < 0x410000 then
    let k := (lo - 0x400000) % 0x40
    if k = 0x0C then
      some ((match g.st with
        | .disabled => 0
        | .running => 1
        | .stopped => 2) * 2 ^ 30 + g.cause * 2 ^ 16 + (inflightOf s r).length)
    else if k = 0x14 then some g.head
    else if k = 0x24 then some g.cqTail
    else none
  else if lo = 0x800000 then
    some (b2n h.widthFail * 2 ^ 13 +
      (if h.up then b2n h.rateLow * 2 ^ 12 + b2n h.flit * 2 ^ 11 + h.width * 16 + h.rate else 0))
  else if lo = 0x800008 then some (b2n h.errValid * 2 ^ 63 + h.errFn * 2 ^ 48)
  else if lo = 0x800010 then some h.errAddr
  else if 0x890000 ≤ lo ∧ lo < 0x890100 then some (pbaWord s 0 ((lo - 0x890000) * 8))
  else if 0x1_0010_0000 ≤ lo then
    let w := (lo - 0x1_0010_0000) / 4
    some (pbaWord s (w / 2 + 1) (w % 2 * 32))
  else none

/-- Slot `b` of a cluster is occupied. -/
def slotBusy (s : State) (c b : Nat) : Bool := s.fab.groups.any (fun g => g.cluster == c && g.slots.contains b)

/-- CLU and TGR (chapters 4 and 5). -/
def imgClu (s : State) (lo : Nat) : Option Nat :=
  let c := (lo - 0x1000000) / 0x10000
  let k := (lo - 0x1000000) % 0x10000
  let l := leaseAt s c
  let g := gridAt s c
  let busy (n : Nat) : Nat := bitsOf 32 (fun b => slotBusy s c (32 * n + b))
  if k = 0 then
    some (b2n l.owner.isSome * 2 ^ 31 + b2n l.clearing * 2 ^ 30 + l.owner.getD 0 * 2 ^ 24 +
      b2n g.holder.isSome * 2 ^ 23 + groupsIn s c * 2 ^ 18 + (96 - ((List.range 96).filter (slotBusy s c)).length))
  else if k = 0x10 then some (busy 0)
  else if k = 0x14 then some (busy 1)
  else if k = 0x18 then some (busy 2)
  else if k = 0x1000 then
    some (b2n g.holder.isSome * 2 ^ 31 + b2n (g.queue.any (·.started)) * 2 ^ 30 + g.queue.length * 2 ^ 24 +
      g.plane1.fmt * 2 ^ 12 + g.plane0.fmt * 256 + g.flags)
  else if k = 0x1008 then some g.rows
  else none

/-- MEM and BKG (chapter 6). -/
def imgMem (s : State) (lo : Nat) : Option Nat :=
  let m := s.mov
  if lo = 0x1800008 then some m.tc0Over
  else if lo = 0x1800010 then some (m.refresh2x * 2 ^ 16 + m.hbmFailed * 256 + m.hbmTrained)
  else if lo = 0x1800040 then some m.poisonLast
  else if 0x1800100 ≤ lo ∧ lo < 0x1800140 then
    match chainsAt s (bulkChan ((lo - 0x1800100) / 4)) with
    | [] => some 0
    | c :: cs => some (2 ^ 31 + b2n ((c :: cs).any (·.parked.isSome)) * 2 ^ 30 + c.tc * 2 ^ 28 + c.owner * 2 ^ 22)
  else if lo = 0x2D00010 then some m.hbmNext
  else if lo = 0x2D00018 then some m.tierNext
  else if lo = 0x2D00020 then some (m.hbmPasses % 65536 * 65536 + m.tierPasses % 65536)
  else none

/-- ELK (chapter 8). -/
def imgElk (s : State) (lo : Nat) : Option Nat :=
  let e := s.elk
  if lo < 0x2008000 then
    let x := portAt s ((lo - 0x2000000) / 0x100)
    let k := (lo - 0x2000000) % 0x100
    if k = 4 then
      some (x.st.code * 2 ^ 28 + x.cause * 2 ^ 24 + x.peerId * 2 ^ 18 + b2n x.peerHasId * 2 ^ 17 + b2n x.x8 * 2 ^ 16 +
        x.peerPort * 2 ^ 14)
    else if k = 8 then some x.peerSerial
    else if k = 0x10 then some (x.uncorr * 2 ^ 48 + x.tagFail * 2 ^ 32 + x.replay)
    else none
  else if lo = 0x2008000 then
    match e.manifest with
    | none => some 0
    | some m => some (2 ^ 31 + b2n e.hasId * 2 ^ 30 + e.selfId * 2 ^ 24 + m.chips.length * 2 ^ 16)
  else if lo = 0x2008004 then some ((e.manifest.map (·.epoch)).getD 0)
  else if lo = 0x2008008 then some ((e.manifest.map (·.digest)).getD 0)
  else if lo = 0x200802C then some (b2n e.busy * 2 ^ 31 + e.status)
  else if lo = 0x2008038 then some (bitsOf 64 (fun i => (routeAt s i).fenced))
  else if 0x2008100 ≤ lo then
    let r := routeAt s ((lo - 0x2008100) / 4)
    some (b2n r.valid * 2 ^ 31 + b2n r.fenced * 2 ^ 30 + b2n r.altEn * 2 ^ 29 + b2n r.usingAlt * 2 ^ 28 + r.alt * 4 +
      r.primary)
  else none

/-- Closed slices waiting on a channel (R285). -/
def waitingSlices (x : Sweep) : Nat :=
  x.revs.foldl (fun n v => n + (v.slices.filter (fun y => y.closed.isSome && !y.written)).length) 0

/-- SQE and SWE (chapters 9 and 10). -/
def imgEngine (s : State) (lo : Nat) : Option Nat :=
  if lo = 0x2200004 then some s.sqe.seqs.length
  else if lo = 0x2400000 then some (sat 16 ((List.range 8).foldl (fun n c => n + waitingSlices (sweepAt s c)) 0))
  else if 0x2401000 ≤ lo then
    let x := sweepAt s ((lo - 0x2401000) / 0x100)
    let k := (lo - 0x2401000) % 0x100
    if k = 0 then
      some (x.st.code * 2 ^ 30 + b2n x.parked * 2 ^ 29 + b2n x.desc.isSome * 2 ^ 28 + b2n x.offset.isSome * 2 ^ 27 +
        b2n (poseWaiting x) * 2 ^ 26 + x.owner * 2 ^ 16)
    else if k = 8 then some (x.offset.getD 0 * 2 ^ 32 + (lowRev x).getD 0)
    else if k = 0x10 then some (x.lateRecords * 2 ^ 32 + x.sweeps % 2 ^ 32)
    else none
  else if 0x2201000 ≤ lo then
    let i := (lo - 0x2201000) / 0x40
    let k := (lo - 0x2201000) % 0x40
    let x := strm s i
    if k = 0 then some (b2n (x.st != .unbound) * 2 ^ 31 + x.owner * 2 ^ 24)
    else if k = 8 then some (x.pageCount * 2 ^ 32 + x.pageFirst)
    else if k = 0x10 then
      some (x.st.code * 2 ^ 29 + b2n (x.wait == .parked) * 2 ^ 28 + b2n x.stallAll * 2 ^ 27 + b2n x.gateWait * 2 ^ 26)
    else if k = 0x18 then some x.step
    else if k = 0x20 then some (freePages s i)
    else none
  else none

/-- A word of an event table entry's mirror (chapter 11). -/
def eventWord (s : State) (i k : Nat) : Nat :=
  match eventAt s i with
  | none => 0
  | some e =>
    if k = 0 then
      2 ^ 31 + e.chan * 2 ^ 28 + e.action * 2 ^ 24 + e.repeats * 2 ^ 16 + b2n e.stagger * 2 ^ 15 +
        b2n e.wait.isSome * 2 ^ 14 + e.owner * 256
    else if k = 1 then e.target / 65536 % 2 ^ 32
    else if k = 2 then e.target % 65536
    else e.arg

/-- The channel runs free (R311). -/
def freeRunning (ch : PhaseCh) : Bool :=
  hasPhase ch && (ch.st == .lost || ch.st == .acquire && ch.acqFrom == .lost)

/-- PTU (chapter 11). -/
def imgPtu (s : State) (lo : Nat) : Option Nat :=
  if lo = 0x2600000 then some (siteCauses s * 256 + s.ptu.site.code)
  else if lo = 0x2600008 then some s.ptu.siteSince
  else if lo = 0x2600030 then some (b2n s.ptu.assigned * 2 ^ 31 + s.ptu.offset)
  else if lo = 0x2600040 then some ((List.range 248).filter (fun i => (eventAt s i).isSome)).length
  else if 0x2602000 ≤ lo then some (eventWord s ((lo - 0x2602000) / 16) ((lo - 0x2602000) / 4 % 4))
  else if 0x2601000 ≤ lo then
    let c := (lo - 0x2601000) / 0x40
    let k := (lo - 0x2601000) % 0x40
    let ch := phaseCh s c
    if k = 0x0C then some (ch.st.code * 2 ^ 29 + b2n (freeRunning ch) * 2 ^ 28 + b2n ch.everLocked * 2 ^ 27 + ch.bad)
    else if k = 0x10 then some (phaseAt s c % 2 ^ 48)
    else if k = 0x18 then some ch.latchDts
    else if k = 0x20 then some ch.latchPeriod
    else if k = 0x24 then some ch.latchCycle
    else none
  else none

/-- PGV (chapter 12). -/
def imgPgv (s : State) (lo : Nat) : Option Nat :=
  let g := s.pgv
  let f := g.forecast
  if lo = 0x2700000 then
    some (g.applied / 1000 * 2 ^ 16 + g.limiter * 2 ^ 13 + b2n (g.duty != 0) * 2 ^ 12 + b2n (ramping s) * 2 ^ 11 +
      b2n g.quorum * 2 ^ 10 + b2n g.leakFloor * 2 ^ 9 + b2n g.tjFloor * 2 ^ 8 + b2n g.brdThrot * 2 ^ 7 +
      b2n g.floorUnmet * 2 ^ 6 + g.duty * 2 ^ 4)
  else if lo = 0x2700008 then
    some (srcHost s + g.huddle * 2 ^ 11 + srcSite s * 2 ^ 22 + g.thermal * 2 ^ 33 + srcBoard s * 2 ^ 44)
  else if lo = 0x2700048 then
    some (sat 32 f.mj * 2 ^ 32 + sat 16 (f.horizonUs / 100) * 2 ^ 16 + b2n f.uncoeffed * 2 ^ 15 + b2n f.clipped * 2 ^ 14 +
      f.watts)
  else if lo = 0x2700050 then some f.dts
  else if lo = 0x2700060 then some g.energyUj
  else if 0x2700080 ≤ lo ∧ lo < 0x270008C then some (g.swing.getD ((lo - 0x2700080) / 4) 0)
  else if 0x2700100 ≤ lo then
    let x := Tbl.get ({} : GovStream) g.streams ((lo - 0x2700100) / 8)
    some (sat 32 x.dur * 2 ^ 32 + b2n x.shared * 2 ^ 31 + sat 31 x.lastUj)
  else none

/-- TFU (chapter 13). -/
def imgTfu (s : State) (lo : Nat) : Option Nat :=
  if lo = 0x2800000 then some (tfuStatus s)
  else if lo = 0x2800020 then some s.tfu.lastDts
  else if 0x2800040 ≤ lo ∧ lo < 0x2800058 then
    let p := pwmAt s ((lo - 0x2800040) / 4)
    some (p.index * 2 ^ 16 + b2n p.valid * 2 ^ 15 + b2n p.warn * 2 ^ 14 + b2n p.alarm * 2 ^ 13 + b2n p.skipped * 2 ^ 12)
  else if 0x2800100 ≤ lo ∧ lo < 0x28001C0 then
    let c := (lo - 0x2800100) / 0x20
    let p := pwmAt s c
    if (lo - 0x2800100) % 0x20 = 8 then
      some (b2n p.stall * 2 ^ 31 + b2n p.minApplied * 2 ^ 30 + b2n (isHeld s c) * 2 ^ 29 + p.out * 2 ^ 16 + p.rpm)
    else none
  else if 0x2800300 ≤ lo ∧ lo < 0x2800340 then
    let v := valveAt s ((lo - 0x2800300) / 0x20)
    if (lo - 0x2800300) % 0x20 = 0x0C then
      some (b2n v.fault * 2 ^ 31 + b2n v.closing.isSome * 2 ^ 30 + b2n v.closed * 2 ^ 29 + v.live * 8 + v.sticky)
    else none
  else if 0x2800400 ≤ lo ∧ lo < 0x2800500 then
    let a := Tbl.get ({} : Adc) s.tfu.adc ((lo - 0x2800400) / 0x20)
    if (lo - 0x2800400) % 0x20 = 0x10 then
      some (b2n a.opened * 2 ^ 31 + b2n a.shorted * 2 ^ 30 + b2n a.hi * 2 ^ 29 + b2n a.lo * 2 ^ 28 + a.code * 2 ^ 16 +
        a.value)
    else none
  else if 0x2800500 ≤ lo ∧ lo < 0x2800540 then
    let r := Tbl.get ({} : Rope) s.tfu.ropes ((lo - 0x2800500) / 0x10)
    if (lo - 0x2800500) % 0x10 = 4 then some (b2n r.wet * 2 ^ 31 + b2n r.opened * 2 ^ 30 + r.ratio) else none
  else if 0x2800600 ≤ lo then
    let f := Tbl.get ({} : Flow) s.tfu.flows ((lo - 0x2800600) / 0x10)
    if (lo - 0x2800600) % 0x10 = 4 then some (b2n f.low * 2 ^ 31 + f.mlpm) else none
  else none

/-- A receive queue's or the transmit log's STAT. -/
def fifoStat (q : Fifo) : Nat :=
  b2n (q.count == 32) * 2 ^ 31 + q.count * 2 ^ 24 + q.get * 2 ^ 16 + (q.get + q.count) % 32

/-- A number in `n` bits of 2's complement, saturating. -/
def satInt (n : Nat) (i : Int) : Nat := ofInt n (min (2 ^ (n - 1) - 1) (max (-(2 ^ (n - 1))) i))

/-- Nominal bit times of master time since the sync point (R400). -/
def cycleTime (s : State) : Nat :=
  match s.fbc.curOver with
  | none => 0
  | some o =>
    let own := s.dts - o.sync
    let master := if s.fbc.master then own else ((own : Int) * 1000000 / (1000000 + s.fbc.corr)).toNat
    sat 20 (master * 2 / (nomClocks s * 25))

/-- FBC (chapter 14). The message RAM reads all ones where a word cannot be corrected (R387). -/
def imgFbc (s : State) (r : Requester) (lo : Nat) : Option Nat :=
  let b := s.fbc
  let tt := fbcMode s != 0
  let sh := Tbl.get ({} : RxShadow) b.rx (shadowOf r)
  if 0x2908000 ≤ lo then if b.badWords.contains (lo - 0x2908000) then some 0xFFFFFFFF else none
  else if lo = 0x2900004 then
    some (b2n (fbcRuns s) * 2 ^ 31 + b2n b.clkHold * 2 ^ 30 + b2n b.busOff * 2 ^ 29 + b2n (restricted s) * 2 ^ 28 +
      b2n b.level3 * 2 ^ 27 + b2n (decide (128 ≤ b.tec ∨ 128 ≤ b.rec_)) * 2 ^ 26 +
      b2n (decide (96 ≤ b.tec ∨ 96 ≤ b.rec_)) * 2 ^ 25 + b2n (fbcRuns s && decide (s.dts < b.integrated)) * 2 ^ 24 +
      b.recovery * 2 ^ 16 + b.lastErr)
  else if lo = 0x2900008 then some (b2n (decide (128 ≤ b.rec_)) * 2 ^ 31 + b.rec_ * 2 ^ 16 + b.tec)
  else if lo = 0x2900014 then some (b.loopDelay * 2 ^ 24 + regFld s lo 23 0)
  else if lo = 0x2900020 then some (fifoStat b.queueA)
  else if lo = 0x2900030 then some (fifoStat b.queueB)
  else if lo = 0x2900058 then some b.busy
  else if lo = 0x2900068 then some b.loading
  else if lo = 0x2900080 then some (fifoStat b.txLog)
  else if lo = 0x2900090 then some (regFld s lo 31 31 * 2 ^ 31 + b.overflow)
  else if lo = 0x29000A8 then some (rawAt s lo ||| 0x10000)
  else if lo = 0x29000B0 then some (match b.cfgErr with
    | some o => 2 ^ 31 + o
    | none => 0)
  else if lo = 0x2900118 then
    some (if !tt then 2 * 2 ^ 28 else
      ttLevel s * 2 ^ 30 + b2n b.master * 2 ^ 28 + b.sync * 2 ^ 26 + b.misses * 2 ^ 24 +
      (match b.curOver with
        | some o => o.cycle * 2 ^ 18 + (o.nextBall - 1) * 2 ^ 13 + b2n o.free * 2 ^ 12
        | none => 0) + b.masterId)
  else if lo = 0x290011C then some (cycleTime s)
  else if lo = 0x2900120 then some (satInt 16 b.rate * 2 ^ 16 + satInt 16 (Int.tdiv b.phase 10))
  else if lo = 0x2900124 then some ((b.curOver.map (·.len)).getD 0)
  else if lo = 0x2900130 then some b.corrDts
  else if lo = 0x2900138 then some (match b.corrCycle with
    | some c => 2 ^ 31 + c
    | none => 0)
  else if lo = 0x2900404 then some (b2n sh.valid * 2 ^ 31 + b2n sh.newer * 2 ^ 30)
  else if 0x2900410 ≤ lo ∧ lo < 0x2900460 then some (getLe sh.bytes (lo - 0x2900410) 4)
  else none

/-- TMG and MGP (chapter 16). -/
def imgMgp (s : State) (lo : Nat) : Option Nat :=
  let m := s.mgp
  if lo = 0x2A00000 then some (tmgStatus s)
  else if lo = 0x2A00004 then some s.tmg.pres
  else if lo = 0x2A00010 then some (b2n (!s.tmg.verifying.isEmpty) * 2 ^ 31 + mismatchMask s)
  else if 0x2A00100 ≤ lo ∧ lo < 0x2A00140 then
    let x := siteAt s ((lo - 0x2A00100) / 4)
    some (x.result * 2 ^ 28 + x.kind * 2 ^ 24)
  else if 0x2A00200 ≤ lo ∧ lo < 0x2A00280 then some (siteAt s ((lo - 0x2A00200) / 8)).serial
  else if 0x2A00280 ≤ lo ∧ lo < 0x2A00300 then some (Tbl.get 0 s.tmg.accepted ((lo - 0x2A00280) / 8))
  else if 0x2A00400 ≤ lo ∧ lo < 0x2A00460 then some (ofLe ((run (lo - 0x2A00400) 4).map Config.deviceKey))
  else if lo = 0x2B00000 then
    some (b2n m.link * 2 ^ 31 + m.speed * 2 ^ 29 + b2n m.ipv4 * 2 ^ 28 + b2n m.ipv6 * 2 ^ 27 +
      b2n (m.phyReleased && !m.link) * 2 ^ 26)
  else if lo = 0x2B00008 then some Config.mac.toNat
  else if lo = 0x2B00018 then some m.floor
  else if lo = 0x2B00020 then some (m.evLost * 2 ^ 16 + m.events.length)
  else if lo = 0x2B00048 then some (ptpStatus s)
  else if lo = 0x2B00050 then some (ofInt 64 m.ptp.offset)
  else if lo = 0x2B00058 then some m.ptp.gm
  else none

/-- The shown last-gasp record (R500). -/
def shownGasp (s : State) : Option GaspRecord := s.err.records.find? (fun r => !r.acked)

/-- ISL_HUDDLE_PEER_r; the member's own rank shows itself. -/
def peerImage (s : State) (r : Nat) : Nat :=
  let p := peerAt s r
  if r = trayRank s then
    cfgLe s 8 4 * 2 ^ 32 + s.boot.fwMajor * 2 ^ 24 + s.boot.fwMinor * 2 ^ 16 + s.hud.role * 2 ^ 14 + s.hud.cause * 2 ^ 11 + 2 ^ 10
  else
    p.epoch * 2 ^ 32 + p.major * 2 ^ 24 + p.minor * 2 ^ 16 + (if isHeard s r then p.role else 0) * 2 ^ 14 +
      p.cause * 2 ^ 11 + b2n (p.heard.isSome && p.key == ownKey s) * 2 ^ 10 + peerAge s r

/-- ISL: power, huddle, last gasp and boot (chapters 2, 15, 17, 18). -/
def imgIsl (s : State) (lo : Nat) : Option Nat :=
  let p := s.pwr
  let h := s.hud
  let b := s.boot
  if lo = 0x2C00104 then some (p.rail * 2 ^ 12 + p.step * 256 + p.st.code)
  else if lo = 0x2C00108 then
    some (bitsOf 7 (fun i => (railAt s i).off) * 2 ^ 16 + (bitsOf 7 (fun i => (railAt s i).inWindow) + 128) * 256 +
      bitsOf 7 (fun i => (railAt s i).enabled) + 128)
  else if lo = 0x2C0010C then some p.fault.image
  else if lo = 0x2C00130 then some (b2n p.straps.test * 16 + b2n p.straps.recovery * 8 + b2n p.straps.lead * 4 + p.straps.pos)
  else if lo = 0x2C00140 then
    some (regFld s lo 11 8 * 256 + b2n p.dtsOnIclk * 16 + b2n p.okClk25 * 8 + b2n p.okElk1 * 4 + b2n p.okElk0 * 2 +
      b2n p.okRef100)
  else if lo = 0x2C00150 then some (b2n p.tripped * 2 ^ 31 + p.tripSensor * 2 ^ 16)
  else if lo = 0x2C00400 then some (hudStatus s)
  else if lo = 0x2C00408 then some (cfgLe s 8 4 * 2 ^ 32 + b.fwMajor * 256 + b.fwMinor)
  else if lo = 0x2C00410 then some (if h.cfg = [] then 0 else cfgDigest h.cfg)
  else if 0x2C00420 ≤ lo ∧ lo < 0x2C00438 then some (peerImage s ((lo - 0x2C00420) / 8))
  else if lo = 0x2C00440 then some (h.loop.pump * 2 ^ 48 + h.loop.fan * 2 ^ 32 + h.loop.valve * 2 ^ 16 + h.loop.seq)
  else if lo = 0x2C00448 then some (h.loop.supply * 2 ^ 48 + h.loop.flow * 2 ^ 32 + h.loop.dp * 2 ^ 16 + h.loop.budget)
  else if lo = 0x2C0045C then some (b2n h.busy * 2 ^ 31 + h.result)
  else if lo = 0x2C00800 then
    some (b2n (shownGasp s).isSome * 2 ^ 31 + sat 8 s.err.torn * 2 ^ 16 +
      sat 16 (s.err.records.filter (fun r => !r.acked)).length)
  else if 0x2C00A00 ≤ lo ∧ lo < 0x2C00C00 then
    some (match shownGasp s with
      | some r => getLe r.body (lo - 0x2C00A00) 4
      | none => 0)
  else if lo = 0x2C00C00 then
    some (b.path * 2 ^ 30 + b.fwSlot * 2 ^ 29 + b.cfgSlot * 2 ^ 28 + b2n (b.fwTrial || b.cfgTrial) * 2 ^ 27 +
      b2n b.noConfig * 2 ^ 26 + b.fwMajor * 2 ^ 16 + b.fwMinor * 256 + b.stage)
  else if lo = 0x2C00C04 then
    let st (k : Nat) : Nat := (Tbl.get ({} : Slot) b.slots k).st.code
    some (st 0 * 2 ^ 12 + st 1 * 256 + st 2 * 16 + st 3)
  else if lo = 0x2C00C10 then some (b2n b.enrolled * 2 ^ 31 + b2n b.key0Revoked * 2 ^ 30 + b.svn)
  else none

/-- What the register at `lo` reads as, to this requester. -/
def regImage (r : Requester) (s : State) (lo : Nat) : Nat :=
  let computed : Option Nat :=
    if lo < 0x100000 then some (if lo = 8 then Config.serial.toNat else resetAt lo)
    else if lo < 0x200000 then imgErr s lo
    else if lo < 0x400000 then imgOwn s lo
    else if lo < 0x1000000 then imgHif s lo
    else if lo < 0x1800000 then imgClu s lo
    else if lo < 0x2000000 then imgMem s lo
    else if lo < 0x2200000 then imgElk s lo
    else if lo < 0x2600000 then imgEngine s lo
    else if lo < 0x2700000 then imgPtu s lo
    else if lo < 0x2800000 then imgPgv s lo
    else if lo < 0x2900000 then imgTfu s lo
    else if lo < 0x2A00000 then imgFbc s r lo
    else if lo < 0x2C00000 then imgMgp s lo
    else if lo < 0x2D00000 then imgIsl s lo
    else if lo < 0x2E00000 then imgMem s lo
    else if lo < 0x1_0000_0000 then none
    else imgHif s lo
  computed.getD (rawAt s lo)

end Sys2Proof.Machine
end

