-- ==== Sys2Proof/Machine/ErrOps.lean ====
section
/-! DEFINITION. The error unit's entries and records, handling, acknowledgement, escalation, injection and flash
(R484–R503). -/

namespace Sys2Proof.Machine

/-- Changes the error unit. -/
def updErr (f : ErrUnit → ErrUnit) (s : State) : State := { s with err := f s.err }

/-! Entries and records -/

/-- The 64 bytes of a log entry (R484). -/
def entryBytes (e : LogEntry) : List Byte :=
  let b := leBytes 8 e.seq ++ leBytes 8 e.dts ++ leBytes 8 e.addr ++ leBytes 2 e.status ++ leBytes 1 e.sev ++
    leBytes 1 e.cls ++ leBytes 2 e.cause ++
    leBytes 1 (match e.owner with
      | some o => o % 64 + 64
      | none => 0) ++
    leBytes 1 (b2n e.secondary + b2n e.injected * 2 + b2n e.raised * 4 + b2n e.isolating * 8 + b2n e.merged * 16) ++
    leBytes 1 e.addrKind ++ leBytes 1 e.source ++ leBytes 2 e.index ++ leBytes 4 e.occurrences ++ leBytes 4 e.tag ++
    leBytes 2 (match e.requester with
      | some n => n % 128 + 0x8000
      | none => 0) ++
    zeros 2 ++ leBytes 8 e.info ++ leBytes 4 e.primary
  b ++ leBytes 4 (crc32 b)

/-- The entry as the log now holds it. -/
def currentEntry (s : State) (e : LogEntry) : LogEntry := (s.err.log.find? (·.uid == e.uid)).getD e

/-- The newest SEQ given. -/
def newestSeq (s : State) : Nat := ((s.err.log.getLast?).map (·.seq)).getD 0

/-- A last-gasp record's 512 bytes (R499). -/
def gaspBytes (s : State) (g : GaspWork) (number : Nat) : List Byte :=
  let img (lo : Nat) : List Byte := leBytes 4 (regImage .island s lo)
  let ent (e : Option LogEntry) : List Byte :=
    match e with
    | some x => entryBytes (currentEntry s x)
    | none => zeros 64
  let seq := match g.cause with
    | some e => (currentEntry s e).seq
    | none => newestSeq s
  let b := ascii [0x46, 0x4E, 0x4C, 0x47] ++ leBytes 2 1 ++ leBytes 1 g.kind ++ zeros 1 ++ leBytes 8 number ++
    leBytes 8 g.dts ++ leBytes 8 seq ++ img 0x2C00104 ++ img 0x2C0010C ++ img 0x2C00150 ++ img 0x2C00120 ++
    img 0x2C00140 ++ img 0x2C00108 ++ img 0x2600000 ++ img 0x2700000 ++ img 0x2800000 ++ img 0x100000 ++
    ent s.err.firstFatal ++ ent g.cause ++ leBytes 8 Config.serial.toNat ++ zeros 296
  b ++ leBytes 4 (crc32 b) ++ leBytes 4 0xFFFFFFFF

/-- LAST_GASP_WRITTEN: the first record due is in flash; a forced shutdown is over (R43, R498, R500). -/
def gaspWritten (s : State) : State :=
  match s.err.gasp with
  | [] => s
  | g :: rest =>
    if !(islandRuns s) then s
    else
      let shown := (shownGasp s).isSome
      let rec_ : GaspRecord := { number := s.err.nextRecord, kind := g.kind, body := gaspBytes s g s.err.nextRecord, acked := false }
      let s1 := updErr (fun e => { e with
        gasp := rest, records := e.records ++ [rec_], nextRecord := e.nextRecord + 1
        crcReadBy := if shown then e.crcReadBy else [] }) s
      if g.kind = 2 && s1.pwr.st == .forcedOff then updPwr (fun p => { p with st := .lockedOut }) s1 else s1

/-- Acknowledges the shown record: its ACK word is programmed to zeros, and the next one shows (R499, R500). -/
def ackShown (s : State) : State :=
  match shownGasp s with
  | none => s
  | some r =>
    updErr (fun e => { e with
      crcReadBy := []
      records := updWhere (·.number == r.number)
        (fun x => { x with acked := true, body := putBytes x.body 508 (zeros 4) }) e.records }) s

/-- ISL_LASTGASP_ACK written with ACK 1 (R500). -/
def lastgaspAck (r : Requester) (s : State) : State :=
  match shownGasp s with
  | none => s
  | some x => if x.kind != 2 && s.err.crcReadBy.contains r then ackShown s else s

/-! Closing and flash (R486, R487) -/

/-- Some open entry's 1 ms ends: every entry due closes and is routed. Entries before stage 4 stay open (R485). -/
def closeEntries (s : State) : State :=
  let open_ (e : LogEntry) : Bool := !e.closed && e.seq != 0
  match s.err.log.find? open_ with
  | none => s
  | some x =>
    if !(standby s) then s
    else
      let s1 : State := { s with dts := max s.dts (x.dts + 1000000) }
      let due (e : LogEntry) : Bool := open_ e && decide (e.dts + 1000000 ≤ s1.dts)
      let l := s1.err.log.filter due
      let s2 := updErr (fun e => { e with log := updWhere due (fun y => { y with closed := true }) e.log }) s1
      l.foldl (fun t e => routeEntry { e with closed := true } t) s2

/-- Entries the island has to copy to flash. -/
def flashDue (s : State) : List LogEntry :=
  s.err.log.filter (fun e => e.closed && decide (sevDeferred ≤ e.sev) && !(s.err.flash.any (·.uid == e.uid)))

/-- Blocks of 64 KiB for the log on the smallest flash R504 allows, less the one kept for last-gasp records. -/
abbrev logBlocks : Nat := 230

/-- Erased log blocks; a block holds 1,024 entries (R173, R484). -/
def erasedBlocks (s : State) : Nat := logBlocks - ceilDiv s.err.flash.length 1024

/-- A flash operation failed: one entry per run of failures (R487). -/
def flashFails (s : State) : State :=
  if s.err.flashFailing then s
  else logErr { cls := 17, cause := 4, sev := sevContained, source := 0x2C } (updErr (fun e => { e with flashFailing := true }) s)

/-- FLASH_LOG_COPY succeeds, as far as erased blocks have room, or fails (R173, R487). -/
def flashCopy (ok : Bool) (s : State) : State :=
  if !(islandRuns s) || (flashDue s).isEmpty then s
  else if ok then
    let l := (flashDue s).take (logBlocks * 1024 - s.err.flash.length)
    updErr (fun e => { e with flashFailing := false, flash := e.flash ++ l }) s
  else flashFails s

/-- The last erasure is less than 10 s old (R173). -/
def eraseEarly (s : State) : Bool :=
  match s.err.lastErase with
  | some t => decide (s.dts < t + 10000000000)
  | none => false

/-- FLASH_ERASE: the oldest log block, when fewer than two erased blocks remain and 10 s have passed (R173). -/
def flashErase (ok : Bool) (s : State) : State :=
  if !(islandRuns s) || decide (2 ≤ erasedBlocks s) || eraseEarly s then s
  else if ok then
    updErr (fun e => { e with flashFailing := false, flash := e.flash.drop 1024, lastErase := some s.dts }) s
  else flashFails (updErr (fun e => { e with lastErase := some s.dts }) s)

/-! Handling (R492–R495) -/

/-- A class is acknowledged. -/
def ackClass (c : Nat) (s : State) : State := reschedule (updClass c (fun _ => {}) s)

/-- ERR_ACK (R493); a FATAL class's is a reserved encoding and does not come here. -/
def errAck (r : Requester) (v : Nat) (s : State) : State :=
  let c := fld v 4 0
  let x := classAt s c
  let hostAck := regBit s (0x100104 + c * 0x10) 31
  if !x.handling || x.primary % 2 ^ 24 != fld v 31 8 then s
  else if hostAck then (if x.waitHost && (r == .fn 0 || r == .mmp) then ackClass c s else s)
  else if r == .island then ackClass c s
  else s

/-- R495: the island fences the chip out of its domain, unless isolation has come first (R496). -/
def fatalSteps (s : State) : State :=
  let s1 := updErr (fun e => { e with fencePending := false }) s
  if s.err.fencePending && regBit s 0x100028 0 && !s.err.isolated && linkRuns s && s.elk.hasId then
    updElk (fun e => { e with selfFence := true }) s1
  else s1

/-- HANDLER_DONE: the running class's action is done (R493, R495, R501). -/
def handlerDone (s : State) : State :=
  match s.err.running with
  | none => s
  | some c =>
    if !(islandRuns s) || !(classAt s c).handling then s
    else if (classAt s c).sev == sevFatal then
      reschedule (updClass c (fun x => { x with fatalDone := true }) (fatalSteps s))
    else if regBit s (0x100104 + c * 0x10) 31 then updClass c (fun x => { x with waitHost := true }) s
    else errAck .island (c + (classAt s c).primary % 2 ^ 24 * 256) s

/-- ACK_TIMEOUT: the running class's handling time has reached ACK_MS (R494). -/
def ackTimeout (s : State) : State :=
  match s.err.running with
  | none => s
  | some c =>
    let x := classAt s c
    if standby s && x.handling && decide (x.sev < sevFatal) then
      logErr { cls := c, cause := 0xFF, sev := x.sev + 1, source := 1 } s
    else s

/-- Stage 4: held entries receive SEQs in their order of detection, then close and are routed (R485). -/
def restoreLog (s : State) : State :=
  if s.err.restored then s
  else
    let base := s.err.reserve
    let held := s.err.log.filter (·.seq == 0)
    let seqOf (uid : Nat) : Nat := base + (held.filter (fun e => decide (e.uid < uid))).length
    let give (e : LogEntry) : LogEntry :=
      if e.seq = 0 then
        { e with seq := seqOf e.uid, primary := if e.secondary then seqOf e.primaryUid else 0
                 closed := decide (sevDeferred ≤ e.sev) }
      else e
    let s1 := updErr (fun e => { e with
      restored := true, log := e.log.map give, nextSeq := base + held.length
      reserve := base + seqReserve
      classes := e.classes.map (fun p =>
        (p.1, if p.2.handling && p.2.primary == 0 then { p.2 with primary := seqOf p.2.primaryUid } else p.2)) }) s
    held.foldl (fun t e => let x := currentEntry t e; if x.closed then routeEntry x t else t) s1

/-! Injection and LOG_COPY (R204, R483, R503) -/

/-- The severities R483 gives a cause; none for a cause the class does not have. -/
def sevsOf (cls cause : Nat) : List Nat :=
  if cause = 0xFE ∨ cause = 0xFF then [3, 4]
  else
    let t : List (List (List Nat)) := [
      [[0], [0], [0]], [[0], [0], [0], [0]], [[0], [0], [0], [0]],
      [[1], [2], [3]], [[1], [2], [3]], [[1], [2], [3]],
      [[4], [4]], [[1], [2]], [[1], [2], [4]],
      [[1], [3], [3], [0]], [[1], [3], [3], [0]], [[3], [0], [0], [0]],
      [[0], [0], [4]], [[4], [3], [0]], [[4, 0], [3], [3]],
      [[4], [0], [1]], [[3], [3], [3], [0]], [[3], [3], [3], [3]],
      [[4, 3], [4]], [[0], [0], [0]]]
    if cause = 0 then [] else (t.getD cls []).getD (cause - 1) []

/-- The ADDR_KIND of an injected entry (R503). -/
def injectKind (cls : Nat) : Nat :=
  if cls = 0 then 4 else if cls = 1 then 2 else if cls = 2 then 5
  else if 3 ≤ cls ∧ cls ≤ 8 then 1 else if cls = 11 then 3 else 0

/-- ERR_INJECT's body may be carried out (R503). -/
def injectLegal (p : Inflight) : Bool :=
  let cls := p.fld 16 1
  decide (cls < 20) && (sevsOf cls (p.fld 17 1)).contains (p.fld 18 1) &&
  (injectKind cls != 0 || p.fld 24 8 == 0)

/-- ERR_INJECT's effect (R503). -/
def injectRun (p : Inflight) (s : State) : State :=
  let cls := p.fld 16 1
  finishPkt p.id 0 0 0 (markLogged p.id (logErr
    { cls, cause := p.fld 17 1, sev := p.fld 18 1, addr := p.fld 24 8, addrKind := injectKind cls, source := 1,
      tag := p.tag, requester := some p.owner, injected := true } s))

/-- The closed entries that readers can have, oldest first: the buffer's, and flash copies of older ones (R487). -/
def readableLog (s : State) : List LogEntry :=
  s.err.flash.filter (fun e => !(s.err.log.any (·.uid == e.uid))) ++ s.err.log.filter (·.closed)

/-- LOG_COPY's effect (R204, R211). -/
def logCopyRun (p : Inflight) (s : State) : State :=
  let l := ((readableLog s).filter (fun e => decide (p.fld 24 8 ≤ e.seq))).take (p.fld 32 4)
  let last := ((l.getLast?).map (·.seq)).getD 0
  if l.isEmpty then finishPkt p.id 0 0 0 s
  else endPkt p.id 0 last l.length (pktHostWrite p (p.fld 16 8) (l.flatMap entryBytes) false s)

end Sys2Proof.Machine
end

