-- ==== Sys2Proof/Machine/OwnerOps.lean ====
section
/-! DEFINITION. Owners, frames, leases, mappings and RESUME (R62–R84, R195, R202, R203). -/

namespace Sys2Proof.Machine

/-! Island packets (R195) -/

/-- An island packet that has started: carried out at once while the island runs, else left to its restart. -/
def islandPkt (f : Inflight → State → State) (p : Inflight) (s : State) : State :=
  if islandRuns s then f p s else updPkt p.id (fun q => { q with wait := .island }) s

/-- Returns the OWNER domain registers of an owner, and its rings' state, to reset (R5). -/
def resetOwnerRegs (o : Nat) (s : State) : State :=
  let rings := (List.range 1024).filter (fun r => ringOwner s r == some o)
  let s1 := resetRegs (fun d lo =>
    d.dom == .owner &&
      (if lo < 0x400000 then (lo - 0x210000) / 0x100 == o else rings.contains ((lo - 0x400000) / 0x40))) s
  updHif (fun h => { h with rings := h.rings.filter (fun g => !(rings.contains g.1)) }) s1

/-- OWNER_CREATE (R64, R78, R79). -/
def ownerCreateRun (p : Inflight) (s : State) : State :=
  let o := p.fld 16 1
  let w := ownerAt s o
  if o = 0 ∨ 64 ≤ o then finishPkt p.id 0x0303 0 0 s
  else if w.st != .free then finishPkt p.id 0x0225 0 0 s
  else if !s.mem.rngOk then
    finishPkt p.id 0x0226 0 0 (markLogged p.id (logErr
      { cls := 18, cause := 1, sev := sevContained, status := 0x0226, source := 2, tag := p.tag, requester := some 0 } s))
  else
    let gen := (w.keyGen + 1) % 1024
    let s1 := resetOwnerRegs o s
    let s2 : State := { s1 with mem := { s1.mem with nextKey := s1.mem.nextKey + 1 } }
    finishPkt p.id 0 0 gen (updOwner o (fun w => { w with
      st := .active, keyGen := gen, key := some s.mem.nextKey, root := 0, parks := [], fringProd := 0
      destroyId := none, forced := 0 }) s2)

/-- FRAME_GRANT (R67). -/
def frameGrantRun (p : Inflight) (s : State) : State :=
  let o := p.fld 16 1
  let first := p.fld 20 4
  let n := p.fld 24 4
  if o = 0 ∨ 64 ≤ o ∨ 2 ≤ p.fld 17 1 ∨ n = 0 ∨ 99328 < first + n then finishPkt p.id 0x0303 0 0 s
  else if !(ownerActive s o) then finishPkt p.id 0x0225 0 0 s
  else if s.mem.grants.any (fun g => g.2.isSome && decide (first ≤ g.1) && decide (g.1 < first + n)) then
    finishPkt p.id 0x0227 0 0 s
  else
    let g : Option Grant := some { owner := o, table := bitOf (p.fld 17 1) 0 }
    finishPkt p.id 0 0 n { s with mem := { s.mem with
      grants := (run first n).foldl (fun t f => Tbl.set none t f g) s.mem.grants } }

/-- Some frame of a run is mapped, or holds a live table page (R67). -/
def runMapped (s : State) (first n : Nat) : Bool :=
  (s.mem.grants.filter (fun g => decide (first ≤ g.1) && decide (g.1 < first + n))).any (fun g =>
    s.mem.leaves.any (leafIn s g.1) || s.mem.tables.any (fun t => frameOf t.dpa == g.1))

/-- FRAME_REVOKE (R67). -/
def frameRevokeRun (p : Inflight) (s : State) : State :=
  let first := p.fld 20 4
  let n := p.fld 24 4
  let inRun (g : Nat × Option Grant) : Bool := decide (first ≤ g.1) && decide (g.1 < first + n)
  if n = 0 ∨ 99328 < first + n then finishPkt p.id 0x0303 0 0 s
  else if runMapped s first n then finishPkt p.id 0x0222 0 0 s
  else
    finishPkt p.id 0 0 (s.mem.grants.filter inRun).length
      { s with mem := { s.mem with grants := s.mem.grants.filter (fun g => !(inRun g)) } }

/-! Leases (R81, R82) -/

/-- The clusters a 128-bit field names. -/
def clustersOf (m : Nat) : List Nat := (List.range 128).filter (fun c => bitOf m c)

/-- A cluster's lease changes: its scratch starts to clear, and CLU_SCR_LIMIT returns to reset. -/
def changeLease (o : Option Nat) (c : Nat) (s : State) : State :=
  setRegFld (0x1000004 + c * 0x10000) 22 12 1024 (updLease c (fun _ => { owner := o, clearing := true }) s)

/-- CLUSTER_LEASE (R81, R82, R203). -/
def clusterLeaseRun (p : Inflight) (s : State) : State :=
  let o := p.fld 16 1
  let cs := clustersOf (p.fld 48 16)
  if o = 0 ∨ 64 ≤ o ∨ cs.isEmpty then finishPkt p.id 0x0303 0 0 s
  else if !(ownerActive s o) then finishPkt p.id 0x0225 0 0 s
  else if cs.any (fun c => match (leaseAt s c).owner with
      | some x => x != o
      | none => false) then finishPkt p.id 0x0223 0 0 s
  else
    let s1 := (cs.filter (fun c => (leaseAt s c).owner != some o)).foldl (fun t c => changeLease (some o) c t) s
    let wait := cs.filter (fun c => (leaseAt s1 c).clearing)
    if wait.isEmpty then finishPkt p.id 0 0 0 s1
    else
      updPkt p.id (fun q => { q with wait := .islandWork })
        { s1 with mem := { s1.mem with leaseWaits := s1.mem.leaseWaits ++ [{ id := p.id, clusters := wait }] } }

/-- FORCE stops what runs on a cluster: launches with resident groups, and mover chains (R82). -/
def forceCluster (c : Nat) (s : State) : State :=
  let ls := (s.fab.groups.filter (·.cluster == c)).map (·.launch)
  cancelChans (clusterChans c) (fun _ => true) 0x0540 (ls.foldl (fun t l => stopLaunch l 0x0540 t) s)

/-- CLUSTER_RELEASE (R81, R82, R203). -/
def clusterReleaseRun (p : Inflight) (s : State) : State :=
  let cs := clustersOf (p.fld 48 16)
  let force := bitOf (p.fld 17 1) 0
  let held := cs.filter (fun c => (leaseAt s c).owner.isSome)
  if cs.isEmpty ∨ 2 ≤ p.fld 17 1 then finishPkt p.id 0x0303 0 0 s
  else if !force && held.any (fun c => groupsIn s c != 0) then finishPkt p.id 0x0224 0 0 s
  else
    let s1 := if force then held.foldl (fun t c => forceCluster c t) s else s
    finishPkt p.id 0 0 0 (held.foldl (fun t c => changeLease none c t) s1)

/-- A teardown's clears are over: the owner is FREE and OWNER_DESTROY completes (R83). -/
def destroyDone (o id : Nat) (s : State) : State :=
  finishPkt id 0 0 (ownerAt s o).forced (updOwner o (fun w => { w with st := .free, destroyId := none, forced := 0 }) s)

/-- Completes the waits whose clusters have all cleared (R81, R83). -/
def settleLeases (s : State) : State :=
  let ready (w : LeaseWait) : Bool := w.clusters.all (fun c => !(leaseAt s c).clearing)
  let l := s.mem.leaseWaits.filter ready
  let s1 : State := { s with mem := { s.mem with leaseWaits := s.mem.leaseWaits.filter (fun w => !(ready w)) } }
  l.foldl (fun t w => match w.owner with
    | some o => destroyDone o w.id t
    | none => finishPkt w.id 0 0 0 t) s1

/-- SCRATCH_CLEAR_DONE (R81, R82, R147). -/
def scratchCleared (c : Nat) (s : State) : State :=
  if !(leaseAt s c).clearing || !(fclkRuns s) || (clusterChans c).any (fun ch => !(chainsAt s ch).isEmpty) then s
  else
    let lo := scratchDpa c
    let hi := lo + 0x400000
    let s1 : State := { s with mem := { s.mem with
      cells := s.mem.cells.filter (fun x => decide (x.1 < lo) || decide (hi ≤ x.1))
      poisonScratch := s.mem.poisonScratch.filter (fun u => decide (u * 16 < lo) || decide (hi ≤ u * 16)) } }
    settleLeases (updLease c (fun l => { l with clearing := false }) (clearGrid c s1))

/-! Teardown (R83–R86) -/

/-- The host window bound to a draining owner is unbound (R86). -/
def unbindWindow (o : Nat) (s : State) : State :=
  if regBit s 0x200010 31 && regFld s 0x200010 5 0 == o then
    logErr { cls := 1, cause := 4, sev := sevNotice, owner := some o, source := 2 }
      (setRegFld 0x200010 31 31 0 (setRegFld 0x200010 5 0 0 s))
  else s

/-- Packets and chains that a park held end with TEARDOWN (R83, R84). -/
def endParked (o : Nat) (s : State) : State :=
  let held (q : Inflight) : Bool := q.owner == o && (match q.wait with
    | .parked _ => true
    | .island => true
    | _ => false)
  let s1 := (s.hif.started.filter held).foldl (fun t q => finishPkt q.id 0x0801 0 0 t) s
  cancelChans (s.mov.chans.map (·.1)) (fun c => c.owner == o && c.parked.isSome) 0x0801 s1

/-- OWNER_DESTROY starts: DRAINING (R83, R84, R86, R273, R305). -/
def ownerDestroyRun (cons : Cons) (p : Inflight) (s : State) : State :=
  let o := p.fld 16 1
  if o = 0 ∨ 64 ≤ o then finishPkt p.id 0x0303 0 0 s
  else if !(ownerActive s o) then finishPkt p.id 0x0225 0 0 s
  else
    let s1 := updOwner o (fun w => { w with st := .draining, destroyId := some p.id, forced := 0 })
      (updPkt p.id (fun q => { q with wait := .islandWork }) s)
    let rings := (List.range 1024).filter (fun r => ringOwner s1 r == some o)
    let s2 := rings.foldl (fun t r => cancelFetched r 0x0801 t) s1
    let s3 := endParked o (stopOwner o 0x0801 s2)
    let s4 := sweepsGone o cons.sweeps (streamsGone o cons.streams s3)
    unbindWindow o (updOwner o (fun w => { w with parks := [] }) s4)

/-- The owner has transactions outstanding (R83). -/
def ownerBusy (s : State) (o : Nat) : Bool :=
  s.hif.started.any (fun q => q.owner == o && q.wait != .event) ||
  s.mov.chans.any (fun c => c.2.any (·.owner == o)) || s.elk.outstanding.any (·.owner == o)

/-- OWNER_DRAIN_END (R83). -/
def drainEnd (o : Nat) (s : State) : State :=
  let w := ownerAt s o
  match w.destroyId with
  | none => s
  | some id =>
    if w.st != .draining || ownerBusy s o || !(islandRuns s) || w.key.isNone then s
    else
      let mine := (s.mem.leases.filter (fun l => l.2.owner == some o)).map (·.1)
      let s1 : State := { s with mem := { s.mem with
        grants := s.mem.grants.filter (fun g => match g.2 with
          | some x => x.owner != o
          | none => true)
        leaves := s.mem.leaves.filter (·.owner != o)
        tables := s.mem.tables.filter (·.owner != o) } }
      let s2 := mine.foldl (fun t c => changeLease none c t)
        (updOwner o (fun w => { w with key := none, root := 0, parks := [], fringProd := 0 }) s1)
      let s3 := resetOwnerRegs o (ptuOwnerGone o s2)
      if mine.isEmpty then destroyDone o id s3
      else { s3 with mem := { s3.mem with leaseWaits := s3.mem.leaseWaits ++ [{ id, clusters := mine, owner := some o }] } }

/-- DRAIN_TIMEOUT: what is left ends with DRAIN_TIMEOUT and is counted (R83). -/
def drainTimeout (cons : Cons) (o : Nat) (s : State) : State :=
  if (ownerAt s o).st != .draining || !(islandRuns s) then s
  else
    let chains := s.mov.chans.flatMap (fun c => (c.2.filter (·.owner == o)).map (fun x => (c.1, x)))
    let pkts := s.hif.started.filter (fun q => q.owner == o && q.wait != .event)
    let threads := s.elk.outstanding.filter (fun x => x.owner == o && (match x.agent with
      | .load _ _ _ => true
      | .posted _ _ => true
      | .window _ _ => true
      | _ => false))
    let own (c : Chain) : Bool := match c.origin with
      | .counter _ _ => true
      | .packet _ => false
    let n := pkts.length + (chains.filter (fun x => own x.2)).length + threads.length
    let s1 := completeAll cons (·.owner == o) 0x0802 s
    let s2 := chains.foldl (fun t x =>
      match (chainsAt t x.1).find? (·.cid == x.2.cid) with
      | some c => finishChain x.1 c 0x0802 t
      | none => t) s1
    let s3 := pkts.foldl (fun t q => finishPkt q.id 0x0802 0 0 t) s2
    updOwner o (fun w => { w with forced := w.forced + n }) s3

/-! MAP and UNMAP (R69–R72) -/

/-- Bytes a level's table covers. -/
def levelSpan (lvl : Nat) : Nat := 2 ^ (48 - 9 * lvl)

/-- Writes one 8-byte table entry as the owner, and 16 of them for a 64 KiB leaf (R70). -/
def putEntry (o tbl i n v : Nat) (s : State) : State :=
  storeMem o (tbl + i * 8) ((List.replicate n (leBytes 8 v)).flatten) s

/-- The lowest free table page of the owner's table frames; never the page at DPA 0, which no root may be (R71). -/
def freeTable (s : State) (o : Nat) : Option Nat :=
  s.mem.grants.findSome? (fun g =>
    match g.2 with
    | some x =>
      if x.owner = o ∧ x.table then
        (List.range 512).findSome? (fun i =>
          let a := frameDpa g.1 + i * 4096
          if a = 0 ∨ s.mem.tables.any (·.dpa == a) then none else some a)
      else none
    | none => none)

/-- The owner's table of a level that covers a DVA. -/
def findTable (s : State) (o dva lvl : Nat) : Option TablePage :=
  s.mem.tables.find? (fun t => t.owner == o && t.level == lvl && t.dva == dva / levelSpan lvl * levelSpan lvl)

/-- Takes a free table page for a level, empty, and enters it in its parent, or as the root (R70, R71). -/
def makeTable (o dva lvl parent : Nat) (s : State) : Option (Nat × State) :=
  match freeTable s o with
  | none => none
  | some a =>
    let page : TablePage := { dpa := a, owner := o, level := lvl, dva := dva / levelSpan lvl * levelSpan lvl }
    let s1 := storeMem o a (zeros 4096) { s with mem := { s.mem with tables := s.mem.tables ++ [page] } }
    if lvl = 0 then some (a, updOwner o (fun w => { w with root := a }) s1)
    else some (a, putEntry o parent (dva / levelSpan lvl % 512) 1 (a + 3) s1)

/-- The table of a level that covers a DVA, made with its parents where missing. -/
def ensureTable (o dva : Nat) : Nat → State → Option (Nat × State)
  | 0, s =>
    match findTable s o dva 0 with
    | some t => some (t.dpa, s)
    | none => makeTable o dva 0 0 s
  | l + 1, s =>
    match findTable s o dva (l + 1) with
    | some t => some (t.dpa, s)
    | none =>
      match ensureTable o dva l s with
      | none => none
      | some (parent, s1) => makeTable o dva (l + 1) parent s1

/-- The level a page size's leaf stands at (R70). -/
def leafLevel (ps : Nat) : Nat := if ps = 3 then 1 else if ps = 2 then 2 else 3

/-- Writes one leaf and notes it. -/
def putLeaf (l : Leaf) (s : State) : Option State :=
  match ensureTable l.owner l.dva (leafLevel l.ps) s with
  | none => none
  | some (tbl, s1) =>
    let i := l.dva / 2 ^ (39 - 9 * leafLevel l.ps) % 512
    let e := 1 + l.ps * 4 + l.perm * 16 + l.dpa + l.chip * 2 ^ 48
    let s2 := putEntry l.owner tbl i (if l.ps = 1 then 16 else 1) e s1
    some { s2 with mem := { s2.mem with leaves := s2.mem.leaves ++ [l] } }

/-- Writes leaves, all or none. -/
def putLeaves : List Leaf → State → Option State
  | [], s => some s
  | l :: rest, s =>
    match putLeaf l s with
    | none => none
    | some s1 => putLeaves rest s1

/-- The range of R59 that holds a DPA, scratch as one range. -/
def rangeOf (dpa : Nat) : Nat :=
  match regionOf dpa with
  | some .hbm => 1
  | some .tier => 2
  | some (.scratch _) => 3
  | some .regs => 4
  | none => 0

/-- MAP's checks of a local target, in the order of R72. -/
def mapTargetError (s : State) (o dpa n ps : Nat) : Option Nat :=
  let last := dpa + n * pageSize ps - 1
  let r := rangeOf dpa
  let frames := run (frameOf dpa) (frameOf last + 1 - frameOf dpa)
  if r = 0 ∨ rangeOf last ≠ r then some 0x0320
  else if (r = 1 ∨ r = 2) ∧ !(frames.all (fun f => match grantAt s f with
      | some g => g.owner == o && !g.table
      | none => false)) then some 0x0326
  else if r = 3 ∧ ps = 3 then some 0x0320
  else if r = 4 ∧ o ≠ 0 then some 0x0325
  else none

/-- A leaf covers part of a range of DVAs. -/
def leafMeets (o a b : Nat) (l : Leaf) : Bool :=
  l.owner == o && decide (l.dva < b) && decide (a < l.dva + pageSize l.ps)

/-- MAP (R72, R202). -/
def mapRun (p : Inflight) (s : State) : State :=
  let o := p.fld 16 1
  let perm := p.fld 17 1
  let ps := p.fld 18 1
  let n := p.fld 20 4
  let dva := p.fld 24 8
  let t := p.fld 32 8
  let dpa := t % 2 ^ 48
  let chip := t / 2 ^ 48
  let size := pageSize ps
  if 64 ≤ o ∨ (p.owner ≠ 0 ∧ o ≠ p.owner) ∨ 8 ≤ perm ∨ 4 ≤ ps ∨ n = 0 ∨ 2 ^ 20 < n ∨ 2 ^ 54 ≤ t then
    finishPkt p.id 0x0303 0 0 s
  else if !(ownerActive s o) then finishPkt p.id 0x0225 0 0 s
  else if dva % size ≠ 0 ∨ dpa % size ≠ 0 ∨ 2 ^ 48 < dva + n * size ∨ 2 ^ 48 < dpa + n * size then
    finishPkt p.id 0x0321 0 0 s
  else
    match (if chip = s.elk.selfId then mapTargetError s o dpa n ps else none) with
    | some e => finishPkt p.id e 0 0 s
    | none =>
      if s.mem.leaves.any (leafMeets o dva (dva + n * size)) then finishPkt p.id 0x0220 0 0 s
      else
        match putLeaves ((List.range n).map (fun i =>
            { owner := o, dva := dva + i * size, ps, chip, dpa := dpa + i * size, perm })) s with
        | none => finishPkt p.id 0x0221 0 0 s
        | some s1 => finishPkt p.id 0 0 n s1

/-- Splits a run of a leaf into the largest aligned pages below a size. -/
def coverRun (l : Leaf) : Nat → Nat → Nat → List Leaf
  | 0, _, _ => []
  | fuel + 1, a, b =>
    if b ≤ a then []
    else
      let fits (ps : Nat) : Bool := decide (ps < l.ps) && a % pageSize ps == 0 && decide (a + pageSize ps ≤ b)
      let ps := if fits 2 then 2 else if fits 1 then 1 else 0
      { l with dva := a, dpa := l.dpa + (a - l.dva), ps } :: coverRun l fuel (a + pageSize ps) b

/-- What is left of a leaf outside a range of DVAs. -/
def leafLeft (a b : Nat) (l : Leaf) : List Leaf :=
  let e := l.dva + pageSize l.ps
  coverRun l 2048 l.dva (min a e) ++ coverRun l 2048 (max b l.dva) e

/-- Clears a leaf's entry and forgets it. -/
def dropLeaf (l : Leaf) (s : State) : State :=
  let base := l.dva / levelSpan (leafLevel l.ps) * levelSpan (leafLevel l.ps)
  let s1 := match s.mem.tables.find? (fun t => t.owner == l.owner && t.level == leafLevel l.ps && t.dva == base) with
    | some t => putEntry l.owner t.dpa (l.dva / 2 ^ (39 - 9 * leafLevel l.ps) % 512) (if l.ps = 1 then 16 else 1) 0 s
    | none => s
  { s1 with mem := { s1.mem with leaves := s1.mem.leaves.filter (· != l) } }

/-- Table pages of a level that no leaf of the owner needs return to its pool (R72). -/
def freeTables (o lvl : Nat) (s : State) : State :=
  let empty (t : TablePage) : Bool := t.owner == o && t.level == lvl &&
    !(s.mem.leaves.any (leafMeets o t.dva (t.dva + levelSpan lvl)))
  let l := s.mem.tables.filter empty
  let s1 : State := { s with mem := { s.mem with tables := s.mem.tables.filter (fun t => !(empty t)) } }
  l.foldl (fun u t =>
    if lvl = 0 then updOwner o (fun w => { w with root := 0 }) u
    else
      let base := t.dva / levelSpan (lvl - 1) * levelSpan (lvl - 1)
      match u.mem.tables.find? (fun x => x.owner == o && x.level == lvl - 1 && x.dva == base) with
      | some x => putEntry o x.dpa (t.dva / levelSpan lvl % 512) 1 0 u
      | none => u) s1

/-- UNMAP completes once every access that used the removed translations has (R72). -/
def settleUnmaps (s : State) : State :=
  (s.hif.started.filter (fun p => p.opcode == 0x14 && p.wait == .islandWork)).foldl (fun t p =>
    if t.elk.outstanding.any (·.owner == p.fld 16 1) then t else finishPkt p.id 0 0 p.lastWord t) s

/-- UNMAP (R72, R202). -/
def unmapRun (p : Inflight) (s : State) : State :=
  let o := p.fld 16 1
  let a := p.fld 24 8
  let n := p.fld 32 8
  let b := a + n
  if 64 ≤ o ∨ (p.owner ≠ 0 ∧ o ≠ p.owner) ∨ a % 4096 ≠ 0 ∨ n % 4096 ≠ 0 ∨ n = 0 then finishPkt p.id 0x0303 0 0 s
  else if !(ownerActive s o) then finishPkt p.id 0x0225 0 0 s
  else if 2 ^ 48 < b then finishPkt p.id 0x0321 0 0 s
  else
    let hit := s.mem.leaves.filter (leafMeets o a b)
    let gone := hit.foldl (fun k l => k + (min b (l.dva + pageSize l.ps) - max a l.dva) / 4096) 0
    match putLeaves (hit.flatMap (leafLeft a b)) (hit.foldl (fun t l => dropLeaf l t) s) with
    | none => finishPkt p.id 0x0221 0 0 s
    | some s1 =>
      let s2 := [3, 2, 1, 0].foldl (fun t lvl => freeTables o lvl t) s1
      settleUnmaps (updPkt p.id (fun q => { q with wait := .islandWork, lastWord := gone }) s2)

/-! RESUME (R76, R77) -/

/-- RESUME of a parked packet. -/
def resumePacket (id : Nat) (abort : Bool) (status : Nat) (s : State) : State :=
  match findPkt s id with
  | none => s
  | some p =>
    if p.opcode = 0x21 ∨ p.opcode = 0x34 ∨ p.opcode = 0x41 then
      if abort then finishPkt id status 0 0 s
      else rerunPacket id (updPkt id (fun q => { q with wait := .engine }) s)
    else resumeFront id abort status s

/-- Acts on one park, already taken off its owner's list. -/
def resumePark (cons : Cons) (o : Nat) (abort : Bool) (k : Park) (s : State) : State :=
  match k.agent with
  | .thread c sl => resumeThread (threadKey c sl) abort k s
  | .clusterMover c ch => resumeChain (c * 4 + ch) abort k s
  | .bulkMover m => resumeChain (bulkChan m) abort k s
  | .frontEnd id => resumePacket id abort k.status s
  | .stream i => resumeStream i abort k.status (cons.streams.getD i 0) s
  | .sweep c => resumeSweep c abort k.status (cons.sweeps.getD c 0) s
  | .saved _ _ _ => updOwner o (fun w => { w with parks := w.parks ++ [{ k with recorded := some abort }] }) s

/-- RESUME (R64, R76). -/
def doResume (cons : Cons) (p : Inflight) (s : State) : State :=
  let token := p.fld 16 4
  let o := p.fld 21 1
  if 2 ≤ p.fld 20 1 ∨ 64 ≤ o ∨ (p.owner ≠ 0 ∧ o ≠ p.owner) then finishPkt p.id 0x0303 0 0 s
  else if !(ownerActive s o) then finishPkt p.id 0x0225 0 0 s
  else
    let named (k : Park) : Bool := k.recorded.isNone && (token == 0xFFFFFFFF || k.token == token)
    let l := (ownerAt s o).parks.filter named
    if l.isEmpty then finishPkt p.id 0x0020 0 0 s
    else
      let s1 := updOwner o (fun w => { w with parks := w.parks.filter (fun k => !(named k)) }) s
      finishPkt p.id 0 0 l.length (l.foldl (fun t k => resumePark cons o (p.fld 20 1 == 1) k t) s1)

end Sys2Proof.Machine
end

