-- ==== Sys2Proof/Machine/BackgroundOps.lean ====
section
/-! DEFINITION. Patrol, write-backs, HBM stacks, the TC0 windows and the telemetry page (R155, R156, R160, R170–R174,
R349). -/

namespace Sys2Proof.Machine

/-- The background services of memory run: power state ON, memory ready (R170, R517). -/
def backgroundRuns (s : State) : Bool := isOn s && chipReady s

/-- CE_WRITEBACK of a line: the corrected line is written back and no longer due (R160). -/
def ceWriteback (line : Nat) (s : State) : State := updMov (fun m => { m with writebacks := m.writebacks.filter (· != line) }) s

/-- TC0_WINDOW_EXPIRY of a resource (R156). -/
def tc0Window (r : Nat) (s : State) : State := updMov (fun m => { m with tc0Used := Tbl.erase m.tc0Used r }) s

/-! Patrol (R171, R172) -/

/-- The first DPA of a tier, and the first beyond it. -/
def tierSpan (tier : Bool) : Nat × Nat := if tier then (0x40_0000_0000, 0x40_8000_0000) else (0, 0x30_0000_0000)

/-- The tier's patrol is enabled. -/
def scrubOn (s : State) (tier : Bool) : Bool := regBit s 0x2D00000 (if tier then 1 else 0)

/-- The line a patrol reads next. -/
def patrolNext (s : State) (tier : Bool) : Nat :=
  if tier then max s.mov.tierNext 0x40_0000_0000 else s.mov.hbmNext

/-- Moves a patrol on; at the end of its tier the pass is over and the next one starts. -/
def patrolMoves (tier : Bool) (a : Nat) (s : State) : State :=
  let curOver := a + 64 == (tierSpan tier).2
  let n := if curOver then (tierSpan tier).1 else a + 64
  if tier then
    updMov (fun m => if curOver then
        { m with tierNext := n, tierPasses := m.tierPasses + 1, tierTime := 0, tierFrom := s.dts, tierLate := false }
      else { m with tierNext := n }) s
  else
    updMov (fun m => if curOver then
        { m with hbmNext := n, hbmPasses := m.hbmPasses + 1, hbmTime := 0, hbmFrom := s.dts, hbmLate := false }
      else { m with hbmNext := n }) s

/-- PATROL_READ: the next line of a tier, with what ECC finds in it. A failed stack's line counts as covered. -/
def patrolRead (tier : Bool) (ecc : Ecc) (s : State) : State :=
  if !(backgroundRuns s) || !(scrubOn s tier) then s
  else
    let a := patrolNext s tier
    patrolMoves tier a (if stackFailed s a then s else applyEcc ecc a s)

/-- A tier's period in nanoseconds. -/
def patrolPeriod (s : State) (tier : Bool) : Nat :=
  if tier then regFld s 0x2D00008 10 0 * 60000000000 else regFld s 0x2D00004 7 0 * 3600000000000

/-- PATROL_PERIOD_EXPIRY: the enabled time of the pass has passed the period. -/
def patrolLate (tier : Bool) (s : State) : State :=
  let m := s.mov
  if !(backgroundRuns s) || !(scrubOn s tier) || (if tier then m.tierLate else m.hbmLate) then s
  else
    let due := (if tier then m.tierFrom - m.tierTime else m.hbmFrom - m.hbmTime) + patrolPeriod s tier
    let s1 := orReg 0x2D00024 (if tier then 2 else 1) { s with dts := max s.dts (due + 1) }
    updMov (fun m => if tier then { m with tierLate := true } else { m with hbmLate := true }) s1

/-- The patrols start at their lowest DPA (R172). -/
def patrolStart (s : State) : State :=
  updMov (fun m => { m with
    hbmNext := 0, tierNext := 0x40_0000_0000, hbmTime := 0, tierTime := 0, hbmFrom := s.dts, tierFrom := s.dts
    hbmLate := false, tierLate := false }) s

/-- Telemetry was enabled: its samples count from 0 (R174). -/
def teleStart (s : State) : State := updMov (fun m => { m with samples := 0 }) s

/-- BKG_CTRL written: a patrol's enabled time stops or goes on, and telemetry starts counting (R172, R174). -/
def bkgWritten (old : Nat) (s : State) : State :=
  let turn (i : Nat) : Bool := bitOf old i != regBit s 0x2D00000 i
  let s1 := if turn 0 then
      updMov (fun m => if bitOf old 0 then { m with hbmTime := m.hbmTime + (s.dts - m.hbmFrom) } else { m with hbmFrom := s.dts }) s
    else s
  let s2 := if turn 1 then
      updMov (fun m => if bitOf old 1 then { m with tierTime := m.tierTime + (s.dts - m.tierFrom) } else { m with tierFrom := s.dts }) s1
    else s1
  if turn 3 && !(bitOf old 3) then teleStart s2 else s2

/-! HBM stacks (R155) -/

/-- HBM_STACK_FAIL: a trained stack stops answering. -/
def stackFails (k : Nat) (s : State) : State :=
  if !(fclkRuns s) || !(s.mov.hbmTrained.testBit k) || decide (8 ≤ k) then s
  else
    logErr { cls := 6, cause := 2, sev := sevFatal, source := 0x18, index := k }
      (updMov (fun m => { m with hbmTrained := m.hbmTrained - 2 ^ k, hbmFailed := m.hbmFailed ||| 2 ^ k }) s)

/-- HBM_REFRESH_RATE_CHANGE: a stack above 85 °C refreshes at the double rate. -/
def refreshRate (k : Nat) (twice : Bool) (s : State) : State :=
  if !(fclkRuns s) || decide (8 ≤ k) then s
  else updMov (fun m => { m with refresh2x := setFld m.refresh2x k k (b2n twice) }) s

/-! Telemetry (R91, R174, R349) -/

/-- The POWER section's bytes 256–359. -/
def powerSection (s : State) : List Byte :=
  let g := s.pgv
  let f := g.forecast
  leBytes 8 g.energyUj ++ leBytes 4 g.powerMw ++ leBytes 2 (g.applied / 1000) ++
  leBytes 2 (srcHost s) ++ leBytes 2 g.huddle ++ leBytes 2 (srcSite s) ++ leBytes 2 g.thermal ++ leBytes 2 (srcBoard s) ++
  leBytes 1 g.limiter ++
  leBytes 1 (b2n (ramping s) + b2n g.quorum * 2 + b2n g.leakFloor * 4 + b2n g.tjFloor * 8 + b2n g.brdThrot * 16 +
    b2n g.floorUnmet * 32 + g.duty * 64) ++
  leBytes 2 g.fclkMhz ++ leBytes 2 g.vcoreMv ++ leBytes 2 (ofInt 16 g.th) ++ leBytes 2 g.sensor ++ leBytes 2 g.clampUs ++
  zeros 4 ++ (List.range 8).flatMap (fun i => leBytes 4 (g.railMa.getD i 0)) ++
  leBytes 8 f.dts ++ leBytes 4 (sat 32 f.mj) ++ leBytes 4 f.horizonUs ++ leBytes 2 f.watts ++
  leBytes 2 (b2n f.clipped + b2n f.uncoeffed * 2) ++ (List.range 3).flatMap (fun i => leBytes 4 (g.swing.getD i 0))

/-- The page between START and END. -/
def telePage (s : State) (sample : Nat) : List Byte :=
  let m := s.mov
  slice (leBytes 2 1 ++ zeros 2 ++ leBytes 8 s.dts ++ leBytes 8 sample ++ leBytes 8 m.hbmRd ++ leBytes 8 m.hbmWr ++
    leBytes 8 m.tierRd ++ leBytes 8 m.tierWr ++ leBytes 8 m.tc0Over ++ leBytes 4 m.ceWindow ++ leBytes 4 m.ueWindow ++
    zeros 184 ++ powerSection s) 0 4088

/-- TELEMETRY_SAMPLE: the millisecond's counts are published and start again. -/
def teleSample (s : State) : State :=
  if !(isOn s) then s
  else
    let n := s.mov.samples + 1
    let s1 := if !(regBit s 0x2D00000 3) then s
      else if hostUp s then
        let g := add32 s.mov.generation 1
        updMov (fun m => { m with samples := n, generation := g })
          (genWrite 0 (regFld s 0x2D00030 63 12 * 4096) g (telePage s n) s)
      else logErr { cls := 2, cause := 4, sev := sevNotice, source := 0x2D } (updMov (fun m => { m with samples := n }) s)
    updMov (fun m => { m with hbmRd := 0, hbmWr := 0, tierRd := 0, tierWr := 0, ceWindow := 0, ueWindow := 0 }) s1

end Sys2Proof.Machine
end

