-- ==== Sys2Proof/Machine/ResetOps.lean ====
section
/-! DEFINITION. Resets, power sequences, clocks, the thermal trip, initialization in ON and the island's fall
(R36–R57, R502, R517, R518). -/

namespace Sys2Proof.Machine

/-! Chip reset (R52–R54) -/

/-- The work and contents of the main domain: what a chip reset, or the loss of the main rails, leaves of the state.
Registers and the error unit are treated apart. -/
def clearChip (s : State) : State :=
  let m := s.mem
  let e := s.elk
  ptuChipReset { s with
    mem := { owners := m.owners.foldl (fun t p => Tbl.set {} t p.1 { keyGen := p.2.keyGen }) [], nextKey := m.nextKey, cells := m.cells, tags := m.tags, poison := m.poison, poisonScratch := m.poisonScratch }
    hif := { nextId := s.hif.nextId, readHold := s.hif.readHold.filter (fun p => decide (64 ≤ p.1)), writeHold := s.hif.writeHold.filter (fun p => decide (64 ≤ p.1)) }
    fab := {}
    mov := {}
    elk := { ports := elkPorts.map (fun p => (p, { st := .down })), manifest := e.manifest, routes := e.routes, nextNonce := e.nextNonce }
    sqe := {}
    swe := {}
    pgv := { s.pgv with forecast := {}, energyUj := 0, streams := [] } }

/-- The error unit after a chip reset: no class is held, no hold and no isolation (R495, R497). -/
def clearHandling (e : ErrUnit) : ErrUnit :=
  { e with classes := [], fatalHold := false, isolated := false, fencePending := false, running := none, firstFatal := none }

/-- A chip reset (R52, R54). -/
def chipReset (s : State) : State :=
  let s1 := clearChip (resetRegs (fun d _ => d.dom == .chip || d.dom == .owner) s)
  updErr clearHandling (updPwr (fun p => { p with init := .idle, fclkStopped := !p.okRef100 }) s1)

/-- Sets or releases a source. -/
def setReset (r : ResetSrc) (b : Bool) (p : Power) : Power :=
  match r with
  | .pin => { p with rstPin := b }
  | .perst => { p with perstPin := b }
  | .soft => { p with rstSoft := b }
  | .mmp => { p with rstMmp := b }

/-- A source's bit of ISL_RST_CAUSE. -/
def ResetSrc.bit : ResetSrc → Nat
  | .pin => 2 | .perst => 4 | .soft => 8 | .mmp => 16

/-- A source applies a chip reset (R52). -/
def applyReset (r : ResetSrc) (s : State) : State :=
  if standby s then orReg 0x2C00120 r.bit (chipReset (updPwr (setReset r true) s)) else s

/-- The first row of R517: PLLs start, FCLK at its minimum; the ports enable (R516). -/
def startInit (s : State) : State :=
  let s1 := updPwr (fun p => { p with init := .started, fclkStopped := !p.okRef100 }) (fclkRestart s)
  elkPorts.foldl (fun t p => portStart p t) s1

/-- A source lets go; with none left, initialization runs again in ON (R54). -/
def releaseReset (r : ResetSrc) (s : State) : State :=
  if !(inChipReset s) then s
  else
    let s1 := updPwr (setReset r false) s
    if inChipReset s1 || s1.pwr.st != .on then s1 else startInit s1

/-! Initialization in ON (R517) -/

/-- CHIP_INIT: the random source's test, and owner 0's key (R78, R79). -/
def chipInit (ok : Bool) (s : State) : State :=
  if s.pwr.init != .started || !(fclkRuns s) || !(islandRuns s) then s
  else if ok then
    let s1 := updOwner 0 (fun w => { w with keyGen := (w.keyGen + 1) % 1024, key := some s.mem.nextKey }) s
    updPwr (fun p => { p with init := .keys })
      { s1 with mem := { s1.mem with rngOk := true, nextKey := s1.mem.nextKey + 1 } }
  else
    logErr { cls := 18, cause := 1, sev := sevFatal, source := 2 } (updPwr (fun p => { p with init := .failed }) s)

/-- HBM training ended: memory is filled and cleared and owner 0 is ACTIVE, or each failed stack logs (R155, R517). -/
def hbmTrained (mask : Nat) (s : State) : State :=
  if s.pwr.init != .keys || !(fclkRuns s) || !(islandRuns s) then s
  else
    let good := mask % 256
    let s1 := updMov (fun m => { m with hbmTrained := good, hbmFailed := 255 - good, refresh2x := 0 }) s
    if good = 255 then
      let m := s1.mem
      let s2 : State := { s1 with mem := { m with cells := [], tags := [], poison := [], poisonScratch := [], leases := [] } }
      patrolStart (updPwr (fun p => { p with init := .memory }) (updOwner 0 (fun w => { w with st := .active }) s2))
    else
      ((List.range 8).filter (fun k => !(bitOf good k))).foldl (fun t k =>
        logErr { cls := 6, cause := 1, sev := sevFatal, source := 0x18, index := k } t)
        (updPwr (fun p => { p with init := .failed }) s1)

/-- HOST_PORT_READY (R40). -/
def hostReady (s : State) : State :=
  if s.pwr.init == .memory && chipReady s then updPwr (fun p => { p with init := .ready }) s else s

/-! Power sequences (R38–R46) -/

/-- VCORE goes, or every rail: the main domain's work, contents and settings are lost. The error unit stands on VSTBY. -/
def mainLost (s : State) : State :=
  let s1 := clearChip (resetRegs (fun d lo => (d.dom == .chip || d.dom == .owner) && !(decide (0x100000 ≤ lo) && decide (lo < 0x200000))) s)
  updPwr (fun p => { p with init := .idle, fclkStopped := false })
    { s1 with mem := { s1.mem with cells := [], tags := [], poison := [], poisonScratch := [] } }

/-- R38's conditions. -/
def mayPowerUp (s : State) : Bool :=
  s.pwr.vstby == .qualified && islandRuns s && s.boot.path == 0 && decide (2 ≤ s.boot.stage) && s.pwr.okRef100 &&
  !s.pwr.fault.valid && !s.pwr.tripped && !s.pwr.straps.test && flowOk s

/-- A power-up command (R38, R45, R46). -/
def powerUp (s : State) : State :=
  match s.pwr.st with
  | .off => if mayPowerUp s then beginPowerUp s else s
  | .quiesce => updPwr (fun p => { p with heldUp := true }) s
  | .rampDown => updPwr (fun p => { p with heldUp := true }) s
  | _ => s

/-- Power-down step 1: packets not started end, and the chip fences itself (R41, R239). -/
def beginQuiesce (s : State) : State :=
  let on := isOn s
  let s1 := updPwr (fun p => { p with ackWait := [], phase := .ack }) (setPower .quiesce 1 0 s)
  let s2 := (s1.hif.rings.map (·.1)).foldl (fun t r => cancelFetched r 0x0501 t) s1
  if on && linkRuns s2 then updElk (fun e => { e with selfFence := true }) s2 else s2

/-- A power-down command (R45, R46). -/
def powerDown (s : State) : State :=
  match s.pwr.st with
  | .on => beginQuiesce s
  | .rampUp => beginQuiesce s
  | _ => s

/-- Every rail is off: OFF, and a held power-up is judged (R41, R45). -/
def reachOff (s : State) : State :=
  let held := s.pwr.heldUp
  let s1 := updPwr (fun p => { p with mainPwrEn := false, heldUp := false, rails := [] }) (setPower .off 0 0 s)
  if held then powerUp s1 else s1

/-- The next power-down step with a rail that was enabled (R41, R45). -/
def downSteps : List Nat → State → State
  | [], s => reachOff s
  | n :: rest, s =>
    let l := (downRails n).filter (fun i => (railAt s i).enabled)
    if l.isEmpty then downSteps rest s
    else forEach l operationOff (setPower .rampDown n ((downRails n).getLastD 0) s)

/-- The rings are quiesced (R41). -/
def quiesceDone (s : State) : State :=
  if s.pwr.st == .quiesce && s.hif.started.isEmpty && !s.elk.selfFence then downSteps [2, 3, 4, 5, 6] (mainLost s) else s

/-- 100 ms without it: packets in flight complete CANCELLED (R41). -/
def quiesceTimeout (s : State) : State :=
  if s.pwr.st == .quiesce then
    downSteps [2, 3, 4, 5, 6] (mainLost (s.hif.started.foldl (fun t p => finishPkt p.id 0x0501 0 0 t) s))
  else s

/-- Every rail of the power-down step is off (R41). -/
def stepOff (s : State) : State :=
  if s.pwr.st == .rampDown then
    downSteps ((run 2 5).filter (fun n => decide (s.pwr.step < n)))
      (forEach (downRails s.pwr.step) (fun i t => updRail i (fun r => { r with off := true }) t) s)
  else s

/-- ON (R39, R517). -/
def enterOn (s : State) : State :=
  let s1 := setPower .on 0 0 s
  let s2 := updPgv (fun g => { g with energyUj := 0, vcoreSet := 750, vcoreMv := 750 }) s1
  if inChipReset s2 then s2 else startInit s2

/-- Every rail of the power-up step is up, its regulators' acknowledgement included (R39). -/
def stepUp (s : State) : State :=
  if s.pwr.st != .rampUp || s.pwr.phase == .delay then s
  else
    let s1 := if s.pwr.phase == .ack then startU1 s else s
    let s2 := forEach (upRails s1.pwr.step) (fun i t =>
      updRail i (fun r => { r with up := true, inWindow := true, off := false }) t) s1
    if s2.pwr.step = 6 then enterOn s2 else updPwr (fun p => { p with phase := .delay }) s2

/-- The gap after a power-up step is over (R39). -/
def stepDelay (s : State) : State :=
  if s.pwr.st == .rampUp && s.pwr.phase == .delay then enableStep (s.pwr.step + 1) s else s

/-- A rail fault: the forced shutdown, and the main domain's loss (R43). -/
def railFault (kind cause rail step : Nat) (s : State) : State := mainLost (forcedShutdown kind cause rail step s)

/-- A regulator does not acknowledge OPERATION off (R39). -/
def ackTimeoutRail (rail : Nat) (s : State) : State :=
  if s.pwr.st == .rampUp && s.pwr.phase == .ack && s.pwr.ackWait.contains rail then railFault 2 3 rail 1 s else s

/-- A rail that is enabled in the step is not up within 10 ms (R42). -/
def railNoRise (rail : Nat) (s : State) : State :=
  if s.pwr.st == .rampUp && s.pwr.phase == .rising && (upRails s.pwr.step).contains rail && !(railAt s rail).up then
    railFault 2 3 rail s.pwr.step s
  else s

/-- A rail disabled in the step is not off after 5 ms (R42). -/
def railStaysOn (rail : Nat) (s : State) : State :=
  if s.pwr.st == .rampDown && (downRails s.pwr.step).contains rail && !(railAt s rail).off then
    railFault 1 1 rail s.pwr.step s
  else s

/-- A rail leaves its window, or collapses in power-down (R42). -/
def railLeaves (rail : Nat) (s : State) : State :=
  if !(mainRails.contains rail) then s
  else
    match s.pwr.st with
    | .rampUp => if (railAt s rail).up then railFault 2 4 rail s.pwr.step s else s
    | .on => railFault 3 4 rail 0 s
    | .quiesce => if (railAt s rail).enabled then railFault 1 2 rail s.pwr.step s else s
    | .rampDown => if (railAt s rail).enabled then railFault 1 2 rail s.pwr.step s else s
    | _ => s

/-- The unacknowledged RAIL_FAULT record is marked acknowledged in flash (R44, R500). -/
def ackRail (s : State) : State :=
  let shown := match shownGasp s with
    | some r => r.kind == 2
    | none => false
  updErr (fun e => { e with
    crcReadBy := if shown then [] else e.crcReadBy
    records := updWhere (fun r => r.kind == 2 && !r.acked)
      (fun x => { x with acked := true, body := putBytes x.body 508 (zeros 4) }) e.records }) s

/-- CLEAR written to ISL_RAIL_CLEAR (R44). -/
def railClear (r : Requester) (s : State) : State :=
  if s.pwr.st == .lockedOut && s.pwr.fault.valid && s.pwr.faultReadBy.contains r then
    ackRail (setPower .off 0 0 (updPwr (fun p => { p with fault := {}, faultReadBy := [] }) s))
  else s

/-- A write of ISL_PWR_CTRL carries a command (R38, R46). -/
def powerCmd (cmd : Nat) (s : State) : State :=
  if cmd = 1 then powerUp s else if cmd = 2 then powerDown s else s

/-- AUTO_ON's one power-up of an island boot: flow seen, not asked for, or 10 s after island boot (R515). -/
def autoOn (s : State) : State :=
  if !(islandRuns s) || !(regBit s 0x2C00100 2) || decide (s.boot.stage < 5) || s.pwr.autoOnDone || s.boot.path != 0 then s
  else
    let s1 : State := if flowOk s then s else { s with dts := max s.dts (s.boot.bootDts + 10000000000) }
    powerUp (updPwr (fun p => { p with autoOnDone := true }) s1)

/-! Thermal trip (R55, R56) -/

/-- A junction sensor reaches 115 °C (R55). -/
def thermalTrip (sensor : Nat) (s : State) : State :=
  if !(standby s) || s.pwr.tripped then s
  else
    let s1 := mainLost (updPwr (fun p => { p with
      tripped := true, tripSensor := sensor % 256, tripDts := s.dts, mainPwrEn := false, st := .tripped, heldUp := false
      ackWait := [], rails := [] }) s)
    let r := logErrE { cls := 15, cause := 1, sev := sevFatal, source := 0x2C, index := sensor % 256, info := sensor % 256 }
      (orReg 0x2C00120 0x40 s1)
    queueGasp 3 (some r.2) r.1

/-- CLEAR written to ISL_THERMTRIP (R56). -/
def tripClear (s : State) : State :=
  if !s.pwr.tripped || decide (s.dts < s.pwr.tripDts + 10000000000) then s
  else
    let s1 := updPwr (fun p => { p with tripped := false }) s
    if s1.pwr.fault.valid then setPower .lockedOut s1.pwr.fault.step s1.pwr.fault.rail s1 else setPower .off 0 0 s1

/-! Clocks (R49) -/

/-- A clock's bit in ISL_CLK_STATUS. -/
def Clk.idx : Clk → Nat
  | .refclk100 => 0 | .elk0 => 1 | .elk1 => 2 | .islClk25 => 3

/-- A clock is qualified. -/
def clkOk (s : State) : Clk → Bool
  | .refclk100 => s.pwr.okRef100
  | .elk0 => s.pwr.okElk0
  | .elk1 => s.pwr.okElk1
  | .islClk25 => s.pwr.okClk25

/-- Sets a clock's standing. -/
def setClk (c : Clk) (b : Bool) (p : Power) : Power :=
  match c with
  | .refclk100 => { p with okRef100 := b, dtsOnIclk := !b }
  | .elk0 => { p with okElk0 := b }
  | .elk1 => { p with okElk1 := b }
  | .islClk25 => { p with okClk25 := b }

/-- The ports a link clock serves. -/
def clkPorts : Clk → List Nat
  | .elk0 => [0, 1] | .elk1 => [2, 3] | _ => []

/-- REFCLK_QUALIFIED (R49). FCLK that a loss in ON has stopped waits for a chip reset (R501), unless the loss came
before the reset's initialization had begun to run. -/
def clockQualified (c : Clk) (s : State) : State :=
  if !(standby s) || clkOk s c || (c != .islClk25 && !s.pwr.okClk25) then s
  else
    let s1 := updPwr (setClk c true) s
    match c with
    | .refclk100 =>
      if s1.pwr.init == .started then updPwr (fun p => { p with fclkStopped := false }) s1 else s1
    | .islClk25 => updMgp (fun m => { m with phyReleased := m.phyReleased || decide (6 ≤ s.boot.stage) || s.boot.path != 0 }) (clk25Back s1)
    | _ =>
      if linkRuns s1 then
        (clkPorts c).foldl (fun t p => if (portAt t p).st == .disabled then portStart p t else t) s1
      else s1

/-- REFCLK_LOST (R49). -/
def clockLost (cons : Cons) (c : Clk) (s : State) : State :=
  if !(standby s) || !(clkOk s c) then s
  else
    let s1 := orReg 0x2C00140 (256 * 2 ^ c.idx) (updPwr (setClk c false) s)
    match c with
    | .refclk100 =>
      logErr { cls := 14, cause := 1, sev := if isOn s then sevFatal else sevNotice, source := 0x2C, index := 0 }
        (if isOn s then updPwr (fun p => { p with fclkStopped := true }) s1 else s1)
    | .islClk25 => clk25Lost (logErr { cls := 14, cause := 3, sev := sevContained, source := 0x2C, index := 3 } s1)
    | _ =>
      let s2 := logErr { cls := 14, cause := 2, sev := sevContained, source := 0x2C, index := c.idx } s1
      (clkPorts c).foldl (fun t p =>
        if (portAt t p).st == .disabled || (portAt t p).st == .down then t else portDown cons p 8 t) s2

/-! The standby rail (R36, R37, R52) -/

/-- What loss and return of VSTBY leave: the SPI flash, the fuses and the model's own records (R37, R504). -/
def coldReset (s : State) : State :=
  let t := forEach [0, 1] pulseOff (tfuReset s)
  let b := s.boot
  let e := s.elk
  { pending := s.pending, out := t.out, free := s.free
    err := { flash := s.err.flash, nextUid := s.err.nextUid, reserve := s.err.reserve, records := s.err.records, nextRecord := s.err.nextRecord, torn := s.err.torn }
    boot := { fw := b.fw, cfg := b.cfg, count := b.count, slots := b.slots, written := b.written, enrolled := b.enrolled, key0Revoked := b.key0Revoked, svn := b.svn, integratorKey := b.integratorKey }
    mem := { nextKey := s.mem.nextKey }
    mgp := { key0 := s.mgp.key0, key1 := s.mgp.key1, reserve := s.mgp.reserve, outReserve := s.mgp.outReserve }
    tmg := { topology := s.tmg.topology, accepted := s.tmg.accepted }
    hud := { accepted := if s.hud.accepted = [] then s.hud.cfg else s.hud.accepted }
    elk := { manifest := e.manifest, routes := e.routes } }

/-- VSTBY has held for 10 ms (R12, R15, R36, R50, R52). -/
def vstbyQualified (straps : Straps) (s : State) : State :=
  if s.pwr.vstby == .qualified then s
  else
    let s1 := updPwr (fun p => { p with vstby := .qualified, straps := { straps with pos := straps.pos % 4 } }) (coldReset s)
    ptuStart (tfuReset s1)

/-- VSTBY falls through 3.10 V (R36, R498). -/
def vstbyFall (s : State) : State :=
  if s.pwr.vstby != .qualified then s
  else
    let s1 := updPwr (fun p => { p with vstby := .falling }) s
    if islandRuns s1 then queueGasp 1 none s1 else s1

/-- VSTBY falls below 2.90 V (R36, R52). -/
def vstbyBrownOut (s : State) : State := if standby s then coldReset s else s

/-! The island goes down (R52, R502, R512, R518) -/

/-- Initialization is under way. -/
def initRuns (s : State) : Bool :=
  s.pwr.init == .started || s.pwr.init == .keys || s.pwr.init == .trained || s.pwr.init == .memory

/-- The island stops and its ROM starts again; `logged` when the cause has logged WATCHDOG. -/
def islandDown (logged : Bool) (s : State) : State :=
  if !(romRuns s) then s
  else
    let hit := initRuns s
    let s1 := if hit && !logged then logErr { cls := 17, cause := 1, sev := sevContained, source := 0x2C } s else s
    let s2 := updPwr (fun p => { p with
      islandUp := false, restarting := true, initInterrupted := p.initInterrupted || hit, autoOnDone := false }) s1
    { s2 with boot := { s2.boot with stage := 1 } }

/-- ISLAND_WATCHDOG (R52). -/
def islandWatchdog (s : State) : State :=
  if !(romRuns s) then s
  else islandDown true (logErr { cls := 17, cause := 1, sev := sevContained, source := 0x2C } (orReg 0x2C00120 0x20 s))

/-- LOCKSTEP: the island restarts as on its watchdog (R483). -/
def islandLockstep (s : State) : State :=
  if !(romRuns s) then s
  else islandDown false (logErr { cls := 17, cause := 2, sev := sevContained, source := 0x2C } s)

end Sys2Proof.Machine
end

