-- ==== Sys2Proof/Machine/RegWrite.lean ====
section
/-! DEFINITION. Register accesses on every path: views, alignment, split accesses, reserved encodings, locks and what a
write does (R2–R6, R13, R66, R75, R89, R90, R181–R194, R476, R520). -/

namespace Sys2Proof.Machine

/-! Ring registers (R189–R194) -/

/-- A ring's number of a ring register's offset. -/
def ringOfReg (lo : Nat) : Nat := (lo - 0x400000) / 0x40

/-- A ring register. -/
def isRingReg (lo : Nat) : Bool := decide (0x400000 ≤ lo) && decide (lo < 0x410000)

/-- MSI-X vectors of a function (R176). -/
def vecCount (fn : Nat) : Nat := if fn = 0 then 2048 else 64

/-- EN 1 on a DISABLED ring (R190). -/
def ringEnable (r : Nat) (s : State) : State :=
  updRing r (fun _ => { st := .running }) (setRaw (ringReg r 0x20) 0 (setRaw (ringReg r 0x10) 0 s))

/-- EN 0: nothing more is fetched or started; DISABLED follows the last record (R194). -/
def ringDisable (r : Nat) (s : State) : State :=
  maybeDisabled r (updRing r (fun g => { g with closing := true, fetching := 0 }) (cancelFetched r 0x0503 s))

/-- A write reached CMD_RING_CTRL. -/
def ringCtrlWritten (r : Nat) (s : State) : State :=
  let en := regBit s (ringReg r 8) 31
  match (ringAt s r).st with
  | .disabled => if en then ringEnable r s else s
  | _ => if en then s else if (ringAt s r).closing then s else ringDisable r s

/-- The doorbell (R191). -/
def doorbell (r : Nat) (s : State) : State :=
  let g := ringAt s r
  if g.st == .running && decide (ringUnits s r < sub32 (rawAt s (ringReg r 0x10)) g.head) then
    logErr { cls := 1, cause := 3, sev := sevNotice, status := 0x0306, addr := ringNumber s r, addrKind := 7
             owner := ringOwner s r, source := 4, index := r } (updRing r (fun g => { g with st := .stopped, cause := 1 }) s)
  else s

/-- A ring's owner is the one that may write it through the physical function, the MMP path or the mirror (R189). -/
def ringIsOwn (s : State) (r : Nat) : Bool := ringOwner s r == some 0

/-! Views (R183) -/

/-- The ring that owner `n` reaches by local index `k`. -/
def localRing (s : State) (n k : Nat) : Option Nat :=
  (List.range 1024).find? (fun r => ringOwner s r == some n && regFld s (bindReg r) 7 0 == k)

/-- The register offset that a function's view offset names; none for a hole. -/
def viewOffset (s : State) (n off : Nat) : Option Nat :=
  if n = 0 then (if off < 0x4000000 then some off else none)
  else if off < 0x4000 then (localRing s n (off / 0x40)).map (fun r => 0x400000 + r * 0x40 + off % 0x40)
  else if off < 0x4004 ∨ (0x4010 ≤ off ∧ off < 0x4028) then some (0x210000 + n * 0x100 + (off - 0x4000))
  else if 0x8000 ≤ off ∧ off < 0x8400 then some (0x1_0000_0000 + (n - 1) * 0x400 + (off - 0x8000))
  else if 0xC000 ≤ off ∧ off < 0xC008 then some (0x1_0010_0000 + (n - 1) * 8 + (off - 0xC000))
  else none

/-- The register offset that a requester's offset names. -/
def accessOffset (s : State) (r : Requester) (off : Nat) : Option Nat :=
  match r with
  | .fn n => viewOffset s n off
  | _ => if off < 0x4000000 then some off else none

/-- Holding registers' key of a requester (R89, R90). -/
def holdKey : Requester → Nat
  | .fn n => n
  | .island => 64
  | .mmp => 65
  | .mirror => 0

/-! Reads -/

/-- Reads that the device notices (R44, R500, chapter 14's LAST_ERR). -/
def readEffect (r : Requester) (lo : Nat) (s : State) : State :=
  if lo = 0x2C0010C then updPwr (fun p => { p with faultReadBy := if p.faultReadBy.contains r then p.faultReadBy else r :: p.faultReadBy }) s
  else if lo = 0x2C00BF8 ∧ (shownGasp s).isSome then
    updErr (fun e => { e with crcReadBy := if e.crcReadBy.contains r then e.crcReadBy else r :: e.crcReadBy }) s
  else if lo = 0x2900004 then updFbc (fun b => { b with lastErr := 7 }) s
  else s

/-- One 32-bit read of the register word at an offset (R89). -/
def readWord (r : Requester) (off : Nat) (s : State) : State × Nat :=
  match findReg off with
  | none => (s, 0)
  | some (d, lo) =>
    let v := d.shown (regImage r s lo)
    let s1 := readEffect r lo s
    if d.width = 64 then
      if off = lo then
        (updHif (fun h => { h with readHold := Tbl.set none h.readHold (holdKey r) (some ⟨lo, v / 2 ^ 32⟩) }) s1, v % 2 ^ 32)
      else
        match Tbl.get none s.hif.readHold (holdKey r) with
        | some h => if h.off = lo then (s1, h.word) else (s1, v / 2 ^ 32)
        | none => (s1, v / 2 ^ 32)
    else (s1, v)

/-- A read of 4 or 8 aligned bytes. -/
def readReg (r : Requester) (off width : Nat) (s : State) : State × Nat :=
  if width = 8 then
    match findReg off with
    | some (d, lo) =>
      if d.width = 64 then (readEffect r lo s, d.shown (regImage r s lo))
      else
        let a := readWord r off s
        let b := readWord r (off + 4) a.1
        (b.1, a.2 + b.2 * 2 ^ 32)
    | none =>
      let b := readWord r (off + 4) s
      (b.1, b.2 * 2 ^ 32)
  else readWord r off s

/-! Judging a write (R6) -/

/-- TFU_BASE points of a channel rise in RPM; an unused point is 0 (R360). -/
def basePointsOk : List Nat → Bool
  | a :: b :: rest => (fld b 15 0 == 0 || decide (fld a 15 0 < fld b 15 0)) && basePointsOk (b :: rest)
  | _ => true

/-- A channel's four points with one of them replaced. -/
def baseWith (s : State) (lo new : Nat) : List Nat :=
  let c := (lo - 0x2800100) / 0x20
  (List.range 4).map (fun k => if pwmReg c (0x10 + 4 * k) = lo then new else rawAt s (pwmReg c (0x10 + 4 * k)))

/-- P0 under an analog input's KIND (R367, R368). -/
def adcP0Ok (kind v : Nat) : Bool :=
  if kind = 0 then v == 0
  else if kind = 1 then fld v 31 16 == 0
  else decide (1000 ≤ fld v 31 16) && decide (fld v 31 16 ≤ 10000)

/-- R6 beyond a register's own fields: what its value may not be in the state now. -/
def crossReserved (lo old new : Nat) (s : State) : Bool :=
  if isRingReg lo then
    let r := ringOfReg lo
    let k := lo % 0x40
    let g := ringAt s r
    let o := (ringOwner s r).getD 0
    if k = 0 ∨ k = 0x18 then g.st == .running
    else if k = 8 then
      decide (vecCount o ≤ fld new 10 0) || (g.st == .running && fld (old ^^^ new) 30 16 != 0) ||
      (g.st == .stopped && bitOf new 31)
    else if k = 0x20 then decide (cqSize s r < sub32 g.cqTail new)
    else false
  else if 0x410000 ≤ lo ∧ lo < 0x411000 then
    let r := (lo - 0x410000) / 4
    let o := fld new 13 8
    (ringAt s r).st != .disabled || !(ownerActive s o) || (o == 0 && fld new 7 0 != 0) ||
    (bitOf new 31 && o != 0 && (List.range 1024).any (fun q =>
      q != r && ringOwner s q == some o && regFld s (bindReg q) 7 0 == fld new 7 0))
  else if lo = 0x100020 then (classAt s (fld new 4 0)).handling && (classAt s (fld new 4 0)).sev == sevFatal
  else if lo = 0x200010 then !(ownerActive s (fld new 5 0))
  else if lo = 0x200018 then new % 2 ^ s.hif.bar2Log2 != 0
  else if 0x210000 ≤ lo ∧ lo < 0x214000 then
    let o := (lo - 0x210000) / 0x100
    let k := lo % 0x100
    if k = 0x18 then decide (vecCount o ≤ fld new 10 0)
    else if k = 0x20 then decide (fringEntries s o < sub32 (ownerAt s o).fringProd new)
    else false
  else if lo = 0x2008028 then s.elk.busy
  else if 0x2601000 ≤ lo ∧ lo < 0x2601200 then
    let k := (lo - 0x2601000) % 0x40
    if k = 0 then bitOf old 31 && bitOf new 31 && fld (old ^^^ new) 30 19 != 0
    else if k = 4 then decide (fld new 31 16 ≤ fld new 15 0)
    else false
  else if lo = 0x2600010 then
    (bitOf new 31 && fld new 28 26 == 0) || (fld new 28 26 != 0 && !(bitOf new (26 + fld new 25 24)))
  else if lo = 0x260001C then decide (fld new 15 8 ≤ fld new 7 0)
  else if lo = 0x2700010 then !(capLegal new)
  else if lo = 0x2700020 ∨ lo = 0x2700024 ∨ lo = 0x2700028 ∨ lo = 0x2700030 then
    !(capLegal (fld new 26 16)) || !(capLegal (fld new 10 0))
  else if lo = 0x2800030 then decide (fld new 31 16 ≤ fld new 15 0)
  else if 0x2800100 ≤ lo ∧ lo < 0x28001C0 then
    let k := (lo - 0x2800100) % 0x20
    if k = 4 then decide (1024 < fld new 26 16)
    else if 0x10 ≤ k then decide (1024 < fld new 26 16) || !(basePointsOk (baseWith s lo new))
    else false
  else if 0x2800300 ≤ lo ∧ lo < 0x2800340 ∧ (lo - 0x2800300) % 0x20 = 8 then
    bitOf new 31 && (fld new 29 28 == 0 || fld new 29 28 == 3)
  else if 0x2800400 ≤ lo ∧ lo < 0x2800500 then
    let i := (lo - 0x2800400) / 0x20
    let k := (lo - 0x2800400) % 0x20
    let kind := regFld s (adcReg i 0) 31 30
    if k = 4 then !(adcP0Ok kind new) else if k = 8 then kind == 0 && new != 0 else false
  else if 0x2800500 ≤ lo ∧ lo < 0x2800540 ∧ lo % 0x10 = 0 then decide (fld new 25 16 ≤ fld new 9 0)
  else if lo = 0x290000C ∨ lo = 0x2900010 then decide (fld new 15 8 < fld new 7 0) || fld new 7 0 == 0
  else if lo = 0x290010C then decide (fld new 26 16 < fld new 10 0) || decide (fld new 10 0 ≤ 1)
  else if lo = 0x2900024 then !(fifoHolds s.fbc.queueA (fld new 4 0))
  else if lo = 0x2900034 then !(fifoHolds s.fbc.queueB (fld new 4 0))
  else if lo = 0x2900084 then !(fifoHolds s.fbc.txLog (fld new 4 0))
  else if lo = 0x2900050 ∨ lo = 0x2900054 then requestReserved s new
  else if lo = 0x2900400 then fld new 7 6 == 3 && fld new 4 0 != 0
  else if lo = 0x2C00458 then s.hud.busy
  else if lo = 0x2C00C08 then bitOf new 2 && !(bitOf new 1)
  else false

/-- The lock that governs a register's RWL fields is 1 (R520, R271, R373, R380). -/
def lockOn (lo : Nat) (s : State) : Bool :=
  if lo = 0x2200000 then regBit s lo 31
  else if 0x2800100 ≤ lo ∧ lo < 0x28001C0 then s.tfu.latch && regBit s lo 28
  else if 0x2800300 ≤ lo ∧ lo < 0x2800340 then s.tfu.latch && regBit s (lo + 8) 31
  else if 0x2900000 ≤ lo ∧ lo < 0x2908000 then fbcRuns s
  else false

/-- What one field becomes (R2, R520). -/
def storeFld (locked : Bool) (new acc : Nat) (f : Fld) : Nat :=
  match f.acc with
  | .rw => setFld acc f.hi f.lo (fld new f.hi f.lo)
  | .rwl => if locked then acc else setFld acc f.hi f.lo (fld new f.hi f.lo)
  | .w1c =>
    let o := fld acc f.hi f.lo
    setFld acc f.hi f.lo (o - (o &&& fld new f.hi f.lo))
  | _ => acc

/-- A write would change an RWL field. -/
def changesRwl (d : RegDef) (old new : Nat) : Bool :=
  d.flds.any (fun f => f.acc == .rwl && fld old f.hi f.lo != fld new f.hi f.lo)

/-! What a write does beyond its fields -/

/-- Power, reset, boot and huddle registers. -/
def islHook (r : Requester) (lo new : Nat) (s : State) : State :=
  if lo = 0x2C00100 then powerCmd (fld new 1 0) s
  else if lo = 0x2C00110 then (if bitOf new 0 then railClear r s else s)
  else if lo = 0x2C00124 then (if bitOf new 0 then applyReset .soft s else s)
  else if lo = 0x2C00150 then (if bitOf new 0 then tripClear s else s)
  else if lo = 0x2C00458 then huddleCmd new s
  else if lo = 0x2C00804 then (if bitOf new 0 then lastgaspAck r s else s)
  else s

/-- Fuses rise with a confirmed firmware (R512). -/
def confirmFuses (raise : Bool) (hdr : List Byte) (b : Boot) : Boot :=
  { b with
    svn := if raise then max b.svn (getLe hdr 16 4) else b.svn
    key0Revoked := b.key0Revoked || bitOf (getLe hdr 7 1) 0 }

/-- A trial slot becomes ACTIVE and the one it replaces VALID (R512). -/
def confirmPair (base running : Nat) (p : PairRec) (slots : Tbl Slot) : PairRec × Tbl Slot :=
  let set (k : Nat) (st : SlotState) (t : Tbl Slot) : Tbl Slot := Tbl.upd {} t (base + k) (fun x => { x with st })
  let t1 := if p.active = 0xFF then slots else set p.active .valid slots
  ({ active := running, trial := 0xFF, tried := false }, set running .active t1)

/-- CONFIRM (R512). -/
def confirm (raise : Bool) (s : State) : State :=
  let b := s.boot
  if !b.fwTrial && !b.cfgTrial then s
  else
    let hdr := slice (Tbl.get ({} : Slot) b.slots b.fwSlot).bytes 0 256
    let b1 := if b.fwTrial then
        let r := confirmPair 0 b.fwSlot b.fw b.slots
        confirmFuses raise hdr { b with fw := r.1, slots := r.2, fwTrial := false }
      else { b with svn := if raise then max b.svn (getLe hdr 16 4) else b.svn }
    let b2 := if b.cfgTrial then
        let r := confirmPair 2 b.cfgSlot b1.cfg b1.slots
        { b1 with cfg := r.1, slots := r.2, cfgTrial := false }
      else b1
    { s with boot := { b2 with count := b.count + 1 } }

/-- ISL_BOOT_CTRL (R512). -/
def bootCtrl (v : Nat) (s : State) : State :=
  let s1 := if bitOf v 1 && islandRuns s then confirm (bitOf v 2) s else s
  if bitOf v 0 then islandDown false s1 else s1

/-- TFU registers (chapter 13). -/
def tfuHook (r : Requester) (lo old new : Nat) (locked : Bool) (s : State) : State :=
  let now := rawAt s lo
  if lo = 0x2800014 then (if bitOf new 0 then leakClear s else s)
  else if lo = 0x2800018 then (if bitOf new 0 then leakTrigger none s else s)
  else if 0x2800100 ≤ lo ∧ lo < 0x28001C0 then
    let c := (lo - 0x2800100) / 0x20
    let k := (lo - 0x2800100) % 0x20
    if k = 0 then
      let s1 := pwmWritten c old s
      if setFld old 28 28 0 = setFld now 28 28 0 then s1 else tfuWrote r s1
    else if k = 4 then
      let s1 := driveFan c s
      if fld old 15 0 = fld now 15 0 then s1 else tfuWrote r s1
    else s
  else if 0x2800300 ≤ lo ∧ lo < 0x2800340 then
    let v := (lo - 0x2800300) / 0x20
    let k := (lo - 0x2800300) % 0x20
    if k = 0 then
      if locked then s
      else
        let s1 := valveWritten v s
        if old = now then s1 else tfuWrote r s1
    else if k = 4 then
      let s1 := driveValve v false s
      if old = now then s1 else tfuWrote r s1
    else if k = 0x0C then valveStatusWritten r v new s
    else s
  else if 0x2800500 ≤ lo ∧ lo < 0x2800540 ∧ lo % 0x10 = 0 then ropeCfgWritten ((lo - 0x2800500) / 0x10) old s
  else s

/-- FBC registers (chapter 14). -/
def fbcHook (r : Requester) (lo old new : Nat) (s : State) : State :=
  if lo = 0x2900000 then fbcCtrlWritten r old s
  else if lo = 0x2900024 then updFbc (fun b => { b with queueA := fifoAck b.queueA (fld new 4 0) }) s
  else if lo = 0x2900034 then updFbc (fun b => { b with queueB := fifoAck b.queueB (fld new 4 0) }) s
  else if lo = 0x2900084 then updFbc (fun b => { b with txLog := fifoAck b.txLog (fld new 4 0) }) s
  else if lo = 0x2900050 then requestTx new s
  else if lo = 0x2900054 then abortTx new s
  else if lo = 0x2900064 then updFbc (fun b => { b with loading := b.loading ||| new }) s
  else if lo = 0x2900090 then (if bitOf new 31 then updFbc (fun b => { b with overflow := 0 }) s else s)
  else if lo = 0x2900114 then ttCmd (fld new 1 0) r s
  else if lo = 0x2900400 then shadowSel r new s
  else s

/-- PTU and PGV registers (chapters 11 and 12). -/
def phaseHook (lo old : Nat) (s : State) : State :=
  if lo = 0x2600010 then siteCfgWritten old s
  else if lo = 0x2600014 ∨ lo = 0x2600018 ∨ lo = 0x260001C then siteEval s
  else if lo = 0x2600034 then staggerWritten s
  else if lo = 0x2600038 then armBuslock s
  else if lo = 0x260003C then pulseCfgWritten s
  else if 0x2601000 ≤ lo ∧ lo < 0x2601200 ∧ (lo - 0x2601000) % 0x40 = 0 then chCfgWritten ((lo - 0x2601000) / 0x40) old s
  else if lo = 0x2700010 ∨ (0x2700020 ≤ lo ∧ lo ≤ 0x2700030) then retarget s
  else s

/-- A vector is unmasked with its pending bit set: one message (R186). -/
def unmasked (fn vec : Nat) (s : State) : State :=
  if Tbl.get false s.hif.pba (fn * 2048 + vec) && !(vecHeld s fn vec) then
    sendVec fn vec (setPending fn vec false s)
  else s

/-- Host port, ring, error and link registers. -/
def hostHook (cons : Cons) (r : Requester) (lo old new : Nat) (s : State) : State :=
  if lo = 0x100020 then errAck r new s
  else if isRingReg lo then
    let q := ringOfReg lo
    let k := lo % 0x40
    if k = 8 then ringCtrlWritten q s
    else if k = 0x10 then doorbell q s
    else if k = 0x20 then maybeDisabled q (drainCq q (ringAt s q).held.length s)
    else s
  else if 0x88000C ≤ lo ∧ lo < 0x888000 ∧ lo % 16 = 0x0C then unmasked 0 ((lo - 0x880000) / 16) s
  else if 0x1_0000_0000 ≤ lo ∧ lo % 16 = 0x0C then
    unmasked ((lo - 0x1_0000_0000) / 0x400 + 1) ((lo - 0x1_0000_0000) % 0x400 / 16) s
  else if lo = 0x2D00000 then bkgWritten old s
  else if 0x2000000 ≤ lo ∧ lo < 0x2000400 ∧ lo % 0x100 = 0 then portCtrlWritten cons ((lo - 0x2000000) / 0x100) s
  else if lo = 0x2008028 then elkCmd cons new s
  else s

/-- Tray and management registers (R463, R479). -/
def mgpHook (lo old new : Nat) (s : State) : State :=
  if lo = 0x2A00014 then
    if bitOf new 0 && isTrayLead s && islandRuns s then updTmg (fun t => { t with verifying := List.range (siteCount s) }) s
    else s
  else if lo = 0x2B00040 then ptpCfgWritten old s
  else s

/-- What a write that R6 has passed does, its fields stored. -/
def writeHook (cons : Cons) (r : Requester) (lo old new : Nat) (locked : Bool) (s : State) : State :=
  if lo < 0x2200000 ∨ 0x2D00000 ≤ lo then hostHook cons r lo old new s
  else if lo < 0x2600000 then s
  else if lo < 0x2800000 then phaseHook lo old s
  else if lo < 0x2900000 then tfuHook r lo old new locked s
  else if lo < 0x2A00000 then fbcHook r lo old new s
  else if lo < 0x2C00000 then mgpHook lo old new s
  else if lo = 0x2C00C08 then bootCtrl new s
  else islHook r lo new s

/-! Writes -/

/-- CONFIG log of an access at the offset the requester used, to a register of another offset in a function's view. -/
def logCfgAt (cause off reg : Nat) (r : Requester) (s : State) : State :=
  logErr { cls := 0, cause, sev := sevNotice, addr := off, addrKind := 4
           source := if reg < 0x1_0000_0000 then reg / 0x100000 else 8, requester := r.code } s

/-- A message RAM word's write (R380, R387). -/
def ramWrite (r : Requester) (lo v : Nat) (s : State) : State :=
  let o := lo - 0x2908000
  if (0x1000 ≤ o ∧ o < 0x3000) ∨ 0x3400 ≤ o then logCfg 1 lo r s
  else if (o < 0x600 ∨ 0x3000 ≤ o) ∧ fbcRuns s then logCfg 2 lo r s
  else updFbc (fun b => { b with badWords := b.badWords.filter (· != o) }) (putRamWord o v s)

/-- R189: the requester may not write this ring register or binding. -/
def ringForeign (r : Requester) (lo : Nat) (s : State) : Bool :=
  match r with
  | .fn 0 => isRingReg lo && !(ringIsOwn s (ringOfReg lo))
  | .fn _ => false
  | _ => (isRingReg lo && !(ringIsOwn s (ringOfReg lo))) || (decide (0x410000 ≤ lo) && decide (lo < 0x411000))

/-- A whole register is written with a value: R6, then R520, then the fields and what they do. `off` is the offset the
requester used. -/
def commitReg (cons : Cons) (r : Requester) (off : Nat) (d : RegDef) (lo v : Nat) (s : State) : State :=
  if d.readOnly then s
  else if 0x2908000 ≤ lo ∧ lo < 0x290C000 then ramWrite r lo v s
  else if ringForeign r lo s then logCfgAt 3 off lo r s
  else
    let old := rawAt s lo
    if d.reserved v || crossReserved lo old v s then logCfgAt 1 off lo r s
    else
      let locked := lockOn lo s
      let s1 := if locked && changesRwl d old v then logCfgAt 2 off lo r s else s
      let new := d.flds.foldl (storeFld locked v) old
      let kept := if lo = 0x2200000 && bitOf old 31 then setFld new 31 31 1 else new
      writeHook cons r lo old v locked (setRaw lo kept s1)

/-- One 32-bit write (R90). -/
def writeWord (cons : Cons) (r : Requester) (off reg v : Nat) (s : State) : State :=
  match findReg reg with
  | none => if reg < 0x100000 then s else logCfgAt 1 off reg r s
  | some (d, lo) =>
    if d.width = 64 then
      if d.readOnly then s
      else if reg = lo then
        updHif (fun h => { h with writeHold := Tbl.set none h.writeHold (holdKey r) (some ⟨lo, v⟩) }) s
      else
        let low := match Tbl.get none s.hif.writeHold (holdKey r) with
          | some h => if h.off = lo then h.word else rawAt s lo % 2 ^ 32
          | none => rawAt s lo % 2 ^ 32
        commitReg cons r (off - 4) d lo (low + v * 2 ^ 32) s
    else commitReg cons r off d lo v s

/-- A write of 4 or 8 aligned bytes (R90, R182). -/
def writeReg (cons : Cons) (r : Requester) (off reg width v : Nat) (s : State) : State :=
  if width = 8 then
    match findReg reg with
    | some (d, lo) =>
      if d.width = 64 then commitReg cons r off d lo v s
      else writeWord cons r (off + 4) (reg + 4) (v / 2 ^ 32) (writeWord cons r off reg (v % 2 ^ 32) s)
    | none => writeWord cons r (off + 4) (reg + 4) (v / 2 ^ 32) (writeWord cons r off reg (v % 2 ^ 32) s)
  else writeWord cons r off reg v s

/-! Whole accesses -/

/-- What a requester's path does with an access before any register sees it (R40, R66, R180, R496). -/
inductive Path where
  | serves | abort | unsupported | dead
deriving DecidableEq, Repr

/-- The standing of a function's path in BAR0 or BAR2. -/
def fnPath (s : State) (n : Nat) : Path :=
  if !s.hif.up || !(standby s) || !(isOn s || s.pwr.st == .quiesce) || inChipReset s then .dead
  else if s.err.isolated then .abort
  else if s.pwr.init != .ready then .unsupported
  else if (fnAt s n).d3hot then .unsupported
  else .serves

/-- The standing of a requester's path. -/
def pathOf (s : State) : Requester → Path
  | .fn n => if n < 64 then fnPath s n else .dead
  | .island => if islandRuns s then .serves else .dead
  | .mmp => if romRuns s then .serves else .dead
  | .mirror => .serves

/-- Naturally aligned and 4 or 8 bytes (R182). -/
def widthOk (off width : Nat) : Bool := (width == 4 || width == 8) && off % width == 0

/-- R13: the absent instance's stride is logged and answered as a violation. -/
def logAbsent (off : Nat) (r : Requester) (s : State) : State :=
  logErr { cls := 1, cause := 1, sev := sevNotice, status := 0x0320
           addr := if r == .mirror then 0x4F_0000_0000 + off else off, addrKind := if r == .mirror then 1 else 4
           source := off / 0x100000, requester := r.code } s

/-- The owner of a virtual function is not ACTIVE (R66). -/
def viewShut (s : State) : Requester → Bool
  | .fn n => n != 0 && !(ownerActive s n)
  | _ => false

/-- The block a requester's offset lies in, for its log entry: the host port's for a virtual function's view. -/
def viewBlock (r : Requester) (off : Nat) : Nat :=
  match r with
  | .fn 0 => off
  | .fn _ => 0x800000
  | _ => off

/-- A register read through a path that serves: the state and the answer (R13, R66, R182). -/
def servedRead (r : Requester) (off width : Nat) (s : State) : State × Resp :=
  if !(widthOk off width) then (logCfgAt 3 off (viewBlock r off) r s, .abort)
  else if viewShut s r then (s, .ok 0)
  else
    match accessOffset s r off with
    | none => (s, .ok 0)
    | some reg =>
      if absentStride reg then (logAbsent off r s, .abort)
      else
        let x := readReg r reg width s
        (x.1, .ok x.2)

/-- A register write through a path that serves. -/
def servedWrite (cons : Cons) (r : Requester) (off width v : Nat) (s : State) : State × Resp :=
  if !(widthOk off width) then (logCfgAt 3 off (viewBlock r off) r s, .abort)
  else
    match accessOffset s r off with
    | none => (logCfgAt 1 off (viewBlock r off) r s, .dropped)
    | some reg =>
      if absentStride reg then (logAbsent off r s, .abort)
      else if viewShut s r && isRingReg reg && reg % 0x40 == 0x10 then
        (logErr { cls := 1, cause := 3, sev := sevNotice, addr := off / 0x40, addrKind := 7, source := 4
                  index := ringOfReg reg, requester := r.code } s, .dropped)
      else (writeReg cons r off reg width (v % 2 ^ (8 * width)) s, .ok 0)

/-- A register read as a command: the answer leaves the block. -/
def regRead (r : Requester) (off width : Nat) (s : State) : State :=
  match pathOf s r with
  | .dead => s
  | .abort => emit (.answer r off .abort) s
  | .unsupported => emit (.answer r off .unsupported) s
  | .serves =>
    let x := servedRead r off width s
    emit (.answer r off x.2) x.1

/-- A register write as a command: it is posted, so only an error answers. -/
def regWrite (cons : Cons) (r : Requester) (off width v : Nat) (s : State) : State :=
  match pathOf s r with
  | .dead => s
  | .abort => emit (.answer r off .abort) s
  | .unsupported => emit (.answer r off .unsupported) s
  | .serves =>
    let x := servedWrite cons r off width v s
    if x.2 == .abort then emit (.answer r off .abort) x.1 else x.1

/-- Register reads of owner 0's agents through the mirror (R59). -/
def mirrorRead : RegReader := fun off width s =>
  let x := servedRead .mirror off width s
  (x.1, match x.2 with
    | .ok v => v
    | _ => 0)

/-- Passes on one register write of an agent through the mirror. -/
def drainMirror (cons : Cons) : Nat → State → State
  | 0, s => s
  | fuel + 1, s =>
    match s.mirror with
    | [] => s
    | (off, n, v) :: rest => drainMirror cons fuel (servedWrite cons .mirror off n v { s with mirror := rest }).1

end Sys2Proof.Machine
end

