-- ==== Sys2Proof/Machine/WindowOps.lean ====
section
/-! DEFINITION. The host window, BAR2 of the physical function (R59, R68, R73, R82, R85–R87, R162, R184). -/

namespace Sys2Proof.Machine

/-- The bytes of BAR2. -/
def windowSize (s : State) : Nat := 2 ^ s.hif.bar2Log2

/-- DAT_WIN_CTRL.EN. -/
def windowOpen (s : State) : Bool := regBit s 0x200010 31

/-- DAT_WIN_CTRL.MODE: 1 is DVA mode. -/
def windowDva (s : State) : Bool := regBit s 0x200010 16

/-- DAT_WIN_CTRL.OWNER. -/
def windowOwner (s : State) : Nat := regFld s 0x200010 5 0

/-- R85's window address of an offset. -/
def windowAddr (s : State) (off : Nat) : Nat := off + rawAt s 0x200018

/-- The DPA that a physical window address reaches (R85). -/
def windowPhys (wa : Nat) : Option Nat :=
  if wa < 0x30_0000_0000 then some wa
  else if wa < 0x30_8000_0000 then some (wa - 0x30_0000_0000 + 0x40_0000_0000)
  else if wa < 0x30_A000_0000 then some (wa - 0x30_8000_0000 + 0x48_0000_0000)
  else none

/-- The window as the author of an access, on this chip or toward another. -/
def windowWho (s : State) (far : Bool) : Who :=
  { owner := windowOwner s, agent := 6, index := 0, source := if far then 0x20 else 0x02, requester := some 0 }

/-- The standing of a window access at a window address: its target, or its violation or fault (R85). -/
def windowTarget (s : State) (wa acc : Nat) : Except AccessErr Target :=
  if windowDva s then
    if 2 ^ 48 ≤ wa then .error { status := 0x0329, addr := wa, kind := 6 }
    else resolve s (windowOwner s) wa acc
  else
    match windowPhys wa with
    | none => .error { status := 0x0329, addr := wa, kind := 6 }
    | some dpa =>
      match localCheck s (windowOwner s) dpa (bitOf acc 1) with
      | some e => .error e
      | none => .ok (.here dpa)

/-- A window access fails: its entry and its fault record, with nothing parked (R73, R162). -/
def windowFails (wa acc : Nat) (e : AccessErr) (s : State) : State :=
  if windowDva s && e.kind != 6 then reportErr (windowWho s (e.kind == 3)) acc wa e s
  else reportAccess (windowWho s false) acc none e 0 s

/-- The first error among the pieces of an access. -/
def windowError (s : State) (acc : Nat) (pieces : List (Nat × List Byte)) : Option (Nat × AccessErr) :=
  pieces.findSome? (fun p =>
    match windowTarget s p.1 acc with
    | .error e => some (p.1, e)
    | .ok _ => none)

/-- One 64-byte piece of a window read; a piece on another chip is answered by its own response. The state, the bytes
read here, whether one is poisoned, and an error. -/
def windowReadPiece (ecc : Ecc) (a n : Nat) (s : State) : State × List Byte × Bool × Option AccessErr :=
  match windowTarget s a 1 with
  | .error e => (s, [], false, some e)
  | .ok (.here dpa) =>
    if regionOf dpa = some .regs then
      let x := servedRead .mirror (dpa - 0x4F_0000_0000) n s
      match x.2 with
      | .ok v => (x.1, leBytes n v, false, none)
      | _ => (x.1, [], false, some { status := 0, addr := a, kind := 6 })
    else
      let s1 := applyEcc ecc dpa (countBytes dpa n false s)
      (s1, readMem s1 (windowOwner s1) dpa n, (poisonIn s1 dpa n).isSome, none)
  | .ok (.away chip dpa) =>
    match remoteIssue (.window (a - rawAt s 0x200018) n) chip dpa (windowOwner s) 1 (.read n) s with
    | .sent s1 => (s1, [], false, none)
    | .failed st => (s, [], false, some { status := st, addr := chip * 2 ^ 48 + dpa, kind := 3 })
    | .full => (s, [], false, some { status := 0x0781, addr := chip * 2 ^ 48 + dpa, kind := 3 })

/-- The pieces of a window read in order. -/
def windowReadPieces (ecc : Ecc) : List (Nat × List Byte) → State → State × List Byte × Bool × Option (Nat × AccessErr)
  | [], s => (s, [], false, none)
  | (a, bs) :: rest, s =>
    match windowReadPiece ecc a bs.length s with
    | (s1, _, _, some e) => (s1, [], false, some (a, e))
    | (s1, d, p, none) =>
      match windowReadPieces .ok rest s1 with
      | (s2, ds, q, e) => (s2, d ++ ds, p || q, e)

/-- WINDOW_READ: `n` bytes at a window offset (R85, R87, R162). -/
def windowRead (off n : Nat) (ecc : Ecc) (s : State) : State :=
  match fnPath s 0 with
  | .dead => s
  | .abort => emit (.answer (.fn 0) off .abort) s
  | .unsupported => emit (.answer (.fn 0) off .unsupported) s
  | .serves =>
    if windowSize s < off + n then emit (.answer (.fn 0) off .unsupported) s
    else if !(windowOpen s) then emit (.answer (.fn 0) off (.ok (2 ^ (8 * n) - 1))) s
    else
      let pieces := chunks 64 n (windowAddr s off) (zeros n)
      match windowError s 1 pieces with
      | some (a, e) => emit (.answer (.fn 0) off .abort) (windowFails a 1 e s)
      | none =>
        if 8192 < s.elk.outstanding.length + pieces.length then s
        else
          match windowReadPieces ecc pieces s with
          | (s1, _, _, some (a, e)) =>
            emit (.answer (.fn 0) off .abort) (if e.status = 0 then s1 else windowFails a 1 e s1)
          | (s1, [], _, none) => s1
          | (s1, d, true, none) => emit (.answer (.fn 0) off (.poisoned (ofLe d))) s1
          | (s1, d, false, none) => emit (.answer (.fn 0) off (.ok (ofLe d))) s1

/-- One piece of a window write. -/
def windowWritePiece (cons : Cons) (a : Nat) (bs : List Byte) (s : State) : State :=
  match windowTarget s a 2 with
  | .error e => windowFails a 2 e s
  | .ok (.here dpa) =>
    if regionOf dpa = some .regs then
      (servedWrite cons .mirror (dpa - 0x4F_0000_0000) bs.length (ofLe bs) s).1
    else deviceWrite notThread (windowOwner s) dpa bs s
  | .ok (.away chip dpa) =>
    let bad (st : Nat) : AccessErr := { status := st, addr := chip * 2 ^ 48 + dpa, kind := 3 }
    match remoteIssue (.window (a - rawAt s 0x200018) 0) chip dpa (windowOwner s) 1 (.write bs false) s with
    | .sent s1 => s1
    | .failed st => windowFails a 2 (bad st) s
    | .full => windowFails a 2 (bad 0x0781) s

/-- WINDOW_WRITE: bytes at a window offset; one that meets an error is dropped whole (R73, R85, R162). -/
def windowWrite (cons : Cons) (off : Nat) (bs : List Byte) (s : State) : State :=
  match fnPath s 0 with
  | .serves =>
    if windowSize s < off + bs.length || !(windowOpen s) then s
    else
      let pieces := chunks 64 bs.length (windowAddr s off) bs
      match windowError s 2 pieces with
      | some (a, e) => windowFails a 2 e s
      | none =>
        if 8192 < s.elk.outstanding.length + pieces.length then s
        else pieces.foldl (fun t p => windowWritePiece cons p.1 p.2 t) s
  | _ => s

end Sys2Proof.Machine
end

