-- ==== Sys2Proof/Machine/HostOps.lean ====
section
/-! DEFINITION. The host link, function resets and power states, and the fetches and host answers of the command front
end (R177–R194, R200). -/

namespace Sys2Proof.Machine

/-! The link (R177) -/

/-- The host port's electrical side is powered and out of reset. -/
def hostPhy (s : State) : Bool := standby s && (isOn s || s.pwr.st == .quiesce) && !(inChipReset s)

/-- Configuration requests reach the device (R40). -/
def configReach (s : State) : Bool := s.hif.up && hostPhy s && s.pwr.init == .ready

/-- The highest common rate of a mask of rate codes (R176): 2.5, 5.0 and 8.0 only where nothing higher is common. -/
def bestRate (rates : Nat) : Nat := ([6, 5, 4, 3, 2, 1].find? (fun r => bitOf rates r)).getD 1

/-- The widest width of R176 that so many lanes form. -/
def bestWidth (lanes : Nat) : Nat := if 16 ≤ lanes then 16 else if 8 ≤ lanes then 8 else if 4 ≤ lanes then 4 else 0

/-- HOST_LINK_UP: training with a partner of these rates and lanes (R177). -/
def hostLinkUp (rates lanes : Nat) (s : State) : State :=
  if !(hostPhy s) then s
  else
    let w := bestWidth lanes
    let r := bestRate rates
    if w = 0 then updHif (fun h => { h with up := false, widthFail := true, rate := 0, width := 0, flit := false, rateLow := false }) s
    else
      let s1 := updHif (fun h => { h with up := true, widthFail := false, rate := r, width := w, flit := r == 6, rateLow := decide (r < 4) }) s
      if r < 4 then logErr { cls := 9, cause := 4, sev := sevNotice, source := 8, info := r } s1 else s1

/-- HOST_LINK_DOWN: the link leaves L0 for a cause that is no reset and no power-down (R483 PCIE 3). -/
def hostLinkDown (s : State) : State :=
  if !s.hif.up then s
  else
    let s1 := updHif (fun h => { h with up := false, rate := 0, width := 0, flit := false, rateLow := false }) s
    if isOn s && !(inChipReset s) then logErr { cls := 9, cause := 3, sev := sevContained, source := 8 } s1 else s1

/-! Functions (R179, R180, R184, R186, R187) -/

/-- The rings bound to an owner. -/
def ringsOf (s : State) (o : Nat) : List Nat := (List.range 1024).filter (fun r => ringOwner s r == some o)

/-- Sets the size of BAR2: a change zeroes DAT_WIN_BASE (R184). -/
def bar2Size (log2 : Nat) (s : State) : State :=
  if s.hif.bar2Log2 = log2 then s else setRaw 0x200018 0 (updHif (fun h => { h with bar2Log2 := log2 }) s)

/-- BAR2_RESIZE: code 0–8 is 1–256 GiB. -/
def bar2Resize (code : Nat) (s : State) : State :=
  if configReach s && decide (code ≤ 8) then bar2Size (30 + code) s else s

/-- A register of a function's MSI-X table. -/
def isVecReg (n lo : Nat) : Bool :=
  if n = 0 then decide (0x880000 ≤ lo) && decide (lo < 0x888000)
  else decide (0x1_0000_0000 + (n - 1) * 0x400 ≤ lo) && decide (lo < 0x1_0000_0000 + n * 0x400)

/-- FLR of a function (R179). -/
def flr (n : Nat) (s : State) : State :=
  if !(configReach s) || decide (64 ≤ n) then s
  else
    let rings := ringsOf s n
    let s1 := updHif (fun h => { h with
      started := updWhere (fun p => rings.contains p.ring) (fun p => { p with muted := true }) h.started
      fns := Tbl.set {} h.fns n {}
      pba := h.pba.filter (fun p => p.1 / 2048 != n)
      readHold := Tbl.set none h.readHold n none
      writeHold := Tbl.set none h.writeHold n none }) s
    let s2 := resetRegs (fun _ lo => isVecReg n lo) (updOwner n (fun w => { w with fringProd := 0 }) (resetOwnerRegs n s1))
    let s3 := if n = 0 then bar2Size 30 s2 else s2
    logErr { cls := 2, cause := 3, sev := sevNotice, owner := some n, source := 8, index := n, requester := some n } s3

/-- D3HOT_ENTRY. -/
def d3Enter (n : Nat) (s : State) : State :=
  if configReach s && decide (n < 64) then updFn n (fun f => { f with d3hot := true }) s else s

/-- The pending vectors of a function, in order. -/
def pendingVecs (s : State) (n : Nat) : List Nat :=
  (s.hif.pba.filter (fun p => p.2 && p.1 / 2048 == n)).map (fun p => p.1 % 2048)

/-- D0_RETURN: one message for each pending vector that is unmasked. -/
def d0Return (n : Nat) (s : State) : State :=
  if configReach s && (fnAt s n).d3hot then
    let s1 := updFn n (fun f => { f with d3hot := false }) s
    (pendingVecs s1 n).foldl (fun t v => unmasked n v t) s1
  else s

/-- ATS_INVALIDATION: every request of this model that used a translation has been issued by the end of its command. -/
def atsInvalidate (n : Nat) (s : State) : State :=
  if configReach s && decide (n < 64) then emit (.config n (.ok 0)) s else s

/-! Fetch (R190–R194) -/

/-- Units announced and not fetched. -/
def unfetched (s : State) (r : Nat) : Nat := sub32 (rawAt s (ringReg r 0x10)) (ringAt s r).head

/-- A ring that the front end may fetch from. -/
def mayFetch (s : State) (r : Nat) : Bool :=
  let g := ringAt s r
  g.st == .running && !g.closing && g.fetching == 0 && unfetched s r != 0 &&
  (match ringOwner s r with
    | some o => !(fnAt s o).d3hot
    | none => false)

/-- URGENT. -/
def ringUrgent (s : State) (r : Nat) : Bool := regBit s (ringReg r 8) 30

/-- The first number of a list above `last`, going round. -/
def nextAfter (last : Nat) (l : List Nat) : Option Nat :=
  match l.find? (fun x => decide (last < x)) with
  | some x => some x
  | none => l.head?

/-- The ring whose fetch comes next (R193). -/
def nextFetch (s : State) : Option (Nat × Nat × Nat) :=
  let ready := (s.hif.rings.map (·.1)).filter (mayFetch s)
  let level := if ready.any (ringUrgent s) then 1 else 0
  let l := ready.filter (fun r => b2n (ringUrgent s r) == level)
  let owners := (List.range 64).filter (fun o => l.any (fun r => ringOwner s r == some o))
  match nextAfter (Tbl.get 63 s.hif.lastOwner level) owners with
  | none => none
  | some o =>
    (nextAfter (Tbl.get 1023 s.hif.lastRing (level * 64 + o)) (l.filter (fun r => ringOwner s r == some o))).map
      (fun r => (level, o, r))

/-- The reads that fetch `n` units: one, or two where the run goes round the end of the ring. -/
def fetchReads (s : State) (r o n : Nat) : List Emit :=
  let base := regFld s (ringReg r 0) 63 12 * 4096
  let u := ringUnits s r
  let at_ := (ringAt s r).head % u
  let first := min n (u - at_)
  [.hostRead o (base + at_ * 64) (first * 64)] ++ (if first < n then [.hostRead o base ((n - first) * 64)] else [])

/-- RING_FETCH: up to 64 units, the largest read request, of the ring whose turn it is. -/
def ringFetch (s : State) : State :=
  if !(isOn s) || !(hostUp s) then s
  else
    match nextFetch s with
    | none => s
    | some (level, o, r) =>
      let n := min (unfetched s r) 64
      let s1 := updRing r (fun g => { g with fetching := n }) s
      let s2 := updHif (fun h => { h with
        lastOwner := Tbl.set 63 h.lastOwner level o, lastRing := Tbl.set 1023 h.lastRing (level * 64 + o) r }) s1
      (fetchReads s r o n).foldl (fun t e => emit e t) s2

/-- The units a fetched packet takes: its SIZE; a SIZE outside 1–4 takes one. -/
def unitsOf (bs : List Byte) : Nat := let n := getLe bs 2 1; if 1 ≤ n ∧ n ≤ 4 then n else 1

/-- Cuts fetched units into whole packets; one that reaches beyond them stays unfetched (R191). -/
def cutPackets : Nat → Nat → List Byte → List (List Byte)
  | 0, _, _ => []
  | _ + 1, 0, _ => []
  | fuel + 1, n + 1, bs =>
    let k := unitsOf bs
    if k ≤ n + 1 then slice bs 0 (64 * k) :: cutPackets fuel (n + 1 - k) (bs.drop (64 * k)) else []

/-- RING_FETCH_COMPLETE: the units come, or an error stops the ring (R194). -/
def fetchDone (r : Nat) (e : HostEnd) (bs : List Byte) (s : State) : State :=
  let n := (ringAt s r).fetching
  if n = 0 || !(hostUp s) then s
  else
    let s1 := updRing r (fun g => { g with fetching := 0 }) s
    match e with
    | .error =>
      let o := (ringOwner s r).getD 0
      let a := regFld s (ringReg r 0) 63 12 * 4096 + (ringAt s r).head % ringUnits s r * 64
      let s2 := if (ringAt s r).st == .running then updRing r (fun g => { g with st := .stopped, cause := 2 }) s1 else s1
      hostError 2 o a 7 0 s2
    | .ok =>
      if (ringAt s r).st != .running then s1
      else
        let ps := cutPackets n n bs
        let used := ps.foldl (fun t p => t + p.length / 64) 0
        let s2 := updRing r (fun g => { g with
          head := add32 g.head used, fetched := g.fetched ++ ps.map (fun b => { bytes := b, fetched := s.dts }) }) s1
        if isOn s then s2 else cancelFetched r 0x0501 s2

/-- PACKET_NOT_BEFORE_REACHED: DTS comes to the value that the front packet of a ring waits for (R192). -/
def notBeforeReached (r : Nat) (s : State) : State :=
  match (ringAt s r).fetched with
  | p :: _ =>
    let nb := getLe p.bytes 8 8
    if p.fetched + 2 ^ 36 < nb then s else { s with dts := max s.dts nb }
  | [] => s

/-! Host words and flush reads (R188, R200) -/

/-- A host read of a packet failed (R187). -/
def packetHostError (p : Inflight) (addr r0 r1 : Nat) (s : State) : State :=
  finishPkt p.id 0x0461 r0 r1 (markLogged p.id (hostError 1 p.owner addr 7 p.tag s))

/-- The WAIT that ring `r` is blocked on. -/
def waitOf (s : State) (r : Nat) : Option Inflight := s.hif.started.find? (fun p => p.ring == r && p.opcode == 3)

/-- WAIT_POLL: a read of the host word is answered; the next follows 1 µs later (R200). -/
def waitPoll (r : Nat) (e : HostEnd) (v : Nat) (s : State) : State :=
  match waitOf s r with
  | none => s
  | some p =>
    if p.wait != .host || !(hostUp s) then s
    else
      match e with
      | .error => packetHostError p (p.fld 16 8) p.lastWord 0 s
      | .ok =>
        let w := v % 2 ^ 64
        if waitMet p w then finishPkt p.id 0 w 0 s
        else emit (.hostRead p.owner (p.fld 16 8) 8) (updPkt p.id (fun q => { q with lastWord := w }) s)

/-- WAIT_TIMEOUT: TIMEOUT_US has passed since the packet started (R200). -/
def waitTimeout (r : Nat) (s : State) : State :=
  match waitOf s r with
  | none => s
  | some p =>
    let us := p.fld 40 4
    if us = 0 || !(fclkRuns s) then s
    else
      match p.wait with
      | .host => finishPkt p.id 0x0502 p.lastWord 0 { s with dts := max s.dts (p.started + us * 1000) }
      | .word _ => finishPkt p.id 0x0502 p.lastWord 0 { s with dts := max s.dts (p.started + us * 1000) }
      | _ => s

/-- FLUSH_READ_COMPLETE: the zero-length read of packet `id` returns (R188). -/
def flushDone (id : Nat) (e : HostEnd) (s : State) : State :=
  match findPkt s id with
  | none => s
  | some p =>
    match p.wait with
    | .flush st r0 r1 =>
      match e with
      | .ok => finishPkt id st r0 r1 s
      | .error =>
        if st = 0 then packetHostError p (p.lastHost.getD 0) r0 r1 s
        else finishPkt id st r0 r1 (markLogged id (hostError 1 p.owner (p.lastHost.getD 0) 7 p.tag s))
    | _ => s

end Sys2Proof.Machine
end

