-- ==== Sys2Proof/Machine/BootOps.lean ====
section
/-! DEFINITION. Images, slots and the island's boot (R36, R44, R51, R436, R457, R500, R502, R504–R518). -/

namespace Sys2Proof.Machine

/-- Changes the boot state. -/
def updBoot (f : Boot → Boot) (s : State) : State := { s with boot := f s.boot }

/-! Images (R505–R508) -/

/-- A slot: 0 and 1 firmware A and B, 2 and 3 configuration A and B. -/
def slotAt (b : Boot) (k : Nat) : Slot := Tbl.get {} b.slots k

/-- Changes a slot. -/
def updSlot (k : Nat) (f : Slot → Slot) (b : Boot) : Boot := { b with slots := Tbl.upd {} b.slots k f }

/-- Bytes of a configuration record with its header, padded to a multiple of 8 (R507). -/
def recordSpan (len : Nat) : Nat := ceilDiv (4 + len) 8 * 8

/-- The records of a configuration payload, TYPE and data; none when they do not fill it. Zeros after the last record
fill the payload. -/
def configRecords : Nat → List Byte → Option (List (Nat × List Byte))
  | 0, bs => if bs = [] then some [] else none
  | n + 1, bs =>
    if allZero bs then some []
    else
      let len := getLe bs 2 2
      let span := recordSpan len
      if bs.length < span || !(allZero (slice bs (4 + len) (span - 4 - len))) then none
      else (configRecords n (bs.drop span)).map (fun l => (getLe bs 0 2, slice bs 4 len) :: l)

/-- A REGISTER record names a register it may name (R507). -/
def configReg (off : Nat) : Bool :=
  match findReg off with
  | none => false
  | some (d, lo) =>
    let listed := lo == 0x2C00100 || lo == 0x100028 || (decide (0x100104 ≤ lo) && decide (lo < 0x100244) && lo % 16 == 4) ||
      lo == 0x2A0000C || lo == 0x2B00040 || lo == 0x2B00044
    let unit := decide (0x2600000 ≤ lo) && decide (lo < 0x2908000) && !(decide (0x2602000 ≤ lo) && decide (lo < 0x2700000))
    d.dom == .stby && (listed || unit) && d.flds.any (fun f => f.acc == .rw || f.acc == .rwl)

/-- A record of a legal TYPE and LENGTH (R507). -/
def configRecordOk (r : Nat × List Byte) : Bool :=
  let d := r.2
  match r.1 with
  | 1 => d.length == 8 && getLe d 0 4 % 4 == 0 && configReg (getLe d 0 4)
  | 2 => d.length == 16 && allZero (slice d 10 6)
  | 3 => d.length == 32
  | 4 => d.length == 16 && decide (getLe d 0 1 ≤ 2) && decide (getLe d 1 1 ≤ 1) && decide (getLe d 2 2 ≤ 4094) &&
      allZero (slice d 9 3)
  | 5 => d.length == 16 + 16 * getLe d 6 1
  | 6 => d.length == 96
  | _ => false

/-- The first record of a TYPE. -/
def recordOf (l : List (Nat × List Byte)) (t : Nat) : Option (List Byte) := (l.find? (·.1 == t)).map (·.2)

/-- The records of an image's payload. -/
def imageRecords (img : List Byte) : Option (List (Nat × List Byte)) :=
  configRecords (getLe img 20 4 / 8 + 1) (slice img 256 (getLe img 20 4))

/-- The payload meets R507. -/
def configOk (img : List Byte) : Bool :=
  match imageRecords img with
  | none => false
  | some l =>
    l.all configRecordOk && [2, 3, 4, 5, 6].all (fun t => decide ((l.filter (·.1 == t)).length ≤ 1)) &&
    (recordOf l 6).isSome

/-- The header R505 asks for, for a slot of a pair: 0 firmware, 1 configuration. -/
def headerOk (s : State) (pair : Nat) (img : List Byte) : Bool :=
  let target := getLe img 8 4
  let len := getLe img 20 4
  getLe img 0 4 == 0x57464E46 && getLe img 4 2 == 1 && getLe img 6 1 == pair + 1 &&
  getLe img 7 1 / 2 == 0 && (pair == 0 || getLe img 7 1 == 0) && allZero (slice img 81 47) && allZero (slice img 224 32) &&
  target / 2 ^ 16 == 0xE180 && decide (target % 2 ^ 16 ≤ 0x0B00) &&
  decide (s.boot.svn ≤ getLe img 16 4) && decide (getLe img 16 4 ≤ 63) &&
  len % 64 == 0 && decide (64 ≤ len) && decide (len ≤ if pair = 0 then 4194304 else 261888) &&
  (pair == 0 || (getLe img 24 4 == 0 && getLe img 28 4 == 0)) &&
  (if pair = 0 then getLe img 80 1 == 1 || (getLe img 80 1 == 0 && !s.boot.key0Revoked) else getLe img 80 1 == 2)

/-- The integrator key that a configuration must be checked against, and carry (R508): the enrolled one, or its own
where `own`. -/
def integratorOk (s : State) (own : Bool) (img : List Byte) : Bool :=
  match imageRecords img with
  | none => false
  | some l =>
    if s.boot.enrolled then recordOf l 6 == some s.boot.integratorKey else own

/-- An image verifies (R506); `sig` answers for its hash and its signature under the signer's key. -/
def verifies (s : State) (pair : Nat) (img : List Byte) (sig own : Bool) : Bool :=
  sig && headerOk s pair img && decide (256 + getLe img 20 4 ≤ img.length) &&
  (pair == 0 || (configOk img && (own || getLe img 12 1 == s.boot.fwMajor) && integratorOk s own img))

/-! Slot choice (R509, R510) -/

/-- One pair's choice: its record, whether the boot record was written, the slot states, and the slot picked with whether
it runs on trial. `ok k` is the verification of the pair's slot k. -/
structure Choice where
  pair : PairRec
  slots : Tbl Slot
  writes : Nat
  pick : Option Nat
  trial : Bool

/-- A failed check leaves a written slot INVALID. -/
def markInvalid (k : Nat) (t : Tbl Slot) : Tbl Slot :=
  Tbl.upd {} t k (fun x => if x.bytes = [] then x else { x with st := .invalid })

/-- R510's choice for the pair whose slots start at `base`. -/
def chooseSlot (base : Nat) (p : PairRec) (slots : Tbl Slot) (ok : Nat → Bool) : Choice :=
  let onTrial := p.trial != 0xFF && !p.tried
  let rejected := p.trial != 0xFF && p.tried
  let p1 : PairRec := if onTrial then { p with tried := true } else if rejected then { p with trial := 0xFF } else p
  let t1 := if rejected then Tbl.upd {} slots (base + p.trial) (fun x => { x with st := .rejected }) else slots
  let writes := b2n (p.trial != 0xFF)
  let pick := if onTrial then p.trial else p.active
  let order := if pick = 0xFF then [0, 1] else [pick, 1 - pick]
  let bad := order.takeWhile (fun k => !(ok k))
  let t2 := bad.foldl (fun t k => markInvalid (base + k) t) t1
  { pair := p1, slots := t2, writes, pick := order.find? ok, trial := onTrial && order.find? ok == some pick }

/-! Stage 1: the ROM (R510, R513, R514) -/

/-- What an island boot starts from: its own working state is gone; the flash, the fuses and the chip stand. -/
def islandFresh (s : State) : State :=
  let s1 := updBoot (fun b => { b with stage := 1, path := 0, fwSlot := 0, cfgSlot := 0, fwTrial := false, cfgTrial := false, noConfig := false, fwMajor := 0, fwMinor := 0, net := [1, 1] ++ zeros 14 }) s
  let s2 := updHud (fun h => { accepted := if h.accepted = [] then h.cfg else h.accepted }) s1
  let s3 := updTmg (fun t => { t with role := 0, conflict := false, verifying := [], positions := [], due := [], lastLead := none, outbox := [], outFrag := 0, inFrag := [], inNext := 0, readFrag := [], proxies := [], settled := false, roleAsked := false }) s2
  updMgp (fun m => { m with queue := [], floor := m.reserve, outCounter := m.outReserve }) s3

/-- The PHY leaves its reset once ISL_CLK25 is qualified (R466). -/
def releasePhy (s : State) : State := updMgp (fun m => { m with phyReleased := m.phyReleased || s.pwr.okClk25 }) s

/-- No main regulator is in use: the state is one in which the island may send all of them OPERATION off. -/
def railsIdle (s : State) : Bool := s.pwr.st == .off || s.pwr.st == .lockedOut

/-- Stage 2: Miothisin starts; this is island boot. OPERATION off goes to every main-rail regulator (R34, R39). -/
def firmwareStarts (k : Nat) (trial : Bool) (s : State) : State :=
  let img := (slotAt s.boot k).bytes
  let s1 := updBoot (fun b => { b with fwSlot := k, fwTrial := trial, fwMajor := getLe img 12 1, fwMinor := getLe img 13 1, stage := 2, bootDts := s.dts }) s
  let s2 := updPwr (fun p => { p with islandUp := true, restarting := false, autoOnDone := false }) s1
  let s3 := updTmg (fun t => { t with role := if s.pwr.straps.lead then 1 else 0 }) s2
  if railsIdle s3 then forEach mainRails (fun i t => emit (.operation i false) t) s3 else s3

/-- The recovery path (R513). -/
def recoveryStarts (path : Nat) (s : State) : State :=
  releasePhy (updPwr (fun p => { p with islandUp := true, restarting := false }) (updBoot (fun b => { b with path, bootDts := s.dts }) s))

/-- The ROM boots: `sigs` answers, by slot, for each image's hash and signature (R510). -/
def romBoot (sigs : Nat) (s : State) : State :=
  let s0 := islandFresh s
  if s0.pwr.straps.test then updPwr (fun p => { p with restarting := false }) s0
  else if s0.pwr.straps.recovery then recoveryStarts 1 s0
  else
    let c := chooseSlot 0 s0.boot.fw s0.boot.slots (fun k => verifies s0 0 (slotAt s0.boot k).bytes (bitOf sigs k) false)
    let s1 := updBoot (fun b => { b with fw := c.pair, slots := c.slots, count := b.count + c.writes }) s0
    match c.pick with
    | none => recoveryStarts 2 s1
    | some k => firmwareStarts k c.trial s1

/-- ISLAND_BOOT: at VSTBY qualification. -/
def islandBoot (sigs : Nat) (s : State) : State :=
  if !(standby s) || s.pwr.islandUp || s.pwr.restarting || s.pwr.vstby != .qualified || s.pwr.straps.test then s else romBoot sigs s

/-- ISLAND_RESTART: the island returns. Its packets that had no effect yet end, every handler starts again, and an
initialization that the restart met is run from a chip reset (R195, R502, R518). -/
def islandReturns (sigs : Nat) (s : State) : State :=
  if !(standby s) || s.pwr.islandUp || !s.pwr.restarting then s
  else
    let hit := s.pwr.initInterrupted
    let s1 := updPwr (fun p => { p with initInterrupted := false }) (romBoot sigs s)
    let s2 := (s1.hif.started.filter (fun p => p.wait == .island)).foldl (fun t p => finishPkt p.id 0x0F01 0 0 t) s1
    let s3 := if hit && isOn s2 then chipReset (updPwr (setReset .soft true) s2) else s2
    reschedule s3

/-! Stages 3–8 (R510, R514) -/

/-- The records of the configuration in force. -/
def configInForce (s : State) : List (Nat × List Byte) :=
  if s.boot.noConfig then [] else (imageRecords (slotAt s.boot (2 + s.boot.cfgSlot)).bytes).getD []

/-- Stage 3. -/
def stageConfig (sigs : Nat) (s : State) : State :=
  let c := chooseSlot 2 s.boot.cfg s.boot.slots
    (fun k => verifies s 1 (slotAt s.boot (2 + k)).bytes (bitOf sigs (2 + k)) false)
  updBoot (fun b => { b with
    cfg := c.pair, slots := c.slots, count := b.count + c.writes
    cfgSlot := c.pick.getD 0, cfgTrial := c.trial, noConfig := c.pick.isNone }) s

/-- ISL_RAIL_FAULT as an unacknowledged RAIL_FAULT record holds it (R44, R500). -/
def faultOfImage (v : Nat) : RailFault :=
  { valid := true, kind := fld v 30 28, step := fld v 15 8, rail := fld v 7 4, cause := fld v 3 0 }

/-- The reload of ISL_RAIL_FAULT. -/
def reloadFault (s : State) : State :=
  if s.pwr.fault.valid then s
  else
    match s.err.records.find? (fun r => !r.acked && r.kind == 2) with
    | none => s
    | some r =>
      let f := faultOfImage (getLe r.body 36 4)
      let s1 := updPwr (fun p => { p with fault := f, faultReadBy := [] }) s
      if s1.pwr.st == .off then setPower .lockedOut f.step f.rail s1 else s1

/-- A TOPOLOGY record replaces the stored topology at the first boot of its image (R507). -/
def loadTopology (s : State) : State :=
  let k := 2 + s.boot.cfgSlot
  let s1 := if s.boot.noConfig then s else updBoot (updSlot k (fun x => { x with booted := true })) s
  match recordOf (configInForce s) 5 with
  | none => s1
  | some t =>
    if (slotAt s.boot k).booted || !(topologyOk t) then s1
    else updTmg (fun x => { x with topology := t, accepted := [], sites := [] }) s1

/-- Stage 4. -/
def stageRestore (s : State) : State :=
  let s1 := loadTopology (reloadFault (restoreLog s))
  let s2 := updHud (fun h => if h.accepted = [] then h else { h with cfg := h.accepted, accepted := [] }) s1
  match recordOf (configInForce s2) 3 with
  | none => s2
  | some k => if s2.mgp.key1 = [] then updMgp (fun m => { m with key1 := k }) s2 else s2

/-- Stage 5: the REGISTER records as island writes in order, and the PCIe identifiers. -/
def stageServices (cons : Cons) (s : State) : State :=
  let l := configInForce s
  let s1 := (l.filter (·.1 == 1)).foldl (fun t r => regWrite cons .island (getLe r.2 0 4) 4 (getLe r.2 4 4) t) s
  updBoot (fun b => { b with pcieIds := ((recordOf l 2).map (fun d => d.take 10)).getD [] }) s1

/-- Stage 6: addressing, and the BOOT event. -/
def stageNetwork (s : State) : State :=
  let net := if s.boot.noConfig then [1, 1] ++ zeros 14 else (recordOf (configInForce s) 4).getD (zeros 16)
  let s1 := releasePhy (updBoot (fun b => { b with net }) s)
  queueEvent 0 0x0A00 (leBytes 8 s1.mgp.floor ++ leBytes 1 s1.boot.fwMajor ++ leBytes 1 s1.boot.fwMinor) s1

/-- R436: a restarted island whose controller is time master reloads its loop from the reference it sends, and leads on
when that names an active set. -/
def resumeLead (s : State) : State :=
  if !(isMember s) || !s.fbc.master then s
  else
    let r := (elementFrame (txShadow s (refBuf s))).data
    let act := getLe r 23 1 % 8
    let st := getLe r 22 1
    let whole := decide (1 ≤ st) && decide (st ≤ 3) && decide (2 ≤ ranksIn act)
    let me := ownKey s
    let peer : Peer := { epoch := me.1, digest := me.2.1, major := me.2.2, role := 2, heard := some s.fbc.overs }
    let known := [0, 1, 2].filter (fun k => whole && k != trayRank s && bitOf act k)
    updHud (fun h => { h with
      loop := loopOf r, lead := whole, wasMaster := true, active := act
      peers := known.foldl (fun t k => Tbl.set {} t k peer) h.peers }) s

/-- Stage 7: the tray lead verifies its sites, sets its controller up and joins (R417, R418, R463). -/
def stageTray (reads : List (Nat × List (Option (List Byte)))) (s : State) : State :=
  if !(isTrayLead s) then s
  else
    let s1 := verifyAll reads s
    let s2 := if takesPart s1 then resumeLead (if setUpStands s1 then s1 else setUpFbc s1) else s1
    judgeHuddle s2

/-- BOOT_STAGE: the stage after the last one reached. Stage 7 waits for the tray role. -/
def bootStage (cons : Cons) (sigs : Nat) (reads : List (Nat × List (Option (List Byte)))) (s : State) : State :=
  let done (n : Nat) (t : State) : State := updBoot (fun b => { b with stage := n }) t
  if !(islandRuns s) then s
  else
    match s.boot.stage with
    | 2 => done 3 (stageConfig sigs s)
    | 3 => done 4 (stageRestore s)
    | 4 => done 5 (stageServices cons s)
    | 5 => done 6 (stageNetwork s)
    | 6 => if s.tmg.settled then done 7 (stageTray reads s) else s
    | 7 => done 8 s
    | _ => s

/-- LEAD_CANDIDATE_TIMEOUT: the 2 s after island boot are over (R51, R457). A chip that no candidate has asked for its
role in that time has no lead, and logs it. -/
def roleSettles (answers : List (Nat × Nat)) (s : State) : State :=
  if !(islandRuns s) || decide (s.boot.stage < 2) || s.tmg.settled then s
  else
    let s1 := updTmg (fun t => { t with settled := true }) { s with dts := max s.dts (s.boot.bootDts + 2000000000) }
    if s1.pwr.straps.lead then (if s1.tmg.role == 1 then settleRole answers s1 else s1)
    else if s1.tmg.roleAsked || s1.tmg.lastLead.isSome then s1
    else logErr { cls := 19, cause := 2, sev := sevNotice, source := 0x2A } s1

/-! Writing slots (R474, R508, R511) -/

/-- A slot may not be written: it is the running one of its pair, or, while a trial runs, the active one (R511). -/
def slotBusyBoot (s : State) (k : Nat) : Bool :=
  let b := s.boot
  if inRecovery s then false
  else if k < 2 then k == b.fwSlot || (b.fwTrial && k == b.fw.active)
  else !b.noConfig && (k == 2 + b.cfgSlot || (b.cfgTrial && k == 2 + b.cfg.active))

/-- FW_BLOCK: a block of an image. -/
def fwBlock (k off : Nat) (data : List Byte) (s : State) : Nat × State :=
  let size := if k < 2 then 8388608 else 262144
  let old := slotAt s.boot k
  if 4 ≤ k || slotBusyBoot s k || decide (size < off + data.length) then (0x0303, s)
  else if off = 0 then
    (0, updBoot (fun b => { updSlot k (fun _ => { bytes := data }) b with written := Tbl.set 0 b.written k data.length }) s)
  else if off ≠ Tbl.get 0 s.boot.written k then (0x0303, s)
  else
    (0, updBoot (fun b => { updSlot k (fun _ => { old with bytes := old.bytes ++ data, st := .empty }) b with
      written := Tbl.set 0 b.written k (off + data.length) }) s)

/-- Enrollment of the integrator key (R508). -/
def enrol (img : List Byte) (s : State) : State :=
  if s.boot.enrolled then s
  else updBoot (fun b => { b with
    enrolled := true, integratorKey := ((imageRecords img).bind (fun l => recordOf l 6)).getD [] }) s

/-- FW_COMMIT: `sig` answers for the image's hash and signature. -/
def fwCommit (k len : Nat) (sig : Bool) (s : State) : Nat × State :=
  let pair := k / 2
  let img := (slotAt s.boot k).bytes
  if 4 ≤ k || slotBusyBoot s k || decide (len ≠ Tbl.get 0 s.boot.written k) then (0x0303, s)
  else if verifies s pair img sig (inRecovery s && pair == 1) then
    let s1 := if pair = 1 && inRecovery s then enrol img s else s
    (0, updBoot (fun b =>
      let other := k / 2 * 2 + (1 - k % 2)
      let b0 := updSlot other (fun x => if x.st = .trial then { x with st := .valid } else x) { b with count := b.count + 1 }
      let b1 := updSlot k (fun x => { x with st := .trial }) b0
      if pair = 0 then { b1 with fw := { b1.fw with trial := k, tried := false } }
      else { b1 with cfg := { b1.cfg with trial := k - 2, tried := false } }) s1)
  else (0x02F2, updBoot (updSlot k (fun x => if x.bytes = [] then x else { x with st := .invalid })) s)

end Sys2Proof.Machine
end

