-- ==== Sys2Proof/Machine/MmpRun.lean ====
section
/-! DEFINITION. The commands of the management protocol (R415, R462–R464, R470–R478, R511). -/

namespace Sys2Proof.Machine

/-- As `runMmp`, for a command whose effect follows its response: `f` gives the status, and `after` runs on status 0
once the response has left (R474 CHIP_RESET, R477). -/
def runMmpAfter (cmd : Nat) (size : Nat → Bool) (f : List Byte → State → Nat) (after : List Byte → State → State)
    (s : State) : State :=
  match s.mgp.queue.head? with
  | none => s
  | some q =>
    if reqCommand q ≠ cmd ∨ romRuns s = false then s
    else
      match takeRequest s with
      | none => s
      | some (_, s1) =>
        if !(size (reqField q 28 2)) then answerReq q 0x0304 [] s1
        else
          let st := f (reqPayload q) s1
          let s2 := answerReq q st [] s1
          if st = 0 then after (reqPayload q) s2 else s2

/-- A command of one fixed length. -/
def sizeIs (n k : Nat) : Bool := k == n

/-! Identity and status -/

/-- IDENTIFY's payload. -/
def identifyBytes (s : State) : List Byte :=
  leBytes 4 0x004C4E46 ++ leBytes 4 0xE1800B00 ++ leBytes 8 Config.serial.toNat ++ leBytes 1 s.boot.fwMajor ++
  leBytes 1 s.boot.fwMinor ++ leBytes 1 s.pwr.straps.pos ++ leBytes 1 s.tmg.role ++ leBytes 6 Config.mac.toNat ++ zeros 2 ++
  (List.range 96).map Config.deviceKey

/-- STATUS's payload. -/
def statusBytes (s : State) : List Byte :=
  [0x2C00104, 0x2600000, 0x2700000, 0x2C00400, 0x2A00000, 0x2A00010].flatMap (fun lo => leBytes 4 (regImage .mmp s lo)) ++
  leBytes 2 s.mgp.events.length ++ zeros 2

/-! Registers (R476) -/

/-- A BAR0 offset lies in a block, or at a register, that answers in every power state. -/
def mmpAlways (off : Nat) : Bool :=
  decide (off < 0x100000) || (decide (0x2600000 ≤ off) && decide (off < 0x2D00000)) || off == 0x800000 ||
  decide (0x2E00000 ≤ off)

/-- A run of words touches a block that does not answer now. -/
def mmpShut (s : State) (off n : Nat) : Bool := !(isOn s) && (List.range n).any (fun k => !(mmpAlways (off + 4 * k)))

/-- REG_READ's words in rising order; a word that meets a violation gives none. -/
def mmpReads : Nat → Nat → State → State × Option (List Byte)
  | 0, _, s => (s, some [])
  | n + 1, off, s =>
    match servedRead .mmp off 4 s with
    | (s1, .ok v) =>
      match mmpReads n (off + 4) s1 with
      | (s2, some l) => (s2, some (leBytes 4 v ++ l))
      | (s2, none) => (s2, none)
    | (s1, _) => (s1, none)

/-- REG_READ. -/
def mmpRegRead (p : List Byte) (s : State) : Nat × List Byte × State :=
  let off := getLe p 0 4
  let n := getLe p 4 2
  if n = 0 ∨ 64 < n ∨ getLe p 6 2 ≠ 0 ∨ off % 4 ≠ 0 then (0x0303, [], s)
  else if mmpShut s off n then (0x02F0, [], s)
  else
    match mmpReads n off s with
    | (s1, some l) => (0, l, s1)
    | (s1, none) => (0x0303, [], s1)

/-- REG_WRITE's words in rising order; the flag tells that one met a violation. -/
def mmpWrites (cons : Cons) : Nat → Nat → List Byte → State → State × Bool
  | 0, _, _, s => (s, false)
  | n + 1, off, bs, s =>
    let x := servedWrite cons .mmp off 4 (getLe bs 0 4) s
    let y := mmpWrites cons n (off + 4) (bs.drop 4) x.1
    (y.1, y.2 || x.2 == .abort)

/-- REG_WRITE. -/
def mmpRegWrite (cons : Cons) (p : List Byte) (s : State) : Nat × List Byte × State :=
  let off := getLe p 0 4
  let n := getLe p 4 2
  if n = 0 ∨ 64 < n ∨ getLe p 6 2 ≠ 0 ∨ off % 4 ≠ 0 ∨ p.length ≠ 8 + 4 * n then
    (if p.length ≠ 8 + 4 * n then 0x0304 else 0x0303, [], s)
  else if mmpShut s off n then (0x02F0, [], s)
  else
    let r := mmpWrites cons n off (p.drop 8) s
    (if r.2 then 0x0303 else 0, [], r.1)

/-! Log and events -/

/-- LOG_READ: up to 15 entries fit in 1,016 bytes. -/
def mmpLogRead (p : List Byte) (s : State) : Nat × List Byte × State :=
  let n := getLe p 8 2
  if n = 0 ∨ 16 < n ∨ !(allZero (slice p 10 6)) then (0x0303, [], s)
  else (0, (((readableLog s).filter (fun e => decide (getLe p 0 8 ≤ e.seq))).take (min n 15)).flatMap entryBytes, s)

/-- EVENT_CFG. -/
def mmpEventCfg (p : List Byte) (s : State) : Nat × List Byte × State :=
  if getLe p 18 2 ≠ 0 ∨ 2 ^ 11 ≤ getLe p 20 4 then (0x0303, [], s)
  else (0, [], updMgp (fun m => { m with dest := some (slice p 0 18), mask := getLe p 20 4 }) s)

/-- EVENT_ACK. -/
def mmpEventAck (p : List Byte) (s : State) : Nat × List Byte × State :=
  if getLe p 4 4 ≠ 0 then (0x0303, [], s)
  else (0, [], updMgp (fun m => { m with events := m.events.filter (fun e => decide (getLe p 0 4 < e.seq)) }) s)

/-! Topology and records -/

/-- TOPO_GET: every site is verified with the reads it answers, then returned. -/
def mmpTopoGet (reads : List (Nat × List (Option (List Byte)))) (s : State) : Nat × List Byte × State :=
  let s1 := verifyAll reads s
  let sites := (List.range (siteCount s1)).map (siteAt s1)
  (if sites.any (fun r => isMismatch r.result) then 0x02E1 else 0,
   sites.flatMap (fun r => leBytes 1 r.result ++ leBytes 1 r.kind ++ zeros 6 ++ leBytes 8 r.serial), s1)

/-- TOPO_LOAD (R462, R464). -/
def mmpTopoLoad (p : List Byte) (s : State) : Nat × List Byte × State :=
  if p.length < 16 ∨ p.length ≠ 16 + 16 * getLe p 6 1 then (0x0304, [], s)
  else if topologyOk p then (0, [], updTmg (fun t => { t with topology := p, accepted := [], sites := [] }) s)
  else (0x0303, [], s)

/-- TOPO_ACCEPT of one site: whether it is taken, and the state. -/
def acceptSite (n : Nat) (s : State) : Bool × State :=
  let r := siteAt s n
  if siteCount s ≤ n then (false, s)
  else if r.result = 1 ∨ r.result = 7 ∨ r.result = 8 then
    let s1 := updTmg (fun t => { t with
      accepted := Tbl.set 0 t.accepted n r.serial, sites := Tbl.set {} t.sites n { r with result := 1 } }) s
    (true, if r.result = 1 then s1
      else queueEvent 0 0x0300 (leBytes 1 n ++ leBytes 1 r.result ++ leBytes 1 1 ++ zeros 5 ++ leBytes 8 r.serial) s1)
  else if r.result = 2 then (true, updTmg (fun t => { t with accepted := Tbl.erase t.accepted n }) s)
  else (false, s)

/-- TOPO_ACCEPT (R464). -/
def mmpTopoAccept (p : List Byte) (s : State) : Nat × List Byte × State :=
  if !(allZero (slice p 2 6)) then (0x0303, [], s)
  else
    let named := (List.range 16).filter (fun n => bitOf (getLe p 0 2) n)
    let r := named.foldl (fun (a : Bool × State) n => let x := acceptSite n a.2; (a.1 && x.1, x.2)) (true, s)
    (if r.1 then 0 else 0x02E1, [], r.2)

/-- FIR_READ. -/
def mmpFirRead (reads : List (Option (List Byte))) (p : List Byte) (s : State) : Nat × List Byte × State :=
  if siteCount s ≤ getLe p 0 1 ∨ !(allZero (slice p 1 7)) then (0x0303, [], s)
  else
    match firRead 3 reads with
    | some r => (0, slice r 0 256, s)
    | none => (0x02E1, [], s)

/-- FIR_WRITE: `reads` is what the memory answers after the write. -/
def mmpFirWrite (reads : List (Option (List Byte))) (p : List Byte) (s : State) : Nat × List Byte × State :=
  let n := getLe p 0 1
  let r := slice p 8 256
  if siteCount s ≤ n ∨ !(allZero (slice p 1 7)) ∨ !(firValid r) ∨ getLe r 6 1 ≠ (siteDef s n).kind then (0x0303, [], s)
  else
    let s1 := verifySite n reads (emit (.i2c0 n true 0 r) s)
    (if firRead 3 reads == some r then 0 else 0x02E1, [], s1)

/-- ROW_CONFIG_LOAD (R415). -/
def mmpRowConfig (p : List Byte) (s : State) : Nat × List Byte × State :=
  if p.length ≠ 128 + 8 * getLe p 7 1 + 16 * getLe p 6 1 then (0x0304, [], s)
  else
    let r := acceptConfig p s
    (if r.1 then 0 else 0x0303, [], r.2)

/-! Images and keys -/

/-- FW_BLOCK. -/
def mmpFwBlock (p : List Byte) (s : State) : Nat × List Byte × State :=
  if getLe p 1 3 ≠ 0 then (0x0303, [], s)
  else
    let r := fwBlock (getLe p 0 1) (getLe p 4 4) (p.drop 8) s
    (r.1, [], r.2)

/-- FW_COMMIT. -/
def mmpFwCommit (sig : Bool) (p : List Byte) (s : State) : Nat × List Byte × State :=
  if getLe p 1 3 ≠ 0 then (0x0303, [], s)
  else
    let r := fwCommit (getLe p 0 1) (getLe p 4 4) sig s
    (r.1, [], r.2)

/-- KEY_SET's status: `onCurve` answers for EPUB. -/
def keySetStatus (onCurve : Bool) (p : List Byte) (_ : State) : Nat :=
  if 2 ≤ getLe p 0 1 ∨ !(allZero (slice p 1 7)) ∨ !onCurve then 0x0303 else 0

/-- KEY_SET's effect. -/
def keySet (p : List Byte) (s : State) : State :=
  let slot := getLe p 0 1
  let k := (List.range 32).map (Config.mmpKey (slice p 8 96) slot)
  updMgp (fun m => if slot = 0 then { m with key0 := k } else { m with key1 := k }) s

/-! The end of a command -/

/-- What the block does by itself before it takes the next command: register writes that agents made through the
mirror, packets and threads whose condition holds, engines, the fluid bus, management. -/
def settle (s : State) : State :=
  let s1 := drainMirror {} (s.mirror.length + 8) s
  let s2 := if fclkRuns s1 then
      settleSweeps (settleDormant mirrorRead (settleWaits (settleUnmaps (settlePackets s1))))
    else s1
  let s3 := settleFbc (drainMirror {} (s2.mirror.length + 8) s2)
  let s4 := if romRuns s3 then settleMmp 17 s3 else s3
  settleElk (settleEvents { s4 with mirror := [] })

end Sys2Proof.Machine
end

