-- ==== Sys2Proof/Machine/Rows.lean ====
section
/-! DEFINITION. What the commands share: when a command can happen at all, and the operations of rows that no unit
owns alone. -/

namespace Sys2Proof.Machine

/-- A command has had its effect: what the block does by itself follows, and the state is the next one. -/
def done (s : State) : Out := .next (settle s)

/-! When a command can happen -/

/-- An event of the standby domain. -/
def whenStandby (f : State → State) (s : State) : State := if standby s then f s else s

/-- An action of Miothisin. -/
def whenIsland (f : State → State) (s : State) : State := if islandRuns s then f s else s

/-- An action of Miothisin or of the ROM's recovery loop (R513). -/
def whenRom (f : State → State) (s : State) : State := if romRuns s then f s else s

/-- An action of the tray lead. -/
def whenLead (f : State → State) (s : State) : State := if islandRuns s && isTrayLead s then f s else s

/-- An event of the main domain, on FCLK. -/
def whenClocked (f : State → State) (s : State) : State := if fclkRuns s then f s else s

/-- An event that needs state ON. -/
def whenOn (f : State → State) (s : State) : State := if isOn s then f s else s

/-! Power -/

/-- What a power command writes to ISL_PWR_CTRL: the command, with AUTO_ON as it stands (R38, R515). -/
def cmdWord (cmd : Nat) (s : State) : Nat := cmd + b2n (regBit s 0x2C00100 2) * 4

/-! Packets -/

/-- Opcodes that R198 and the engine chapters allot (R276, R306, R330, R350). -/
def opListed (op : Nat) : Bool :=
  decide (op ≤ 5) || (decide (0x10 ≤ op) && decide (op ≤ 0x14)) || (decide (0x20 ≤ op) && decide (op ≤ 0x23)) ||
  (decide (0x30 ≤ op) && decide (op ≤ 0x37)) || (decide (0x40 ≤ op) && decide (op ≤ 0x44)) ||
  (decide (0x50 ≤ op) && decide (op ≤ 0x53)) || op == 0x58 || op == 0x59 ||
  (decide (0x60 ≤ op) && decide (op ≤ 0x65)) || op == 0x70 || op == 0x71

/-- The front packet of a ring starts and carries an opcode that nothing allots (R197, R198): only the owner's state is
judged before it. -/
def startUnlisted (r : Nat) (s : State) : State :=
  match (ringAt s r).fetched with
  | [] => s
  | p :: rest =>
    if !(opListed (getLe p.bytes 0 1)) && canStart s r p then
      let q := inflightOfPacket s r p
      let s1 := updRing r (fun g => { g with fetched := rest }) s
      let s2 := updHif (fun h => { h with started := h.started ++ [q], nextId := h.nextId + 1 }) s1
      let st := if (ownerAt s q.owner).st != .active then 0x0801
        else if decide (0x60 ≤ q.opcode) && decide (q.opcode < 0x80) && q.owner != 0 then 0x0328 else 0x0301
      finishPkt q.id st 0 0 s2
    else s

/-- NOP completes OK; a reserved opcode has no row of its own and ends here too (R197, R199). -/
def startNop (r : Nat) (s : State) : State :=
  if (ringAt s r).fetched.head?.any (fun p => opIs 0 p.bytes) then
    runPacket r (opIs 0) oneUnit [] (fun p t => endPkt p.id 0 0 0 t) s
  else startUnlisted r s

/-- FENCE (R199, R206). -/
def doFence (p : Inflight) (s : State) : State :=
  if earlierOpen s p then updPkt p.id (fun q => { q with wait := .fence }) s else endPkt p.id 0 0 0 s

/-- Units of INLINE_WRITE (R201). -/
def inlineUnits (b : List Byte) : Nat := 1 + ceilDiv (getLe b 24 2) 64

/-- Units of PHASE_STAMP (R329). -/
def stampUnits (b : List Byte) : Nat := 1 + ceilDiv (getLe b 17 1) 4

/-- Units of POSE_PUSH (R306). -/
def poseUnits (b : List Byte) : Nat := 1 + getLe b 17 1

/-! Views of registers -/

/-- A ring register in a requester's view, by local ring number (R189). -/
def ringView (r : Requester) (k field : Nat) : Nat :=
  match r with
  | .fn 0 => 0x400000 + k * 0x40 + field
  | .fn _ => k * 0x40 + field
  | _ => 0x400000 + k * 0x40 + field

/-- The vector control word of a vector, in its function's view (R186). -/
def vectorCtl (fn vec : Nat) : Nat := if fn = 0 then 0x88000C + 16 * vec else 0x800C + 16 * vec

/-! Link -/

/-- LINK_STATE_TIMEOUT: training, HELLO or key exchange has reached its limit (R227). -/
def stateTimeout (cons : Cons) (p : Nat) (s : State) : State :=
  let st := (portAt s p).st
  if st == .phy || st == .hello || st == .keyx then portDown cons p 2 s else s

/-- BACKOFF_EXPIRY (R227). -/
def backoffEnds (p : Nat) (s : State) : State := if (portAt s p).st == .down then portStart p s else s

/-- A port whose PHY is up loses its partner's flits or its signal (R227). -/
def trainedDown (cons : Cons) (p cause : Nat) (s : State) : State :=
  let st := (portAt s p).st
  if st == .hello || st == .keyx || st == .up || st == .quarantine then portDown cons p cause s else s

/-- A DOMAIN message of one type arrives (R231). -/
def domainArrives (cons : Cons) (p mod : Nat) (sig : Bool) (bytes : List Byte) (s : State) : State :=
  if (parseMsg bytes).mod = mod then messageArrives cons p .ok sig (· == 0xC0) bytes s else s

/-- STAGE: the command, unless it waits for its host read already, and that read's answer (R226). -/
def stage (cons : Cons) (r : Requester) (host : Option (List Byte)) (s : State) : State :=
  stageAnswer host (if s.elk.staging then s else regWrite cons r 0x2008028 4 1 s)

/-! Fluid bus and tray -/

/-- TX_NOT_BEFORE_REACHED: DTS comes to the NOT_BEFORE of a pending request (R396). -/
def txNotBefore (k : Nat) (s : State) : State :=
  if bitOf s.fbc.busy k then { s with dts := max s.dts (getLe (txShadow s k) 8 8) } else s

/-- The sites that TMG_VERIFY_CMD named are verified (R463). -/
def verifyBusy (reads : List (Nat × List (Option (List Byte)))) (s : State) : State :=
  if s.tmg.verifying.isEmpty then s else updTmg (fun t => { t with verifying := [] }) (verifyAll reads s)

/-- The ROLE byte (R453). -/
def roleByte (s : State) : Nat := s.tmg.role % 4 + b2n s.pwr.straps.lead * 4 + s.pwr.straps.pos % 4 * 8

/-- A ROLE read of this chip (R453, R456). -/
def answerRole (byLead : Bool) (s : State) : State :=
  let s1 := updTmg (fun t => { t with roleAsked := true }) (if byLead then heardLead s else s)
  emit (.smbus s1.pwr.straps.pos 0x01 (leBytes 1 (roleByte s1))) s1

/-- A CHIP_STATE read of this chip (R454, R456). -/
def answerState (byLead : Bool) (s : State) : State :=
  let s1 := if byLead then heardLead s else s
  emit (.smbus s1.pwr.straps.pos 0x10 (chipState s1)) s1

/-- A STAGGER write of the tray lead (R323, R453). -/
def tsbStagger (v : Nat) (s : State) : State := assignStagger v (heardLead s)

/-! Errors -/

/-- ERROR_DETECT: the report reaches the error unit (R387, R483, R490, R502). -/
def errorDetect (e : ErrSource) (s : State) : State :=
  match e with
  | .event x => logErr x s
  | .lockstep => islandLockstep s
  | .fbcRam o => whenStandby (ramUe o) s
  | .fbcShadow => whenStandby shadowUe s

end Sys2Proof.Machine
end

