-- ==== Sys2Proof/Machine/Boot.lean ====
section
/-! DEFINITION. What the commands of one family do: bring-up (chapter 18). -/

namespace Sys2Proof.Machine

/-- ISLAND_BOOT (R510). -/
def execIslandBoot (sigs : Nat) (s : State) : Out := done (islandBoot sigs s)

/-- BOOT_STAGE (R514). -/
def execBootStage (cons : Cons) (sigs : Nat) (reads : List (Nat × List (Option (List Byte)))) (s : State) : Out :=
  done (bootStage cons sigs reads s)

/-- RESTART (R512). -/
def execRestart (r : Requester) (s : State) : Out := done (regWrite {} r 0x2C00C08 4 1 s)

/-- CONFIRM (R512). -/
def execConfirm (r : Requester) (raise : Bool) (s : State) : Out :=
  done (regWrite {} r 0x2C00C08 4 (2 + b2n raise * 4) s)

/-- CHIP_INIT (R517). -/
def execChipInit (ok : Bool) (s : State) : Out := done (chipInit ok s)

/-- HBM_TRAINED (R517). -/
def execHbmTrained (mask : Nat) (s : State) : Out := done (hbmTrained mask s)

/-- HOST_PORT_READY (R40). -/
def execHostPortReady (s : State) : Out := done (hostReady s)

end Sys2Proof.Machine
end

