-- ==== Sys2Proof/Machine/Error.lean ====
section
/-! DEFINITION. What the commands of one family do: the error unit (chapter 17). -/

namespace Sys2Proof.Machine

/-- ERROR_DETECT (R490). -/
def execErrorDetect (e : ErrSource) (s : State) : Out := done (errorDetect e s)

/-- LOG_ENTRY_CLOSE (R486). -/
def execLogEntryClose (s : State) : Out := done (closeEntries s)

/-- FLASH_LOG_COPY (R487). -/
def execFlashLogCopy (ok : Bool) (s : State) : Out := done (whenIsland (flashCopy ok) s)

/-- HANDLER_DONE (R493). -/
def execHandlerDone (s : State) : Out := done (handlerDone s)

/-- ERR_ACK (R493). -/
def execErrAck (r : Requester) (cls seq : Nat) (s : State) : Out :=
  done (regWrite {} r 0x100020 4 (cls + seq % 2 ^ 24 * 2 ^ 8) s)

/-- ACK_TIMEOUT (R494). -/
def execAckTimeout (s : State) : Out := done (ackTimeout s)

/-- LASTGASP_ACK (R500). -/
def execLastgaspAck (r : Requester) (s : State) : Out := done (regWrite {} r 0x2C00804 4 1 s)

end Sys2Proof.Machine
end

