-- ==== Sys2Proof/Machine/FluidBus.lean ====
section
/-! DEFINITION. What the commands of one family do: the fluid bus controller (chapter 14). -/

namespace Sys2Proof.Machine

/-- INIT_LEAVE (R381). -/
def execInitLeave (r : Requester) (v : Nat) (s : State) : Out := done (regWrite {} r 0x2900000 4 (setFld v 31 31 0) s)

/-- INIT_ENTER (R380). -/
def execInitEnter (r : Requester) (v : Nat) (s : State) : Out := done (regWrite {} r 0x2900000 4 (setFld v 31 31 1) s)

/-- FRAME_RECEIVE (R390). -/
def execFrameReceive (f : CanFrame) (sof recUp : Nat) (s : State) : Out :=
  done (whenStandby (frameReceive f sof recUp) s)

/-- RX_QUEUE_ACK (R392). -/
def execRxQueueAck (r : Requester) (second : Bool) (ix : Nat) (s : State) : Out :=
  done (regWrite {} r (0x2900024 + b2n second * 0x10) 4 ix s)

/-- TXLOG_ACK (R398). -/
def execTxlogAck (r : Requester) (ix : Nat) (s : State) : Out := done (regWrite {} r 0x2900084 4 ix s)

/-- SHADOW_SEL (R394). -/
def execShadowSel (r : Requester) (space ix : Nat) (s : State) : Out :=
  done (regWrite {} r 0x2900400 4 (space * 2 ^ 6 + ix) s)

/-- TX_LOAD (R395). -/
def execTxLoad (r : Requester) (mask : Nat) (s : State) : Out := done (regWrite {} r 0x2900064 4 mask s)

/-- TX_REQ (R396). -/
def execTxReq (r : Requester) (mask : Nat) (s : State) : Out := done (regWrite {} r 0x2900050 4 mask s)

/-- TX_ABORT (R397). -/
def execTxAbort (r : Requester) (mask : Nat) (s : State) : Out := done (regWrite {} r 0x2900054 4 mask s)

/-- FRAME_TRANSMIT_DONE (R397). -/
def execFrameTransmitDone (sof loop : Nat) (s : State) : Out := done (whenStandby (frameDone sof loop) s)

/-- TX_ERROR (R384). -/
def execTxError (err : Nat) (s : State) : Out := done (whenStandby (txError err) s)

/-- BUS_OFF_RECOVERY (R385). -/
def execBusOffRecovery (n : Nat) (s : State) : Out := done (whenStandby (busOffRecovery n) s)

/-- OVER_LENGTH_EXPIRY (R401). -/
def execOverLengthExpiry (s : State) : Out := done (whenStandby (overExpiry) s)

/-- BALL_START (R404). -/
def execBallStart (b sof : Nat) (s : State) : Out := done (whenStandby (ballBegins b sof) s)

/-- REFERENCE_MISSING (R406). -/
def execReferenceMissing (s : State) : Out := done (whenStandby (refMissing) s)

/-- TAKEOVER (R407). -/
def execTakeover (s : State) : Out := done (whenStandby (takeover) s)

/-- UNSYNC_TAKEOVER (R411). -/
def execUnsyncTakeover (s : State) : Out := done (whenStandby (unsyncTakeover) s)

/-- TAKE (R408). -/
def execTake (r : Requester) (s : State) : Out := done (regWrite {} r 0x2900114 4 1 s)

/-- YIELD (R408). -/
def execYield (r : Requester) (s : State) : Out := done (regWrite {} r 0x2900114 4 2 s)

/-- TX_NOT_BEFORE_REACHED (R396). -/
def execTxNotBeforeReached (k : Nat) (s : State) : Out := done (whenStandby (txNotBefore k) s)

end Sys2Proof.Machine
end

