-- ==== Sys2Proof/Machine/Governor.lean ====
section
/-! DEFINITION. What the commands of one family do: the power governor (chapter 12). -/

namespace Sys2Proof.Machine

/-- CAP_SET (R350). -/
def execCapSet (ring : Nat) (s : State) : Out := done (runPacket ring (opIs 0x58) oneUnit [(16, 2)] doCapSet s)

/-- POWER_QUERY (R350). -/
def execPowerQuery (ring : Nat) (s : State) : Out := done (runPacket ring (opIs 0x59) oneUnit [] doPowerQuery s)

/-- HOST_CAP_WRITE (R332). -/
def execHostCapWrite (r : Requester) (v : Nat) (s : State) : Out := done (regWrite {} r 0x2700010 4 v s)

/-- CAP_RAMP_TICK (R333). -/
def execCapRampTick (s : State) : Out := done (whenStandby (rampTick) s)

/-- BRD_THROT_CHANGE (R334). -/
def execBrdThrotChange (low : Bool) (s : State) : Out := done (whenStandby (brdThrot low) s)

/-- QUORUM_WRITE (R335). -/
def execQuorumWrite (q : Bool) (s : State) : Out := done (whenIsland (writeQuorum q) s)

/-- TJ_SAMPLE (R337). -/
def execTjSample (readings : List Int) (s : State) : Out := done (whenStandby (tjSample readings) s)

/-- THERMAL_UPDATE (R337). -/
def execThermalUpdate (s : State) : Out := done (whenStandby (thermalUpdate) s)

/-- DUTY_CLAMP_DOWN (R340). -/
def execDutyClampDown (imon : Nat) (s : State) : Out := done (whenOn (dutyDown imon) s)

/-- DUTY_CLAMP_UP (R340). -/
def execDutyClampUp (imon : Nat) (s : State) : Out := done (whenOn (dutyUp imon) s)

/-- DVFS_TICK (R341). -/
def execDvfsTick (imon vout : Nat) (s : State) : Out := done (whenStandby (dvfsTick imon vout) s)

/-- RAIL_POWER_SAMPLE (R339). -/
def execRailPowerSample (mv ma : List Nat) (s : State) : Out := done (whenStandby (railSample mv ma) s)

/-- FORECAST_UPDATE (R344). -/
def execForecastUpdate (s : State) : Out := done (whenClocked (forecast) s)

/-- PGV_SITE_CAP_WRITE (R332). -/
def execPgvSiteCapWrite (r : Requester) (ix v : Nat) (s : State) : Out :=
  done (regWrite {} r (0x2700020 + 4 * ix) 4 v s)

/-- PGV_BOARD_WRITE (R332). -/
def execPgvBoardWrite (r : Requester) (v : Nat) (s : State) : Out := done (regWrite {} r 0x2700030 4 v s)

end Sys2Proof.Machine
end

