-- ==== Sys2Proof/Machine/Huddle.lean ====
section
/-! DEFINITION. What the commands of one family do: the row coolant huddle (chapter 15). -/

namespace Sys2Proof.Machine

/-- ROW_CONFIG_APPLY (R416). -/
def execRowConfigApply (s : State) : Out := done (whenIsland (rowConfigApply) s)

/-- ELECTION (R434). -/
def execElection (s : State) : Out := done (whenIsland (election) s)

/-- LEAD_OVER_WORK (R420). -/
def execLeadOverWork (nodes : List CanFrame) (s : State) : Out := done (whenIsland (leadOverWork nodes) s)

/-- REFERENCE_HANDLING (R433). -/
def execReferenceHandling (f : CanFrame) (s : State) : Out := done (whenIsland (referenceHandling f) s)

/-- MEMBER_STATUS (R432). -/
def execMemberStatus (f : CanFrame) (s : State) : Out := done (whenIsland (memberStatus f) s)

/-- TRAY_REPORT (R443). -/
def execTrayReport (f : CanFrame) (s : State) : Out := done (whenIsland (trayReport f) s)

/-- ALLOCATION (R445). -/
def execAllocation (f : CanFrame) (s : State) : Out := done (whenIsland (allocationFrame f) s)

/-- STAGGER (R446). -/
def execStagger (f : CanFrame) (s : State) : Out := done (whenIsland (staggerFrame f) s)

/-- LEAK (R448). -/
def execLeak (f : CanFrame) (s : State) : Out := done (whenIsland (leakFrame f) s)

/-- ALL_STOP (R448). -/
def execAllStop (f : CanFrame) (s : State) : Out := done (whenIsland (allStopFrame f) s)

/-- HANDOVER (R438). -/
def execHandover (r : Requester) (target : Nat) (s : State) : Out :=
  done (regWrite {} r 0x2C00458 4 (1 + target * 2 ^ 8) s)

/-- ROW_CLEAR (R449). -/
def execRowClear (r : Requester) (s : State) : Out := done (regWrite {} r 0x2C00458 4 2 s)

/-- HUDDLE_ALL_STOP (R447). -/
def execHuddleAllStop (r : Requester) (s : State) : Out := done (regWrite {} r 0x2C00458 4 3 s)

end Sys2Proof.Machine
end

