-- ==== Sys2Proof/Machine/Link.lean ====
section
/-! DEFINITION. What the commands of one family do: the Eriati Link (chapter 8). -/

namespace Sys2Proof.Machine

/-- PORT_ENABLE (R227). -/
def execPortEnable (r : Requester) (cons : Cons) (port : Nat) (s : State) : Out :=
  done (regWrite cons r (0x2000000 + 0x100 * port) 4 (2 ^ 31) s)

/-- PORT_DISABLE (R227). -/
def execPortDisable (r : Requester) (cons : Cons) (port : Nat) (s : State) : Out :=
  done (regWrite cons r (0x2000000 + 0x100 * port) 4 0 s)

/-- PHY_TRAINED (R216). -/
def execPhyTrained (cons : Cons) (port lanes : Nat) (s : State) : Out :=
  done (whenClocked (phyTrained cons port lanes) s)

/-- LINK_STATE_TIMEOUT (R227). -/
def execLinkStateTimeout (cons : Cons) (port : Nat) (s : State) : Out := done (whenClocked (stateTimeout cons port) s)

/-- BACKOFF_EXPIRY (R227). -/
def execBackoffExpiry (port : Nat) (s : State) : Out := done (whenClocked (backoffEnds port) s)

/-- HELLO (R231). -/
def execHello (port serial peerPort id : Nat) (hasId : Bool) (s : State) : Out :=
  done (whenClocked (helloReceived port serial peerPort id hasId) s)

/-- KEY (R228). -/
def execKey (cons : Cons) (port : Nat) (key : List Byte) (sig : Bool) (s : State) : Out :=
  done (whenClocked (keyReceived cons port key sig) s)

/-- FINISHED (R228). -/
def execFinished (cons : Cons) (port digest : Nat) (tagOk : Bool) (s : State) : Out :=
  done (whenClocked (finishedReceived cons port digest tagOk) s)

/-- REDIGEST (R230). -/
def execRedigest (cons : Cons) (port digest : Nat) (sig : Bool) (s : State) : Out :=
  done (whenClocked (redigestReceived cons port digest sig) s)

/-- FLIT_RECEIVE (R220). -/
def execFlitReceive (cons : Cons) (port head : Nat) (payload : List Byte) (tagOk : Bool) (uncorr : Nat)
    (ecc : Ecc) (sig : Bool) (s : State) : Out :=
  done (whenClocked (flitReceive cons port head payload tagOk uncorr ecc sig) s)

/-- FLIT_TRANSMIT (R222). -/
def execFlitTransmit (port : Nat) (s : State) : Out := done (whenClocked (flitTransmit port) s)

/-- REPLAY_TIMEOUT (R220). -/
def execReplayTimeout (cons : Cons) (port : Nat) (s : State) : Out := done (whenClocked (replayTimeout cons port) s)

/-- ACK_TIMER (R220). -/
def execAckTimer (port : Nat) (s : State) : Out := done (whenClocked (ackTimer port) s)

/-- IDLE_TIMEOUT (R227). -/
def execIdleTimeout (cons : Cons) (port : Nat) (s : State) : Out := done (whenClocked (trainedDown cons port 7) s)

/-- NO_SIGNAL (R227). -/
def execNoSignal (cons : Cons) (port : Nat) (s : State) : Out := done (whenClocked (trainedDown cons port 1) s)

/-- PROBE (R231). -/
def execProbe (cons : Cons) (port : Nat) (bytes : List Byte) (s : State) : Out :=
  done (domainArrives cons port 0x10 false bytes s)

/-- PROBE_RSP (R237). -/
def execProbeRsp (cons : Cons) (port : Nat) (bytes : List Byte) (s : State) : Out :=
  done (domainArrives cons port 0x11 false bytes s)

/-- PROBE_TIMER (R237). -/
def execProbeTimer (s : State) : Out := done (whenClocked (probeTimer) s)

/-- LOSS_HOLD_EXPIRY (R238). -/
def execLossHoldExpiry (cons : Cons) (id : Nat) (s : State) : Out := done (whenClocked (lossHoldExpiry cons id) s)

/-- FENCE_MESSAGE (R238). -/
def execFenceMessage (cons : Cons) (port : Nat) (bytes : List Byte) (s : State) : Out :=
  done (domainArrives cons port 0x20 false bytes s)

/-- STAGE (R226). -/
def execStage (r : Requester) (cons : Cons) (host : Option (List Byte)) (s : State) : Out :=
  done (stage cons r host s)

/-- COMMIT (R226). -/
def execCommit (r : Requester) (cons : Cons) (sigs : List Bool) (s : State) : Out :=
  done (commitDue cons sigs (regWrite cons r 0x2008028 4 2 s))

/-- COMMIT_DTS_REACHED (R230). -/
def execCommitDtsReached (cons : Cons) (sigs : List Bool) (s : State) : Out :=
  done (whenClocked (fun t => commitDue cons sigs { t with dts := max t.dts (t.elk.commitAt.getD 0) }) s)

/-- ROUTE_SET (R240). -/
def execRouteSet (r : Requester) (cons : Cons) (id primary alt : Nat) (altEn : Bool) (s : State) : Out :=
  done (regWrite cons r 0x2008028 4 (3 + id * 2 ^ 8 + primary * 2 ^ 16 + alt * 2 ^ 18 + b2n altEn * 2 ^ 20) s)

/-- ELK_FENCE (R239). -/
def execElkFence (r : Requester) (cons : Cons) (id : Nat) (s : State) : Out :=
  done (regWrite cons r 0x2008028 4 (4 + id * 2 ^ 8) s)

/-- UNFENCE (R240). -/
def execUnfence (r : Requester) (cons : Cons) (id : Nat) (s : State) : Out :=
  done (regWrite cons r 0x2008028 4 (5 + id * 2 ^ 8) s)

end Sys2Proof.Machine
end

