-- ==== Sys2Proof/Machine/Management.lean ====
section
/-! DEFINITION. What the commands of one family do: the management port (chapter 16). -/

namespace Sys2Proof.Machine

/-- MMP_RECEIVE (R469). -/
def execMmpReceive (src packet : List Byte) (s : State) : Out := done (mmpReceive src packet false s)

/-- IDENTIFY (R474). -/
def execIdentify (s : State) : Out := done (runMmp 1 (sizeIs 0) false (fun _ t => (0, identifyBytes t, t)) s)

/-- STATUS (R474). -/
def execStatus (s : State) : Out := done (runMmp 2 (sizeIs 0) false (fun _ t => (0, statusBytes t, t)) s)

/-- REG_READ (R476). -/
def execRegRead (s : State) : Out := done (runMmp 0x10 (sizeIs 8) false mmpRegRead s)

/-- REG_WRITE (R476). -/
def execRegWrite (cons : Cons) (s : State) : Out :=
  done (runMmp 0x11 (fun n => decide (8 ≤ n)) false (mmpRegWrite cons) s)

/-- MMP_CHIP_RESET (R474). -/
def execMmpChipReset (s : State) : Out :=
  done (runMmpAfter 0x12 (sizeIs 0) (fun _ _ => 0) (fun _ t => applyReset .mmp t) s)

/-- LOG_READ (R474). -/
def execLogRead (s : State) : Out := done (runMmp 0x20 (sizeIs 16) false mmpLogRead s)

/-- EVENT_CFG (R474). -/
def execEventCfg (s : State) : Out := done (runMmp 0x21 (sizeIs 24) false mmpEventCfg s)

/-- EVENT_ACK (R475). -/
def execEventAck (s : State) : Out := done (runMmp 0x22 (sizeIs 8) false mmpEventAck s)

/-- EVENT_RESEND (R475). -/
def execEventResend (s : State) : Out := done (resendEvents s)

/-- TOPO_GET (R474). -/
def execTopoGet (reads : List (Nat × List (Option (List Byte)))) (s : State) : Out :=
  done (runMmp 0x30 (sizeIs 0) true (fun _ t => mmpTopoGet reads t) s)

/-- TOPO_LOAD (R462). -/
def execTopoLoad (s : State) : Out := done (runMmp 0x31 (fun _ => true) true mmpTopoLoad s)

/-- TOPO_ACCEPT (R464). -/
def execTopoAccept (s : State) : Out := done (runMmp 0x32 (sizeIs 8) true mmpTopoAccept s)

/-- FIR_READ (R474). -/
def execFirRead (reads : List (Option (List Byte))) (s : State) : Out :=
  done (runMmp 0x33 (sizeIs 8) true (mmpFirRead reads) s)

/-- FIR_WRITE (R474). -/
def execFirWrite (reads : List (Option (List Byte))) (s : State) : Out :=
  done (runMmp 0x34 (sizeIs 264) true (mmpFirWrite reads) s)

/-- ROW_CONFIG_LOAD (R415). -/
def execRowConfigLoad (s : State) : Out := done (runMmp 0x40 (fun _ => true) true mmpRowConfig s)

/-- FW_BLOCK (R511). -/
def execFwBlock (s : State) : Out := done (runMmp 0x50 (fun n => decide (8 ≤ n)) false mmpFwBlock s)

/-- FW_COMMIT (R511). -/
def execFwCommit (sig : Bool) (s : State) : Out := done (runMmp 0x51 (sizeIs 8) false (mmpFwCommit sig) s)

/-- KEY_SET (R477). -/
def execKeySet (onCurve : Bool) (s : State) : Out :=
  done (runMmpAfter 0x60 (sizeIs 104) (keySetStatus onCurve) keySet s)

/-- PTP_EXCHANGE_COMPLETE (R480). -/
def execPtpExchangeComplete (t1 t2 t3 t4 : Nat) (c1 c2 : Int) (s : State) : Out :=
  done (whenIsland (ptpExchange t1 t2 t3 t4 c1 c2) s)

/-- PTP_ANNOUNCE (R479). -/
def execPtpAnnounce (gm rank : Nat) (s : State) : Out := done (whenIsland (ptpAnnounce gm rank) s)

/-- PTP_ANNOUNCE_TIMEOUT (R481). -/
def execPtpAnnounceTimeout (s : State) : Out := done (whenIsland (ptpTimeout) s)

/-- MGP_PHY_LINK_CHANGE (R466). -/
def execMgpPhyLinkChange (up : Bool) (speed : Nat) (v4 v6 : Bool) (s : State) : Out :=
  done (whenRom (phyLink up speed v4 v6) s)

end Sys2Proof.Machine
end

