-- ==== Sys2Proof/Machine/Mover.lean ====
section
/-! DEFINITION. What the commands of one family do: movers, memory and background work (chapter 6). -/

namespace Sys2Proof.Machine

/-- DESCRIPTOR_START (R166). -/
def execDescriptorStart (ch : Nat) (s : State) : Out := done (whenClocked (startDesc ch) s)

/-- MOVER_STEP (R166). -/
def execMoverStep (ch : Nat) (ecc : Ecc) (host : Option (List Byte)) (s : State) : Out :=
  done (whenClocked (moverStepOps mirrorRead ch ecc host) s)

/-- DESCRIPTOR_END (R168). -/
def execDescriptorEnd (ch : Nat) (s : State) : Out := done (whenClocked (endDesc ch) s)

/-- MOVER_CHAIN_COMPLETE (R108). -/
def execMoverChainComplete (ch : Nat) (s : State) : Out := done (completeChain ch s)

/-- CE_WRITEBACK (R160). -/
def execCeWriteback (line : Nat) (s : State) : Out := done (whenClocked (ceWriteback line) s)

/-- TC0_WINDOW_EXPIRY (R156). -/
def execTc0WindowExpiry (res : Nat) (s : State) : Out := done (whenClocked (tc0Window res) s)

/-- PATROL_READ (R172). -/
def execPatrolRead (tier : Bool) (ecc : Ecc) (s : State) : Out := done (whenClocked (patrolRead tier ecc) s)

/-- PATROL_PERIOD_EXPIRY (R172). -/
def execPatrolPeriodExpiry (tier : Bool) (s : State) : Out := done (whenClocked (patrolLate tier) s)

/-- HBM_STACK_FAIL (R155). -/
def execHbmStackFail (k : Nat) (s : State) : Out := done (stackFails k s)

/-- TELEMETRY_SAMPLE (R174). -/
def execTelemetrySample (s : State) : Out := done (teleSample s)

/-- FLASH_ERASE (R173). -/
def execFlashErase (ok : Bool) (s : State) : Out := done (whenIsland (flashErase ok) s)

/-- HBM_REFRESH_RATE_CHANGE (R155). -/
def execHbmRefreshRateChange (k : Nat) (twice : Bool) (s : State) : Out := done (refreshRate k twice s)

end Sys2Proof.Machine
end

