-- ==== Sys2Proof/Machine/Owner.lean ====
section
/-! DEFINITION. What the commands of one family do: owners, addresses, the host window and remote requests (chapters 3 and 8). -/

namespace Sys2Proof.Machine

/-- OWNER_CREATE (R78). -/
def execOwnerCreate (ring : Nat) (s : State) : Out :=
  done (runPacket ring (opIs 0x60) oneUnit [(16, 1)] (islandPkt ownerCreateRun) s)

/-- OWNER_DESTROY (R83). -/
def execOwnerDestroy (cons : Cons) (ring : Nat) (s : State) : Out :=
  done (runPacket ring (opIs 0x61) oneUnit [(16, 1)] (islandPkt (ownerDestroyRun cons)) s)

/-- OWNER_DRAIN_END (R83). -/
def execOwnerDrainEnd (o : Nat) (s : State) : Out := done (whenClocked (drainEnd o) s)

/-- DRAIN_TIMEOUT (R83). -/
def execDrainTimeout (cons : Cons) (o : Nat) (s : State) : Out := done (whenClocked (drainTimeout cons o) s)

/-- FRAME_GRANT (R67). -/
def execFrameGrant (ring : Nat) (s : State) : Out :=
  done (runPacket ring (opIs 0x62) oneUnit [(16, 2), (20, 8)] (islandPkt frameGrantRun) s)

/-- FRAME_REVOKE (R67). -/
def execFrameRevoke (ring : Nat) (s : State) : Out :=
  done (runPacket ring (opIs 0x63) oneUnit [(20, 8)] (islandPkt frameRevokeRun) s)

/-- CLUSTER_LEASE (R81). -/
def execClusterLease (ring : Nat) (s : State) : Out :=
  done (runPacket ring (opIs 0x64) oneUnit [(16, 1), (48, 16)] (islandPkt clusterLeaseRun) s)

/-- CLUSTER_RELEASE (R82). -/
def execClusterRelease (ring : Nat) (s : State) : Out :=
  done (runPacket ring (opIs 0x65) oneUnit [(17, 1), (48, 16)] (islandPkt clusterReleaseRun) s)

/-- SCRATCH_CLEAR_DONE (R81). -/
def execScratchClearDone (c : Nat) (s : State) : Out := done (whenClocked (scratchCleared c) s)

/-- MAP (R72). -/
def execMap (ring : Nat) (s : State) : Out :=
  done (runPacket ring (opIs 0x13) oneUnit [(16, 3), (20, 20)] (islandPkt mapRun) s)

/-- UNMAP (R72). -/
def execUnmap (ring : Nat) (s : State) : Out :=
  done (runPacket ring (opIs 0x14) oneUnit [(16, 1), (24, 16)] (islandPkt unmapRun) s)

/-- RESUME (R76). -/
def execResume (cons : Cons) (ring : Nat) (s : State) : Out :=
  done (runPacket ring (opIs 0x5) oneUnit [(16, 6)] (doResume cons) s)

/-- WINDOW_READ (R85). -/
def execWindowRead (off n : Nat) (ecc : Ecc) (s : State) : Out := done (windowRead off n ecc s)

/-- WINDOW_WRITE (R85). -/
def execWindowWrite (cons : Cons) (off : Nat) (bs : List Byte) (s : State) : Out := done (windowWrite cons off bs s)

/-- REMOTE_REQUEST (R235). -/
def execRemoteRequest (cons : Cons) (port : Nat) (ecc : Ecc) (bytes : List Byte) (s : State) : Out :=
  done (messageArrives cons port ecc false isRequest bytes s)

/-- REMOTE_ANSWER (R234). -/
def execRemoteAnswer (cons : Cons) (port : Nat) (bytes : List Byte) (s : State) : Out :=
  done (messageArrives cons port .ok false isResponse bytes s)

/-- REQUEST_TIMEOUT (R236). -/
def execRequestTimeout (cons : Cons) (tag : Nat) (s : State) : Out := done (whenClocked (requestTimeout cons tag) s)

end Sys2Proof.Machine
end

