-- ==== Sys2Proof/Machine/Phase.lean ====
section
/-! DEFINITION. What the commands of one family do: the phase timebase and site power (chapter 11). -/

namespace Sys2Proof.Machine

/-- MAINS_EDGE (R310). -/
def execMainsEdge (input d : Nat) (s : State) : Out := done (whenStandby (inputEdge input d) s)

/-- PHASE_STAMP (R314). -/
def execPhaseStamp (ring : Nat) (s : State) : Out :=
  done (runPacket ring (opIs 0x52) stampUnits [(16, 2)] doPhaseStamp s)

/-- CYCLE_START_MISSING (R310). -/
def execCycleStartMissing (c : Nat) (s : State) : Out := done (whenStandby (cycleMissing c) s)

/-- PREDICTED_CYCLE_START (R311). -/
def execPredictedCycleStart (c : Nat) (s : State) : Out := done (whenStandby (predictedStart c) s)

/-- HOLDOVER_EXPIRY (R310). -/
def execHoldoverExpiry (c : Nat) (s : State) : Out := done (whenStandby (holdExpiry c) s)

/-- CHANNEL_ENABLE (R310). -/
def execChannelEnable (r : Requester) (c v : Nat) (s : State) : Out :=
  done (regWrite {} r (0x2601000 + 0x40 * c) 4 v s)

/-- EVENT_SET (R330). -/
def execEventSet (ring : Nat) (s : State) : Out :=
  done (runPacket ring (opIs 0x50) oneUnit [(16, 10), (28, 4)] doEventSet s)

/-- EVENT_CLEAR (R329). -/
def execEventClear (ring : Nat) (s : State) : Out :=
  done (runPacket ring (opIs 0x51) oneUnit [(16, 2)] doEventClear s)

/-- PHASE_QUERY (R329). -/
def execPhaseQuery (ring : Nat) (s : State) : Out :=
  done (runPacket ring (opIs 0x53) oneUnit [(16, 1)] doPhaseQuery s)

/-- EVENT_FIRE (R319). -/
def execEventFire (ix : Nat) (s : State) : Out := done (whenStandby (eventFire ix) s)

/-- STEP_GATE_CLOSE (R322). -/
def execStepGateClose (ix : Nat) (s : State) : Out := done (whenStandby (closeGate ix) s)

/-- PULSE_END (R319). -/
def execPulseEnd (ix : Nat) (s : State) : Out := done (whenStandby (endPulse ix) s)

/-- SITE_INPUT_CHANGE (R324). -/
def execSiteInputChange (ix : Nat) (high : Bool) (s : State) : Out := done (whenStandby (siteInput ix high) s)

/-- CLEAR_MS_EXPIRY (R327). -/
def execClearMsExpiry (s : State) : Out := done (whenStandby (clearExpiry) s)

/-- RESTORE_MS_EXPIRY (R327). -/
def execRestoreMsExpiry (s : State) : Out := done (whenStandby (restoreExpiry) s)

/-- ALL_MISS_BRIDGE (R326). -/
def execAllMissBridge (s : State) : Out := done (whenStandby (allMissExpiry) s)

/-- SITE_ENABLE (R327). -/
def execSiteEnable (r : Requester) (v : Nat) (s : State) : Out :=
  done (regWrite {} r 0x2600010 4 (setFld v 31 31 1) s)

/-- BUSLOCK_WRITE (R321). -/
def execBuslockWrite (r : Requester) (v : Nat) (s : State) : Out := done (regWrite {} r 0x2600038 4 v s)

/-- STAGGER_LOCAL_WRITE (R323). -/
def execStaggerLocalWrite (r : Requester) (v : Nat) (s : State) : Out := done (regWrite {} r 0x2600034 4 v s)

end Sys2Proof.Machine
end

