-- ==== Sys2Proof/Machine/Power.lean ====
section
/-! DEFINITION. What the commands of one family do: power, clocks, reset and the tray lead role (chapter 2). -/

namespace Sys2Proof.Machine

/-- VSTBY_QUALIFIED (R36). -/
def execVstbyQualified (straps : Straps) (s : State) : Out := done (vstbyQualified straps s)

/-- VSTBY_FALL (R36). -/
def execVstbyFall (s : State) : Out := done (vstbyFall s)

/-- VSTBY_BROWN_OUT (R52). -/
def execVstbyBrownOut (s : State) : Out := done (vstbyBrownOut s)

/-- POWER_UP (R38). -/
def execPowerUp (r : Requester) (s : State) : Out := done (regWrite {} r 0x2C00100 4 (cmdWord 1 s) s)

/-- AUTO_ON_POWER_UP (R515). -/
def execAutoOnPowerUp (s : State) : Out := done (whenIsland (autoOn) s)

/-- REGULATOR_ACK_TIMEOUT (R39). -/
def execRegulatorAckTimeout (rail : Nat) (s : State) : Out := done (whenStandby (ackTimeoutRail rail) s)

/-- RAIL_UP (R39). -/
def execRailUp (s : State) : Out := done (whenStandby (stepUp) s)

/-- POWER_STEP_DELAY (R39). -/
def execPowerStepDelay (s : State) : Out := done (whenStandby (stepDelay) s)

/-- POWER_DOWN (R41). -/
def execPowerDown (r : Requester) (s : State) : Out := done (regWrite {} r 0x2C00100 4 (cmdWord 2 s) s)

/-- QUIESCE_DONE (R41). -/
def execQuiesceDone (s : State) : Out := done (whenStandby (quiesceDone) s)

/-- QUIESCE_TIMEOUT (R41). -/
def execQuiesceTimeout (s : State) : Out := done (whenStandby (quiesceTimeout) s)

/-- RAIL_OFF (R41). -/
def execRailOff (s : State) : Out := done (whenStandby (stepOff) s)

/-- RAIL_OFF_WAIT_EXPIRY (R42). -/
def execRailOffWaitExpiry (rail : Nat) (s : State) : Out := done (whenStandby (railStaysOn rail) s)

/-- RAIL_NO_RISE (R42). -/
def execRailNoRise (rail : Nat) (s : State) : Out := done (whenStandby (railNoRise rail) s)

/-- RAIL_LEFT_WINDOW (R42). -/
def execRailLeftWindow (rail : Nat) (s : State) : Out := done (whenStandby (railLeaves rail) s)

/-- LAST_GASP_WRITTEN (R498). -/
def execLastGaspWritten (s : State) : Out := done (whenStandby (gaspWritten) s)

/-- RAIL_CLEAR (R44). -/
def execRailClear (r : Requester) (s : State) : Out := done (regWrite {} r 0x2C00110 4 1 s)

/-- REFCLK_QUALIFIED (R49). -/
def execRefclkQualified (clk : Clk) (s : State) : Out := done (clockQualified clk s)

/-- REFCLK_LOST (R49). -/
def execRefclkLost (cons : Cons) (clk : Clk) (s : State) : Out := done (clockLost cons clk s)

/-- CLOCK_HOLD_EXIT (R379). -/
def execClockHoldExit (s : State) : Out :=
  done (whenStandby (fun t => { t with dts := max t.dts (t.fbc.clkHoldEnd.getD 0) }) s)

/-- CHIP_RST_N (R52). -/
def execChipRstN (s : State) : Out := done (applyReset .pin s)

/-- PCIE_PERST_N (R52). -/
def execPciePerstN (s : State) : Out := done (applyReset .perst s)

/-- CHIP_RESET (R52). -/
def execChipReset (r : Requester) (s : State) : Out := done (regWrite {} r 0x2C00124 4 1 s)

/-- CHIP_RESET_RELEASE (R54). -/
def execChipResetRelease (src : ResetSrc) (s : State) : Out := done (releaseReset src s)

/-- ISLAND_WATCHDOG (R52). -/
def execIslandWatchdog (s : State) : Out := done (islandWatchdog s)

/-- ISLAND_RESTART (R502). -/
def execIslandRestart (sigs : Nat) (s : State) : Out := done (islandReturns sigs s)

/-- THERMAL_TRIP (R55). -/
def execThermalTrip (sensor : Nat) (s : State) : Out := done (thermalTrip sensor s)

/-- THERMTRIP_CLEAR (R56). -/
def execThermtripClear (r : Requester) (s : State) : Out := done (regWrite {} r 0x2C00150 4 1 s)

/-- LEAD_CANDIDATE_TIMEOUT (R457). -/
def execLeadCandidateTimeout (answers : List (Nat × Nat)) (s : State) : Out :=
  done (whenIsland (roleSettles answers) s)

/-- ROLE_POLL (R457). -/
def execRolePoll (pos answer : Nat) (s : State) : Out := done (whenIsland (roleSeen pos answer) s)

end Sys2Proof.Machine
end

