-- ==== Sys2Proof/Machine/Register.lean ====
section
/-! DEFINITION. What the commands of one family do: register accesses (chapters 1 to 3). -/

namespace Sys2Proof.Machine

/-- REGISTER_WRITE (R6). -/
def execRegisterWrite (cons : Cons) (r : Requester) (off width v : Nat) (s : State) : Out :=
  done (regWrite cons r off width v s)

/-- SPLIT_READ (R89). -/
def execSplitRead (r : Requester) (off width : Nat) (s : State) : Out := done (regRead r off width s)

/-- SPLIT_WRITE (R90). -/
def execSplitWrite (cons : Cons) (r : Requester) (off v : Nat) (s : State) : Out := done (regWrite cons r off 4 v s)

end Sys2Proof.Machine
end

