-- ==== Sys2Proof/Machine/Ring.lean ====
section
/-! DEFINITION. What the commands of one family do: the host port and the command rings (chapter 7). -/

namespace Sys2Proof.Machine

/-- HOST_LINK_UP (R177). -/
def execHostLinkUp (rates lanes : Nat) (s : State) : Out := done (hostLinkUp rates lanes s)

/-- FLR (R179). -/
def execFlr (fn : Nat) (s : State) : Out := done (flr fn s)

/-- D3HOT_ENTRY (R180). -/
def execD3hotEntry (fn : Nat) (s : State) : Out := done (d3Enter fn s)

/-- D0_RETURN (R180). -/
def execD0Return (fn : Nat) (s : State) : Out := done (d0Return fn s)

/-- BAR2_RESIZE (R184). -/
def execBar2Resize (code : Nat) (s : State) : Out := done (bar2Resize code s)

/-- VECTOR_UNMASK (R186). -/
def execVectorUnmask (fn vec : Nat) (s : State) : Out := done (regWrite {} (.fn fn) (vectorCtl fn vec) 4 0 s)

/-- ATS_INVALIDATION (R187). -/
def execAtsInvalidation (fn : Nat) (s : State) : Out := done (atsInvalidate fn s)

/-- RING_ENABLE (R190). -/
def execRingEnable (r : Requester) (k v : Nat) (s : State) : Out :=
  done (regWrite {} r (ringView r k 8) 4 (setFld v 31 31 1) s)

/-- RING_DISABLE (R194). -/
def execRingDisable (r : Requester) (k v : Nat) (s : State) : Out :=
  done (regWrite {} r (ringView r k 8) 4 (setFld v 31 31 0) s)

/-- DOORBELL (R191). -/
def execDoorbell (r : Requester) (k tail : Nat) (s : State) : Out := done (regWrite {} r (ringView r k 0x10) 4 tail s)

/-- RING_FETCH (R193). -/
def execRingFetch (s : State) : Out := done (ringFetch s)

/-- RING_FETCH_COMPLETE (R194). -/
def execRingFetchComplete (ring : Nat) (e : HostEnd) (bs : List Byte) (s : State) : Out :=
  done (fetchDone ring e bs s)

/-- CQ_HEAD_WRITE (R210). -/
def execCqHeadWrite (r : Requester) (k v : Nat) (s : State) : Out := done (regWrite {} r (ringView r k 0x20) 4 v s)

/-- NOP (R199). -/
def execNop (ring : Nat) (s : State) : Out := done (startNop ring s)

/-- FENCE (R199). -/
def execFence (ring : Nat) (s : State) : Out := done (runPacket ring (opIs 0x1) oneUnit [] doFence s)

/-- SIGNAL (R199). -/
def execSignal (ring : Nat) (s : State) : Out := done (runPacket ring (opIs 0x2) oneUnit [(16, 17)] doSignal s)

/-- WAIT (R200). -/
def execWait (ring : Nat) (s : State) : Out := done (runPacket ring (opIs 0x3) oneUnit [(16, 30)] doWait s)

/-- WAIT_POLL (R200). -/
def execWaitPoll (ring : Nat) (e : HostEnd) (v : Nat) (s : State) : Out := done (waitPoll ring e v s)

/-- WAIT_TIMEOUT (R200). -/
def execWaitTimeout (ring : Nat) (s : State) : Out := done (waitTimeout ring s)

/-- TIMESTAMP (R199). -/
def execTimestamp (ring : Nat) (s : State) : Out := done (runPacket ring (opIs 0x4) oneUnit [(16, 9)] doTimestamp s)

/-- COPY (R201). -/
def execCopy (ring : Nat) (s : State) : Out := done (runPacket ring (opIs 0x10) oneUnit [(16, 34)] doCopy s)

/-- FILL (R201). -/
def execFill (ring : Nat) (s : State) : Out := done (runPacket ring (opIs 0x11) oneUnit [(16, 24), (48, 2)] doCopy s)

/-- INLINE_WRITE (R201). -/
def execInlineWrite (ring : Nat) (s : State) : Out :=
  done (runPacket ring (opIs 0x12) inlineUnits [(16, 11)] (fun p t => doInline p 0 t) s)

/-- FLUSH_READ_COMPLETE (R188). -/
def execFlushReadComplete (id : Nat) (e : HostEnd) (s : State) : Out := done (flushDone id e s)

/-- LOG_COPY (R204). -/
def execLogCopy (ring : Nat) (s : State) : Out :=
  done (runPacket ring (opIs 0x70) oneUnit [(16, 20)] (islandPkt logCopyRun) s)

/-- ERR_INJECT (R503). -/
def execErrInject (ring : Nat) (s : State) : Out :=
  done (runPacket ring (opIs 0x71) oneUnit [(16, 3), (24, 8)] (islandPkt injectRun) s)

/-- PACKET_NOT_BEFORE_REACHED (R192). -/
def execPacketNotBeforeReached (ring : Nat) (s : State) : Out := done (notBeforeReached ring s)

/-- HOST_LINK_DOWN (R483). -/
def execHostLinkDown (s : State) : Out := done (hostLinkDown s)

end Sys2Proof.Machine
end

