-- ==== Sys2Proof/Machine/Sequence.lean ====
section
/-! DEFINITION. What the commands of one family do: the Sequence Engine (chapter 9). -/

namespace Sys2Proof.Machine

/-- STEP_PROGRAM_REG (R253). -/
def execStepProgramReg (ring : Nat) (s : State) : Out :=
  done (runPacket ring (opIs 0x21) oneUnit [(16, 5), (24, 20)] doStepProgram s)

/-- SEQ_SUBMIT (R263). -/
def execSeqSubmit (ring : Nat) (hdr : Option (List Byte)) (pend : Nat) (img : Option (List Byte)) (s : State) : Out :=
  done (runPacket ring (opIs 0x30) oneUnit [(16, 40)] (doSeqSubmit hdr pend img) s)

/-- SEQ_CANCEL (R262). -/
def execSeqCancel (ring evCons : Nat) (s : State) : Out :=
  done (runPacket ring (opIs 0x31) oneUnit [(16, 4)] (doSeqCancel evCons) s)

/-- SEQ_QUERY (R276). -/
def execSeqQuery (ring : Nat) (s : State) : Out := done (runPacket ring (opIs 0x32) oneUnit [(16, 4)] doSeqQuery s)

/-- STREAM_BIND (R246). -/
def execStreamBind (ring evCons : Nat) (s : State) : Out :=
  done (runPacket ring (opIs 0x33) oneUnit [(16, 3), (20, 8), (48, 16)] (doStreamBind evCons) s)

/-- STREAM_CONFIG (R247). -/
def execStreamConfig (ring : Nat) (s : State) : Out :=
  done (runPacket ring (opIs 0x34) oneUnit [(16, 1), (24, 8)] doStreamConfig s)

/-- STREAM_START (R245). -/
def execStreamStart (ring : Nat) (s : State) : Out :=
  done (runPacket ring (fun b => opIs 0x35 b && getLe b 17 1 != 2 && getLe b 17 1 != 3) oneUnit [(16, 2)]
    doStreamStart s)

/-- STREAM_PAUSE (R245). -/
def execStreamPause (ring : Nat) (s : State) : Out :=
  done (runPacket ring (fun b => opIs 0x35 b && getLe b 17 1 == 2) oneUnit [(16, 2)] (doStreamHalt .paused) s)

/-- STREAM_STOP (R245). -/
def execStreamStop (ring : Nat) (s : State) : Out :=
  done (runPacket ring (fun b => opIs 0x35 b && getLe b 17 1 == 3) oneUnit [(16, 2)] (doStreamHalt .stopped) s)

/-- CHANNEL_CONFIG (R251). -/
def execChannelConfig (ring : Nat) (s : State) : Out :=
  done (runPacket ring (opIs 0x36) oneUnit [(16, 21)] doChannelConfig s)

/-- CLASS_CONFIG (R250). -/
def execClassConfig (ring : Nat) (s : State) : Out :=
  done (runPacket ring (opIs 0x37) oneUnit [(16, 3), (20, 8)] doClassConfig s)

/-- STEP_PACKET_COMPLETE (R253). -/
def execStepPacketComplete (ix evCons : Nat) (s : State) : Out := done (whenClocked (stepPacketComplete ix evCons) s)

/-- STEP_BOUNDARY (R256). -/
def execStepBoundary (ix evCons uj : Nat) (s : State) : Out := done (whenClocked (stepBoundary ix evCons uj) s)

/-- STEP_FIRE (R256). -/
def execStepFire (ix evCons : Nat) (s : State) : Out := done (whenOn (stepFire ix evCons) s)

/-- JOURNAL_READ_DONE (R257). -/
def execJournalReadDone (id : Nat) (toks : Option (List Nat)) (evCons : Nat) (s : State) : Out :=
  done (whenClocked (journalReadDone id toks evCons) s)

/-- SWAP_COPY_DONE (R265). -/
def execSwapCopyDone (id : Nat) (ok : Bool) (evCons : Nat) (s : State) : Out :=
  done (whenClocked (swapCopyDone id ok evCons) s)

/-- SWAP_IN_COPY_DONE (R267). -/
def execSwapInCopyDone (id : Nat) (data : Option (List Byte)) (evCons : Nat) (s : State) : Out :=
  done (whenClocked (swapInCopyDone id data evCons) s)

end Sys2Proof.Machine
end

