-- ==== Sys2Proof/Machine/Sweep.lean ====
section
/-! DEFINITION. What the commands of one family do: the Sweep Engine (chapter 10). -/

namespace Sys2Proof.Machine

/-- SWEEP_BIND (R306). -/
def execSweepBind (ring : Nat) (s : State) : Out := done (runPacket ring (opIs 0x40) oneUnit [(16, 3)] doSweepBind s)

/-- SWEEP_CONFIG (R280). -/
def execSweepConfig (ring : Nat) (s : State) : Out :=
  done (runPacket ring (opIs 0x41) oneUnit [(16, 1), (24, 8)] doSweepConfig s)

/-- SWEEP_START (R303). -/
def execSweepStart (ring : Nat) (s : State) : Out :=
  done (runPacket ring (fun b => opIs 0x42 b && (getLe b 17 1 < 2 || 5 < getLe b 17 1)) oneUnit [(16, 2)]
    doSweepStart s)

/-- SWEEP_STOP (R303). -/
def execSweepStop (ring doneCons : Nat) (s : State) : Out :=
  done (runPacket ring (fun b => opIs 0x42 b && getLe b 17 1 == 2) oneUnit [(16, 2)] (doSweepStop doneCons) s)

/-- SWEEP_FLUSH (R303). -/
def execSweepFlush (ring : Nat) (s : State) : Out :=
  done (runPacket ring (fun b => opIs 0x42 b && getLe b 17 1 == 3) oneUnit [(16, 2)] doSweepFlush s)

/-- SNAPSHOT (R303). -/
def execSnapshot (ring doneCons : Nat) (s : State) : Out :=
  done (runPacket ring (fun b => opIs 0x42 b && getLe b 17 1 == 4) oneUnit [(16, 2)] (doSnapshot doneCons) s)

/-- VOX_RESET (R303). -/
def execVoxReset (ring doneCons : Nat) (s : State) : Out :=
  done (runPacket ring (fun b => opIs 0x42 b && getLe b 17 1 == 5) oneUnit [(16, 2)] (doVoxReset doneCons) s)

/-- SWEEP_SUBMIT (R288). -/
def execSweepSubmit (ring : Nat) (host : Option (List Byte)) (s : State) : Out :=
  done (runPacket ring (opIs 0x43) oneUnit [(16, 2), (24, 12)] (doSweepSubmit host) s)

/-- POSE_PUSH (R282). -/
def execPosePush (ring : Nat) (s : State) : Out := done (runPacket ring (opIs 0x44) poseUnits [(16, 2)] doPosePush s)

/-- REVOLUTION_OPEN (R287). -/
def execRevolutionOpen (c doneCons : Nat) (s : State) : Out := done (whenClocked (revolutionOpen c doneCons) s)

/-- SLICE_CLOSE (R285). -/
def execSliceClose (c : Nat) (s : State) : Out := done (whenClocked (sliceClose c) s)

/-- POSE_WAIT_EXPIRY (R292). -/
def execPoseWaitExpiry (c : Nat) (s : State) : Out := done (whenClocked (poseWaitExpiry c) s)

/-- SLICE_PROCESS (R293). -/
def execSliceProcess (doneCons : Nat) (s : State) : Out := done (whenClocked (sliceProcess doneCons) s)

end Sys2Proof.Machine
end

