-- ==== Sys2Proof/Machine/Tensor.lean ====
section
/-! DEFINITION. What the commands of one family do: the Tensor Grid (chapter 5). -/

namespace Sys2Proof.Machine

/-- UTSET (R141). -/
def execUtset (c slot rs1 rs2 : Nat) (s : State) : Out :=
  done (issueTensor c slot .utset (tensorWord 0 0 rs2 rs1) rs1 rs2 s)

/-- UTGET (R140). -/
def execUtget (c slot rd rs1 : Nat) (s : State) : Out := done (utget c slot rd rs1 s)

/-- UTLDW (R142). -/
def execUtldw (c slot rs1 rs2 : Nat) (s : State) : Out :=
  done (issueTensor c slot .utldw (tensorWord 0 1 rs2 rs1) rs1 rs2 s)

/-- UTMMA (R137). -/
def execUtmma (c slot rs1 rs2 : Nat) (s : State) : Out :=
  done (issueTensor c slot .utmma (tensorWord 0 2 rs2 rs1) rs1 rs2 s)

/-- UTST (R142). -/
def execUtst (c slot rs1 rs2 : Nat) (s : State) : Out :=
  done (issueTensor c slot .utst (tensorWord 0 3 rs2 rs1) rs1 rs2 s)

/-- UTLDACC (R142). -/
def execUtldacc (c slot rs1 rs2 : Nat) (s : State) : Out :=
  done (issueTensor c slot .utldacc (tensorWord 1 3 rs2 rs1) rs1 rs2 s)

/-- UTZERO (R142). -/
def execUtzero (c slot rs1 rs2 : Nat) (s : State) : Out := done (utzero c slot rs1 rs2 s)

/-- UTCVT (R130). -/
def execUtcvt (c slot rs1 rs2 : Nat) (s : State) : Out :=
  done (issueTensor c slot .utcvt (tensorWord 0 4 rs2 rs1) rs1 rs2 s)

/-- UTWAIT (R145). -/
def execUtwait (c slot : Nat) (s : State) : Out := done (utwait c slot s)

/-- UTFLAGS (R139). -/
def execUtflags (c slot rd : Nat) (s : State) : Out := done (utflags c slot rd s)

/-- TENSOR_ENTRY_START (R143). -/
def execTensorEntryStart (c : Nat) (s : State) : Out := done (tensorStart c s)

/-- TENSOR_ENTRY_COMPLETE (R143). -/
def execTensorEntryComplete (c pos : Nat) (ecc : Ecc) (s : State) : Out := done (tensorComplete c pos ecc s)

end Sys2Proof.Machine
end

