-- ==== Sys2Proof/Machine/Thermal.lean ====
section
/-! DEFINITION. What the commands of one family do: tray thermal and fluid I/O (chapter 13). -/

namespace Sys2Proof.Machine

/-- TFU_PWM_WRITE (R355). -/
def execTfuPwmWrite (r : Requester) (c v : Nat) (s : State) : Out := done (regWrite {} r (0x2800100 + 0x20 * c) 4 v s)

/-- SPEED_LOOP_TICK (R357). -/
def execSpeedLoopTick (c : Nat) (s : State) : Out := done (whenStandby (speedTick c) s)

/-- TACH_EDGE (R358). -/
def execTachEdge (c d : Nat) (s : State) : Out := done (whenStandby (fanEdge c d) s)

/-- TACH_STALL (R358). -/
def execTachStall (c : Nat) (s : State) : Out := done (whenStandby (tachStall c) s)

/-- AGEING_CHECK (R360). -/
def execAgeingCheck (c : Nat) (s : State) : Out := done (whenStandby (ageingCheck c) s)

/-- VALVE_WRITE (R364). -/
def execValveWrite (r : Requester) (n : Nat) (timing : Bool) (v : Nat) (s : State) : Out :=
  done (regWrite {} r (0x2800300 + 0x20 * n + b2n timing * 4) 4 v s)

/-- VALVE_FAULT (R365). -/
def execValveFault (n : Nat) (s : State) : Out := done (whenStandby (valveFault n) s)

/-- VALVE_FAULT_CLEAR (R365). -/
def execValveFaultClear (r : Requester) (n : Nat) (s : State) : Out :=
  done (regWrite {} r (0x280030C + 0x20 * n) 4 (2 ^ 31) s)

/-- ADC_SAMPLE (R367). -/
def execAdcSample (ix code : Nat) (s : State) : Out := done (whenStandby (adcSample ix code) s)

/-- ROPE_SAMPLE (R370). -/
def execRopeSample (ix sns exc : Nat) (s : State) : Out := done (whenStandby (ropeSample ix sns exc) s)

/-- LEAK_REMOTE (R373). -/
def execLeakRemote (r : Requester) (s : State) : Out := done (regWrite {} r 0x2800018 4 1 s)

/-- LEAK_CLOSE_END (R373). -/
def execLeakCloseEnd (n : Nat) (s : State) : Out := done (whenStandby (leakCloseEnd n) s)

/-- LEAK_CLEAR (R375). -/
def execLeakClear (r : Requester) (s : State) : Out := done (regWrite {} r 0x2800014 4 1 s)

/-- FLOW_UPDATE (R371). -/
def execFlowUpdate (ix n span twoSec d : Nat) (s : State) : Out :=
  done (whenStandby (flowUpdate ix n span twoSec d) s)

end Sys2Proof.Machine
end

