-- ==== Sys2Proof/Machine/Thread.lean ====
section
/-! DEFINITION. What the commands of one family do: launches and threads (chapter 4). -/

namespace Sys2Proof.Machine

/-- LAUNCH (R98). -/
def execLaunch (ring : Nat) (s : State) : Out := done (runPacket ring (opIs 0x20) oneUnit [(16, 48)] doLaunch s)

/-- GROUP_PLACE (R99). -/
def execGroupPlace (o : Nat) (s : State) : Out := done (whenClocked (placeGroup o) s)

/-- GROUP_END (R101). -/
def execGroupEnd (gid : Nat) (s : State) : Out := done (whenClocked (endGroup gid) s)

/-- THREAD_LOAD (R113). -/
def execThreadLoad (c slot rd rs1 : Nat) (imm : Int) (size : Nat) (sg fp : Bool) (len : Nat) (ecc : Ecc)
    (s : State) : Out :=
  done (threadLoad mirrorRead c slot rd rs1 imm size sg fp len ecc s)

/-- THREAD_STORE (R112). -/
def execThreadStore (c slot rs2 rs1 : Nat) (imm : Int) (size : Nat) (fp : Bool) (len : Nat) (s : State) : Out :=
  done (threadStore c slot rs2 rs1 imm size fp len s)

/-- INSTRUCTION_FETCH (R117). -/
def execInstructionFetch (c slot : Nat) (hit : Bool) (ecc : Ecc) (s : State) : Out :=
  done (fetchInsn c slot hit ecc s)

/-- FENCE_I (R117). -/
def execFenceI (c slot : Nat) (s : State) : Out := done (fenceI c slot s)

/-- THREAD_FENCE (R114). -/
def execThreadFence (c slot : Nat) (s : State) : Out := done (threadFence c slot s)

/-- ECALL (R95). -/
def execEcall (c slot kind : Nat) (s : State) : Out := done (threadCall c slot kind s)

/-- CSR_ACCESS (R96). -/
def execCsrAccess (c slot f3 csr rd rs1 : Nat) (s : State) : Out := done (csrAccess c slot f3 csr rd rs1 s)

/-- PAUSE (R93). -/
def execPause (c slot : Nat) (s : State) : Out := done (threadPause c slot s)

/-- UBAR_INIT (R106). -/
def execUbarInit (c slot rs1 rs2 : Nat) (s : State) : Out := done (ubarInit c slot rs1 rs2 s)

/-- UBAR_ARRIVE (R106). -/
def execUbarArrive (c slot rd rs1 : Nat) (s : State) : Out := done (ubarArrive c slot rd rs1 s)

/-- UBAR_WAIT (R106). -/
def execUbarWait (c slot rs1 rs2 : Nat) (s : State) : Out := done (ubarWait c slot rs1 rs2 s)

/-- UBAR_SYNC (R106). -/
def execUbarSync (c slot rs1 : Nat) (s : State) : Out := done (ubarSync c slot rs1 s)

/-- UCOPY (R108). -/
def execUcopy (c slot rs1 rs2 : Nat) (s : State) : Out := done (ucopy c slot rs1 rs2 s)

/-- UCWAIT (R108). -/
def execUcwait (c slot rd rs1 rs2 : Nat) (s : State) : Out := done (ucwait c slot rd rs1 rs2 s)

/-- UCREAD (R108). -/
def execUcread (c slot rd rs1 : Nat) (s : State) : Out := done (ucread c slot rd rs1 s)

/-- UCSET (R108). -/
def execUcset (c slot rs1 rs2 : Nat) (s : State) : Out := done (ucset c slot rs1 rs2 s)

/-- UEND (R101). -/
def execUend (c slot : Nat) (s : State) : Out := done (uend c slot s)

/-- UYIELD (R109). -/
def execUyield (c slot : Nat) (s : State) : Out := done (threadYield c slot s)

/-- UPARK (R110). -/
def execUpark (c slot rd rs1 rs2 : Nat) (ecc : Ecc) (s : State) : Out :=
  done (upark mirrorRead c slot rd rs1 rs2 ecc s)

/-- UPARK_TIMEOUT (R110). -/
def execUparkTimeout (c slot : Nat) (s : State) : Out := done (whenClocked (uparkTimeout c slot) s)

/-- UWAKE (R110). -/
def execUwake (c slot rs1 : Nat) (s : State) : Out := done (uwake c slot rs1 s)

/-- UGRID_ACQ (R105). -/
def execUgridAcq (c slot : Nat) (s : State) : Out := done (ugridAcq c slot s)

/-- UGRID_REL (R105). -/
def execUgridRel (c slot : Nat) (s : State) : Out := done (ugridRel c slot s)

/-- UGRID_TRY (R105). -/
def execUgridTry (c slot rd : Nat) (s : State) : Out := done (ugridTry c slot rd s)

/-- UFENCE_G (R114). -/
def execUfenceG (c slot : Nat) (s : State) : Out := done (ufenceG c slot s)

/-- UAMO (R111). -/
def execUamo (c slot op rd rs1 rs2 : Nat) (dword aq rl : Bool) (ecc : Ecc) (s : State) : Out :=
  done (uamo mirrorRead c slot op rd rs1 rs2 dword aq rl ecc s)

/-- UCAS (R111). -/
def execUcas (c slot rd rs1 rs2 rs3 : Nat) (dword aq rl : Bool) (ecc : Ecc) (s : State) : Out :=
  done (ucas mirrorRead c slot rd rs1 rs2 rs3 dword aq rl ecc s)

/-- LR (R115). -/
def execLr (c slot rd rs1 : Nat) (dword aq rl : Bool) (ecc : Ecc) (s : State) : Out :=
  done (loadReserved c slot rd rs1 dword aq rl ecc s)

/-- SC (R115). -/
def execSc (c slot rd rs1 rs2 : Nat) (dword aq rl : Bool) (s : State) : Out :=
  done (storeConditional c slot rd rs1 rs2 dword aq rl s)

/-- LR_RESERVATION_EXPIRY (R115). -/
def execLrReservationExpiry (c slot : Nat) (s : State) : Out := done (whenClocked (reserveExpiry c slot) s)

/-- SUSPEND (R120). -/
def execSuspend (ring : Nat) (s : State) : Out :=
  done (runPacket ring (opIs 0x22) oneUnit [(16, 6), (24, 16)] doSuspend s)

/-- SUSPEND_SAVE_DONE (R120). -/
def execSuspendSaveDone (o tag : Nat) (s : State) : Out := done (whenClocked (suspendDone o tag) s)

/-- CONTINUE (R122). -/
def execContin (ring : Nat) (s : State) : Out :=
  done (runPacket ring (opIs 0x23) oneUnit [(16, 6), (24, 8)] doContinue s)

/-- CONTINUE_PLACE (R122). -/
def execContinuePlace (o tag : Nat) (s : State) : Out := done (whenClocked (continuePlace o tag) s)

/-- ILLEGAL_INSTRUCTION (R103). -/
def execIllegalInstruction (c slot : Nat) (s : State) : Out := done (threadIllegal c slot s)

end Sys2Proof.Machine
end

