-- ==== Sys2Proof/Machine/Tray.lean ====
section
/-! DEFINITION. What the commands of one family do: presence, identity and the tray SMBus (chapter 16). -/

namespace Sys2Proof.Machine

/-- PRESENCE_CHANGE (R450). -/
def execPresenceChange (n : Nat) (here : Bool) (reads : List (Nat × List (Option (List Byte)))) (s : State) : Out :=
  done (whenStandby (presenceChange n here reads) s)

/-- SITE_VERIFY (R463). -/
def execSiteVerify (n : Nat) (reads : List (Option (List Byte))) (s : State) : Out :=
  done (whenLead (verifySite n reads) s)

/-- VERIFY_CMD (R463). -/
def execVerifyCmd (r : Requester) (reads : List (Nat × List (Option (List Byte)))) (s : State) : Out :=
  done (verifyBusy reads (regWrite {} r 0x2A00014 4 1 s))

/-- VERIFY_PERIOD (R463). -/
def execVerifyPeriod (reads : List (Nat × List (Option (List Byte)))) (s : State) : Out :=
  done (whenLead (verifyAll reads) s)

/-- ROLE (R453). -/
def execRole (byLead : Bool) (s : State) : Out := done (whenIsland (answerRole byLead) s)

/-- CHIP_STATE (R454). -/
def execChipState (byLead : Bool) (s : State) : Out := done (whenIsland (answerState byLead) s)

/-- TSB_LEAK (R453). -/
def execTsbLeak (v : Nat) (s : State) : Out := done (whenIsland (tsbLeak v) s)

/-- QUORUM (R453). -/
def execQuorum (v : Nat) (s : State) : Out := done (whenIsland (tsbQuorum v) s)

/-- TSB_STAGGER (R453). -/
def execTsbStagger (v : Nat) (s : State) : Out := done (whenIsland (tsbStagger v) s)

/-- ALLOC (R453). -/
def execAlloc (code angle : Nat) (s : State) : Out := done (whenIsland (tsbAlloc code angle) s)

/-- PROXY_REQ (R473). -/
def execProxyReq (block : List Byte) (s : State) : Out := done (whenIsland (proxyReq block) s)

/-- PROXY_RSP (R473). -/
def execProxyRsp (s : State) : Out := done (whenIsland (proxyRsp) s)

/-- TRAY_SMBUS_OVER (R455). -/
def execTraySmbusOver (answers : List (Nat × Nat × Option (List Byte))) (s : State) : Out :=
  done (whenIsland (traySmbusOver answers) s)

/-- TRAY_LEAD_SILENCE (R456). -/
def execTrayLeadSilence (s : State) : Out := done (whenIsland (trayLeadSilence) s)

/-- PROXY_TIMEOUT (R473). -/
def execProxyTimeout (s : State) : Out := done (whenIsland (proxyTimeout) s)

/-- OUTBOX_POLL (R473). -/
def execOutboxPoll (pos : Nat) (block : List Byte) (s : State) : Out := done (whenIsland (outboxPoll pos block) s)

end Sys2Proof.Machine
end

