-- ==== Sys2Proof/Machine/Dispatch.lean ====
section
/-! DEFINITION. The meaning of every command, arm by arm. -/

namespace Sys2Proof.Machine

def exec (i : Instr) (s : State) : Host.Outcome State Fault Refusal :=
  match i with
  | .registerWrite cons r off width v => Sys2Proof.Machine.execRegisterWrite cons r off width v s
  | .splitRead r off width => Sys2Proof.Machine.execSplitRead r off width s
  | .splitWrite cons r off v => Sys2Proof.Machine.execSplitWrite cons r off v s
  | .vstbyQualified straps => Sys2Proof.Machine.execVstbyQualified straps s
  | .vstbyFall => Sys2Proof.Machine.execVstbyFall s
  | .vstbyBrownOut => Sys2Proof.Machine.execVstbyBrownOut s
  | .powerUp r => Sys2Proof.Machine.execPowerUp r s
  | .autoOnPowerUp => Sys2Proof.Machine.execAutoOnPowerUp s
  | .regulatorAckTimeout rail => Sys2Proof.Machine.execRegulatorAckTimeout rail s
  | .railUp => Sys2Proof.Machine.execRailUp s
  | .powerStepDelay => Sys2Proof.Machine.execPowerStepDelay s
  | .powerDown r => Sys2Proof.Machine.execPowerDown r s
  | .quiesceDone => Sys2Proof.Machine.execQuiesceDone s
  | .quiesceTimeout => Sys2Proof.Machine.execQuiesceTimeout s
  | .railOff => Sys2Proof.Machine.execRailOff s
  | .railOffWaitExpiry rail => Sys2Proof.Machine.execRailOffWaitExpiry rail s
  | .railNoRise rail => Sys2Proof.Machine.execRailNoRise rail s
  | .railLeftWindow rail => Sys2Proof.Machine.execRailLeftWindow rail s
  | .lastGaspWritten => Sys2Proof.Machine.execLastGaspWritten s
  | .railClear r => Sys2Proof.Machine.execRailClear r s
  | .refclkQualified clk => Sys2Proof.Machine.execRefclkQualified clk s
  | .refclkLost cons clk => Sys2Proof.Machine.execRefclkLost cons clk s
  | .clockHoldExit => Sys2Proof.Machine.execClockHoldExit s
  | .chipRstN => Sys2Proof.Machine.execChipRstN s
  | .pciePerstN => Sys2Proof.Machine.execPciePerstN s
  | .chipReset r => Sys2Proof.Machine.execChipReset r s
  | .chipResetRelease src => Sys2Proof.Machine.execChipResetRelease src s
  | .islandWatchdog => Sys2Proof.Machine.execIslandWatchdog s
  | .islandRestart sigs => Sys2Proof.Machine.execIslandRestart sigs s
  | .thermalTrip sensor => Sys2Proof.Machine.execThermalTrip sensor s
  | .thermtripClear r => Sys2Proof.Machine.execThermtripClear r s
  | .leadCandidateTimeout answers => Sys2Proof.Machine.execLeadCandidateTimeout answers s
  | .rolePoll pos answer => Sys2Proof.Machine.execRolePoll pos answer s
  | .ownerCreate ring => Sys2Proof.Machine.execOwnerCreate ring s
  | .ownerDestroy cons ring => Sys2Proof.Machine.execOwnerDestroy cons ring s
  | .ownerDrainEnd o => Sys2Proof.Machine.execOwnerDrainEnd o s
  | .drainTimeout cons o => Sys2Proof.Machine.execDrainTimeout cons o s
  | .frameGrant ring => Sys2Proof.Machine.execFrameGrant ring s
  | .frameRevoke ring => Sys2Proof.Machine.execFrameRevoke ring s
  | .clusterLease ring => Sys2Proof.Machine.execClusterLease ring s
  | .clusterRelease ring => Sys2Proof.Machine.execClusterRelease ring s
  | .scratchClearDone c => Sys2Proof.Machine.execScratchClearDone c s
  | .map ring => Sys2Proof.Machine.execMap ring s
  | .unmap ring => Sys2Proof.Machine.execUnmap ring s
  | .resume cons ring => Sys2Proof.Machine.execResume cons ring s
  | .windowRead off n ecc => Sys2Proof.Machine.execWindowRead off n ecc s
  | .windowWrite cons off bs => Sys2Proof.Machine.execWindowWrite cons off bs s
  | .remoteRequest cons port ecc bytes => Sys2Proof.Machine.execRemoteRequest cons port ecc bytes s
  | .remoteAnswer cons port bytes => Sys2Proof.Machine.execRemoteAnswer cons port bytes s
  | .requestTimeout cons tag => Sys2Proof.Machine.execRequestTimeout cons tag s
  | .launch ring => Sys2Proof.Machine.execLaunch ring s
  | .groupPlace o => Sys2Proof.Machine.execGroupPlace o s
  | .groupEnd gid => Sys2Proof.Machine.execGroupEnd gid s
  | .threadLoad c slot rd rs1 imm size sg fp len ecc => Sys2Proof.Machine.execThreadLoad c slot rd rs1 imm size sg fp len ecc s
  | .threadStore c slot rs2 rs1 imm size fp len => Sys2Proof.Machine.execThreadStore c slot rs2 rs1 imm size fp len s
  | .instructionFetch c slot hit ecc => Sys2Proof.Machine.execInstructionFetch c slot hit ecc s
  | .fenceI c slot => Sys2Proof.Machine.execFenceI c slot s
  | .threadFence c slot => Sys2Proof.Machine.execThreadFence c slot s
  | .ecall c slot kind => Sys2Proof.Machine.execEcall c slot kind s
  | .csrAccess c slot f3 csr rd rs1 => Sys2Proof.Machine.execCsrAccess c slot f3 csr rd rs1 s
  | .pause c slot => Sys2Proof.Machine.execPause c slot s
  | .ubarInit c slot rs1 rs2 => Sys2Proof.Machine.execUbarInit c slot rs1 rs2 s
  | .ubarArrive c slot rd rs1 => Sys2Proof.Machine.execUbarArrive c slot rd rs1 s
  | .ubarWait c slot rs1 rs2 => Sys2Proof.Machine.execUbarWait c slot rs1 rs2 s
  | .ubarSync c slot rs1 => Sys2Proof.Machine.execUbarSync c slot rs1 s
  | .ucopy c slot rs1 rs2 => Sys2Proof.Machine.execUcopy c slot rs1 rs2 s
  | .ucwait c slot rd rs1 rs2 => Sys2Proof.Machine.execUcwait c slot rd rs1 rs2 s
  | .ucread c slot rd rs1 => Sys2Proof.Machine.execUcread c slot rd rs1 s
  | .ucset c slot rs1 rs2 => Sys2Proof.Machine.execUcset c slot rs1 rs2 s
  | .uend c slot => Sys2Proof.Machine.execUend c slot s
  | .uyield c slot => Sys2Proof.Machine.execUyield c slot s
  | .upark c slot rd rs1 rs2 ecc => Sys2Proof.Machine.execUpark c slot rd rs1 rs2 ecc s
  | .uparkTimeout c slot => Sys2Proof.Machine.execUparkTimeout c slot s
  | .uwake c slot rs1 => Sys2Proof.Machine.execUwake c slot rs1 s
  | .ugridAcq c slot => Sys2Proof.Machine.execUgridAcq c slot s
  | .ugridRel c slot => Sys2Proof.Machine.execUgridRel c slot s
  | .ugridTry c slot rd => Sys2Proof.Machine.execUgridTry c slot rd s
  | .ufenceG c slot => Sys2Proof.Machine.execUfenceG c slot s
  | .uamo c slot op rd rs1 rs2 dword aq rl ecc => Sys2Proof.Machine.execUamo c slot op rd rs1 rs2 dword aq rl ecc s
  | .ucas c slot rd rs1 rs2 rs3 dword aq rl ecc => Sys2Proof.Machine.execUcas c slot rd rs1 rs2 rs3 dword aq rl ecc s
  | .lr c slot rd rs1 dword aq rl ecc => Sys2Proof.Machine.execLr c slot rd rs1 dword aq rl ecc s
  | .sc c slot rd rs1 rs2 dword aq rl => Sys2Proof.Machine.execSc c slot rd rs1 rs2 dword aq rl s
  | .lrReservationExpiry c slot => Sys2Proof.Machine.execLrReservationExpiry c slot s
  | .suspend ring => Sys2Proof.Machine.execSuspend ring s
  | .suspendSaveDone o tag => Sys2Proof.Machine.execSuspendSaveDone o tag s
  | .contin ring => Sys2Proof.Machine.execContin ring s
  | .continuePlace o tag => Sys2Proof.Machine.execContinuePlace o tag s
  | .utset c slot rs1 rs2 => Sys2Proof.Machine.execUtset c slot rs1 rs2 s
  | .utget c slot rd rs1 => Sys2Proof.Machine.execUtget c slot rd rs1 s
  | .utldw c slot rs1 rs2 => Sys2Proof.Machine.execUtldw c slot rs1 rs2 s
  | .utmma c slot rs1 rs2 => Sys2Proof.Machine.execUtmma c slot rs1 rs2 s
  | .utst c slot rs1 rs2 => Sys2Proof.Machine.execUtst c slot rs1 rs2 s
  | .utldacc c slot rs1 rs2 => Sys2Proof.Machine.execUtldacc c slot rs1 rs2 s
  | .utzero c slot rs1 rs2 => Sys2Proof.Machine.execUtzero c slot rs1 rs2 s
  | .utcvt c slot rs1 rs2 => Sys2Proof.Machine.execUtcvt c slot rs1 rs2 s
  | .utwait c slot => Sys2Proof.Machine.execUtwait c slot s
  | .utflags c slot rd => Sys2Proof.Machine.execUtflags c slot rd s
  | .tensorEntryStart c => Sys2Proof.Machine.execTensorEntryStart c s
  | .tensorEntryComplete c pos ecc => Sys2Proof.Machine.execTensorEntryComplete c pos ecc s
  | .descriptorStart ch => Sys2Proof.Machine.execDescriptorStart ch s
  | .moverStep ch ecc host => Sys2Proof.Machine.execMoverStep ch ecc host s
  | .descriptorEnd ch => Sys2Proof.Machine.execDescriptorEnd ch s
  | .moverChainComplete ch => Sys2Proof.Machine.execMoverChainComplete ch s
  | .ceWriteback line => Sys2Proof.Machine.execCeWriteback line s
  | .tc0WindowExpiry res => Sys2Proof.Machine.execTc0WindowExpiry res s
  | .patrolRead tier ecc => Sys2Proof.Machine.execPatrolRead tier ecc s
  | .patrolPeriodExpiry tier => Sys2Proof.Machine.execPatrolPeriodExpiry tier s
  | .hbmStackFail k => Sys2Proof.Machine.execHbmStackFail k s
  | .telemetrySample => Sys2Proof.Machine.execTelemetrySample s
  | .flashErase ok => Sys2Proof.Machine.execFlashErase ok s
  | .hostLinkUp rates lanes => Sys2Proof.Machine.execHostLinkUp rates lanes s
  | .flr fn => Sys2Proof.Machine.execFlr fn s
  | .d3hotEntry fn => Sys2Proof.Machine.execD3hotEntry fn s
  | .d0Return fn => Sys2Proof.Machine.execD0Return fn s
  | .bar2Resize code => Sys2Proof.Machine.execBar2Resize code s
  | .vectorUnmask fn vec => Sys2Proof.Machine.execVectorUnmask fn vec s
  | .atsInvalidation fn => Sys2Proof.Machine.execAtsInvalidation fn s
  | .ringEnable r k v => Sys2Proof.Machine.execRingEnable r k v s
  | .ringDisable r k v => Sys2Proof.Machine.execRingDisable r k v s
  | .doorbell r k tail => Sys2Proof.Machine.execDoorbell r k tail s
  | .ringFetch => Sys2Proof.Machine.execRingFetch s
  | .ringFetchComplete ring e bs => Sys2Proof.Machine.execRingFetchComplete ring e bs s
  | .cqHeadWrite r k v => Sys2Proof.Machine.execCqHeadWrite r k v s
  | .nop ring => Sys2Proof.Machine.execNop ring s
  | .fence ring => Sys2Proof.Machine.execFence ring s
  | .signal ring => Sys2Proof.Machine.execSignal ring s
  | .wait ring => Sys2Proof.Machine.execWait ring s
  | .waitPoll ring e v => Sys2Proof.Machine.execWaitPoll ring e v s
  | .waitTimeout ring => Sys2Proof.Machine.execWaitTimeout ring s
  | .timestamp ring => Sys2Proof.Machine.execTimestamp ring s
  | .copy ring => Sys2Proof.Machine.execCopy ring s
  | .fill ring => Sys2Proof.Machine.execFill ring s
  | .inlineWrite ring => Sys2Proof.Machine.execInlineWrite ring s
  | .flushReadComplete id e => Sys2Proof.Machine.execFlushReadComplete id e s
  | .logCopy ring => Sys2Proof.Machine.execLogCopy ring s
  | .errInject ring => Sys2Proof.Machine.execErrInject ring s
  | .portEnable r cons port => Sys2Proof.Machine.execPortEnable r cons port s
  | .portDisable r cons port => Sys2Proof.Machine.execPortDisable r cons port s
  | .phyTrained cons port lanes => Sys2Proof.Machine.execPhyTrained cons port lanes s
  | .linkStateTimeout cons port => Sys2Proof.Machine.execLinkStateTimeout cons port s
  | .backoffExpiry port => Sys2Proof.Machine.execBackoffExpiry port s
  | .hello port serial peerPort id hasId => Sys2Proof.Machine.execHello port serial peerPort id hasId s
  | .key cons port key sig => Sys2Proof.Machine.execKey cons port key sig s
  | .finished cons port digest tagOk => Sys2Proof.Machine.execFinished cons port digest tagOk s
  | .redigest cons port digest sig => Sys2Proof.Machine.execRedigest cons port digest sig s
  | .flitReceive cons port head payload tagOk uncorr ecc sig => Sys2Proof.Machine.execFlitReceive cons port head payload tagOk uncorr ecc sig s
  | .flitTransmit port => Sys2Proof.Machine.execFlitTransmit port s
  | .replayTimeout cons port => Sys2Proof.Machine.execReplayTimeout cons port s
  | .ackTimer port => Sys2Proof.Machine.execAckTimer port s
  | .idleTimeout cons port => Sys2Proof.Machine.execIdleTimeout cons port s
  | .noSignal cons port => Sys2Proof.Machine.execNoSignal cons port s
  | .probe cons port bytes => Sys2Proof.Machine.execProbe cons port bytes s
  | .probeRsp cons port bytes => Sys2Proof.Machine.execProbeRsp cons port bytes s
  | .probeTimer => Sys2Proof.Machine.execProbeTimer s
  | .lossHoldExpiry cons id => Sys2Proof.Machine.execLossHoldExpiry cons id s
  | .fenceMessage cons port bytes => Sys2Proof.Machine.execFenceMessage cons port bytes s
  | .stage r cons host => Sys2Proof.Machine.execStage r cons host s
  | .commit r cons sigs => Sys2Proof.Machine.execCommit r cons sigs s
  | .commitDtsReached cons sigs => Sys2Proof.Machine.execCommitDtsReached cons sigs s
  | .routeSet r cons id primary alt altEn => Sys2Proof.Machine.execRouteSet r cons id primary alt altEn s
  | .elkFence r cons id => Sys2Proof.Machine.execElkFence r cons id s
  | .unfence r cons id => Sys2Proof.Machine.execUnfence r cons id s
  | .stepProgramReg ring => Sys2Proof.Machine.execStepProgramReg ring s
  | .seqSubmit ring hdr pend img => Sys2Proof.Machine.execSeqSubmit ring hdr pend img s
  | .seqCancel ring evCons => Sys2Proof.Machine.execSeqCancel ring evCons s
  | .seqQuery ring => Sys2Proof.Machine.execSeqQuery ring s
  | .streamBind ring evCons => Sys2Proof.Machine.execStreamBind ring evCons s
  | .streamConfig ring => Sys2Proof.Machine.execStreamConfig ring s
  | .streamStart ring => Sys2Proof.Machine.execStreamStart ring s
  | .streamPause ring => Sys2Proof.Machine.execStreamPause ring s
  | .streamStop ring => Sys2Proof.Machine.execStreamStop ring s
  | .channelConfig ring => Sys2Proof.Machine.execChannelConfig ring s
  | .classConfig ring => Sys2Proof.Machine.execClassConfig ring s
  | .stepPacketComplete ix evCons => Sys2Proof.Machine.execStepPacketComplete ix evCons s
  | .stepBoundary ix evCons uj => Sys2Proof.Machine.execStepBoundary ix evCons uj s
  | .stepFire ix evCons => Sys2Proof.Machine.execStepFire ix evCons s
  | .journalReadDone id toks evCons => Sys2Proof.Machine.execJournalReadDone id toks evCons s
  | .swapCopyDone id ok evCons => Sys2Proof.Machine.execSwapCopyDone id ok evCons s
  | .sweepBind ring => Sys2Proof.Machine.execSweepBind ring s
  | .sweepConfig ring => Sys2Proof.Machine.execSweepConfig ring s
  | .sweepStart ring => Sys2Proof.Machine.execSweepStart ring s
  | .sweepStop ring doneCons => Sys2Proof.Machine.execSweepStop ring doneCons s
  | .sweepFlush ring => Sys2Proof.Machine.execSweepFlush ring s
  | .snapshot ring doneCons => Sys2Proof.Machine.execSnapshot ring doneCons s
  | .voxReset ring doneCons => Sys2Proof.Machine.execVoxReset ring doneCons s
  | .sweepSubmit ring host => Sys2Proof.Machine.execSweepSubmit ring host s
  | .posePush ring => Sys2Proof.Machine.execPosePush ring s
  | .revolutionOpen c doneCons => Sys2Proof.Machine.execRevolutionOpen c doneCons s
  | .sliceClose c => Sys2Proof.Machine.execSliceClose c s
  | .poseWaitExpiry c => Sys2Proof.Machine.execPoseWaitExpiry c s
  | .sliceProcess doneCons => Sys2Proof.Machine.execSliceProcess doneCons s
  | .mainsEdge input d => Sys2Proof.Machine.execMainsEdge input d s
  | .phaseStamp ring => Sys2Proof.Machine.execPhaseStamp ring s
  | .cycleStartMissing c => Sys2Proof.Machine.execCycleStartMissing c s
  | .predictedCycleStart c => Sys2Proof.Machine.execPredictedCycleStart c s
  | .holdoverExpiry c => Sys2Proof.Machine.execHoldoverExpiry c s
  | .channelEnable r c v => Sys2Proof.Machine.execChannelEnable r c v s
  | .eventSet ring => Sys2Proof.Machine.execEventSet ring s
  | .eventClear ring => Sys2Proof.Machine.execEventClear ring s
  | .phaseQuery ring => Sys2Proof.Machine.execPhaseQuery ring s
  | .eventFire ix => Sys2Proof.Machine.execEventFire ix s
  | .stepGateClose ix => Sys2Proof.Machine.execStepGateClose ix s
  | .pulseEnd ix => Sys2Proof.Machine.execPulseEnd ix s
  | .siteInputChange ix high => Sys2Proof.Machine.execSiteInputChange ix high s
  | .clearMsExpiry => Sys2Proof.Machine.execClearMsExpiry s
  | .restoreMsExpiry => Sys2Proof.Machine.execRestoreMsExpiry s
  | .allMissBridge => Sys2Proof.Machine.execAllMissBridge s
  | .siteEnable r v => Sys2Proof.Machine.execSiteEnable r v s
  | .buslockWrite r v => Sys2Proof.Machine.execBuslockWrite r v s
  | .staggerLocalWrite r v => Sys2Proof.Machine.execStaggerLocalWrite r v s
  | .capSet ring => Sys2Proof.Machine.execCapSet ring s
  | .powerQuery ring => Sys2Proof.Machine.execPowerQuery ring s
  | .hostCapWrite r v => Sys2Proof.Machine.execHostCapWrite r v s
  | .capRampTick => Sys2Proof.Machine.execCapRampTick s
  | .brdThrotChange low => Sys2Proof.Machine.execBrdThrotChange low s
  | .quorumWrite q => Sys2Proof.Machine.execQuorumWrite q s
  | .tjSample readings => Sys2Proof.Machine.execTjSample readings s
  | .thermalUpdate => Sys2Proof.Machine.execThermalUpdate s
  | .dutyClampDown imon => Sys2Proof.Machine.execDutyClampDown imon s
  | .dutyClampUp imon => Sys2Proof.Machine.execDutyClampUp imon s
  | .dvfsTick imon vout => Sys2Proof.Machine.execDvfsTick imon vout s
  | .railPowerSample mv ma => Sys2Proof.Machine.execRailPowerSample mv ma s
  | .forecastUpdate => Sys2Proof.Machine.execForecastUpdate s
  | .tfuPwmWrite r c v => Sys2Proof.Machine.execTfuPwmWrite r c v s
  | .speedLoopTick c => Sys2Proof.Machine.execSpeedLoopTick c s
  | .tachEdge c d => Sys2Proof.Machine.execTachEdge c d s
  | .tachStall c => Sys2Proof.Machine.execTachStall c s
  | .ageingCheck c => Sys2Proof.Machine.execAgeingCheck c s
  | .valveWrite r n timing v => Sys2Proof.Machine.execValveWrite r n timing v s
  | .valveFault n => Sys2Proof.Machine.execValveFault n s
  | .valveFaultClear r n => Sys2Proof.Machine.execValveFaultClear r n s
  | .adcSample ix code => Sys2Proof.Machine.execAdcSample ix code s
  | .ropeSample ix sns exc => Sys2Proof.Machine.execRopeSample ix sns exc s
  | .leakRemote r => Sys2Proof.Machine.execLeakRemote r s
  | .leakCloseEnd n => Sys2Proof.Machine.execLeakCloseEnd n s
  | .leakClear r => Sys2Proof.Machine.execLeakClear r s
  | .flowUpdate ix n span twoSec d => Sys2Proof.Machine.execFlowUpdate ix n span twoSec d s
  | .initLeave r v => Sys2Proof.Machine.execInitLeave r v s
  | .initEnter r v => Sys2Proof.Machine.execInitEnter r v s
  | .frameReceive f sof recUp => Sys2Proof.Machine.execFrameReceive f sof recUp s
  | .rxQueueAck r second ix => Sys2Proof.Machine.execRxQueueAck r second ix s
  | .txlogAck r ix => Sys2Proof.Machine.execTxlogAck r ix s
  | .shadowSel r space ix => Sys2Proof.Machine.execShadowSel r space ix s
  | .txLoad r mask => Sys2Proof.Machine.execTxLoad r mask s
  | .txReq r mask => Sys2Proof.Machine.execTxReq r mask s
  | .txAbort r mask => Sys2Proof.Machine.execTxAbort r mask s
  | .frameTransmitDone sof loop => Sys2Proof.Machine.execFrameTransmitDone sof loop s
  | .txError err => Sys2Proof.Machine.execTxError err s
  | .busOffRecovery n => Sys2Proof.Machine.execBusOffRecovery n s
  | .overLengthExpiry => Sys2Proof.Machine.execOverLengthExpiry s
  | .ballStart b sof => Sys2Proof.Machine.execBallStart b sof s
  | .referenceMissing => Sys2Proof.Machine.execReferenceMissing s
  | .takeover => Sys2Proof.Machine.execTakeover s
  | .unsyncTakeover => Sys2Proof.Machine.execUnsyncTakeover s
  | .take r => Sys2Proof.Machine.execTake r s
  | .yield r => Sys2Proof.Machine.execYield r s
  | .rowConfigApply => Sys2Proof.Machine.execRowConfigApply s
  | .election => Sys2Proof.Machine.execElection s
  | .leadOverWork nodes => Sys2Proof.Machine.execLeadOverWork nodes s
  | .referenceHandling f => Sys2Proof.Machine.execReferenceHandling f s
  | .memberStatus f => Sys2Proof.Machine.execMemberStatus f s
  | .trayReport f => Sys2Proof.Machine.execTrayReport f s
  | .allocation f => Sys2Proof.Machine.execAllocation f s
  | .stagger f => Sys2Proof.Machine.execStagger f s
  | .leak f => Sys2Proof.Machine.execLeak f s
  | .allStop f => Sys2Proof.Machine.execAllStop f s
  | .handover r target => Sys2Proof.Machine.execHandover r target s
  | .rowClear r => Sys2Proof.Machine.execRowClear r s
  | .huddleAllStop r => Sys2Proof.Machine.execHuddleAllStop r s
  | .presenceChange n here reads => Sys2Proof.Machine.execPresenceChange n here reads s
  | .siteVerify n reads => Sys2Proof.Machine.execSiteVerify n reads s
  | .verifyCmd r reads => Sys2Proof.Machine.execVerifyCmd r reads s
  | .verifyPeriod reads => Sys2Proof.Machine.execVerifyPeriod reads s
  | .role byLead => Sys2Proof.Machine.execRole byLead s
  | .chipState byLead => Sys2Proof.Machine.execChipState byLead s
  | .tsbLeak v => Sys2Proof.Machine.execTsbLeak v s
  | .quorum v => Sys2Proof.Machine.execQuorum v s
  | .tsbStagger v => Sys2Proof.Machine.execTsbStagger v s
  | .alloc code angle => Sys2Proof.Machine.execAlloc code angle s
  | .proxyReq block => Sys2Proof.Machine.execProxyReq block s
  | .proxyRsp => Sys2Proof.Machine.execProxyRsp s
  | .traySmbusOver answers => Sys2Proof.Machine.execTraySmbusOver answers s
  | .trayLeadSilence => Sys2Proof.Machine.execTrayLeadSilence s
  | .proxyTimeout => Sys2Proof.Machine.execProxyTimeout s
  | .outboxPoll pos block => Sys2Proof.Machine.execOutboxPoll pos block s
  | .mmpReceive src packet => Sys2Proof.Machine.execMmpReceive src packet s
  | .identify => Sys2Proof.Machine.execIdentify s
  | .status => Sys2Proof.Machine.execStatus s
  | .regRead => Sys2Proof.Machine.execRegRead s
  | .regWrite cons => Sys2Proof.Machine.execRegWrite cons s
  | .mmpChipReset => Sys2Proof.Machine.execMmpChipReset s
  | .logRead => Sys2Proof.Machine.execLogRead s
  | .eventCfg => Sys2Proof.Machine.execEventCfg s
  | .eventAck => Sys2Proof.Machine.execEventAck s
  | .eventResend => Sys2Proof.Machine.execEventResend s
  | .topoGet reads => Sys2Proof.Machine.execTopoGet reads s
  | .topoLoad => Sys2Proof.Machine.execTopoLoad s
  | .topoAccept => Sys2Proof.Machine.execTopoAccept s
  | .firRead reads => Sys2Proof.Machine.execFirRead reads s
  | .firWrite reads => Sys2Proof.Machine.execFirWrite reads s
  | .rowConfigLoad => Sys2Proof.Machine.execRowConfigLoad s
  | .fwBlock => Sys2Proof.Machine.execFwBlock s
  | .fwCommit sig => Sys2Proof.Machine.execFwCommit sig s
  | .keySet onCurve => Sys2Proof.Machine.execKeySet onCurve s
  | .ptpExchangeComplete t1 t2 t3 t4 c1 c2 => Sys2Proof.Machine.execPtpExchangeComplete t1 t2 t3 t4 c1 c2 s
  | .ptpAnnounce gm rank => Sys2Proof.Machine.execPtpAnnounce gm rank s
  | .ptpAnnounceTimeout => Sys2Proof.Machine.execPtpAnnounceTimeout s
  | .errorDetect e => Sys2Proof.Machine.execErrorDetect e s
  | .logEntryClose => Sys2Proof.Machine.execLogEntryClose s
  | .flashLogCopy ok => Sys2Proof.Machine.execFlashLogCopy ok s
  | .handlerDone => Sys2Proof.Machine.execHandlerDone s
  | .errAck r cls seq => Sys2Proof.Machine.execErrAck r cls seq s
  | .ackTimeout => Sys2Proof.Machine.execAckTimeout s
  | .lastgaspAck r => Sys2Proof.Machine.execLastgaspAck r s
  | .islandBoot sigs => Sys2Proof.Machine.execIslandBoot sigs s
  | .bootStage cons sigs reads => Sys2Proof.Machine.execBootStage cons sigs reads s
  | .restart r => Sys2Proof.Machine.execRestart r s
  | .confirm r raise => Sys2Proof.Machine.execConfirm r raise s
  | .chipInit ok => Sys2Proof.Machine.execChipInit ok s
  | .hbmTrained mask => Sys2Proof.Machine.execHbmTrained mask s
  | .hostPortReady => Sys2Proof.Machine.execHostPortReady s
  | .packetNotBeforeReached ring => Sys2Proof.Machine.execPacketNotBeforeReached ring s
  | .txNotBeforeReached k => Sys2Proof.Machine.execTxNotBeforeReached k s
  | .hostLinkDown => Sys2Proof.Machine.execHostLinkDown s
  | .swapInCopyDone id data evCons => Sys2Proof.Machine.execSwapInCopyDone id data evCons s
  | .hbmRefreshRateChange k twice => Sys2Proof.Machine.execHbmRefreshRateChange k twice s
  | .illegalInstruction c slot => Sys2Proof.Machine.execIllegalInstruction c slot s
  | .pgvSiteCapWrite r ix v => Sys2Proof.Machine.execPgvSiteCapWrite r ix v s
  | .pgvBoardWrite r v => Sys2Proof.Machine.execPgvBoardWrite r v s
  | .mgpPhyLinkChange up speed v4 v6 => Sys2Proof.Machine.execMgpPhyLinkChange up speed v4 v6 s

end Sys2Proof.Machine
end

