-- ==== Sys2Proof/Machine/Tick.lean ====
section
/-! DEFINITION. What passes while no command waits: one edge of the 100 MHz reference (R15, R16). -/

namespace Sys2Proof.Machine

/-- The rate correction in 0.01 ppm: 100 ppm slow while a backward offset is absorbed, else the trim (R16, R480). -/
def tickRate (s : State) : Int := if s.mgp.ptp.slewing then -10000 else s.mgp.ptp.trim

/-- Device time moves on by 10 ns, one more or one less where the trimmed fraction has grown to a count (R15, R16). -/
def tickDts (s : State) : State :=
  let acc := s.trimAcc + tickRate s
  let extra := Int.tdiv acc 10000000
  let left := s.mgp.ptp.slew - (-extra).toNat
  let p := if s.mgp.ptp.slewing then { s.mgp.ptp with slew := left, slewing := left != 0 } else s.mgp.ptp
  { s with dts := s.dts + (10 + extra).toNat, trimAcc := acc - extra * 10000000, mgp := { s.mgp with ptp := p } }

/-- FCLK cycles of one edge, in thousandths. -/
def tickCycles (s : State) : Nat := if fclkRuns s then s.pgv.fclkMhz * 10 else 0

/-- FCLK counts on, and threads that a PAUSE or UYIELD holds come nearer their end (R93, R96, R109). -/
def tickFclk (s : State) : State :=
  let now := s.fab.fclkMilli + tickCycles s
  let n := now / 1000 - s.fab.fclkMilli / 1000
  { s with fab := { s.fab with
      fclkMilli := now, threads := s.fab.threads.map (fun e => (e.1, e.2.map (fun t => { t with notReady := t.notReady - n }))) } }

/-- One edge of the reference; nothing before VSTBY is qualified. -/
def tick (s : State) : State := if standby s then settle (tickFclk (tickDts s)) else s

end Sys2Proof.Machine
end

