-- ==== Sys2Proof/Safety.lean ====
section
/-! DEFINITION. The terms claims use: canonical memory, requesters that reach every register, resting states. -/

namespace Sys2Proof.Safety

open Sys2Proof.Machine

/-- A requester whose path serves and that names registers by their own offsets: the physical function, the island, the
MMP register path or the mirror (R59, R89). A virtual function's offsets are its own view's (R183). -/
def reaches (s : State) (r : Requester) : Prop := pathOf s r = .serves ∧ ∀ n, r = .fn n → n = 0

/-- A state whose register at `lo` was written without a change of its stored image: all its fields are write-only. -/
def kept (lo : Nat) (s : State) : State := setRaw lo (rawAt s lo) s

/-- A register 32 bits wide that a requester's access reaches, and a value that R6 and R520 let it write there with no
lock in force: `off` is the requester's offset, `lo` the register's own. -/
def writesPlain (s : State) (r : Requester) (off lo : Nat) (d : RegDef) (v : Nat) : Prop :=
  pathOf s r = .serves ∧ viewShut s r = false ∧ accessOffset s r off = some lo ∧ absentStride lo = false ∧
  off % 4 = 0 ∧ findReg lo = some (d, lo) ∧ d.width = 32 ∧ v < 2 ^ 32 ∧ d.readOnly = false ∧ d.reserved v = false ∧
  crossReserved lo (rawAt s lo) v s = false ∧ lockOn lo s = false ∧ ringForeign r lo s = false

/-- The register's fields have taken the value by their access codes (R2). -/
def written (s : State) (lo : Nat) (d : RegDef) (v : Nat) : State :=
  setRaw lo (d.flds.foldl (storeFld false v) (rawAt s lo)) s

/-- The same where a lock may be in force: then no field under it would change (R520). -/
def writesLocked (s : State) (r : Requester) (off lo : Nat) (d : RegDef) (v : Nat) : Prop :=
  pathOf s r = .serves ∧ viewShut s r = false ∧ accessOffset s r off = some lo ∧ absentStride lo = false ∧
  off % 4 = 0 ∧ findReg lo = some (d, lo) ∧ d.width = 32 ∧ v < 2 ^ 32 ∧ d.readOnly = false ∧ d.reserved v = false ∧
  crossReserved lo (rawAt s lo) v s = false ∧ (lockOn lo s && changesRwl d (rawAt s lo) v) = false ∧
  ringForeign r lo s = false

/-- The fields that no lock holds have taken the value. -/
def stored (s : State) (lo : Nat) (d : RegDef) (v : Nat) : State :=
  setRaw lo (d.flds.foldl (storeFld (lockOn lo s) v) (rawAt s lo)) s

/-! Command packets -/

/-- The front packet of a ring has started (R192, R196): it has left the fetched ones and is in flight. -/
def startedBy (s : State) (r : Nat) (p : Packet) (rest : List Packet) : State :=
  updHif (fun h => { h with started := h.started ++ [inflightOfPacket s r p], nextId := h.nextId + 1 })
    (updRing r (fun g => { g with fetched := rest }) s)

/-- The front packet of a ring carries an opcode, R192 lets it start, its owner is ACTIVE, and its header and reserved
bytes are as R197 asks: `size` units, and no byte of the body set outside `fields`. -/
def frontReady (s : State) (r op size : Nat) (fields : List (Nat × Nat)) (p : Packet) (rest : List Packet) : Prop :=
  (ringAt s r).fetched = p :: rest ∧ getLe p.bytes 0 1 = op ∧ canStart s r p = true ∧
  ownerActive s (inflightOfPacket s r p).owner = true ∧
  headerError (inflightOfPacket s r p) p.fetched size fields = none

/-- The packet rows: the ring, which packets are the row's, their size in units, and the body fields they have. -/
def packetRow : Instr → Option (Nat × (List Byte → Bool) × (List Byte → Nat) × List (Nat × Nat))
  | .ownerCreate r => some (r, opIs 0x60, oneUnit, [(16, 1)])
  | .ownerDestroy _ r => some (r, opIs 0x61, oneUnit, [(16, 1)])
  | .frameGrant r => some (r, opIs 0x62, oneUnit, [(16, 2), (20, 8)])
  | .frameRevoke r => some (r, opIs 0x63, oneUnit, [(20, 8)])
  | .clusterLease r => some (r, opIs 0x64, oneUnit, [(16, 1), (48, 16)])
  | .clusterRelease r => some (r, opIs 0x65, oneUnit, [(17, 1), (48, 16)])
  | .map r => some (r, opIs 0x13, oneUnit, [(16, 3), (20, 20)])
  | .unmap r => some (r, opIs 0x14, oneUnit, [(16, 1), (24, 16)])
  | .resume _ r => some (r, opIs 0x5, oneUnit, [(16, 6)])
  | .launch r => some (r, opIs 0x20, oneUnit, [(16, 48)])
  | .suspend r => some (r, opIs 0x22, oneUnit, [(16, 6), (24, 16)])
  | .contin r => some (r, opIs 0x23, oneUnit, [(16, 6), (24, 8)])
  | .fence r => some (r, opIs 0x1, oneUnit, [])
  | .signal r => some (r, opIs 0x2, oneUnit, [(16, 17)])
  | .wait r => some (r, opIs 0x3, oneUnit, [(16, 30)])
  | .timestamp r => some (r, opIs 0x4, oneUnit, [(16, 9)])
  | .copy r => some (r, opIs 0x10, oneUnit, [(16, 34)])
  | .fill r => some (r, opIs 0x11, oneUnit, [(16, 24), (48, 2)])
  | .inlineWrite r => some (r, opIs 0x12, inlineUnits, [(16, 11)])
  | .logCopy r => some (r, opIs 0x70, oneUnit, [(16, 20)])
  | .errInject r => some (r, opIs 0x71, oneUnit, [(16, 3), (24, 8)])
  | .stepProgramReg r => some (r, opIs 0x21, oneUnit, [(16, 5), (24, 20)])
  | .seqSubmit r _ _ _ => some (r, opIs 0x30, oneUnit, [(16, 40)])
  | .seqCancel r _ => some (r, opIs 0x31, oneUnit, [(16, 4)])
  | .seqQuery r => some (r, opIs 0x32, oneUnit, [(16, 4)])
  | .streamBind r _ => some (r, opIs 0x33, oneUnit, [(16, 3), (20, 8), (48, 16)])
  | .streamConfig r => some (r, opIs 0x34, oneUnit, [(16, 1), (24, 8)])
  | .streamStart r => some (r, fun b => opIs 0x35 b && getLe b 17 1 != 2 && getLe b 17 1 != 3, oneUnit, [(16, 2)])
  | .streamPause r => some (r, fun b => opIs 0x35 b && getLe b 17 1 == 2, oneUnit, [(16, 2)])
  | .streamStop r => some (r, fun b => opIs 0x35 b && getLe b 17 1 == 3, oneUnit, [(16, 2)])
  | .channelConfig r => some (r, opIs 0x36, oneUnit, [(16, 21)])
  | .classConfig r => some (r, opIs 0x37, oneUnit, [(16, 3), (20, 8)])
  | .sweepBind r => some (r, opIs 0x40, oneUnit, [(16, 3)])
  | .sweepConfig r => some (r, opIs 0x41, oneUnit, [(16, 1), (24, 8)])
  | .sweepStart r => some (r, fun b => opIs 0x42 b && (getLe b 17 1 < 2 || 5 < getLe b 17 1), oneUnit, [(16, 2)])
  | .sweepStop r _ => some (r, fun b => opIs 0x42 b && getLe b 17 1 == 2, oneUnit, [(16, 2)])
  | .sweepFlush r => some (r, fun b => opIs 0x42 b && getLe b 17 1 == 3, oneUnit, [(16, 2)])
  | .snapshot r _ => some (r, fun b => opIs 0x42 b && getLe b 17 1 == 4, oneUnit, [(16, 2)])
  | .voxReset r _ => some (r, fun b => opIs 0x42 b && getLe b 17 1 == 5, oneUnit, [(16, 2)])
  | .sweepSubmit r _ => some (r, opIs 0x43, oneUnit, [(16, 2), (24, 12)])
  | .posePush r => some (r, opIs 0x44, poseUnits, [(16, 2)])
  | .phaseStamp r => some (r, opIs 0x52, stampUnits, [(16, 2)])
  | .eventSet r => some (r, opIs 0x50, oneUnit, [(16, 10), (28, 4)])
  | .eventClear r => some (r, opIs 0x51, oneUnit, [(16, 2)])
  | .phaseQuery r => some (r, opIs 0x53, oneUnit, [(16, 1)])
  | .capSet r => some (r, opIs 0x58, oneUnit, [(16, 2)])
  | .powerQuery r => some (r, opIs 0x59, oneUnit, [])
  | _ => none

/-! Thread instructions -/

/-- The rows that are an instruction of one thread: its cluster and slot. -/
def threadRow : Instr → Option (Nat × Nat)
  | .threadLoad c slot _ _ _ _ _ _ _ _ => some (c, slot)
  | .threadStore c slot _ _ _ _ _ _ => some (c, slot)
  | .instructionFetch c slot _ _ => some (c, slot)
  | .fenceI c slot => some (c, slot)
  | .threadFence c slot => some (c, slot)
  | .ecall c slot _ => some (c, slot)
  | .csrAccess c slot _ _ _ _ => some (c, slot)
  | .pause c slot => some (c, slot)
  | .ubarInit c slot _ _ => some (c, slot)
  | .ubarArrive c slot _ _ => some (c, slot)
  | .ubarWait c slot _ _ => some (c, slot)
  | .ubarSync c slot _ => some (c, slot)
  | .ucopy c slot _ _ => some (c, slot)
  | .ucwait c slot _ _ _ => some (c, slot)
  | .ucread c slot _ _ => some (c, slot)
  | .ucset c slot _ _ => some (c, slot)
  | .uend c slot => some (c, slot)
  | .uyield c slot => some (c, slot)
  | .upark c slot _ _ _ _ => some (c, slot)
  | .uwake c slot _ => some (c, slot)
  | .ugridAcq c slot => some (c, slot)
  | .ugridRel c slot => some (c, slot)
  | .ugridTry c slot _ => some (c, slot)
  | .ufenceG c slot => some (c, slot)
  | .uamo c slot _ _ _ _ _ _ _ _ => some (c, slot)
  | .ucas c slot _ _ _ _ _ _ _ _ => some (c, slot)
  | .lr c slot _ _ _ _ _ _ => some (c, slot)
  | .sc c slot _ _ _ _ _ _ => some (c, slot)
  | .illegalInstruction c slot => some (c, slot)
  | .utset c slot _ _ => some (c, slot)
  | .utget c slot _ _ => some (c, slot)
  | .utldw c slot _ _ => some (c, slot)
  | .utmma c slot _ _ => some (c, slot)
  | .utst c slot _ _ => some (c, slot)
  | .utldacc c slot _ _ => some (c, slot)
  | .utzero c slot _ _ => some (c, slot)
  | .utcvt c slot _ _ => some (c, slot)
  | .utwait c slot => some (c, slot)
  | .utflags c slot _ => some (c, slot)
  | _ => none

/-- The tensor instructions: those a thread issues only while its group holds the grid (R105). -/
def tensorRow : Instr → Bool
  | .utset .. | .utget .. | .utldw .. | .utmma .. | .utst .. | .utldacc .. | .utzero .. | .utcvt .. | .utwait ..
  | .utflags .. => true
  | _ => false

/-! Management commands -/

/-- The management rows: the command code, which payload lengths it takes, and whether only the tray lead serves it. -/
def mmpRow : Instr → Option (Nat × (Nat → Bool) × Bool)
  | .identify => some (1, sizeIs 0, false)
  | .status => some (2, sizeIs 0, false)
  | .regRead => some (0x10, sizeIs 8, false)
  | .regWrite _ => some (0x11, fun n => decide (8 ≤ n), false)
  | .mmpChipReset => some (0x12, sizeIs 0, false)
  | .logRead => some (0x20, sizeIs 16, false)
  | .eventCfg => some (0x21, sizeIs 24, false)
  | .eventAck => some (0x22, sizeIs 8, false)
  | .topoGet _ => some (0x30, sizeIs 0, true)
  | .topoLoad => some (0x31, fun _ => true, true)
  | .topoAccept => some (0x32, sizeIs 8, true)
  | .firRead _ => some (0x33, sizeIs 8, true)
  | .firWrite _ => some (0x34, sizeIs 264, true)
  | .rowConfigLoad => some (0x40, fun _ => true, true)
  | .fwBlock => some (0x50, fun n => decide (8 ≤ n), false)
  | .fwCommit _ => some (0x51, sizeIs 8, false)
  | .keySet _ => some (0x60, sizeIs 104, false)
  | _ => none

/-- The front request has left the queue, its counter's reserve written first (R470, R472). -/
def takenFrom (s : State) (q : MmpRequest) (rest : List MmpRequest) : State :=
  { s with mgp := { s.mgp with
      queue := rest, reserve := if s.mgp.reserve < reqField q 8 8 then reqField q 8 8 + 2 ^ 20 else s.mgp.reserve } }

/-- The island's firmware or the ROM's recovery loop runs, and the oldest request carries a command of a length. -/
def mmpFront (s : State) (cmd len : Nat) (q : MmpRequest) (rest : List MmpRequest) : Prop :=
  romRuns s = true ∧ s.mgp.queue = q :: rest ∧ reqCommand q = cmd ∧ reqField q 28 2 = len

/-! Between commands -/

/-- Nothing waits in the block: no agent's register write, packet, thread, sweep, request, event or self-fence. -/
def AtRest (s : State) : Prop :=
  s.mirror = [] ∧ s.hif.started = [] ∧ s.fab.threads = [] ∧ s.ptu.flushes = [] ∧
  (∀ c, c < 8 → (sweepAt s c).desc = none) ∧
  (s.fbc.busy = 0 ∧ s.fbc.loading = 0 ∧ s.ptu.overStarts = [] ∧ s.fbc.clkHoldEnd = none ∧ s.fbc.refDue = none) ∧
  s.mgp.queue = [] ∧ s.mgp.events = [] ∧ s.elk.selfFence = false

/-- What holds between commands: agents' register writes have acted (R59); the phase timebase's over-start strobes have
reached the fluid bus (R401); every event of an enabled class has been sent once there is a destination and a key to tag
it with (R475); and a self-fence ends as soon as nothing is outstanding while the link runs (R239). -/
def Settled (s : State) : Prop :=
  s.mirror = [] ∧ s.ptu.overStarts = [] ∧
  (islandRuns s = true → s.mgp.dest.isSome = true → (eventSlot s).isSome = true →
    ∀ e ∈ s.mgp.events, eventEnabled s e.code = true → e.sent = true) ∧
  (s.elk.selfFence = true → linkRuns s = true → s.elk.outstanding ≠ [])

end Sys2Proof.Safety
end

