-- ==== Sys2Proof/Certificates/Slice0/Obligations.lean ====
section
/-! DEFINITION. The statements for the provers, family by family. `settle` is what the block does by itself after a
command; where nothing waits in the block it changes nothing (`RestIsStill`). -/

open Sys2Proof Sys2Proof.Machine Sys2Proof.Safety

/-! Power, clocks and reset (chapter 2) -/

/-- R38, R45, R46: what a power-up and a power-down command do in each state of ISL_PWR_STATE, for every requester that
reaches ISL_PWR_CTRL. A command that starts nothing leaves the whole state as it was. -/
def Obligations.PowerCommandsFollowTheTable : Prop :=
  ∀ (s : State) (r : Requester), reaches s r →
    (s.pwr.st = .off → s.pwr.vstby = .qualified → islandRuns s = true → 2 ≤ s.boot.stage → s.pwr.okRef100 = true →
      s.pwr.fault.valid = false → s.pwr.tripped = false → s.pwr.straps.test = false → flowOk s = true →
      Sys2Proof.Machine.exec (.powerUp r) s = .next (settle { kept 0x2C00100 s with
        out := s.out ++ [.operation 0 false, .operation 1 false, .operation 2 false, .operation 3 false,
          .operation 4 false, .operation 5 false, .operation 6 false]
        pwr := { s.pwr with st := .rampUp, step := 1, rail := 5, phase := .ack, ackWait := [0, 1, 2, 3, 4, 5, 6],
                            heldUp := false, rails := [] } })) ∧
    (s.pwr.st = .off → s.pwr.vstby ≠ .qualified ∨ islandRuns s = false ∨ s.boot.stage < 2 ∨ s.pwr.okRef100 = false ∨
      s.pwr.fault.valid = true ∨ s.pwr.tripped = true ∨ s.pwr.straps.test = true ∨ flowOk s = false →
      Sys2Proof.Machine.exec (.powerUp r) s = .next (settle (kept 0x2C00100 s))) ∧
    (s.pwr.st = .quiesce ∨ s.pwr.st = .rampDown →
      Sys2Proof.Machine.exec (.powerUp r) s =
        .next (settle { kept 0x2C00100 s with pwr := { s.pwr with heldUp := true } })) ∧
    (s.pwr.st = .rampUp ∨ s.pwr.st = .on ∨ s.pwr.st = .forcedOff ∨ s.pwr.st = .lockedOut ∨ s.pwr.st = .tripped →
      Sys2Proof.Machine.exec (.powerUp r) s = .next (settle (kept 0x2C00100 s))) ∧
    (s.pwr.st = .on ∨ s.pwr.st = .rampUp →
      Sys2Proof.Machine.exec (.powerDown r) s = .next (settle (beginQuiesce (kept 0x2C00100 s)))) ∧
    (s.pwr.st ≠ .on → s.pwr.st ≠ .rampUp →
      Sys2Proof.Machine.exec (.powerDown r) s = .next (settle (kept 0x2C00100 s)))

/-- R39: how power-up goes on: every rail of a step up; the gap after it over; a regulator that does not acknowledge; a
rail that does not rise; and AUTO_ON's one power-up of an island boot (R515). -/
def Obligations.PowerUpRunsStepByStep : Prop :=
  ∀ (s : State), standby s = true →
    (∀ n, s.pwr.st = .rampUp → s.pwr.phase = .rising → s.pwr.step = n → n < 6 →
      Sys2Proof.Machine.exec .railUp s = .next (settle { s with pwr := { s.pwr with
        phase := .delay
        rails := (upRails n).foldl (fun t i =>
          Tbl.upd {} t i (fun x => { x with up := true, inWindow := true, off := false })) s.pwr.rails } })) ∧
    (s.pwr.st = .rampUp → s.pwr.phase = .rising → s.pwr.step = 6 → inChipReset s = true →
      ∃ t, Sys2Proof.Machine.exec .railUp s = .next (settle t) ∧ t.pwr.st = .on ∧ t.pwr.step = 0 ∧ t.pwr.rail = 0 ∧
        t.pwr.init = s.pwr.init ∧ t.out = s.out ∧ t.regs = s.regs ∧ t.mem = s.mem ∧ t.elk = s.elk ∧ t.err = s.err ∧
        t.pgv = { s.pgv with energyUj := 0, vcoreSet := 750, vcoreMv := 750 } ∧
        railAt t 0 = { railAt s 0 with up := true, inWindow := true, off := false }) ∧
    (s.pwr.st = .rampUp → s.pwr.phase = .rising → s.pwr.step = 6 → inChipReset s = false →
      ∃ t, Sys2Proof.Machine.exec .railUp s = .next (settle t) ∧ t.pwr.st = .on ∧ t.pwr.step = 0 ∧
        t.pwr.init = .started ∧ t.pwr.fclkStopped = !s.pwr.okRef100 ∧ t.pgv.fclkMhz = fclkMin ∧ t.out = s.out ∧
        t.regs = s.regs ∧ t.mem = s.mem ∧ t.err = s.err ∧
        railAt t 0 = { railAt s 0 with up := true, inWindow := true, off := false }) ∧
    (s.pwr.st = .rampUp → s.pwr.phase = .delay →
      Sys2Proof.Machine.exec .powerStepDelay s = .next (settle { s with
        out := s.out ++ (upRails (s.pwr.step + 1)).flatMap (fun i =>
          (if i = 0 then [Emit.vout 0 750] else []) ++ [.operation i true])
        pwr := { s.pwr with
          step := s.pwr.step + 1, rail := (upRails (s.pwr.step + 1)).getLastD 0, phase := .rising
          rails := (upRails (s.pwr.step + 1)).foldl (fun t i =>
            Tbl.upd {} t i (fun x => { x with enabled := true, off := false })) s.pwr.rails } })) ∧
    (∀ rail, s.pwr.st = .rampUp → s.pwr.phase = .ack → s.pwr.ackWait.contains rail = true →
      Sys2Proof.Machine.exec (.regulatorAckTimeout rail) s = .next (settle (railFault 2 3 rail 1 s))) ∧
    (∀ rail, s.pwr.st = .rampUp → s.pwr.phase = .rising → (upRails s.pwr.step).contains rail = true →
      (railAt s rail).up = false →
      Sys2Proof.Machine.exec (.railNoRise rail) s = .next (settle (railFault 2 3 rail s.pwr.step s))) ∧
    (islandRuns s = true → regBit s 0x2C00100 2 = true → 5 ≤ s.boot.stage → s.pwr.autoOnDone = false → flowOk s = true →
      s.pwr.st = .off → s.pwr.vstby = .qualified → s.pwr.okRef100 = true → s.pwr.fault.valid = false →
      s.pwr.tripped = false → s.pwr.straps.test = false →
      Sys2Proof.Machine.exec .autoOnPowerUp s = .next (settle { s with
        out := s.out ++ [.operation 0 false, .operation 1 false, .operation 2 false, .operation 3 false,
          .operation 4 false, .operation 5 false, .operation 6 false]
        pwr := { s.pwr with st := .rampUp, step := 1, rail := 5, phase := .ack, ackWait := [0, 1, 2, 3, 4, 5, 6],
                            heldUp := false, rails := [], autoOnDone := true } }))

/-- R41–R44: how power-down goes on and what ends it, and R43's end: the record in flash, then LOCKED_OUT, then a clear
by a requester that has read the fault. -/
def Obligations.PowerDownAndRailFaults : Prop :=
  ∀ (s : State), standby s = true →
    (s.pwr.st = .quiesce → s.hif.started = [] → s.elk.selfFence = false →
      Sys2Proof.Machine.exec .quiesceDone s = .next (settle (downSteps [2, 3, 4, 5, 6] (mainLost s)))) ∧
    (s.pwr.st = .quiesce →
      Sys2Proof.Machine.exec .quiesceTimeout s = .next (settle (downSteps [2, 3, 4, 5, 6]
        (mainLost (s.hif.started.foldl (fun t p => finishPkt p.id 0x0501 0 0 t) s))))) ∧
    (∀ n, s.pwr.st = .rampDown → s.pwr.step = n → 2 ≤ n → n ≤ 5 →
      Sys2Proof.Machine.exec .railOff s = .next (settle (downSteps ((run 2 5).filter (fun k => decide (n < k)))
        { s with pwr := { s.pwr with rails := (downRails n).foldl (fun t i =>
            Tbl.upd {} t i (fun x => { x with off := true })) s.pwr.rails } }))) ∧
    (s.pwr.st = .rampDown → s.pwr.step = 6 → s.pwr.heldUp = false →
      Sys2Proof.Machine.exec .railOff s = .next (settle { s with pwr := { s.pwr with
        st := .off, step := 0, rail := 0, mainPwrEn := false, rails := [] } })) ∧
    (∀ rail, s.pwr.st = .rampDown → (downRails s.pwr.step).contains rail = true → (railAt s rail).off = false →
      Sys2Proof.Machine.exec (.railOffWaitExpiry rail) s = .next (settle (railFault 1 1 rail s.pwr.step s))) ∧
    (∀ rail, rail < 7 → s.pwr.st = .on →
      Sys2Proof.Machine.exec (.railLeftWindow rail) s = .next (settle (railFault 3 4 rail 0 s))) ∧
    (∀ rail, rail < 7 → s.pwr.st = .rampUp → (railAt s rail).up = true →
      Sys2Proof.Machine.exec (.railLeftWindow rail) s = .next (settle (railFault 2 4 rail s.pwr.step s))) ∧
    (∀ rail, rail < 7 → s.pwr.st = .quiesce ∨ s.pwr.st = .rampDown → (railAt s rail).enabled = true →
      Sys2Proof.Machine.exec (.railLeftWindow rail) s = .next (settle (railFault 1 2 rail s.pwr.step s))) ∧
    (∀ g rest, s.err.gasp = g :: rest → islandRuns s = true →
      ∃ t, Sys2Proof.Machine.exec .lastGaspWritten s = .next (settle t) ∧ t.err.gasp = rest ∧
        t.err.records = s.err.records ++
          [{ number := s.err.nextRecord, kind := g.kind, body := gaspBytes s g s.err.nextRecord, acked := false }] ∧
        t.err.nextRecord = s.err.nextRecord + 1 ∧ t.err.log = s.err.log ∧ t.regs = s.regs ∧ t.out = s.out ∧
        t.pwr = { s.pwr with st := if g.kind = 2 ∧ s.pwr.st = .forcedOff then .lockedOut else s.pwr.st }) ∧
    (∀ r, reaches s r → s.pwr.st = .lockedOut → s.pwr.fault.valid = true → s.pwr.faultReadBy.contains r = true →
      ∃ t, Sys2Proof.Machine.exec (.railClear r) s = .next (settle t) ∧
        t.pwr = { s.pwr with st := .off, step := 0, rail := 0, fault := {}, faultReadBy := [] } ∧
        (∀ x ∈ t.err.records, x.kind = 2 → x.acked = true) ∧ t.err.log = s.err.log ∧ t.out = s.out ∧
        t.regs = (kept 0x2C00110 s).regs) ∧
    (∀ r, reaches s r → s.pwr.st ≠ .lockedOut ∨ s.pwr.fault.valid = false ∨ s.pwr.faultReadBy.contains r = false →
      Sys2Proof.Machine.exec (.railClear r) s = .next (settle (kept 0x2C00110 s)))

/-- R36, R37, R49, R50, R379: the standby rail and the reference clocks. Qualification starts device time at 0, latches
the straps and leaves every register at its reset value, before the phase channels and the fluid outputs start; only
what stands in flash and fuses lasts. -/
def Obligations.StandbyRailAndReferences : Prop :=
  ∀ (s : State),
    (∀ p : Straps, s.pwr.vstby ≠ .qualified →
      ∃ t, Sys2Proof.Machine.exec (.vstbyQualified p) s = .next (settle (ptuStart (tfuReset t))) ∧ t.dts = 0 ∧
        t.pwr = { vstby := .qualified, straps := { p with pos := p.pos % 4 } } ∧ t.regs = [] ∧ t.mem.cells = [] ∧
        t.mem.owners = [] ∧ t.err.log = [] ∧ t.err.flash = s.err.flash ∧ t.err.records = s.err.records ∧
        t.boot.slots = s.boot.slots ∧ t.boot.svn = s.boot.svn ∧ t.hif = {} ∧ t.ptu = {} ∧ t.sqe = {} ∧ t.swe = {}) ∧
    (∀ p : Straps, s.pwr.vstby = .qualified → Sys2Proof.Machine.exec (.vstbyQualified p) s = .next (settle s)) ∧
    (s.pwr.vstby = .qualified → islandRuns s = true →
      Sys2Proof.Machine.exec .vstbyFall s = .next (settle { s with
        pwr := { s.pwr with vstby := .falling }
        err := { s.err with gasp := s.err.gasp ++ [{ kind := 1, dts := s.dts, cause := none }] } })) ∧
    (s.pwr.vstby = .qualified → islandRuns s = false →
      Sys2Proof.Machine.exec .vstbyFall s = .next (settle { s with pwr := { s.pwr with vstby := .falling } })) ∧
    (standby s = true →
      ∃ t, Sys2Proof.Machine.exec .vstbyBrownOut s = .next (settle t) ∧ t.pwr = {} ∧ t.dts = 0 ∧ t.regs = [] ∧
        t.err.log = [] ∧ t.err.flash = s.err.flash ∧ t.err.records = s.err.records ∧ t.boot.slots = s.boot.slots ∧
        t.boot.svn = s.boot.svn ∧ t.mem.cells = [] ∧ t.hif = {} ∧ t.tmg.topology = s.tmg.topology) ∧
    (standby s = true → s.pwr.okClk25 = true → s.pwr.okRef100 = false →
      Sys2Proof.Machine.exec (.refclkQualified .refclk100) s = .next (settle { s with pwr := { s.pwr with
        okRef100 := true, dtsOnIclk := false
        fclkStopped := if s.pwr.init = .started then false else s.pwr.fclkStopped } })) ∧
    (standby s = true → s.pwr.okClk25 = false → s.fbc.clkHold = true →
      Sys2Proof.Machine.exec (.refclkQualified .islClk25) s = .next (settle { s with
        pwr := { s.pwr with okClk25 := true }
        fbc := { s.fbc with clkHoldEnd := some (s.dts + 1000000) }
        mgp := { s.mgp with phyReleased := s.mgp.phyReleased || decide (6 ≤ s.boot.stage) || s.boot.path != 0 } })) ∧
    (standby s = true → s.pwr.okRef100 = true →
      Sys2Proof.Machine.exec (.refclkLost {} .refclk100) s = .next (settle (logErr
        { cls := 14, cause := 1, sev := if isOn s then sevFatal else sevNotice, source := 0x2C }
        { orReg 0x2C00140 0x100 s with pwr := { s.pwr with
            okRef100 := false, dtsOnIclk := true
            fclkStopped := if isOn s then true else s.pwr.fclkStopped } }))) ∧
    (∀ t, standby s = true → s.fbc.clkHoldEnd = some t →
      Sys2Proof.Machine.exec .clockHoldExit s = .next (settle { s with dts := max s.dts t }))

/-- R52–R54: what a chip reset reaches, from each of its sources: every register of the CHIP and OWNER domains and all
work of the chip; and what it leaves: the rails, the island, device time and the blocks of the standby domain. -/
def Obligations.ChipResetReachesTheChipDomain : Prop :=
  ∀ (s : State), standby s = true →
    ∀ (c : Instr) (bit : Nat) (p : Power),
      (c = .chipRstN ∧ bit = 2 ∧ p = { s.pwr with rstPin := true }) ∨
      (c = .pciePerstN ∧ bit = 4 ∧ p = { s.pwr with perstPin := true }) ∨
      (∃ r, reaches s r ∧ c = .chipReset r ∧ bit = 8 ∧ p = { s.pwr with rstSoft := true }) →
      ∃ t, Sys2Proof.Machine.exec c s = .next (settle t) ∧
        t.pwr = { p with init := .idle, fclkStopped := !s.pwr.okRef100 } ∧
        rawAt t 0x2C00120 = rawAt s 0x2C00120 ||| bit ∧
        (∀ lo d, findReg lo = some (d, lo) → d.dom ≠ .stby → rawAt t lo = resetAt lo % 2 ^ 64) ∧
        (∀ lo d, findReg lo = some (d, lo) → d.dom = .stby → lo ≠ 0x2C00120 → rawAt t lo = rawAt s lo) ∧
        (∀ o, (ownerAt t o).st = .free ∧ (ownerAt t o).key = none ∧ (ownerAt t o).parks = []) ∧
        t.hif.started = [] ∧ t.hif.rings = [] ∧ t.fab = {} ∧ t.mov = {} ∧ t.sqe = {} ∧ t.swe = {} ∧
        t.mem.leases = [] ∧ t.mem.cells = s.mem.cells ∧ t.elk.outstanding = [] ∧ t.elk.selfFence = false ∧
        t.err.log = s.err.log ∧ t.err.classes = [] ∧ t.err.isolated = false ∧
        t.dts = s.dts ∧ t.tfu = s.tfu ∧ t.fbc = s.fbc ∧ t.tmg = s.tmg ∧ t.hud = s.hud ∧ t.mgp = s.mgp ∧
        t.boot = s.boot ∧ t.out = s.out ∧ t.ptu.chans = s.ptu.chans

/-- R43, R54–R56, R502, R457: the release of a chip reset, the forced shutdown's and the thermal trip's effects, the
island's watchdog and return, and the tray lead's role. -/
def Obligations.ResetReleaseTripAndIsland : Prop :=
  ∀ (s : State),
    (∀ src, inChipReset s = true → inChipReset { s with pwr := setReset src false s.pwr } = true ∨ s.pwr.st ≠ .on →
      Sys2Proof.Machine.exec (.chipResetRelease src) s = .next (settle { s with pwr := setReset src false s.pwr })) ∧
    (∀ src, inChipReset s = true → inChipReset { s with pwr := setReset src false s.pwr } = false → s.pwr.st = .on →
      ∃ t, Sys2Proof.Machine.exec (.chipResetRelease src) s = .next (settle t) ∧
        t.pwr = { setReset src false s.pwr with init := .started, fclkStopped := !s.pwr.okRef100 } ∧
        t.pgv.fclkMhz = fclkMin ∧ t.mem = s.mem ∧ t.regs = s.regs ∧
        (∀ p, p < 4 → regBit s (0x2000000 + p * 0x100) 31 = true →
          (if p < 2 then s.pwr.okElk0 else s.pwr.okElk1) = true → (portAt t p).st = .phy)) ∧
    (∀ kind cause rail step : Nat, rail < 7 →
      let t := railFault kind cause rail step s
      t.pwr.st = .forcedOff ∧ t.pwr.step = step ∧ t.pwr.rail = rail ∧ t.pwr.mainPwrEn = false ∧ t.pwr.heldUp = false ∧
      t.pwr.fault = { valid := true, kind, step, rail, cause } ∧ t.pwr.init = .idle ∧
      (∀ i, i < 7 → (railAt t i).enabled = false ∧ (railAt t i).up = false) ∧
      bitOf (rawAt t 0x2C00120) 7 = true ∧ t.hif.started = [] ∧ t.mem.cells = [] ∧ t.dts = s.dts ∧ t.boot = s.boot ∧
      ∃ x, t.err.gasp = s.err.gasp ++ x ∧ x ≠ []) ∧
    (∀ sensor, standby s = true → s.pwr.tripped = false →
      ∃ t, Sys2Proof.Machine.exec (.thermalTrip sensor) s = .next (settle t) ∧ t.pwr.tripped = true ∧
        t.pwr.st = .tripped ∧ t.pwr.tripSensor = sensor % 256 ∧ t.pwr.tripDts = s.dts ∧ t.pwr.mainPwrEn = false ∧
        t.pwr.rails = [] ∧ t.pwr.heldUp = false ∧ bitOf (rawAt t 0x2C00120) 6 = true ∧ t.hif.started = [] ∧
        t.mem.cells = [] ∧ t.dts = s.dts ∧ t.tfu = s.tfu ∧ thermtripLow t = true ∧ chipFaultLow t = true ∧
        (∃ x, t.err.gasp = s.err.gasp ++ x ∧ x ≠ [])) ∧
    (∀ r, reaches s r → s.pwr.tripped = true → s.pwr.tripDts + 10000000000 ≤ s.dts → s.pwr.fault.valid = false →
      Sys2Proof.Machine.exec (.thermtripClear r) s = .next (settle { kept 0x2C00150 s with
        pwr := { s.pwr with tripped := false, st := .off, step := 0, rail := 0 } })) ∧
    (∀ r, reaches s r → s.pwr.tripped = false ∨ s.dts < s.pwr.tripDts + 10000000000 →
      Sys2Proof.Machine.exec (.thermtripClear r) s = .next (settle (kept 0x2C00150 s))) ∧
    (romRuns s = true →
      ∃ t, Sys2Proof.Machine.exec .islandWatchdog s = .next (settle t) ∧
        t.pwr = { s.pwr with islandUp := false, restarting := true, autoOnDone := false
                             initInterrupted := s.pwr.initInterrupted || initRuns s } ∧
        t.boot = { s.boot with stage := 1 } ∧ bitOf (rawAt t 0x2C00120) 5 = true ∧ t.mem.cells = s.mem.cells ∧
        t.fab = s.fab ∧ t.elk = s.elk ∧ t.tfu = s.tfu ∧ t.fbc = s.fbc ∧ t.dts = s.dts) ∧
    (∀ sigs, standby s = true → s.pwr.islandUp = false → s.pwr.restarting = true → s.pwr.initInterrupted = false →
      Sys2Proof.Machine.exec (.islandRestart sigs) s = .next (settle (reschedule
        (((romBoot sigs s).hif.started.filter (fun p => p.wait == .island)).foldl
          (fun t p => finishPkt p.id 0x0F01 0 0 t) { romBoot sigs s with
            pwr := { (romBoot sigs s).pwr with initInterrupted := false } })))) ∧
    (∀ answers, islandRuns s = true → 2 ≤ s.boot.stage → s.tmg.settled = false → s.pwr.straps.lead = true →
      s.tmg.role = 1 → (∀ a ∈ answers, a.1 = s.pwr.straps.pos ∨ bitOf a.2 2 = false) →
      ∃ t, Sys2Proof.Machine.exec (.leadCandidateTimeout answers) s = .next (settle t) ∧
        t.tmg = { s.tmg with settled := true, role := 2, conflict := false } ∧
        t.dts = max s.dts (s.boot.bootDts + 2000000000) ∧ t.regs = s.regs ∧ t.fbc = s.fbc) ∧
    (∀ pos answer, islandRuns s = true → s.tmg.role = 1 ∨ isTrayLead s = true → pos ≠ s.pwr.straps.pos →
      bitOf answer 2 = true →
      Sys2Proof.Machine.exec (.rolePoll pos answer) s = .next (settle (giveUpRole s))) ∧
    (∀ pos answer, islandRuns s = true → pos = s.pwr.straps.pos ∨ bitOf answer 2 = false →
      Sys2Proof.Machine.exec (.rolePoll pos answer) s = .next (settle s))

/-! Registers (chapters 0, 1 and 3) -/

/-- R4: a bit that no field of a register covers reads 0, for every register 32 bits wide and every requester whose
access reaches it; and a whole read of a register 64 bits wide likewise. -/
def Obligations.ReservedFieldsReadZero : Prop :=
  ∀ (s : State) (r : Requester) (off lo : Nat) (d : RegDef), pathOf s r = .serves → viewShut s r = false →
    accessOffset s r off = some lo → absentStride lo = false → findReg lo = some (d, lo) →
    (d.width = 32 ∧ off % 4 = 0 ∨ d.width = 64 ∧ off % 8 = 0) →
    ∃ v t, Sys2Proof.Machine.exec (.splitRead r off (d.width / 8)) s =
        .next (settle (emit (.answer r off (.ok v)) t)) ∧
      ∀ i, (∀ f ∈ d.flds, i < f.lo ∨ f.hi < i) → v.testBit i = false

/-- R6 and R520: how a write of a whole register is judged (the message RAM's words are R387's): a register whose fields
are all RO or reserved is left alone; a reserved encoding, judged first, leaves the register as it was and is logged
CFG_RESERVED; a lock keeps the RWL fields, every other field acts by its own code, and only a write that would change an
RWL field is logged CFG_LOCKED. SQE_CTRL.LOCK, once 1, stays. -/
def Obligations.RegisterWritesAreJudged : Prop :=
  ∀ (s : State) (cons : Cons) (r : Requester) (off lo n v : Nat) (d : RegDef), pathOf s r = .serves →
    viewShut s r = false → accessOffset s r off = some lo → absentStride lo = false → findReg lo = some (d, lo) →
    (d.width = 32 ∧ off % 4 = 0 ∧ n = 4 ∨ d.width = 64 ∧ off % 8 = 0 ∧ n = 8) → v < 2 ^ (8 * n) →
    ringForeign r lo s = false → lo < 0x2908000 ∨ 0x290C000 ≤ lo →
    (d.readOnly = true → Sys2Proof.Machine.exec (.registerWrite cons r off n v) s = .next (settle s)) ∧
    (d.readOnly = false → d.reserved v = true ∨ crossReserved lo (rawAt s lo) v s = true →
      Sys2Proof.Machine.exec (.registerWrite cons r off n v) s = .next (settle (logErr
        { cls := 0, cause := 1, sev := sevNotice, addr := off, addrKind := 4, requester := r.code
          source := if lo < 0x1_0000_0000 then lo / 0x100000 else 8 } s))) ∧
    (d.readOnly = false → d.reserved v = false → crossReserved lo (rawAt s lo) v s = false →
      let new := d.flds.foldl (storeFld (lockOn lo s) v) (rawAt s lo)
      ∃ t, (t = if lockOn lo s = true ∧ changesRwl d (rawAt s lo) v = true then logErr
            { cls := 0, cause := 2, sev := sevNotice, addr := off, addrKind := 4, requester := r.code
              source := if lo < 0x1_0000_0000 then lo / 0x100000 else 8 } s else s) ∧
        Sys2Proof.Machine.exec (.registerWrite cons r off n v) s = .next (settle
          (writeHook cons r lo (rawAt s lo) v (lockOn lo s)
            (setRaw lo (if lo = 0x2200000 ∧ bitOf (rawAt s lo) 31 = true then setFld new 31 31 1 else new) t))))

/-- R2: what a stored register then holds, field by field: an RW field takes the value written, an RWL field only while
its lock is 0, a W1C field loses the bits written 1, and an RO or WO field keeps what it held. -/
def Obligations.FieldsActByTheirCodes : Prop :=
  ∀ (locked : Bool) (new acc : Nat) (f g : Fld), f.lo ≤ f.hi → g.lo ≤ g.hi →
    (f.acc = .rw → fld (storeFld locked new acc f) f.hi f.lo = fld new f.hi f.lo) ∧
    (f.acc = .rwl → fld (storeFld locked new acc f) f.hi f.lo =
      if locked then fld acc f.hi f.lo else fld new f.hi f.lo) ∧
    (f.acc = .w1c → ∀ i, f.lo ≤ i → i ≤ f.hi →
      (storeFld locked new acc f).testBit i = (acc.testBit i && !(new.testBit i))) ∧
    (f.acc = .ro ∨ f.acc = .wo → storeFld locked new acc f = acc) ∧
    (f.hi < g.lo ∨ g.hi < f.lo → fld (storeFld locked new acc f) g.hi g.lo = fld acc g.hi g.lo)

/-- R23: every CAP register is 32 bits wide, RO and in the STBY domain, but for CAP_SERIAL, which is 64 bits wide; a
write to the CAP block, listed or not, has no effect and logs nothing; an offset that is not listed reads 0, and the
listed ones read what the tables of chapter 1 give. -/
def Obligations.CapBlockIsReadOnly : Prop :=
  (∀ off lo d, off < 0x100000 → findReg off = some (d, lo) →
    d.readOnly = true ∧ d.dom = .stby ∧ d.width = if lo = 8 then 64 else 32) ∧
  (∀ (s : State) (cons : Cons) (r : Requester) (off v : Nat), reaches s r → off < 0x100000 →
    (off % 4 = 0 → Sys2Proof.Machine.exec (.registerWrite cons r off 4 v) s = .next (settle s)) ∧
    (off % 8 = 0 → Sys2Proof.Machine.exec (.registerWrite cons r off 8 v) s = .next (settle s))) ∧
  (∀ (s : State) (r : Requester) (off : Nat), reaches s r → off < 0x100000 → off % 4 = 0 → findReg off = none →
    Sys2Proof.Machine.exec (.splitRead r off 4) s = .next (settle (emit (.answer r off (.ok 0)) s))) ∧
  (∀ (s : State) (r : Requester), reaches s r →
    ∀ p ∈ [(0x00, 0x004C4E46), (0x04, 0xE1800B00), (0x10, 0x01000100), (0x20, 0x0080040C), (0x24, 0x08800404),
        (0x28, 0x00B4A028), (0x30, 0x10000200), (0x34, 0x08182580), (0x38, 0x1030300F), (0x40, 0x06103F40),
        (0x44, 0x80040400), (0x50, 0x41040500), (0x60, 0x8710164A), (0x70, 0x08101000), (0x80, 0x83320100),
        (0x90, 0x05DC00FA), (0x94, 0x69731005), (0xA0, 0x6284200C), (0xB0, 0x01402013), (0xC0, 0x03100403),
        (0xD0, 0x0000FFFF)],
      Sys2Proof.Machine.exec (.splitRead r p.1 4) s = .next (settle (emit (.answer r p.1 (.ok p.2)) s)))

/-- R89 and R90: the split accesses of a register 64 bits wide, for every requester: what a read of each word returns
and what it leaves in the requester's read holding register; what a write of each word does; and the whole accesses. -/
def Obligations.SplitAccessesHoldAWord : Prop :=
  ∀ (s : State) (r : Requester) (off lo : Nat) (d : RegDef), pathOf s r = .serves → viewShut s r = false →
    off % 8 = 0 → accessOffset s r off = some lo → accessOffset s r (off + 4) = some (lo + 4) →
    absentStride lo = false → absentStride (lo + 4) = false → findReg lo = some (d, lo) →
    findReg (lo + 4) = some (d, lo) → d.width = 64 →
    let x := d.shown (regImage r s lo)
    (Sys2Proof.Machine.exec (.splitRead r off 4) s = .next (settle (emit (.answer r off (.ok (x % 2 ^ 32)))
      { readEffect r lo s with hif := { (readEffect r lo s).hif with
          readHold := Tbl.set none s.hif.readHold (holdKey r) (some ⟨lo, x / 2 ^ 32⟩) } }))) ∧
    (Sys2Proof.Machine.exec (.splitRead r (off + 4) 4) s = .next (settle (emit (.answer r (off + 4) (.ok
      (match Tbl.get none s.hif.readHold (holdKey r) with
        | some h => if h.off = lo then h.word else x / 2 ^ 32
        | none => x / 2 ^ 32))) (readEffect r lo s)))) ∧
    (Sys2Proof.Machine.exec (.splitRead r off 8) s =
      .next (settle (emit (.answer r off (.ok x)) (readEffect r lo s)))) ∧
    (∀ cons v, d.readOnly = false → v < 2 ^ 32 →
      Sys2Proof.Machine.exec (.splitWrite cons r off v) s = .next (settle { s with hif := { s.hif with
        writeHold := Tbl.set none s.hif.writeHold (holdKey r) (some ⟨lo, v⟩) } })) ∧
    (∀ cons v, d.readOnly = false → v < 2 ^ 32 →
      Sys2Proof.Machine.exec (.splitWrite cons r (off + 4) v) s = .next (settle (commitReg cons r off d lo
        ((match Tbl.get none s.hif.writeHold (holdKey r) with
          | some h => if h.off = lo then h.word else rawAt s lo % 2 ^ 32
          | none => rawAt s lo % 2 ^ 32) + v * 2 ^ 32) s))) ∧
    (∀ cons v, v < 2 ^ 64 →
      Sys2Proof.Machine.exec (.registerWrite cons r off 8 v) s = .next (settle (commitReg cons r off d lo v s)))

/-! Command packets, owners and addresses (chapters 3 and 7) -/

/-- R7, R192, R197: what every packet row does before its own effect. Nothing happens where the ring has no packet,
where the front one is not the row's, or where R192 holds it. A packet of an owner that is not ACTIVE ends OWNER_GONE
0x0801; one whose header is wrong ends in a violation, judged in the order SIZE, FLAGS and RCS, NOT_BEFORE, owner,
reserved bytes. The order is the model's reading (log entry 62). -/
def Obligations.PacketsAreJudgedBeforeTheyRun : Prop :=
  (∀ (c : Instr) (r : Nat) (sel : List Byte → Bool) (size : List Byte → Nat) (fields : List (Nat × Nat)),
    packetRow c = some (r, sel, size, fields) → ∀ (s : State),
      ((ringAt s r).fetched = [] → Sys2Proof.Machine.exec c s = .next (settle s)) ∧
      (∀ p rest, (ringAt s r).fetched = p :: rest → sel p.bytes = false ∨ canStart s r p = false →
        Sys2Proof.Machine.exec c s = .next (settle s)) ∧
      (∀ p rest, (ringAt s r).fetched = p :: rest → sel p.bytes = true → canStart s r p = true →
        ownerActive s (inflightOfPacket s r p).owner = false →
        Sys2Proof.Machine.exec c s = .next (settle (finishPkt s.hif.nextId 0x0801 0 0 (startedBy s r p rest)))) ∧
      (∀ p rest st, (ringAt s r).fetched = p :: rest → sel p.bytes = true → canStart s r p = true →
        ownerActive s (inflightOfPacket s r p).owner = true →
        headerError (inflightOfPacket s r p) p.fetched (size p.bytes) fields = some st →
        Sys2Proof.Machine.exec c s = .next (settle (finishPkt s.hif.nextId st 0 0 (startedBy s r p rest))))) ∧
  (∀ (q : Inflight) (fetched size : Nat) (fields : List (Nat × Nat)),
    headerError q fetched size fields =
      if getLe q.bytes 2 1 ≠ size then some 0x0304
      else if 8 ≤ q.flags ∨ (q.signal = true ∧ 2 ≤ getLe q.bytes 3 1) ∨ (q.signal = false ∧ getLe q.bytes 3 1 ≠ 0) then
        some 0x0302
      else if fetched + 2 ^ 36 < getLe q.bytes 8 8 then some 0x0305
      else if owner0Only q.opcode = true ∧ q.owner ≠ 0 then some 0x0328
      else if bodyClear q.bytes fields = false then some 0x0303
      else none) ∧
  (∀ (b : List Byte) (fields : List (Nat × Nat)), bodyClear b fields = true ↔
    ∀ i, 16 ≤ i → i < 64 → (∃ f ∈ fields, f.1 ≤ i ∧ i < f.1 + f.2) ∨ getLe b i 1 = 0)

/-- R76–R79, R83, R84: an owner is created with a fresh key and the next key generation; its destruction starts, ends
when nothing of it is outstanding, or is forced at its limit; and a park is resumed. -/
def Obligations.OwnersComeAndGo : Prop :=
  (∀ (s : State) (r : Nat) (p : Packet) (rest : List Packet), frontReady s r 0x60 1 [(16, 1)] p rest →
    islandRuns s = true →
    let t := startedBy s r p rest
    let o := getLe p.bytes 16 1
    (0 < o → o < 64 → (ownerAt t o).st = .free → s.mem.rngOk = true →
      Sys2Proof.Machine.exec (.ownerCreate r) s = .next (settle (finishPkt s.hif.nextId 0 0
        (((ownerAt t o).keyGen + 1) % 1024) (updOwner o (fun w => { w with
          st := .active, keyGen := ((ownerAt t o).keyGen + 1) % 1024, key := some s.mem.nextKey, root := 0, parks := []
          fringProd := 0, destroyId := none, forced := 0 })
          { resetOwnerRegs o t with mem := { t.mem with nextKey := s.mem.nextKey + 1 } })))) ∧
    (0 < o → o < 64 → (ownerAt t o).st ≠ .free →
      Sys2Proof.Machine.exec (.ownerCreate r) s = .next (settle (finishPkt s.hif.nextId 0x0225 0 0 t))) ∧
    (o = 0 ∨ 64 ≤ o →
      Sys2Proof.Machine.exec (.ownerCreate r) s = .next (settle (finishPkt s.hif.nextId 0x0303 0 0 t)))) ∧
  (∀ (s : State) (cons : Cons) (r : Nat) (p : Packet) (rest : List Packet), frontReady s r 0x61 1 [(16, 1)] p rest →
    islandRuns s = true → 0 < getLe p.bytes 16 1 → getLe p.bytes 16 1 < 64 → ownerActive s (getLe p.bytes 16 1) = true →
    let o := getLe p.bytes 16 1
    let t := updOwner o (fun w => { w with st := .draining, destroyId := some s.hif.nextId, forced := 0 })
      (updPkt s.hif.nextId (fun q => { q with wait := .islandWork }) (startedBy s r p rest))
    Sys2Proof.Machine.exec (.ownerDestroy cons r) s = .next (settle (unbindWindow o
      (updOwner o (fun w => { w with parks := [] }) (sweepsGone o cons.sweeps (streamsGone o cons.streams
        (endParked o (stopOwner o 0x0801 (((List.range 1024).filter (fun k => ringOwner t k == some o)).foldl
          (fun u k => cancelFetched k 0x0801 u) t)))))))) ) ∧
  (∀ (s : State) (o id : Nat), fclkRuns s = true → islandRuns s = true → (ownerAt s o).st = .draining →
    (ownerAt s o).destroyId = some id → (ownerAt s o).key.isSome = true → ownerBusy s o = false →
    (∀ l ∈ s.mem.leases, l.2.owner ≠ some o) →
    Sys2Proof.Machine.exec (.ownerDrainEnd o) s = .next (settle (destroyDone o id (resetOwnerRegs o (ptuOwnerGone o
      (updOwner o (fun w => { w with key := none, root := 0, parks := [], fringProd := 0 })
        { s with mem := { s.mem with
            grants := s.mem.grants.filter (fun g => match g.2 with
              | some x => x.owner != o
              | none => true)
            leaves := s.mem.leaves.filter (·.owner != o)
            tables := s.mem.tables.filter (·.owner != o) } })))))) ∧
  (∀ (s : State) (cons : Cons) (o : Nat), fclkRuns s = true → islandRuns s = true → (ownerAt s o).st = .draining →
    let chains := s.mov.chans.flatMap (fun c => (c.2.filter (·.owner == o)).map (fun x => (c.1, x)))
    let pkts := s.hif.started.filter (fun q => q.owner == o && q.wait != .event)
    let t := chains.foldl (fun t x => match (chainsAt t x.1).find? (·.cid == x.2.cid) with
      | some c => finishChain x.1 c 0x0802 t
      | none => t) (completeAll cons (·.owner == o) 0x0802 s)
    ∃ n, pkts.length ≤ n ∧ n ≤ pkts.length + chains.length + s.elk.outstanding.length ∧
      Sys2Proof.Machine.exec (.drainTimeout cons o) s = .next (settle (updOwner o
        (fun w => { w with forced := w.forced + n }) (pkts.foldl (fun u q => finishPkt q.id 0x0802 0 0 u) t)))) ∧
  (∀ (s : State) (cons : Cons) (r : Nat) (p : Packet) (rest : List Packet), frontReady s r 0x05 1 [(16, 6)] p rest →
    let t := startedBy s r p rest
    let o := getLe p.bytes 21 1
    let named : Park → Bool := fun k => k.recorded.isNone && (getLe p.bytes 16 4 == 0xFFFFFFFF || k.token == getLe p.bytes 16 4)
    let l := (ownerAt t o).parks.filter named
    getLe p.bytes 20 1 < 2 → o < 64 → ownerActive s o = true →
    ((inflightOfPacket s r p).owner = 0 ∨ (inflightOfPacket s r p).owner = o) →
    (l ≠ [] → Sys2Proof.Machine.exec (.resume cons r) s = .next (settle (finishPkt s.hif.nextId 0 0 l.length
      (l.foldl (fun u k => resumePark cons o (getLe p.bytes 20 1 == 1) k u)
        (updOwner o (fun w => { w with parks := w.parks.filter (fun k => !(named k)) }) t))))) ∧
    (l = [] → Sys2Proof.Machine.exec (.resume cons r) s = .next (settle (finishPkt s.hif.nextId 0x0020 0 0 t))))

/-- R66, R67: FRAME_GRANT assigns a run of free frames and changes no other grant; it is refused whole where one of them
is assigned. FRAME_REVOKE frees a run whoever holds it, and is refused whole where one of them is mapped or holds a live
table page. RESULT1 is the frames changed.
R81, R82: CLUSTER_LEASE gives every named cluster that its owner does not hold and waits for their clears; it is
refused whole where another owner holds one. CLUSTER_RELEASE frees the leased ones at once and is refused where one has
resident groups and FORCE is 0. A clear that ends zeroes the scratch and completes what waited for it alone. -/
def Obligations.FramesAndClustersAreGivenOut : Prop :=
  (∀ (s : State) (r : Nat) (p : Packet) (rest : List Packet), islandRuns s = true →
     let t := startedBy s r p rest
     let first := getLe p.bytes 20 4
     let n := getLe p.bytes 24 4
     (frontReady s r 0x62 1 [(16, 2), (20, 8)] p rest → 0 < getLe p.bytes 16 1 → getLe p.bytes 16 1 < 64 →
       getLe p.bytes 17 1 < 2 → 0 < n → first + n ≤ 99328 → ownerActive s (getLe p.bytes 16 1) = true →
       ((∀ g ∈ s.mem.grants, g.2.isSome = true → g.1 < first ∨ first + n ≤ g.1) →
         ∃ u, Sys2Proof.Machine.exec (.frameGrant r) s = .next (settle (finishPkt s.hif.nextId 0 0 n u)) ∧
           u = { t with mem := { t.mem with grants := u.mem.grants } } ∧
           ∀ f, grantAt u f = if first ≤ f ∧ f < first + n then
             some { owner := getLe p.bytes 16 1, table := getLe p.bytes 17 1 == 1 } else grantAt s f) ∧
       ((∃ g ∈ s.mem.grants, g.2.isSome = true ∧ first ≤ g.1 ∧ g.1 < first + n) →
         Sys2Proof.Machine.exec (.frameGrant r) s = .next (settle (finishPkt s.hif.nextId 0x0227 0 0 t)))) ∧
     (frontReady s r 0x63 1 [(20, 8)] p rest → 0 < n → first + n ≤ 99328 →
       (runMapped s first n = false →
         ∃ u, Sys2Proof.Machine.exec (.frameRevoke r) s = .next (settle (finishPkt s.hif.nextId 0 0
             (s.mem.grants.length - u.mem.grants.length) u)) ∧
           u = { t with mem := { t.mem with grants := u.mem.grants } } ∧
           ∀ f, grantAt u f = if first ≤ f ∧ f < first + n then none else grantAt s f) ∧
       (runMapped s first n = true →
         Sys2Proof.Machine.exec (.frameRevoke r) s = .next (settle (finishPkt s.hif.nextId 0x0222 0 0 t))))) ∧
  (∀ (s : State) (r : Nat) (p : Packet) (rest : List Packet), islandRuns s = true →
    let t := startedBy s r p rest
    let o := getLe p.bytes 16 1
    let cs := (List.range 128).filter (fun c => (getLe p.bytes 48 16).testBit c)
    let held := cs.filter (fun c => (leaseAt s c).owner.isSome)
    (frontReady s r 0x64 1 [(16, 1), (48, 16)] p rest → 0 < o → o < 64 → cs ≠ [] → ownerActive s o = true →
      ((∀ c ∈ cs, (leaseAt s c).owner = some o ∧ (leaseAt s c).clearing = false) →
        Sys2Proof.Machine.exec (.clusterLease r) s = .next (settle (finishPkt s.hif.nextId 0 0 0 t))) ∧
      ((∀ c ∈ cs, (leaseAt s c).owner = none) →
        let u := cs.foldl (fun u c => setRegFld (0x1000004 + c * 0x10000) 22 12 1024
          (updLease c (fun _ => { owner := some o, clearing := true }) u)) t
        (∀ c ∈ cs, leaseAt u c = { owner := some o, clearing := true }) ∧
        Sys2Proof.Machine.exec (.clusterLease r) s = .next (settle
          (updPkt s.hif.nextId (fun q => { q with wait := .islandWork }) { u with mem := { u.mem with
            leaseWaits := u.mem.leaseWaits ++ [{ id := s.hif.nextId, clusters := cs }] } }))) ∧
      ((∃ c ∈ cs, ∃ x, (leaseAt s c).owner = some x ∧ x ≠ o) →
        Sys2Proof.Machine.exec (.clusterLease r) s = .next (settle (finishPkt s.hif.nextId 0x0223 0 0 t)))) ∧
    (frontReady s r 0x65 1 [(17, 1), (48, 16)] p rest → cs ≠ [] →
      (getLe p.bytes 17 1 = 0 → (∃ c ∈ held, groupsIn s c ≠ 0) →
        Sys2Proof.Machine.exec (.clusterRelease r) s = .next (settle (finishPkt s.hif.nextId 0x0224 0 0 t))) ∧
      (getLe p.bytes 17 1 = 0 → (∀ c ∈ held, groupsIn s c = 0) →
        Sys2Proof.Machine.exec (.clusterRelease r) s = .next (settle (finishPkt s.hif.nextId 0 0 0
          (held.foldl (fun u c => changeLease none c u) t)))) ∧
      (getLe p.bytes 17 1 = 1 →
        Sys2Proof.Machine.exec (.clusterRelease r) s = .next (settle (finishPkt s.hif.nextId 0 0 0
          (held.foldl (fun u c => changeLease none c u) (held.foldl (fun u c => forceCluster c u) t))))))) ∧
  (∀ (s : State) (c : Nat), fclkRuns s = true → (leaseAt s c).clearing = true →
    (∀ ch ∈ clusterChans c, chainsAt s ch = []) →
    ∃ u, Sys2Proof.Machine.exec (.scratchClearDone c) s = .next (settle (settleLeases
        (updLease c (fun l => { l with clearing := false }) (clearGrid c u)))) ∧
      u = { s with mem := { s.mem with cells := u.mem.cells, poisonScratch := u.mem.poisonScratch } } ∧
      ∀ a, Tbl.get 0 u.mem.cells a =
        if scratchDpa c ≤ a ∧ a < scratchDpa c + 0x400000 then 0 else Tbl.get 0 s.mem.cells a)

/-- R72, R202: what MAP and UNMAP answer once their checks have passed, and the first checks that fail. The leaves MAP
writes are the ones its packet names, in order and each at its page; nothing else of the owners' standing changes. -/
def Obligations.MappingsAreMadeAndRemoved : Prop :=
  (∀ (s : State) (r : Nat) (p : Packet) (rest : List Packet), islandRuns s = true →
    let t := startedBy s r p rest
    let o := getLe p.bytes 16 1
    let ps := getLe p.bytes 18 1
    let n := getLe p.bytes 20 4
    let dva := getLe p.bytes 24 8
    let dpa := getLe p.bytes 32 8 % 2 ^ 48
    let chip := getLe p.bytes 32 8 / 2 ^ 48
    let size := pageSize ps
    let own := o < 64 ∧ ((inflightOfPacket s r p).owner = 0 ∨ o = (inflightOfPacket s r p).owner)
    (frontReady s r 0x13 1 [(16, 3), (20, 20)] p rest → own → getLe p.bytes 17 1 < 8 → ps < 4 → 0 < n → n ≤ 2 ^ 20 →
      chip < 64 →
      (ownerActive s o = false →
        Sys2Proof.Machine.exec (.map r) s = .next (settle (finishPkt s.hif.nextId 0x0225 0 0 t))) ∧
      (ownerActive s o = true → dva % size ≠ 0 ∨ dpa % size ≠ 0 ∨ 2 ^ 48 < dva + n * size ∨ 2 ^ 48 < dpa + n * size →
        Sys2Proof.Machine.exec (.map r) s = .next (settle (finishPkt s.hif.nextId 0x0321 0 0 t))) ∧
      (ownerActive s o = true → dva % size = 0 → dpa % size = 0 → dva + n * size ≤ 2 ^ 48 → dpa + n * size ≤ 2 ^ 48 →
        (∀ e, chip = s.elk.selfId → mapTargetError t o dpa n ps = some e →
          Sys2Proof.Machine.exec (.map r) s = .next (settle (finishPkt s.hif.nextId e 0 0 t))) ∧
        (chip ≠ s.elk.selfId ∨ mapTargetError t o dpa n ps = none →
          let leaves : List Leaf := (List.range n).map (fun i =>
            { owner := o, dva := dva + i * size, ps := ps, chip := chip, dpa := dpa + i * size
              perm := getLe p.bytes 17 1 })
          (s.mem.leaves.any (leafMeets o dva (dva + n * size)) = true →
            Sys2Proof.Machine.exec (.map r) s = .next (settle (finishPkt s.hif.nextId 0x0220 0 0 t))) ∧
          (s.mem.leaves.any (leafMeets o dva (dva + n * size)) = false →
            (putLeaves leaves t = none →
              Sys2Proof.Machine.exec (.map r) s = .next (settle (finishPkt s.hif.nextId 0x0221 0 0 t))) ∧
            (∀ u, putLeaves leaves t = some u →
              u.mem.leaves = s.mem.leaves ++ leaves ∧ u.mem.grants = s.mem.grants ∧ u.mem.leases = s.mem.leases ∧
              Sys2Proof.Machine.exec (.map r) s = .next (settle (finishPkt s.hif.nextId 0 0 n u))))))) ∧
    (frontReady s r 0x14 1 [(16, 1), (24, 16)] p rest → own →
      let a := dva
      let k := getLe p.bytes 32 8
      a % 4096 = 0 → k % 4096 = 0 → k ≠ 0 →
      (ownerActive s o = false →
        Sys2Proof.Machine.exec (.unmap r) s = .next (settle (finishPkt s.hif.nextId 0x0225 0 0 t))) ∧
      (ownerActive s o = true → 2 ^ 48 < a + k →
        Sys2Proof.Machine.exec (.unmap r) s = .next (settle (finishPkt s.hif.nextId 0x0321 0 0 t))) ∧
      (ownerActive s o = true → a + k ≤ 2 ^ 48 →
        let hit := s.mem.leaves.filter (leafMeets o a (a + k))
        let cut := putLeaves (hit.flatMap (leafLeft a (a + k))) (hit.foldl (fun u l => dropLeaf l u) t)
        (cut = none → Sys2Proof.Machine.exec (.unmap r) s = .next (settle (finishPkt s.hif.nextId 0x0221 0 0 t))) ∧
        (∀ u, cut = some u → Sys2Proof.Machine.exec (.unmap r) s = .next (settle (settleUnmaps
          (updPkt s.hif.nextId (fun q => { q with
              wait := .islandWork
              lastWord := hit.foldl (fun m l =>
                m + (min (a + k) (l.dva + pageSize l.ps) - max a l.dva) / 4096) 0 })
            (freeTables o 0 (freeTables o 1 (freeTables o 2 (freeTables o 3 u)))))))))))

/-- R73, R85, R162: a host window access within one line. The physical addresses of the window; what a read answers and
what a write does when the window is shut, when the function does not serve, when its target is this chip's memory, and
when it meets a violation or fault. An access beyond BAR2 is unsupported by the model's choice (log entry 28). -/
def Obligations.HostWindowAccesses : Prop :=
  (∀ wa, (wa < 0x30_0000_0000 → windowPhys wa = some wa) ∧
    (0x30_0000_0000 ≤ wa → wa < 0x30_8000_0000 → windowPhys wa = some (wa - 0x30_0000_0000 + 0x40_0000_0000)) ∧
    (0x30_8000_0000 ≤ wa → wa < 0x30_A000_0000 → windowPhys wa = some (wa - 0x30_8000_0000 + 0x48_0000_0000)) ∧
    (0x30_A000_0000 ≤ wa → windowPhys wa = none)) ∧
  (∀ (s : State) (off n : Nat) (ecc : Ecc), 0 < n → windowAddr s off % 64 + n ≤ 64 →
    (fnPath s 0 = .dead → Sys2Proof.Machine.exec (.windowRead off n ecc) s = .next (settle s)) ∧
    (fnPath s 0 = .abort → Sys2Proof.Machine.exec (.windowRead off n ecc) s =
      .next (settle (emit (.answer (.fn 0) off .abort) s))) ∧
    (fnPath s 0 = .unsupported ∨ fnPath s 0 = .serves ∧ windowSize s < off + n →
      Sys2Proof.Machine.exec (.windowRead off n ecc) s = .next (settle (emit (.answer (.fn 0) off .unsupported) s))) ∧
    (fnPath s 0 = .serves → off + n ≤ windowSize s →
      (windowOpen s = false → Sys2Proof.Machine.exec (.windowRead off n ecc) s =
        .next (settle (emit (.answer (.fn 0) off (.ok (2 ^ (8 * n) - 1))) s))) ∧
      (∀ e, windowOpen s = true → windowTarget s (windowAddr s off) 1 = .error e →
        Sys2Proof.Machine.exec (.windowRead off n ecc) s =
          .next (settle (emit (.answer (.fn 0) off .abort) (windowFails (windowAddr s off) 1 e s)))) ∧
      (∀ dpa, windowOpen s = true → windowTarget s (windowAddr s off) 1 = .ok (.here dpa) →
        regionOf dpa ≠ some .regs → s.elk.outstanding.length < 8192 →
        let t := applyEcc ecc dpa (countBytes dpa n false s)
        let d := readMem t (windowOwner t) dpa n
        Sys2Proof.Machine.exec (.windowRead off n ecc) s = .next (settle (emit (.answer (.fn 0) off
          (if (poisonIn t dpa n).isSome = true then .poisoned (ofLe d) else .ok (ofLe d))) t))) ∧
      (∀ chip dpa t, windowOpen s = true → windowTarget s (windowAddr s off) 1 = .ok (.away chip dpa) →
        s.elk.outstanding.length < 8192 →
        remoteIssue (.window (windowAddr s off - rawAt s 0x200018) n) chip dpa (windowOwner s) 1 (.read n) s = .sent t →
        Sys2Proof.Machine.exec (.windowRead off n ecc) s = .next (settle t)))) ∧
  (∀ (s : State) (cons : Cons) (off : Nat) (bs : List Byte), 0 < bs.length → windowAddr s off % 64 + bs.length ≤ 64 →
    (fnPath s 0 ≠ .serves ∨ windowSize s < off + bs.length ∨ windowOpen s = false →
      Sys2Proof.Machine.exec (.windowWrite cons off bs) s = .next (settle s)) ∧
    (fnPath s 0 = .serves → off + bs.length ≤ windowSize s → windowOpen s = true →
      (∀ e, windowTarget s (windowAddr s off) 2 = .error e →
        Sys2Proof.Machine.exec (.windowWrite cons off bs) s =
          .next (settle (windowFails (windowAddr s off) 2 e s))) ∧
      (∀ dpa, windowTarget s (windowAddr s off) 2 = .ok (.here dpa) → regionOf dpa ≠ some .regs →
        s.elk.outstanding.length < 8192 →
        Sys2Proof.Machine.exec (.windowWrite cons off bs) s =
          .next (settle (deviceWrite notThread (windowOwner s) dpa bs s)))))

/-- R162, R223, R232, R234–R236: a message that arrives on a port. How the target judges a request for it, and what each
kind of request then does; what an answer, a NACK and an answer nothing waits for do; what a timeout does. -/
def Obligations.RemoteRequestsAreServed : Prop :=
  (∀ (s : State) (m : Msg), targetError s m =
    if (routeAt s m.src).fenced = true then some 0x0780
    else if ownerActive s m.owner = false then some 0x0803
    else if regionOf m.addr = none then some 0x0320
    else if regionOf m.addr = some .regs then some 0x0325
    else (localCheck s m.owner m.addr (m.mtype != 0x01)).map (·.status)) ∧
  (∀ (s : State) (cons : Cons) (p : Nat) (ecc : Ecc) (bytes : List Byte), linkRuns s = true →
    let m := parseMsg bytes
    bytes.length = 16 * (1 + dataUnits m.mtype m.size) →
    (∀ st, (portAt s p).st = .up → isRequest m.mtype = true → headerLegal m = true → forMe s m = true →
      targetError s m = some st →
      Sys2Proof.Machine.exec (.remoteRequest cons p ecc bytes) s = .next (settle (targetRefuses p m st s))) ∧
    ((portAt s p).st = .up → isRequest m.mtype = true → headerLegal m = true → forMe s m = true →
      targetError s m = none →
      Sys2Proof.Machine.exec (.remoteRequest cons p ecc bytes) s = .next (settle
        (if m.mtype = 0x01 then targetRead p m ecc s
         else if m.mtype = 0x02 then targetWrite p m s
         else targetAtomic p m ecc s))) ∧
    ((portAt s p).st = .up ∨ (portAt s p).st = .quarantine → isRequest m.mtype = true → headerLegal m = false →
      Sys2Proof.Machine.exec (.remoteRequest cons p ecc bytes) s =
        .next (settle (nack p m 0x0303 (logMsg p 0x0303 m s)))) ∧
    ((portAt s p).st = .quarantine → isRequest m.mtype = true → headerLegal m = true →
      Sys2Proof.Machine.exec (.remoteRequest cons p ecc bytes) s = .next (settle (nack p m 0x0380 s))) ∧
    ((portAt s p).st = .up → isResponse m.mtype = true → headerLegal m = true → forMe s m = true →
      (s.elk.outstanding.find? (·.tag == m.tag) = none ∨ (routeAt s m.src).fenced = true →
        Sys2Proof.Machine.exec (.remoteAnswer cons p bytes) s =
          .next (settle (linkLog 11 3 sevNotice p m.src s))) ∧
      (∀ o, s.elk.outstanding.find? (·.tag == m.tag) = some o → (routeAt s m.src).fenced = false →
        Sys2Proof.Machine.exec (.remoteAnswer cons p bytes) s = .next (settle (completeRemote cons o
          (if m.mtype = 0x8F then m.addr else 0)
          (if m.mtype = 0x8F then [] else if m.mtype = 0x81 then slice m.data 0 (m.size + 1) else slice m.data 0 8)
          (m.mtype == 0x81 && m.mod.testBit 6)
          { s with elk := { s.elk with
              outstanding := s.elk.outstanding.filter (fun x => x.tag != o.tag) } }))))) ∧
  (∀ (s : State) (cons : Cons) (tag : Nat), fclkRuns s = true → linkRuns s = true →
    (s.elk.outstanding.find? (·.tag == tag) = none →
      Sys2Proof.Machine.exec (.requestTimeout cons tag) s = .next (settle s)) ∧
    (∀ o, s.elk.outstanding.find? (·.tag == tag) = some o →
      Sys2Proof.Machine.exec (.requestTimeout cons tag) s = .next (settle (suspect o.chip
        (completeAll cons (·.tag == tag) 0x0781 { s with elk := { s.elk with
          retired := s.elk.retired.filter (fun r => decide (s.dts < r.2)) ++
            [(tag, s.dts + 2 * regFld s 0x2008030 15 0 * 100000)] } })))))

/-! Threads (chapter 4) -/

/-- R93, R101, R105, R110, R118: an instruction row of a thread does nothing unless its thread may issue: the slot holds
an active thread that no PAUSE or UYIELD holds back, FCLK runs and its launch runs. A tensor instruction of a thread
whose group does not hold the grid traps GRID_NOT_HELD. -/
def Obligations.ThreadsIssueOnlyWhenReady : Prop :=
  (∀ (i : Instr) (c slot : Nat), threadRow i = some (c, slot) → ∀ (s : State),
    (issuing s c slot = none → Sys2Proof.Machine.exec i s = .next (settle s)) ∧
    (∀ t, issuing s c slot = some t → tensorRow i = true → (gridAt s c).heldBy t.gid = false →
      Sys2Proof.Machine.exec i s = .next (settle (trapAt (threadKey c slot) 0x0347 s)))) ∧
  (∀ (s : State) (c slot : Nat) (t : Thread), issuing s c slot = some t ↔
    threadAt s (threadKey c slot) = some t ∧ t.st = .active ∧ t.notReady = 0 ∧ fclkRuns s = true ∧
    ∃ l, launchOf s t = some l ∧ l.st = .running ∧ l.stopped = none) ∧
  (∀ (k len : Nat) (f : Thread → Thread) (s : State) (t : Thread), threadAt s k = some t →
    threadAt (retire k len f s) k = some { f t with pc := ((f t).pc + len) % 2 ^ 64 } ∧
    (∀ j, j ≠ k → threadAt (retire k len f s) j = threadAt s j) ∧
    retire k len f s = { s with fab := { s.fab with threads := (retire k len f s).fab.threads } })

/-- R95, R112–R117: loads, stores and fetches of this chip's memory, within a line, and what a failed translation does;
x0 reads 0 and discards what is written. -/
def Obligations.ThreadsReachMemory : Prop :=
  (∀ (t : Thread) (r v j : Nat), getX t 0 = 0 ∧ setX 0 v t = t ∧
    (r ≠ 0 → getX (setX r v t) r = v % 2 ^ 64) ∧ (j ≠ r → getX (setX r v t) j = getX t j)) ∧
  (∀ (s : State) (c slot rd rs1 : Nat) (imm : Int) (size : Nat) (sg fp : Bool) (len : Nat) (ecc : Ecc) (t : Thread),
    issuing s c slot = some t → 0 < size → addrOf t rs1 imm % 64 + size ≤ 64 →
    (∀ e, resolve s (threadOwner s t) (addrOf t rs1 imm) 1 = .error e →
      Sys2Proof.Machine.exec (.threadLoad c slot rd rs1 imm size sg fp len ecc) s =
        .next (settle (threadFails (threadKey c slot) 1 (addrOf t rs1 imm) e s))) ∧
    (∀ dpa, resolve s (threadOwner s t) (addrOf t rs1 imm) 1 = .ok (.here dpa) → regionOf dpa ≠ some .regs →
      s.elk.outstanding.length ≤ 8192 →
      let u := applyEcc ecc dpa (countBytes dpa size false (chargeTc0 dpa t.utc s))
      (∀ a, poisonIn u dpa size = some a →
        Sys2Proof.Machine.exec (.threadLoad c slot rd rs1 imm size sg fp len ecc) s =
          .next (settle (threadPoison (threadKey c slot) 1 (addrOf t rs1 imm) dpa a u))) ∧
      (poisonIn u dpa size = none →
        ∃ w, Sys2Proof.Machine.exec (.threadLoad c slot rd rs1 imm size sg fp len ecc) s =
            .next (settle (updThread (threadKey c slot) (fun _ => w) u)) ∧
          w.pc = (t.pc + len) % 2 ^ 64 ∧ w.st = .active ∧ w.fcsr = t.fcsr ∧
          let v := ofLe (slice (readMem u (threadOwner s t) dpa size) 0 size)
          (fp = false → w.f = t.f ∧
            ∀ j, getX w j = getX (setX rd (if sg then ofInt 64 (toInt (8 * size) v) else v) t) j) ∧
          (fp = true → w.x = t.x ∧
            ∀ j, getF w j = if j = rd then (2 ^ 64 - 2 ^ (8 * size) + v) % 2 ^ 64 else getF t j)))) ∧
  (∀ (s : State) (c slot rs2 rs1 : Nat) (imm : Int) (size : Nat) (fp : Bool) (len : Nat) (t : Thread),
    issuing s c slot = some t → 0 < size → addrOf t rs1 imm % 64 + size ≤ 64 →
    (∀ e, resolve s (threadOwner s t) (addrOf t rs1 imm) 2 = .error e → e.status / 256 ≠ 7 →
      Sys2Proof.Machine.exec (.threadStore c slot rs2 rs1 imm size fp len) s =
        .next (settle (threadFails (threadKey c slot) 2 (addrOf t rs1 imm) e s))) ∧
    (∀ dpa, resolve s (threadOwner s t) (addrOf t rs1 imm) 2 = .ok (.here dpa) → s.elk.outstanding.length ≤ 8192 →
      Sys2Proof.Machine.exec (.threadStore c slot rs2 rs1 imm size fp len) s =
        .next (settle (retire (threadKey c slot) len id (deviceWrite (threadKey c slot) (threadOwner s t) dpa
          (leBytes size (if fp then getF t rs2 else getX t rs2)) (chargeTc0 dpa t.utc s)))))) ∧
  (∀ (s : State) (c slot : Nat) (ecc : Ecc) (t : Thread), issuing s c slot = some t →
    (∀ chip dpa, resolve s (threadOwner s t) t.pc 4 = .ok (.away chip dpa) →
      Sys2Proof.Machine.exec (.instructionFetch c slot false ecc) s =
        .next (settle (trapAt (threadKey c slot) 0x0349 s))) ∧
    (∀ dpa, resolve s (threadOwner s t) t.pc 4 = .ok (.here dpa) → regionOf dpa ≠ some .regs →
      poisonIn (applyEcc ecc dpa s) (dpa / 64 * 64) 64 = none →
      let lo := getLe (readMem (applyEcc ecc dpa s) (threadOwner s t) (dpa / 64 * 64) 64) (dpa % 64) 2
      lo % 4 ≠ 3 →
      ∃ u, Sys2Proof.Machine.exec (.instructionFetch c slot false ecc) s =
          .next (settle (updThread (threadKey c slot) (fun x => { x with ir := lo }) u)) ∧
        u = { applyEcc ecc dpa s with fab := { (applyEcc ecc dpa s).fab with icache := u.fab.icache } } ∧
        icLine u (c * 16 + slot / 8) dpa = some { core := c * 16 + slot / 8, line := dpa / 64
                                                  bytes := readMem (applyEcc ecc dpa s) (threadOwner s t) (dpa / 64 * 64) 64 }) ∧
    Sys2Proof.Machine.exec (.fenceI c slot) s = .next (settle (retire (threadKey c slot) 4 id { s with
      fab := { s.fab with icache := s.fab.icache.filter (·.core != c * 16 + slot / 8) } })))

/-- R93, R95, R96, R101–R103, R109, R112, R114: fences, traps, the CSRs, and the ends and pauses of threads. -/
def Obligations.FencesTrapsAndCsrs : Prop :=
  ∀ (s : State) (c slot : Nat) (t : Thread), issuing s c slot = some t →
    let k := threadKey c slot
    (∀ a kind st, t.deferred = some (a, kind, st) →
      Sys2Proof.Machine.exec (.threadFence c slot) s = .next (settle (trapThread k 2 (if kind = 2 then some a else none)
        { status := st, addr := a, kind := kind } s))) ∧
    (t.deferred = none → Sys2Proof.Machine.exec (.threadFence c slot) s = .next (settle (retire k 4 id s))) ∧
    (Sys2Proof.Machine.exec (.ecall c slot 0) s = .next (settle (trapAt k 0x0341 s))) ∧
    (Sys2Proof.Machine.exec (.ecall c slot 1) s = .next (settle (trapAt k 0x0342 s))) ∧
    (Sys2Proof.Machine.exec (.ecall c slot 2) s = .next (settle (trapAt k 0x0340 s))) ∧
    (Sys2Proof.Machine.exec (.illegalInstruction c slot) s = .next (settle (trapAt k 0x0340 s))) ∧
    (Sys2Proof.Machine.exec (.pause c slot) s =
      .next (settle (retire k 4 (fun x => { x with notReady := 64 }) s))) ∧
    (Sys2Proof.Machine.exec (.uyield c slot) s =
      .next (settle (retire k 4 (fun x => { x with notReady := 8 }) s))) ∧
    (threadAwaits s k = true →
      Sys2Proof.Machine.exec (.ufenceG c slot) s =
        .next (settle (updThread k (fun x => { x with st := .waitFence }) s))) ∧
    (threadAwaits s k = false → t.deferred = none →
      ∃ u, Sys2Proof.Machine.exec (.ufenceG c slot) s = .next (settle u) ∧
        threadAt u k = some { t with pc := (t.pc + 4) % 2 ^ 64 } ∧ (∀ j, j ≠ k → threadAt u j = threadAt s j) ∧
        u = { s with fab := { s.fab with threads := u.fab.threads } }) ∧
    (mayEnd s k = false →
      Sys2Proof.Machine.exec (.uend c slot) s = .next (settle (updThread k (fun x => { x with st := .ending }) s))) ∧
    (mayEnd s k = true → t.deferred = none →
      ∃ u, Sys2Proof.Machine.exec (.uend c slot) s = .next (settle (deadlockCheck t.gid u)) ∧
        threadAt u k = some { t with st := .ended, reserve := none } ∧ (∀ j, j ≠ k → threadAt u j = threadAt s j) ∧
        u = { s with fab := { s.fab with threads := u.fab.threads } }) ∧
    (∀ f3 csr rd rs1, csrRead s c slot t csr = none →
      Sys2Proof.Machine.exec (.csrAccess c slot f3 csr rd rs1) s = .next (settle (trapAt k 0x0340 s))) ∧
    (∀ f3 csr rd rs1 old, csrRead s c slot t csr = some old → f3 % 4 = 1 ∨ rs1 ≠ 0 → csr / 0x400 = 3 →
      Sys2Proof.Machine.exec (.csrAccess c slot f3 csr rd rs1) s = .next (settle (trapAt k 0x0340 s))) ∧
    (∀ f3 csr rd old, csrRead s c slot t csr = some old → f3 % 4 ≠ 1 →
      Sys2Proof.Machine.exec (.csrAccess c slot f3 csr rd 0) s = .next (settle (retire k 4 (setX rd old) s))) ∧
    (∀ rd v, v < 32 → v ≠ 0 → Sys2Proof.Machine.exec (.csrAccess c slot 5 0x800 rd v) s =
      .next (settle (retire k 4 (fun x => setX rd t.utc { x with utc := v % 4 }) s))) ∧
    (∀ rd rs1, Sys2Proof.Machine.exec (.csrAccess c slot 1 0x801 rd rs1) s =
      .next (settle (retire k 4 (fun x => setX rd t.uptmo { x with uptmo := getX t rs1 % 2 ^ 32 }) s)))

/-- R104, R106–R108: barriers and copies of a group. -/
def Obligations.BarriersAndCopies : Prop :=
  ∀ (s : State) (c slot : Nat) (t : Thread) (g : Group), issuing s c slot = some t → findGroup s t.gid = some g →
    let k := threadKey c slot
    (∀ rd rs1 rs2, 8 ≤ getX t rs1 →
      (Sys2Proof.Machine.exec (.ubarInit c slot rs1 rs2) s = .next (settle (trapAt k 0x0340 s))) ∧
      (Sys2Proof.Machine.exec (.ubarArrive c slot rd rs1) s = .next (settle (trapAt k 0x0340 s))) ∧
      (Sys2Proof.Machine.exec (.ubarWait c slot rs1 rs2) s = .next (settle (trapAt k 0x0340 s))) ∧
      (Sys2Proof.Machine.exec (.ubarSync c slot rs1) s = .next (settle (trapAt k 0x0340 s))) ∧
      (Sys2Proof.Machine.exec (.ucwait c slot rd rs1 rs2) s = .next (settle (trapAt k 0x0340 s))) ∧
      (Sys2Proof.Machine.exec (.ucread c slot rd rs1) s = .next (settle (trapAt k 0x0340 s))) ∧
      (Sys2Proof.Machine.exec (.ucset c slot rs1 rs2) s = .next (settle (trapAt k 0x0340 s)))) ∧
    (∀ rd rs1 rs2, getX t rs1 < 8 →
      let i := getX t rs1
      let b := barrierAt g i
      let n := getX t rs2
      let ctr := g.copyCtr.getD i 0
      (b.arrived ≠ 0 ∨ g.slots.length < n →
        Sys2Proof.Machine.exec (.ubarInit c slot rs1 rs2) s = .next (settle (trapAt k 0x0345 s))) ∧
      (b.arrived = 0 → n ≤ g.slots.length →
        Sys2Proof.Machine.exec (.ubarInit c slot rs1 rs2) s = .next (settle (retire k 4 id
          (setBarrier g.gid i { b with expected := if n = 0 then g.slots.length else n } s)))) ∧
      (b.arrived + 1 ≠ b.expected →
        Sys2Proof.Machine.exec (.ubarArrive c slot rd rs1) s = .next (settle (retire k 4 (setX rd b.phase)
          (setBarrier g.gid i { b with arrived := b.arrived + 1 } s)))) ∧
      (b.arrived + 1 = b.expected →
        Sys2Proof.Machine.exec (.ubarArrive c slot rd rs1) s = .next (settle (retire k 4 (setX rd b.phase)
          (releaseBarrier g.gid i ((b.phase + 1) % 2 ^ 32)
            (setBarrier g.gid i { b with phase := (b.phase + 1) % 2 ^ 32, arrived := 0 } s))))) ∧
      (b.phase ≠ n % 2 ^ 32 →
        Sys2Proof.Machine.exec (.ubarWait c slot rs1 rs2) s = .next (settle (retire k 4 id s))) ∧
      (b.phase = n % 2 ^ 32 →
        Sys2Proof.Machine.exec (.ubarWait c slot rs1 rs2) s = .next (settle (deadlockCheck g.gid
          (updThread k (fun x => { x with st := .waitBar, waitId := i, waitVal := b.phase }) s)))) ∧
      (Sys2Proof.Machine.exec (.ubarSync c slot rs1) s =
        .next (settle (barWait c slot i b.phase g (arrive g i s).1))) ∧
      (copyReached ctr (n % 2 ^ 31) = true →
        Sys2Proof.Machine.exec (.ucwait c slot rd rs1 rs2) s = .next (settle (retire k 4 (setX rd ctr) s))) ∧
      (copyReached ctr (n % 2 ^ 31) = false →
        Sys2Proof.Machine.exec (.ucwait c slot rd rs1 rs2) s = .next (settle (updThread k (fun x => { x with
          st := .waitCopy, waitId := i, waitVal := n % 2 ^ 31, waitRd := rd }) s))) ∧
      (Sys2Proof.Machine.exec (.ucread c slot rd rs1) s = .next (settle (retire k 4 (setX rd ctr) s))) ∧
      (Sys2Proof.Machine.exec (.ucset c slot rs1 rs2) s = .next (settle (releaseCopy g.gid (retire k 4 id
        (updGroup g.gid (fun x => { x with copyCtr := x.copyCtr.set i (n % 2 ^ 32) }) s)))))) ∧
    (∀ rs1 rs2, 32 ≤ getX t rs2 →
      Sys2Proof.Machine.exec (.ucopy c slot rs1 rs2) s = .next (settle (trapAt k 0x0340 s))) ∧
    (∀ rs1 rs2, getX t rs2 < 32 → 16 ≤ (chainsAt s (c * 4 + getX t rs2 % 4)).length →
      Sys2Proof.Machine.exec (.ucopy c slot rs1 rs2) s = .next (settle s)) ∧
    (∀ rs1 rs2 x, getX t rs2 < 32 → (chainsAt s (c * 4 + getX t rs2 % 4)).length < 16 →
      resolve s (threadOwner s t) (getX t rs1) 1 = .ok x →
      Sys2Proof.Machine.exec (.ucopy c slot rs1 rs2) s = .next (settle (retire k 4 id
        (updGroup t.gid (fun y => { y with copies := y.copies + 1 }) (addChain (c * 4 + getX t rs2 % 4)
          (fun n => { cid := n, owner := threadOwner s t, origin := .counter t.gid (getX t rs2 / 4), dva := getX t rs1
                      ownDesc := false, tc0 := t.utc }) s)))))

/-- R110, R114, R115: UPARK, its timeout, UWAKE, LR, SC and the reservation's end, on this chip. -/
def Obligations.DormancyAndReservations : Prop :=
  (∀ (s : State) (c slot : Nat) (t : Thread), issuing s c slot = some t →
    let k := threadKey c slot
    (∀ rd rs1 rs2 ecc, getX t rs1 % 8 ≠ 0 →
      Sys2Proof.Machine.exec (.upark c slot rd rs1 rs2 ecc) s = .next (settle (trapAt k 0x0343 s))) ∧
    (∀ rd rs1 rs2 ecc dpa, getX t rs1 % 8 = 0 → resolve s (threadOwner s t) (getX t rs1) 1 = .ok (.here dpa) →
      regionOf dpa ≠ some .regs → poisonIn (applyEcc ecc dpa s) dpa 8 = none →
      let u := applyEcc ecc dpa s
      let w := ofLe (slice (readMem u (threadOwner s t) dpa 8) 0 8)
      (w ≠ getX t rs2 →
        Sys2Proof.Machine.exec (.upark c slot rd rs1 rs2 ecc) s = .next (settle (retire k 4 (setX rd 0) u))) ∧
      (w = getX t rs2 → t.wakePending = true →
        Sys2Proof.Machine.exec (.upark c slot rd rs1 rs2 ecc) s =
          .next (settle (retire k 4 (fun x => setX rd 1 { x with wakePending := false }) u))) ∧
      (w = getX t rs2 → t.wakePending = false →
        Sys2Proof.Machine.exec (.upark c slot rd rs1 rs2 ecc) s = .next (settle (updThread k (fun x => { x with
          st := .dormant, waitAddr := getX t rs1, waitDpa := dpa, waitVal := getX t rs2, waitRd := rd
          timeoutAt := if x.uptmo = 0 then 0 else s.dts + x.uptmo }) u)))) ∧
    (∀ g rs1, findGroup s t.gid = some g →
      (getX t rs1 = 2 ^ 64 - 1 → Sys2Proof.Machine.exec (.uwake c slot rs1) s =
        .next (settle (retire k 4 id ((groupKeys g).foldl (fun u j => wakeOne j u) s)))) ∧
      (getX t rs1 ≠ 2 ^ 64 - 1 → g.slots.length ≤ getX t rs1 →
        Sys2Proof.Machine.exec (.uwake c slot rs1) s = .next (settle (trapAt k 0x0340 s))) ∧
      (getX t rs1 ≠ 2 ^ 64 - 1 → getX t rs1 < g.slots.length →
        Sys2Proof.Machine.exec (.uwake c slot rs1) s =
          .next (settle (retire k 4 id (wakeOne ((groupKeys g).getD (getX t rs1) 0) s))))) ∧
    (∀ rd rs1 rs2 dword aq ecc, getX t rs1 % (if dword then 8 else 4) ≠ 0 →
      (Sys2Proof.Machine.exec (.lr c slot rd rs1 dword aq false ecc) s = .next (settle (trapAt k 0x0343 s))) ∧
      (Sys2Proof.Machine.exec (.sc c slot rd rs1 rs2 dword aq false) s = .next (settle (trapAt k 0x0343 s)))) ∧
    (∀ rd rs1 (dword : Bool) aq ecc dpa cl, let n := if dword then 8 else 4
      getX t rs1 % n = 0 → resolve s (threadOwner s t) (getX t rs1) 1 = .ok (.here dpa) →
      regionOf dpa = some (.scratch cl) → poisonIn (applyEcc ecc dpa s) dpa n = none →
      Sys2Proof.Machine.exec (.lr c slot rd rs1 dword aq false ecc) s = .next (settle (retire k 4 (fun x =>
        setX rd (ofInt 64 (toInt (8 * n) (ofLe (slice (readMem (applyEcc ecc dpa s) (threadOwner s t) dpa n) 0 n))))
          { x with reserve := some (dpa / 64) }) (applyEcc ecc dpa s)))) ∧
    (∀ rd rs1 rs2 (dword : Bool) aq dpa cl, let n := if dword then 8 else 4
      getX t rs1 % n = 0 → resolve s (threadOwner s t) (getX t rs1) 2 = .ok (.here dpa) →
      regionOf dpa = some (.scratch cl) →
      (t.reserve = some (dpa / 64) → Sys2Proof.Machine.exec (.sc c slot rd rs1 rs2 dword aq false) s =
        .next (settle (retire k 4 (fun x => setX rd 0 { x with reserve := none })
          (deviceWrite k (threadOwner s t) dpa (leBytes n (getX t rs2)) s)))) ∧
      (t.reserve ≠ some (dpa / 64) → Sys2Proof.Machine.exec (.sc c slot rd rs1 rs2 dword aq false) s =
        .next (settle (retire k 4 (fun x => setX rd 1 { x with reserve := none }) s))))) ∧
  (∀ (s : State) (c slot : Nat) (t : Thread), fclkRuns s = true → threadAt s (threadKey c slot) = some t →
    (t.st = .dormant → t.timeoutAt ≠ 0 → Sys2Proof.Machine.exec (.uparkTimeout c slot) s =
      .next (settle (retire (threadKey c slot) 4 (fun x => setX x.waitRd 2 { x with st := .active, timeoutAt := 0 })
        { s with dts := max s.dts t.timeoutAt }))) ∧
    (t.st ≠ .dormant ∨ t.timeoutAt = 0 → Sys2Proof.Machine.exec (.uparkTimeout c slot) s = .next (settle s)) ∧
    (Sys2Proof.Machine.exec (.lrReservationExpiry c slot) s =
      .next (settle (updThread (threadKey c slot) (fun x => { x with reserve := none }) s))))

/-- R111, R112: far atomics on this chip's memory: the operations, the result, and where they trap. -/
def Obligations.FarAtomics : Prop :=
  (∀ bytes old v, bytes = 4 ∨ bytes = 8 →
    let a := old % 2 ^ (8 * bytes)
    let b := v % 2 ^ (8 * bytes)
    amoNew 0 bytes old v = some ((a + b) % 2 ^ (8 * bytes)) ∧ amoNew 1 bytes old v = some b ∧
    amoNew 2 bytes old v = some (a &&& b) ∧ amoNew 3 bytes old v = some (a ||| b) ∧
    amoNew 4 bytes old v = some (a ^^^ b) ∧
    amoNew 5 bytes old v = some (if toInt (8 * bytes) a ≤ toInt (8 * bytes) b then a else b) ∧
    amoNew 6 bytes old v = some (if toInt (8 * bytes) b ≤ toInt (8 * bytes) a then a else b) ∧
    amoNew 7 bytes old v = some (min a b) ∧ amoNew 8 bytes old v = some (max a b) ∧
    amoNew 9 8 old v = none ∧ (∀ op, 10 ≤ op → amoNew op bytes old v = none)) ∧
  (∀ (s : State) (c slot op rd rs1 rs2 : Nat) (dword aq : Bool) (ecc : Ecc) (t : Thread), issuing s c slot = some t →
    let n := if dword then 8 else 4
    let k := threadKey c slot
    (amoNew op n 0 (getX t rs2) = none →
      Sys2Proof.Machine.exec (.uamo c slot op rd rs1 rs2 dword aq false ecc) s = .next (settle (trapAt k 0x0340 s))) ∧
    (amoNew op n 0 (getX t rs2) ≠ none → getX t rs1 % n ≠ 0 →
      Sys2Proof.Machine.exec (.uamo c slot op rd rs1 rs2 dword aq false ecc) s = .next (settle (trapAt k 0x0343 s))) ∧
    (∀ dpa, amoNew op n 0 (getX t rs2) ≠ none → getX t rs1 % n = 0 →
      resolve s (threadOwner s t) (getX t rs1) 8 = .ok (.here dpa) → regionOf dpa ≠ some .regs →
      let u := applyEcc ecc dpa (chargeTc0 dpa t.utc s)
      poisonIn u dpa n = none →
      let old := ofLe (slice (readMem u (threadOwner s t) dpa n) 0 n)
      Sys2Proof.Machine.exec (.uamo c slot op rd rs1 rs2 dword aq false ecc) s =
        .next (settle (retire k 4 (setX rd (if n = 4 then ofInt 64 (toInt 32 old) else old))
          (deviceWrite k (threadOwner s t) dpa (leBytes n ((amoNew op n old (getX t rs2)).getD 0)) u))))) ∧
  (∀ (s : State) (c slot rd rs1 rs2 rs3 : Nat) (dword aq : Bool) (ecc : Ecc) (t : Thread), issuing s c slot = some t →
    let n := if dword then 8 else 4
    let k := threadKey c slot
    (getX t rs1 % n ≠ 0 → Sys2Proof.Machine.exec (.ucas c slot rd rs1 rs2 rs3 dword aq false ecc) s =
      .next (settle (trapAt k 0x0343 s))) ∧
    (∀ dpa, getX t rs1 % n = 0 → resolve s (threadOwner s t) (getX t rs1) 8 = .ok (.here dpa) →
      regionOf dpa ≠ some .regs →
      let u := applyEcc ecc dpa (chargeTc0 dpa t.utc s)
      poisonIn u dpa n = none →
      let old := ofLe (slice (readMem u (threadOwner s t) dpa n) 0 n)
      Sys2Proof.Machine.exec (.ucas c slot rd rs1 rs2 rs3 dword aq false ecc) s =
        .next (settle (retire k 4 (setX rd (if n = 4 then ofInt 64 (toInt 32 old) else old))
          (deviceWrite k (threadOwner s t) dpa (leBytes n
            (if old % 2 ^ (8 * n) = getX t rs2 % 2 ^ (8 * n) then getX t rs3 % 2 ^ (8 * n) else old)) u)))))

/-! Launches (chapter 4) -/

/-- R97–R101: LAUNCH's refusals and its acceptance; how the next group is placed and what a fresh thread holds; the end
of a group whose threads have ended, whose copies are over and whose accesses are performed. -/
def Obligations.LaunchesArePlacedAndEnd : Prop :=
  (∀ (s : State) (r : Nat) (p : Packet) (rest : List Packet), frontReady s r 0x20 1 [(16, 48)] p rest →
    let t := startedBy s r p rest
    let q := inflightOfPacket s r p
    let b := p.bytes
    let bad := getLe b 40 4 = 0 ∨ getLe b 44 1 = 0 ∨ 96 < getLe b 44 1 ∨ (getLe b 16 8).testBit 0 = true ∨
      getLe b 32 8 % 0x400000 ≠ 0 ∨ 1024 < getLe b 46 2 ∨ getLe b 45 1 / 8 ≠ 0
    let named := if getLe b 48 16 = 0 then List.range 128
      else (List.range 128).filter (fun i => (getLe b 48 16).testBit i)
    let cl := named.filter (fun c => leasedTo s c q.owner)
    (bad → Sys2Proof.Machine.exec (.launch r) s = .next (settle (finishPkt s.hif.nextId 0x0303 0 0 t))) ∧
    (¬ bad → launchByTag s q.owner q.tag ≠ none →
      Sys2Proof.Machine.exec (.launch r) s = .next (settle (finishPkt s.hif.nextId 0x0245 0 0 t))) ∧
    (¬ bad → launchByTag s q.owner q.tag = none → cl = [] →
      Sys2Proof.Machine.exec (.launch r) s = .next (settle (finishPkt s.hif.nextId 0x0241 0 0 t))) ∧
    (¬ bad → launchByTag s q.owner q.tag = none → cl ≠ [] → (∀ c ∈ cl, scrLimit s c < getLe b 46 2) →
      Sys2Proof.Machine.exec (.launch r) s = .next (settle (finishPkt s.hif.nextId 0x0240 0 0 t))) ∧
    (¬ bad → launchByTag s q.owner q.tag = none → (∃ c ∈ cl, getLe b 46 2 ≤ scrLimit s c) →
      Sys2Proof.Machine.exec (.launch r) s = .next (settle (updPkt s.hif.nextId
        (fun x => { x with wait := .launch, pendD := true }) { t with fab := { t.fab with
          launches := t.fab.launches ++ [{ id := s.hif.nextId, owner := q.owner, tag := q.tag, ring := r
                                           entry := getLe b 16 8, arg := getLe b 24 8, scrBase := getLe b 32 8
                                           groups := getLe b 40 4, threads := getLe b 44 1, utc := getLe b 45 1 % 4
                                           pack := (getLe b 45 1).testBit 2, scrPg := getLe b 46 2, clusters := cl }]
          icache := t.fab.icache.filter (fun x => !(cl.contains (x.core / 16))) } })))) ∧
  (∀ (s : State) (o : Nat), fclkRuns s = true →
    (placingLaunch s o = none → Sys2Proof.Machine.exec (.groupPlace o) s = .next (settle s)) ∧
    (∀ l, placingLaunch s o = some l →
      ((∀ c ∈ searchOrder l, roomFor s l c = none) →
        Sys2Proof.Machine.exec (.groupPlace o) s = .next (settle s)) ∧
      (∀ pre c pg post, searchOrder l = pre ++ c :: post → (∀ x ∈ pre, roomFor s l x = none) →
        roomFor s l c = some pg →
        Sys2Proof.Machine.exec (.groupPlace o) s = .next (settle (placeOn l c pg s))))) ∧
  (∀ (l : Launch) (g : Group) (i : Nat),
    (freshThread l g i).pc = l.entry ∧ (freshThread l g i).st = .active ∧ (freshThread l g i).utc = l.utc ∧
    (freshThread l g i).gid = g.gid ∧ getX (freshThread l g i) 10 = l.arg % 2 ^ 64 ∧
    getX (freshThread l g i) 11 = g.index % 2 ^ 64 ∧ getX (freshThread l g i) 12 = i % 2 ^ 64 ∧
    getX (freshThread l g i) 2 = (if l.scrPg = 0 then 0 else (ulocal l g + l.scrPg * 4096) % 2 ^ 64) ∧
    ∀ r, r ≠ 2 → r ≠ 10 → r ≠ 11 → r ≠ 12 → getX (freshThread l g i) r = 0) ∧
  (∀ (s : State) (gid : Nat) (g : Group), fclkRuns s = true → findGroup s gid = some g →
    (groupOver s g = false → Sys2Proof.Machine.exec (.groupEnd gid) s = .next (settle s)) ∧
    (groupOver s g = true → Sys2Proof.Machine.exec (.groupEnd gid) s = .next (settle (maybeLaunchDone g.launch
      (updLaunch g.launch (fun l => { l with groupsEnded := l.groupsEnded + 1 })
        (unseat g (leaveGrid g.cluster gid s)))))))

/-- R119–R122: SUSPEND stops a running launch, or is refused; its save, at the clean point, ends it; CONTINUE is refused
or restores a suspended launch; and the saved groups go back one at a time. -/
def Obligations.LaunchesSuspendAndContinue : Prop :=
  (∀ (s : State) (r : Nat) (p : Packet) (rest : List Packet), frontReady s r 0x22 1 [(16, 6), (24, 16)] p rest →
    let t := startedBy s r p rest
    let o := getLe p.bytes 21 1
    o < 64 → ((inflightOfPacket s r p).owner = 0 ∨ o = (inflightOfPacket s r p).owner) →
    getLe p.bytes 24 8 % 4096 = 0 → getLe p.bytes 20 1 < 2 →
    (ownerActive s o = false →
      Sys2Proof.Machine.exec (.suspend r) s = .next (settle (finishPkt s.hif.nextId 0x0225 0 0 t))) ∧
    (ownerActive s o = true → launchByTag s o (getLe p.bytes 16 4) = none →
      Sys2Proof.Machine.exec (.suspend r) s = .next (settle (finishPkt s.hif.nextId 0x0242 0 0 t))) ∧
    (∀ l, ownerActive s o = true → launchByTag s o (getLe p.bytes 16 4) = some l →
      (l.st ≠ .running ∨ l.stopped ≠ none →
        Sys2Proof.Machine.exec (.suspend r) s = .next (settle (finishPkt s.hif.nextId 0x0242 0 0 t))) ∧
      (l.st = .running → l.stopped = none → getLe p.bytes 32 8 < saveSize s l.id →
        Sys2Proof.Machine.exec (.suspend r) s = .next (settle (finishPkt s.hif.nextId 0x0244 0 0 t))) ∧
      (l.st = .running → l.stopped = none → saveSize s l.id ≤ getLe p.bytes 32 8 → getLe p.bytes 20 1 = 0 →
        Sys2Proof.Machine.exec (.suspend r) s = .next (settle (updPkt s.hif.nextId
          (fun q => { q with wait := .launch, pendD := true }) (updLaunch l.id (fun x => { x with
            st := .suspending
            job := some { id := s.hif.nextId, dva := getLe p.bytes 24 8, bytes := getLe p.bytes 32 8
                          force := false } }) t)))))) ∧
  (∀ (s : State) (o tag : Nat) (l : Launch) (j : SuspendJob), fclkRuns s = true → launchByTag s o tag = some l →
    l.st = .suspending → l.job = some j → j.force = false →
    (cleanPoint s l.id = false → Sys2Proof.Machine.exec (.suspendSaveDone o tag) s = .next (settle s)) ∧
    (cleanPoint s l.id = true →
      let gs := groupsByIndex s l.id
      let u := gs.foldl (fun t g => if holdsGrid t g then preempt g.cluster t else t) s
      let body := (gs.map (groupRecord u l)).flatten
      let area := chunks 64 (4096 + body.length) j.dva (launchHeader u l (4096 + body.length) gs.length ++ body)
      (∀ v dva e, saveLines o area u = (v, some (dva, e)) →
        Sys2Proof.Machine.exec (.suspendSaveDone o tag) s = .next (settle (finishPkt j.id (endStatus s o e) 0 0
          (markLogged j.id (updLaunch l.id (fun x => { x with st := .running, job := none })
            (reportErr { owner := o, agent := 7, index := 0, source := 0x04 } 2 dva e v)))))) ∧
      (∀ v, saveLines o area u = (v, none) →
        Sys2Proof.Machine.exec (.suspendSaveDone o tag) s = .next (settle (finishPkt j.id 0 0 0
          (updLaunch l.id (fun x => { x with st := .suspended, job := none, saved := gs.map (savedOf u l) })
            (gs.foldl (fun t g => unseat g (leaveGrid g.cluster g.gid
                (if holdsGrid t g then updGrid g.cluster (fun x => { x with queue := [] }) t else t)))
              (updOwner o (fun w => { w with
                parks := w.parks.map (fun k => { k with agent := savePark l.id gs k.agent }) }) v)))))))) ∧
  (∀ (s : State) (r : Nat) (p : Packet) (rest : List Packet), frontReady s r 0x23 1 [(16, 6), (24, 8)] p rest →
    let t := startedBy s r p rest
    let o := getLe p.bytes 21 1
    o < 64 → ((inflightOfPacket s r p).owner = 0 ∨ o = (inflightOfPacket s r p).owner) →
    getLe p.bytes 24 8 % 4096 = 0 → getLe p.bytes 20 1 = 0 → ownerActive s o = true →
    (∀ l, launchByTag s o (getLe p.bytes 16 4) = some l → l.st ≠ .suspended →
      Sys2Proof.Machine.exec (.contin r) s = .next (settle (finishPkt s.hif.nextId 0x0242 0 0 t))) ∧
    (∀ l b, launchByTag s o (getLe p.bytes 16 4) = some l → l.st = .suspended →
      readArea t o (chunks 64 (4096 + l.saved.foldl (fun n g =>
          n + recBytes g.group.slots.length g.group.scrPg g.gridHeld) 0) (getLe p.bytes 24 8)
        (zeros (4096 + l.saved.foldl (fun n g =>
          n + recBytes g.group.slots.length g.group.scrPg g.gridHeld) 0))) = .ok b →
      (readSave l b = none →
        Sys2Proof.Machine.exec (.contin r) s = .next (settle (finishPkt s.hif.nextId 0x034A 0 0 t))) ∧
      (∀ saved, readSave l b = some saved →
        ((∃ g ∈ saved, (leaseAt s g.group.cluster).owner ≠ some o) →
          Sys2Proof.Machine.exec (.contin r) s = .next (settle (finishPkt s.hif.nextId 0x0243 0 0 t))) ∧
        ((∀ g ∈ saved, (leaseAt s g.group.cluster).owner = some o) →
          Sys2Proof.Machine.exec (.contin r) s = .next (settle (updPkt s.hif.nextId
            (fun q => { q with wait := .launch }) (updLaunch l.id (fun x => { x with
              st := .restoring, saved := saved
              job := some { id := s.hif.nextId, dva := getLe p.bytes 24 8, bytes := 0, force := false } }) t))))))) ∧
  (∀ (s : State) (o tag : Nat) (l : Launch), fclkRuns s = true → launchByTag s o tag = some l →
    (l.st ≠ .restoring → Sys2Proof.Machine.exec (.continuePlace o tag) s = .next (settle s)) ∧
    (l.st = .restoring → findLaunch s l.id = some l → l.saved.all (·.placed) = true →
      Sys2Proof.Machine.exec (.continuePlace o tag) s = .next (settle (restartLaunch l s))) ∧
    (∀ g m, l.st = .restoring → l.saved.find? (fun g => !g.placed && canSeat s o g) = some g →
      findLaunch (seatSaved l g s) l.id = some m →
      Sys2Proof.Machine.exec (.continuePlace o tag) s = .next (settle
        (if m.saved.all (·.placed) = true then restartLaunch m (seatSaved l g s) else seatSaved l g s))))

/-! The Tensor Grid (chapter 5) -/

/-- R105, R139–R141, R145, R147: how the grid is asked for, tried, granted and released; what UTGET, UTWAIT and UTFLAGS
answer. -/
def Obligations.TheGridIsHeldByOneGroup : Prop :=
  ∀ (s : State) (c slot : Nat) (t : Thread), issuing s c slot = some t →
    let k := threadKey c slot
    let g := gridAt s c
    (g.heldBy t.gid = true → Sys2Proof.Machine.exec (.ugridAcq c slot) s = .next (settle (retire k 4 id s))) ∧
    (g.heldBy t.gid = false → g.holder = none → g.waiters = [] →
      Sys2Proof.Machine.exec (.ugridAcq c slot) s = .next (settle (retire k 4 id (updGrid c (fun g => { g with
        holder := some t.gid, cfg := [0, 0, 0, 0, 0, 0, 0, 0], flags := 0, releasing := false
        waiters := g.waiters.filter (· != t.gid) }) s)))) ∧
    (g.heldBy t.gid = false → g.holder ≠ none ∨ g.waiters ≠ [] →
      Sys2Proof.Machine.exec (.ugridAcq c slot) s = .next (settle (updGrid c (fun x =>
        if x.waiters.contains t.gid then x else { x with waiters := x.waiters ++ [t.gid] })
        (updThread k (fun x => { x with st := .waitGrid }) s)))) ∧
    (∀ rd, g.heldBy t.gid = true →
      Sys2Proof.Machine.exec (.ugridTry c slot rd) s = .next (settle (retire k 4 (setX rd 1) s))) ∧
    (∀ rd, g.heldBy t.gid = false → g.holder = none → g.waiters = [] →
      Sys2Proof.Machine.exec (.ugridTry c slot rd) s =
        .next (settle (retire k 4 (setX rd 1) (updGrid c (Grid.grant t.gid) s)))) ∧
    (∀ rd, g.heldBy t.gid = false → g.holder ≠ none ∨ g.waiters ≠ [] →
      Sys2Proof.Machine.exec (.ugridTry c slot rd) s = .next (settle (retire k 4 (setX rd 0) s))) ∧
    (g.heldBy t.gid = false →
      Sys2Proof.Machine.exec (.ugridRel c slot) s = .next (settle (trapAt k 0x0347 s))) ∧
    (g.heldBy t.gid = true → g.queue ≠ [] →
      Sys2Proof.Machine.exec (.ugridRel c slot) s =
        .next (settle (updGrid c (fun g => { g with releasing := true }) (retire k 4 id s)))) ∧
    (g.heldBy t.gid = true → g.queue = [] →
      Sys2Proof.Machine.exec (.ugridRel c slot) s =
        .next (settle (grantNext c (updGrid c (fun g => { g with releasing := true }) (retire k 4 id s))))) ∧
    (∀ rd rs1, g.heldBy t.gid = true → 8 ≤ getX t rs1 →
      Sys2Proof.Machine.exec (.utget c slot rd rs1) s = .next (settle (trapAt k 0x0340 s))) ∧
    (∀ rd rs1, g.heldBy t.gid = true → getX t rs1 < 8 → Sys2Proof.Machine.exec (.utget c slot rd rs1) s =
      .next (settle (retire k 4 (setX rd ((cfgAfter g).getD (getX t rs1) 0)) s))) ∧
    (∀ rd, g.heldBy t.gid = true → Sys2Proof.Machine.exec (.utflags c slot rd) s =
      .next (settle (retire k 4 (setX rd g.flags) (updGrid c (fun g => { g with flags := 0 }) s)))) ∧
    (slot < 96 → g.heldBy t.gid = true → g.queue ≠ [] → Sys2Proof.Machine.exec (.utwait c slot) s =
      .next (settle (updThread k (fun x => { x with st := .waitTensor }) s))) ∧
    (slot < 96 → g.heldBy t.gid = true → g.queue = [] →
      ∃ u, Sys2Proof.Machine.exec (.utwait c slot) s = .next (settle u) ∧
        threadAt u k = some { t with pc := (t.pc + 4) % 2 ^ 64 } ∧ (∀ j, j ≠ k → threadAt u j = threadAt s j) ∧
        u = { s with fab := { s.fab with threads := u.fab.threads } })

/-- R140, R142, R143, R145: what a tensor instruction of the holding group does at issue, for every queued operation; how
the next entry starts; and how a started entry lands. -/
def Obligations.TensorEntriesQueueStartAndLand : Prop :=
  (∀ (s : State) (c slot rs1 rs2 : Nat) (t : Thread), issuing s c slot = some t → (gridAt s c).heldBy t.gid = true →
    let k := threadKey c slot
    (∀ row op word, (row, op, word) ∈ [(Instr.utset c slot rs1 rs2, TOp.utset, tensorWord 0 0 rs2 rs1),
        (Instr.utldw c slot rs1 rs2, TOp.utldw, tensorWord 0 1 rs2 rs1),
        (Instr.utmma c slot rs1 rs2, TOp.utmma, tensorWord 0 2 rs2 rs1),
        (Instr.utst c slot rs1 rs2, TOp.utst, tensorWord 0 3 rs2 rs1),
        (Instr.utldacc c slot rs1 rs2, TOp.utldacc, tensorWord 1 3 rs2 rs1),
        (Instr.utcvt c slot rs1 rs2, TOp.utcvt, tensorWord 0 4 rs2 rs1)] →
      let e : TEntry := { op := op, insn := word, rs1 := getX t rs1, rs2 := getX t rs2, slot := slot }
      (∀ st, entryTrap (gridAt s c) e = some st →
        Sys2Proof.Machine.exec row s = .next (settle (trapAt k st s))) ∧
      (entryTrap (gridAt s c) e = none → 16 ≤ (gridAt s c).queue.length →
        Sys2Proof.Machine.exec row s = .next (settle s)) ∧
      (entryTrap (gridAt s c) e = none → (gridAt s c).queue.length < 16 →
        Sys2Proof.Machine.exec row s =
          .next (settle (retire k 4 id (updGrid c (fun g => { g with queue := g.queue ++ [e] }) s))))) ∧
    (rs1 ≠ 0 → Sys2Proof.Machine.exec (.utzero c slot rs1 rs2) s = .next (settle (trapAt k 0x0340 s))) ∧
    (getX t rs2 &&& 0x300 = getX t rs2 → (gridAt s c).queue.length < 16 →
      Sys2Proof.Machine.exec (.utzero c slot 0 rs2) s = .next (settle (retire k 4 id (updGrid c (fun g => { g with
        queue := g.queue ++ [{ op := .utzero, insn := tensorWord 2 3 rs2 0, rs1 := 0, rs2 := getX t rs2
                               slot := slot }] }) s)))) ∧
    (getX t rs2 &&& 0x300 ≠ getX t rs2 →
      Sys2Proof.Machine.exec (.utzero c slot 0 rs2) s = .next (settle (trapAt k 0x0340 s)))) ∧
  (∀ (s : State) (c : Nat) (e : TEntry) (before after : List TEntry), fclkRuns s = true →
    (gridAt s c).queue = before ++ e :: after → (∀ x ∈ before, x.started = true) → e.started = false →
    threadAwaits s (threadKey c e.slot) = false →
    ((∃ x ∈ before, holdsBack e (gridAt s c).cfg x = true) →
      Sys2Proof.Machine.exec (.tensorEntryStart c) s = .next (settle (updGrid c Grid.start s)) ∧
      Grid.start (gridAt s c) = gridAt s c) ∧
    ((∀ x ∈ before, holdsBack e (gridAt s c).cfg x = false) →
      Sys2Proof.Machine.exec (.tensorEntryStart c) s = .next (settle (updGrid c Grid.start s)) ∧
      Grid.start (gridAt s c) = { gridAt s c with
        queue := before ++ { e with started := true, cfg := (gridAt s c).cfg } :: after
        cfg := if e.op = .utset then (gridAt s c).cfg.set e.rs1 e.rs2 else (gridAt s c).cfg })) ∧
  (∀ (s : State) (c pos : Nat) (ecc : Ecc) (e : TEntry), fclkRuns s = true → (gridAt s c).queue[pos]? = some e →
    (e.started = false → Sys2Proof.Machine.exec (.tensorEntryComplete c pos ecc) s = .next (settle s)) ∧
    (e.started = true → Sys2Proof.Machine.exec (.tensorEntryComplete c pos ecc) s =
      .next (settle (settleRelease c (updGrid c (fun g => { g with queue := g.queue.eraseIdx pos })
        (if e.op = .utst then entryEffect c e (tensorEcc c e ecc s) else tensorEcc c e ecc (entryEffect c e s)))))))

/-- R138, with R142's banks: the word a row of an integer class leaves in its bank. The K products of a column are formed
and summed exactly, the word already there is added when ACC is 1, and the result saturates; a saturation sets OF. -/
def Obligations.IntegerMatrixWordsSaturate : Prop :=
  (∀ (cfg : List Nat) (k : Cls) (acc : Bool) (old : Nat) (a asc b bsc : List Byte) (col : Nat), k.float = false →
    let x := ((List.range k.k).map (fun i =>
        decodeInt (afmt cfg) (getElem (fmtWidth (afmt cfg)) a i) *
        decodeInt (bfmt cfg) (getElem (fmtWidth (bfmt cfg)) (b.drop (i * runBytes (bfmt cfg) 128)) col))).sum +
      (if acc then toInt 32 old else 0)
    (x < -2147483648 → mmaWord cfg k acc old a asc b bsc col = (0x80000000, 2)) ∧
    (2147483647 < x → mmaWord cfg k acc old a asc b bsc col = (0x7FFFFFFF, 2)) ∧
    (-2147483648 ≤ x → x ≤ 2147483647 →
      toInt 32 (mmaWord cfg k acc old a asc b bsc col).1 = x ∧ (mmaWord cfg k acc old a asc b bsc col).2 = 0)) ∧
  (∀ (s : State) (c : Nat) (e : TEntry) (k : Cls) (i : Nat) (g : Grid) (col : Nat), col < 128 →
    scaleOn e.cfg = false →
    let p := g.planeOf e.plane
    let a := scratchBytes s c (e.rs1 + i * cfgAt e.cfg 1) (runBytes (afmt e.cfg) k.k)
    let w := mmaWord e.cfg k e.acc (g.word e.bank (e.row0 + i) col) a [] p.bytes p.scales col
    (mmaRow s c e k i g).word e.bank (e.row0 + i) col = w.1 % 2 ^ 32 ∧
    (∀ b r d, d < 128 → (b, r) ≠ (e.bank, e.row0 + i) → r < 128 → e.row0 + i < 128 →
      (mmaRow s c e k i g).word b r d = g.word b r d) ∧
    (∀ j, w.2.testBit j = true ∨ g.flags.testBit j = true → (mmaRow s c e k i g).flags.testBit j = true))

/-! Movers, memory and background work (chapter 6) -/

/-- R108, R164–R168: a chain's next descriptor is fetched, checked and taken up; its steps copy or fill this chip's
memory; a descriptor that is over gets its RESULT and the chain goes on or ends; a finished chain leaves its channel. -/
def Obligations.MoverChainsRunDescriptors : Prop :=
  (∀ (s : State) (ch : Nat) (c : Chain), fclkRuns s = true →
    pickChain s ch (fun x => x.phase == .fetch && x.parked.isNone) = some c →
    (c.count = 4096 → Sys2Proof.Machine.exec (.descriptorStart ch) s = .next (settle (descOver ch c.cid 0x0362
      (updChain ch c.cid (fun x => { x with desc := none, done := 0 }) (logDesc ch c 0x0362 s))))) ∧
    (∀ dpa, c.count ≠ 4096 → resolve (updChain ch c.cid (fun x => { x with done := 0 }) s) c.owner c.dva 1 = .ok (.here dpa) →
      let t := updChain ch c.cid (fun x => { x with done := 0 }) s
      poisonIn t dpa 64 = none →
      let u := updChain ch c.cid (fun x => { x with count := x.count + 1 }) (countBytes dpa 64 false t)
      let b := readMem t c.owner dpa 64
      (∀ st, descError (decide (512 ≤ ch)) b = some st →
        Sys2Proof.Machine.exec (.descriptorStart ch) s =
          .next (settle (descOver ch c.cid st (logDesc ch { c with done := 0 } st u)))) ∧
      (descError (decide (512 ≤ ch)) b = none →
        Sys2Proof.Machine.exec (.descriptorStart ch) s = .next (settle (updChain ch c.cid (fun x => { x with
          desc := some (parseDesc b), phase := .steps, row := 0, off := 0, done := 0 }) u))))) ∧
  (∀ (s : State) (ch : Nat) (ecc : Ecc) (host : Option (List Byte)) (c : Chain) (d : Desc) (dst : Nat),
    fclkRuns s = true → stepChain s ch = some c → c.desc = some d →
    let n := (stepOf d c).2.2
    (resolve s c.owner (stepOf d c).2.1 2 = .ok (.here dst) → d.dstHost = false → d.fill = true →
      Sys2Proof.Machine.exec (.moverStep ch ecc host) s = .next (settle (stepDone ch c.cid n
        (deviceWrite notThread c.owner dst ((List.range n).map (fun i =>
          BitVec.ofNat 8 (d.src / 2 ^ (8 * ((c.off + i) % 8))))) (chargeTc0 dst d.tc s))))) ∧
    (∀ bs, resolve s c.owner (stepOf d c).2.1 2 = .ok (.here dst) → d.dstHost = false → d.fill = false →
      d.srcHost = true → host = some bs →
      ∃ u, Sys2Proof.Machine.exec (.moverStep ch ecc host) s = .next (settle (stepDone ch c.cid (slice bs 0 n).length
          (deviceWrite notThread c.owner dst (slice bs 0 n) (chargeTc0 dst d.tc u)))) ∧
        u = { s with out := s.out ++ [.hostRead c.owner (stepOf d c).1 n] }) ∧
    (d.fill = false → d.srcHost = true → d.dstHost = true → host = none →
      Sys2Proof.Machine.exec (.moverStep ch ecc host) s = .next (settle (chainHostError ch c (stepOf d c).1
        { s with out := s.out ++ [.hostRead c.owner (stepOf d c).1 n] }))) ∧
    (∀ src, resolve s c.owner (stepOf d c).1 1 = .ok (.here src) → regionOf src ≠ some .regs → d.dstHost = false →
      resolve s c.owner (stepOf d c).2.1 2 = .ok (.here dst) → d.fill = false → d.srcHost = false →
      let u := applyEcc ecc src (countBytes src n false (chargeTc0 src d.tc s))
      (∀ a, poisonIn u src n = some a → d.poisonPass = false →
        Sys2Proof.Machine.exec (.moverStep ch ecc host) s = .next (settle (descOver ch c.cid 0x0460 (markChain c
          (reportPoison (chainWho u ch c) 1 ((stepOf d c).1 + (a - src)) a u))))) ∧
      (poisonIn u src n = none →
        Sys2Proof.Machine.exec (.moverStep ch ecc host) s = .next (settle (stepWrite ch c d (stepOf d c).2.1
          (readMem u c.owner src n) ((List.range n).filter (fun o => poisonedAt u (src + o))) u))))) ∧
  (∀ (c : Chain), (isOver c = true ↔ ∃ st, c.phase = .curOver st) ∧ (isFinished c = true ↔ ∃ st, c.phase = .finished st)) ∧
  (∀ (s : State) (ch : Nat) (c : Chain) (st : Nat), fclkRuns s = true →
    pickChain s ch isOver = some c → c.phase = .curOver st →
    let next := if c.ownDesc = true then 0 else (c.desc.map (·.next)).getD 0
    Sys2Proof.Machine.exec (.descriptorEnd ch) s = .next (settle (updChain ch c.cid (fun x => { x with
      total := x.total + x.done
      done := 0
      phase := if st ≠ 0 then .finished st
        else if x.cancel.isSome = true then .finished (x.cancel.getD 0)
        else if next = 0 then .finished 0 else .fetch
      dva := if st = 0 ∧ next ≠ 0 then next else x.dva
      desc := none, tc0 := x.tc }) (writeResult ch c st c.done true s)))) ∧
  (∀ (s : State) (ch : Nat) (c : Chain) (st : Nat),
    pickChain s ch isFinished = some c → c.phase = .finished st →
    (awaits s (· == .moverResult c.cid) = true →
      Sys2Proof.Machine.exec (.moverChainComplete ch) s = .next (settle s)) ∧
    (awaits s (· == .moverResult c.cid) = false →
      Sys2Proof.Machine.exec (.moverChainComplete ch) s = .next (settle (finishChain ch c st s))))

/-- R155, R156, R160, R171–R174: write-backs, the TC0 window, the patrols, a stack's failure and refresh rate, the
telemetry page and the flash's erasure. -/
def Obligations.BackgroundWorkRuns : Prop :=
  ∀ (s : State),
    (∀ line, fclkRuns s = true → Sys2Proof.Machine.exec (.ceWriteback line) s = .next (settle { s with
      mov := { s.mov with writebacks := s.mov.writebacks.filter (· != line) } })) ∧
    (∀ r, fclkRuns s = true → Sys2Proof.Machine.exec (.tc0WindowExpiry r) s = .next (settle { s with
      mov := { s.mov with tc0Used := Tbl.erase s.mov.tc0Used r } })) ∧
    (∀ tier ecc, fclkRuns s = true → isOn s = true → chipReady s = true → scrubOn s tier = true →
      Sys2Proof.Machine.exec (.patrolRead tier ecc) s = .next (settle (patrolMoves tier (patrolNext s tier)
        (if stackFailed s (patrolNext s tier) = true then s else applyEcc ecc (patrolNext s tier) s)))) ∧
    (∀ tier ecc, isOn s = false ∨ chipReady s = false ∨ scrubOn s tier = false →
      Sys2Proof.Machine.exec (.patrolRead tier ecc) s = .next (settle s)) ∧
    (∀ a, a ≠ 0x30_0000_0000 - 64 → patrolMoves false a s = { s with mov := { s.mov with hbmNext := a + 64 } }) ∧
    (patrolMoves true (0x40_8000_0000 - 64) s = { s with mov := { s.mov with
      tierNext := 0x40_0000_0000, tierPasses := s.mov.tierPasses + 1, tierTime := 0, tierFrom := s.dts
      tierLate := false } }) ∧
    (fclkRuns s = true → isOn s = true → chipReady s = true → scrubOn s true = true → s.mov.tierLate = false →
      let due := s.mov.tierFrom - s.mov.tierTime + regFld s 0x2D00008 10 0 * 60000000000
      Sys2Proof.Machine.exec (.patrolPeriodExpiry true) s = .next (settle
        { orReg 0x2D00024 2 { s with dts := max s.dts (due + 1) } with mov := { s.mov with tierLate := true } })) ∧
    (∀ k, k < 8 → fclkRuns s = true → s.mov.hbmTrained.testBit k = true →
      Sys2Proof.Machine.exec (.hbmStackFail k) s = .next (settle (logErr
        { cls := 6, cause := 2, sev := sevFatal, source := 0x18, index := k }
        { s with mov := { s.mov with hbmTrained := s.mov.hbmTrained - 2 ^ k
                                     hbmFailed := s.mov.hbmFailed ||| 2 ^ k } }))) ∧
    (∀ k twice, k < 8 → fclkRuns s = true →
      Sys2Proof.Machine.exec (.hbmRefreshRateChange k twice) s = .next (settle { s with
        mov := { s.mov with refresh2x := setFld s.mov.refresh2x k k (if twice then 1 else 0) } })) ∧
    (isOn s = false → Sys2Proof.Machine.exec .telemetrySample s = .next (settle s)) ∧
    (isOn s = true → regBit s 0x2D00000 3 = true → hostUp s = true →
      ∃ t, Sys2Proof.Machine.exec .telemetrySample s = .next (settle t) ∧
        t.mov = { s.mov with samples := s.mov.samples + 1, generation := add32 s.mov.generation 1, hbmRd := 0, hbmWr := 0
                             tierRd := 0, tierWr := 0, ceWindow := 0, ueWindow := 0 }) ∧
    (islandRuns s = true → erasedBlocks s < 2 → (∀ t, s.err.lastErase = some t → t + 10000000000 ≤ s.dts) →
      Sys2Proof.Machine.exec (.flashErase true) s = .next (settle { s with err := { s.err with
        flashFailing := false, flash := s.err.flash.drop 1024, lastErase := some s.dts } }) ∧
      Sys2Proof.Machine.exec (.flashErase false) s =
        .next (settle (flashFails { s with err := { s.err with lastErase := some s.dts } }))) ∧
    (∀ ok, islandRuns s = false ∨ 2 ≤ erasedBlocks s ∨
        (∃ t, s.err.lastErase = some t ∧ s.dts < t + 10000000000) → Sys2Proof.Machine.exec (.flashErase ok) s = .next (settle s))

/-! Command rings and the host port (chapter 7) -/

/-- R190–R194, R210: a ring is enabled at HEAD 0, its doorbell announces units or stops it, its packets are fetched in
turn and answered, a free completion slot takes a held record, and EN 0 cancels what has not started. -/
def Obligations.RingsAreEnabledFetchedAndClosed : Prop :=
  (∀ (s : State) (r : Requester) (k q v : Nat) (d : RegDef), q < 1024 →
    writesPlain s r (ringView r k 8) (ringReg q 8) d (setFld v 31 31 1) →
    let t := written s (ringReg q 8) d (setFld v 31 31 1)
    regBit t (ringReg q 8) 31 = true ∧
    ((ringAt s q).st = .disabled → Sys2Proof.Machine.exec (.ringEnable r k v) s = .next (settle
      (updRing q (fun _ => { st := .running }) (setRaw (ringReg q 0x20) 0 (setRaw (ringReg q 0x10) 0 t))))) ∧
    ((ringAt s q).st ≠ .disabled → Sys2Proof.Machine.exec (.ringEnable r k v) s = .next (settle t))) ∧
  (∀ (s : State) (r : Requester) (k q v : Nat) (d : RegDef), q < 1024 →
    writesPlain s r (ringView r k 8) (ringReg q 8) d (setFld v 31 31 0) →
    let t := written s (ringReg q 8) d (setFld v 31 31 0)
    regBit t (ringReg q 8) 31 = false ∧
    ((ringAt s q).st = .disabled ∨ (ringAt s q).closing = true →
      Sys2Proof.Machine.exec (.ringDisable r k v) s = .next (settle t)) ∧
    ((ringAt s q).st ≠ .disabled → (ringAt s q).closing = false →
      Sys2Proof.Machine.exec (.ringDisable r k v) s = .next (settle (maybeDisabled q
        (updRing q (fun g => { g with closing := true, fetching := 0 }) (cancelFetched q 0x0503 t)))))) ∧
  (∀ (t : State) (q : Nat), (ringAt t q).closing = true → inflightOf t q = [] → (ringAt t q).held = [] →
    maybeDisabled q t = updRing q (fun g => { g with
      st := .disabled, cause := 0, closing := false, fetched := [], fetching := 0 }) t) ∧
  (∀ (s : State) (r : Requester) (k q tail : Nat) (d : RegDef), q < 1024 →
    writesPlain s r (ringView r k 0x10) (ringReg q 0x10) d tail →
    let t := written s (ringReg q 0x10) d tail
    rawAt t (ringReg q 0x10) % 2 ^ 32 = tail ∧
    ((ringAt s q).st ≠ .running ∨ sub32 tail (ringAt s q).head ≤ ringUnits s q →
      Sys2Proof.Machine.exec (.doorbell r k tail) s = .next (settle t)) ∧
    ((ringAt s q).st = .running → ringUnits s q < sub32 tail (ringAt s q).head →
      Sys2Proof.Machine.exec (.doorbell r k tail) s = .next (settle (logErr
        { cls := 1, cause := 3, sev := sevNotice, status := 0x0306, addr := ringNumber s q, addrKind := 7
          owner := ringOwner s q, source := 4, index := q }
        (updRing q (fun g => { g with st := .stopped, cause := 1 }) t))))) ∧
  (∀ (s : State) (r : Requester) (k q v : Nat) (d : RegDef), q < 1024 →
    writesPlain s r (ringView r k 0x20) (ringReg q 0x20) d v →
    let t := written s (ringReg q 0x20) d v
    Sys2Proof.Machine.exec (.cqHeadWrite r k v) s =
      .next (settle (maybeDisabled q (drainCq q (ringAt s q).held.length t)))) ∧
  (∀ (s : State) (q n : Nat) (c : Record) (rest : List Record), (ringAt s q).held = c :: rest →
    drainCq q (n + 1) s = if cqFree s q = true then
      drainCq q n (writeRecord q ((ringOwner s q).getD 0) c (updRing q (fun g => { g with held := rest }) s)) else s) ∧
  (∀ (s : State), isOn s = true → hostUp s = true →
    (nextFetch s = none → Sys2Proof.Machine.exec .ringFetch s = .next (settle s)) ∧
    (∀ level o q, nextFetch s = some (level, o, q) →
      mayFetch s q = true ∧ ringOwner s q = some o ∧ level = b2n (ringUrgent s q) ∧
      Sys2Proof.Machine.exec .ringFetch s = .next (settle { s with
        hif := { s.hif with
          rings := Tbl.upd {} s.hif.rings q (fun g => { g with fetching := min (unfetched s q) 64 })
          lastOwner := Tbl.set 63 s.hif.lastOwner level o
          lastRing := Tbl.set 1023 s.hif.lastRing (level * 64 + o) q }
        out := s.out ++ fetchReads s q o (min (unfetched s q) 64) }))) ∧
  (∀ (s : State) (q : Nat) (bs : List Byte), hostUp s = true → (ringAt s q).fetching ≠ 0 →
    (ringAt s q).st = .running → isOn s = true →
    let ps := cutPackets (ringAt s q).fetching (ringAt s q).fetching bs
    Sys2Proof.Machine.exec (.ringFetchComplete q .ok bs) s = .next (settle (updRing q (fun g => { g with
      head := add32 g.head (ps.foldl (fun t p => t + p.length / 64) 0)
      fetched := g.fetched ++ ps.map (fun b => { bytes := b, fetched := s.dts }) })
      (updRing q (fun g => { g with fetching := 0 }) s)))) ∧
  (∀ (s : State) (q o : Nat) (bs : List Byte), hostUp s = true → (ringAt s q).fetching ≠ 0 →
    (ringAt s q).st = .running → ringOwner s q = some o →
    Sys2Proof.Machine.exec (.ringFetchComplete q .error bs) s = .next (settle (hostError 2 o
      (regFld s (ringReg q 0) 63 12 * 4096 + (ringAt s q).head % ringUnits s q * 64) 7 0
      (updRing q (fun g => { g with st := .stopped, cause := 2 }) (updRing q (fun g => { g with fetching := 0 }) s))))) ∧
  (∀ (s : State) (q : Nat) (p : Packet) (rest : List Packet), (ringAt s q).fetched = p :: rest →
    (getLe p.bytes 8 8 ≤ p.fetched + 2 ^ 36 → Sys2Proof.Machine.exec (.packetNotBeforeReached q) s =
      .next (settle { s with dts := max s.dts (getLe p.bytes 8 8) })) ∧
    (p.fetched + 2 ^ 36 < getLe p.bytes 8 8 →
      Sys2Proof.Machine.exec (.packetNotBeforeReached q) s = .next (settle s)))

/-- R187–R189, R196–R200, R206, R207: what the front end's own packets do: NOP, an opcode that nothing allots, FENCE,
SIGNAL, TIMESTAMP, INLINE_WRITE and WAIT with its poll and its timeout, and the flush read that ends a packet which wrote
to the host. -/
def Obligations.FrontEndPacketsRun : Prop :=
  (∀ (s : State) (r : Nat) (p : Packet) (rest : List Packet), frontReady s r 0 1 [] p rest →
    Sys2Proof.Machine.exec (.nop r) s = .next (settle (endPkt s.hif.nextId 0 0 0 (startedBy s r p rest)))) ∧
  (∀ (s : State) (r : Nat) (p : Packet) (rest : List Packet), (ringAt s r).fetched = p :: rest →
    opListed (getLe p.bytes 0 1) = false → canStart s r p = true →
    ownerActive s (inflightOfPacket s r p).owner = true →
    Sys2Proof.Machine.exec (.nop r) s = .next (settle (finishPkt s.hif.nextId
      (if 0x60 ≤ getLe p.bytes 0 1 ∧ getLe p.bytes 0 1 < 0x80 ∧ (inflightOfPacket s r p).owner ≠ 0 then 0x0328 else 0x0301)
      0 0 (startedBy s r p rest)))) ∧
  (∀ (s : State) (id status r0 r1 : Nat) (q : Inflight), findPkt s id = some q →
    (q.lastHost = none → endPkt id status r0 r1 s = finishPkt id status r0 r1 s) ∧
    (∀ a, q.lastHost = some a → q.muted = false → endPkt id status r0 r1 s =
      updPkt id (fun x => { x with wait := .flush status r0 r1, pendD := false, pendH := false })
        (emit (.hostRead q.owner a 0) s))) ∧
  (∀ (s : State) (r : Nat) (p : Packet) (rest : List Packet), frontReady s r 1 1 [] p rest →
    let t := startedBy s r p rest
    (earlierOpen t (inflightOfPacket s r p) = true → Sys2Proof.Machine.exec (.fence r) s =
      .next (settle (updPkt s.hif.nextId (fun q => { q with wait := .fence }) t))) ∧
    (earlierOpen t (inflightOfPacket s r p) = false → Sys2Proof.Machine.exec (.fence r) s =
      .next (settle (endPkt s.hif.nextId 0 0 0 t)))) ∧
  (∀ (s : State) (r : Nat) (p : Packet) (rest : List Packet), frontReady s r 2 1 [(16, 17)] p rest →
    let t := startedBy s r p rest
    let q := inflightOfPacket s r p
    let a := getLe p.bytes 16 8
    let v := getLe p.bytes 24 8
    let fl := getLe p.bytes 32 1
    (a % 8 ≠ 0 ∨ 3 ≤ fl → Sys2Proof.Machine.exec (.signal r) s = .next (settle (finishPkt s.hif.nextId 0x0303 0 0 t))) ∧
    (a % 8 = 0 → fl < 3 → flagHeld t q (fl == 1) = true →
      Sys2Proof.Machine.exec (.signal r) s = .next (settle (waitFlag q t))) ∧
    (a % 8 = 0 → fl = 1 → flagHeld t q true = false →
      Sys2Proof.Machine.exec (.signal r) s =
        .next (settle (endPkt s.hif.nextId 0 0 0 (pktHostWrite q a (leBytes 8 v) true t)))) ∧
    (∀ dpa, a % 8 = 0 → fl = 0 → flagHeld t q false = false → resolve t q.owner a 2 = .ok (.here dpa) →
      Sys2Proof.Machine.exec (.signal r) s = .next (settle (endPkt s.hif.nextId 0 0 0
        (deviceWrite notThread q.owner dpa (leBytes 8 v) (chargeTc0 dpa q.tc t))))) ∧
    (∀ dpa, a % 8 = 0 → fl = 2 → flagHeld t q false = false → resolve t q.owner a 8 = .ok (.here dpa) →
      poisonIn t dpa 8 = none →
      Sys2Proof.Machine.exec (.signal r) s = .next (settle (endPkt s.hif.nextId 0 0 0 (deviceWrite notThread q.owner dpa
        (leBytes 8 (getLe (readMem t q.owner dpa 8) 0 8 + v)) t))))) ∧
  (∀ (s : State) (r : Nat) (p : Packet) (rest : List Packet), frontReady s r 4 1 [(16, 9)] p rest →
    let t := startedBy s r p rest
    let q := inflightOfPacket s r p
    let a := getLe p.bytes 16 8
    let fl := getLe p.bytes 24 1
    (a = 0 → fl < 2 → Sys2Proof.Machine.exec (.timestamp r) s = .next (settle (endPkt s.hif.nextId 0 s.dts 0 t))) ∧
    (a ≠ 0 → a % 8 = 0 → fl = 1 → flagHeld t q true = false → Sys2Proof.Machine.exec (.timestamp r) s =
      .next (settle (endPkt s.hif.nextId 0 s.dts 0 (pktHostWrite q a (leBytes 8 s.dts) true t)))) ∧
    (∀ dpa, a ≠ 0 → a % 8 = 0 → fl = 0 → flagHeld t q false = false → resolve t q.owner a 2 = .ok (.here dpa) →
      Sys2Proof.Machine.exec (.timestamp r) s = .next (settle (endPkt s.hif.nextId 0 s.dts 0
        (deviceWrite notThread q.owner dpa (leBytes 8 s.dts) (chargeTc0 dpa q.tc t)))))) ∧
  (∀ (s : State) (r : Nat) (p : Packet) (rest : List Packet),
    frontReady s r 0x12 (1 + ceilDiv (getLe p.bytes 24 2) 64) [(16, 11)] p rest →
    let t := startedBy s r p rest
    let q := inflightOfPacket s r p
    let a := getLe p.bytes 16 8
    let n := getLe p.bytes 24 2
    let fl := getLe p.bytes 26 1
    let bs := slice p.bytes 64 n
    let flag := bitOf (getLe p.bytes 3 1) 0
    (n = 0 ∨ 192 < n ∨ 2 ≤ fl →
      Sys2Proof.Machine.exec (.inlineWrite r) s = .next (settle (finishPkt s.hif.nextId 0x0303 0 0 t))) ∧
    (0 < n → n ≤ 192 → fl = 1 → flag = false ∨ flagHeld t q true = false → Sys2Proof.Machine.exec (.inlineWrite r) s =
      .next (settle (endPkt s.hif.nextId 0 n 0 (pktHostWrite q a bs (q.signal && flag) t)))) ∧
    (0 < n → n ≤ 192 → fl = 0 → flag = false ∨ flagHeld t q false = false → Sys2Proof.Machine.exec (.inlineWrite r) s =
      .next (settle (inlinePages q a 8 0 (chunks 4096 n a bs) t)))) ∧
  (∀ (s : State) (q : Inflight) (a fuel done dva dpa : Nat) (bs : List Byte) (l : List (Nat × List Byte)),
    (awaits s (· == .packet q.id) = false → inlinePages q a (fuel + 1) done [] s = endPkt q.id 0 done 0 s) ∧
    (resolve s q.owner dva 2 = .ok (.here dpa) → inlinePages q a (fuel + 1) done ((dva, bs) :: l) s =
      inlinePages q a fuel (done + bs.length) l (deviceWrite notThread q.owner dpa bs s))) ∧
  (∀ (s : State) (r : Nat) (p : Packet) (rest : List Packet), frontReady s r 3 1 [(16, 30)] p rest →
    let t := startedBy s r p rest
    let q := inflightOfPacket s r p
    let a := getLe p.bytes 16 8
    a % 8 = 0 → getLe p.bytes 44 1 ≤ 3 →
    (getLe p.bytes 45 1 = 1 → Sys2Proof.Machine.exec (.wait r) s = .next (settle
      (updPkt s.hif.nextId (fun x => { x with wait := .host }) { t with out := t.out ++ [.hostRead q.owner a 8] }))) ∧
    (∀ dpa, getLe p.bytes 45 1 = 0 → resolve t q.owner a 1 = .ok (.here dpa) → poisonIn t dpa 8 = none →
      let w := getLe (readMem t q.owner dpa 8) 0 8
      (waitMet q w = true → Sys2Proof.Machine.exec (.wait r) s = .next (settle (finishPkt s.hif.nextId 0 w 0 t))) ∧
      (waitMet q w = false → Sys2Proof.Machine.exec (.wait r) s = .next (settle
        (updPkt s.hif.nextId (fun x => { x with wait := .word dpa, lastWord := w }) t))))) ∧
  (∀ (q : Inflight) (w : Nat), let m := w &&& getLe q.bytes 32 8
    (getLe q.bytes 44 1 = 0 → (waitMet q w = true ↔ m = getLe q.bytes 24 8)) ∧
    (getLe q.bytes 44 1 = 1 → (waitMet q w = true ↔ m ≠ getLe q.bytes 24 8)) ∧
    (getLe q.bytes 44 1 = 2 → (waitMet q w = true ↔ getLe q.bytes 24 8 ≤ m)) ∧
    (getLe q.bytes 44 1 = 3 → (waitMet q w = true ↔ m < getLe q.bytes 24 8))) ∧
  (∀ (s : State) (r v : Nat) (q : Inflight), waitOf s r = some q → q.wait = .host → hostUp s = true → v < 2 ^ 64 →
    (waitMet q v = true → Sys2Proof.Machine.exec (.waitPoll r .ok v) s = .next (settle (finishPkt q.id 0 v 0 s))) ∧
    (waitMet q v = false → Sys2Proof.Machine.exec (.waitPoll r .ok v) s = .next (settle
      (emit (.hostRead q.owner (getLe q.bytes 16 8) 8) (updPkt q.id (fun x => { x with lastWord := v }) s)))) ∧
    Sys2Proof.Machine.exec (.waitPoll r .error v) s =
      .next (settle (packetHostError q (getLe q.bytes 16 8) q.lastWord 0 s))) ∧
  (∀ (s : State) (r : Nat) (q : Inflight), waitOf s r = some q → fclkRuns s = true →
    (getLe q.bytes 40 4 = 0 → Sys2Proof.Machine.exec (.waitTimeout r) s = .next (settle s)) ∧
    (getLe q.bytes 40 4 ≠ 0 → q.wait = .host ∨ (∃ dpa, q.wait = .word dpa) →
      Sys2Proof.Machine.exec (.waitTimeout r) s = .next (settle (finishPkt q.id 0x0502 q.lastWord 0
        { s with dts := max s.dts (q.started + getLe q.bytes 40 4 * 1000) })))) ∧
  (∀ (s : State) (id st r0 r1 : Nat) (q : Inflight), findPkt s id = some q → q.wait = .flush st r0 r1 →
    Sys2Proof.Machine.exec (.flushReadComplete id .ok) s = .next (settle (finishPkt id st r0 r1 s)) ∧
    (st = 0 → Sys2Proof.Machine.exec (.flushReadComplete id .error) s =
      .next (settle (packetHostError q (q.lastHost.getD 0) r0 r1 s))))

/-- R201, R204, R503: COPY and FILL put a chain of one descriptor, and COPY with a chain the host's own, on a bulk
mover; LOG_COPY writes closed entries to the host; ERR_INJECT makes a report. -/
def Obligations.CopiesLogCopiesAndInjections : Prop :=
  (∀ (s : State) (r : Nat) (p : Packet) (rest : List Packet) (fill : Bool),
    frontReady s r (if fill then 0x11 else 0x10) 1 (if fill then [(16, 24), (48, 2)] else [(16, 34)]) p rest →
    let row : Instr := if fill then .fill r else .copy r
    let q := inflightOfPacket s r p
    let fl := getLe p.bytes 49 1
    let m := getLe p.bytes 48 1
    let t := startedBy s r p rest
    (copyBad q = true ∨ 16 ≤ m ∧ m ≠ 0xFF →
      Sys2Proof.Machine.exec row s = .next (settle (finishPkt s.hif.nextId 0x0303 0 0 t))) ∧
    (copyBad q = false → m < 16 ∨ m = 0xFF →
      let ch := bulkChan (pickMover t m)
      (fill = false → bitOf fl 3 = true → Sys2Proof.Machine.exec row s = .next (settle (queueCopy q ch t))) ∧
      (fill = true ∨ bitOf fl 3 = false → inlineError (inlineDesc q) = none →
        Sys2Proof.Machine.exec row s = .next (settle (updChain ch s.mov.nextCid (fun x => { x with
          desc := some (inlineDesc q), phase := .steps, count := 1 }) (queueCopy q ch t)))))) ∧
  (∀ (q : Inflight), let fl := getLe q.bytes 49 1
    (q.opcode = 0x11 → (copyBad q = true ↔
      fl &&& 0xCD ≠ 0 ∨ getLe q.bytes 24 8 = 0 ∨ 2 ^ 40 ≤ getLe q.bytes 24 8)) ∧
    (q.opcode = 0x10 → bitOf fl 3 = true → (copyBad q = true ↔ fl &&& 0xF7 ≠ 0 ∨ getLe q.bytes 16 8 ≠ 0 ∨
      getLe q.bytes 24 8 ≠ 0 ∨ getLe q.bytes 32 8 ≠ 0 ∨ getLe q.bytes 40 8 % 64 ≠ 0)) ∧
    (q.opcode = 0x10 → bitOf fl 3 = false → (copyBad q = true ↔ fl &&& 0xC0 ≠ 0 ∨ getLe q.bytes 32 8 = 0 ∨
      2 ^ 40 ≤ getLe q.bytes 32 8 ∨ getLe q.bytes 40 8 ≠ 0))) ∧
  (∀ (q : Inflight) (ch : Nat) (t : State), let d := inlineDesc q
    let chain := q.opcode == 0x10 && bitOf (getLe q.bytes 49 1) 3
    queueCopy q ch t = addChain ch (fun i =>
        { cid := i, owner := q.owner, origin := .packet q.id, dva := if chain then getLe q.bytes 40 8 else 0
          ownDesc := !chain, tc0 := q.tc })
      (updPkt q.id (fun x => { x with wait := .mover, pendD := chain || !d.dstHost, pendH := chain || d.dstHost }) t)) ∧
  (∀ (s : State) (r : Nat) (p : Packet) (rest : List Packet), frontReady s r 0x70 1 [(16, 20)] p rest →
    islandRuns s = true →
    let t := startedBy s r p rest
    let l := ((readableLog s).filter (fun e => decide (getLe p.bytes 24 8 ≤ e.seq))).take (getLe p.bytes 32 4)
    (l = [] → Sys2Proof.Machine.exec (.logCopy r) s = .next (settle (finishPkt s.hif.nextId 0 0 0 t))) ∧
    (∀ e, l.getLast? = some e → Sys2Proof.Machine.exec (.logCopy r) s = .next (settle
      (endPkt s.hif.nextId 0 e.seq l.length
        (pktHostWrite (inflightOfPacket s r p) (getLe p.bytes 16 8) (l.flatMap entryBytes) false t))))) ∧
  (∀ (s : State) (r : Nat) (p : Packet) (rest : List Packet), frontReady s r 0x71 1 [(16, 3), (24, 8)] p rest →
    (islandRuns s = true → Sys2Proof.Machine.exec (.errInject r) s = .next (settle (finishPkt s.hif.nextId 0 0 0
      (markLogged s.hif.nextId (logErr
        { cls := getLe p.bytes 16 1, cause := getLe p.bytes 17 1, sev := getLe p.bytes 18 1, addr := getLe p.bytes 24 8
          addrKind := injectKind (getLe p.bytes 16 1), source := 1, tag := getLe p.bytes 4 4
          requester := some (inflightOfPacket s r p).owner, injected := true } (startedBy s r p rest)))))) ∧
    (islandRuns s = false → Sys2Proof.Machine.exec (.errInject r) s = .next (settle
      (updPkt s.hif.nextId (fun q => { q with wait := .island }) (startedBy s r p rest)))))

/-- R177, R179, R180, R184, R186, R187, R483: the host link trains and goes down; a function is reset, sleeps and wakes;
BAR2 is resized; a vector is unmasked; an invalidation is answered. -/
def Obligations.HostPortEvents : Prop :=
  (∀ (s : State) (rates lanes : Nat),
    (hostPhy s = false → Sys2Proof.Machine.exec (.hostLinkUp rates lanes) s = .next (settle s)) ∧
    (hostPhy s = true → lanes < 4 → Sys2Proof.Machine.exec (.hostLinkUp rates lanes) s = .next (settle
      { s with hif := { s.hif with up := false, widthFail := true, rate := 0, width := 0, flit := false
                                   rateLow := false } })) ∧
    (hostPhy s = true → 4 ≤ lanes → 4 ≤ bestRate rates →
      Sys2Proof.Machine.exec (.hostLinkUp rates lanes) s = .next (settle { s with hif := { s.hif with
        up := true, widthFail := false, rate := bestRate rates
        width := if 16 ≤ lanes then 16 else if 8 ≤ lanes then 8 else 4
        flit := bestRate rates == 6, rateLow := false } })) ∧
    (hostPhy s = true → 4 ≤ lanes → bestRate rates < 4 →
      Sys2Proof.Machine.exec (.hostLinkUp rates lanes) s = .next (settle (logErr
        { cls := 9, cause := 4, sev := sevNotice, source := 8, info := bestRate rates } { s with hif := { s.hif with
          up := true, widthFail := false, rate := bestRate rates
          width := if 16 ≤ lanes then 16 else if 8 ≤ lanes then 8 else 4
          flit := false, rateLow := true } })))) ∧
  (∀ (s : State), s.hif.up = true → isOn s = true → inChipReset s = false →
    Sys2Proof.Machine.exec .hostLinkDown s = .next (settle (logErr
      { cls := 9, cause := 3, sev := sevContained, source := 8 }
      { s with hif := { s.hif with up := false, rate := 0, width := 0, flit := false, rateLow := false } }))) ∧
  (∀ (s : State), s.hif.up = false → Sys2Proof.Machine.exec .hostLinkDown s = .next (settle s)) ∧
  (∀ (s : State) (n : Nat), configReach s = true → 0 < n → n < 64 →
    ∃ t, Sys2Proof.Machine.exec (.flr n) s = .next (settle (logErr
        { cls := 2, cause := 3, sev := sevNotice, owner := some n, source := 8, index := n, requester := some n } t)) ∧
      fnAt t n = {} ∧ t.mem.cells = s.mem.cells ∧
      (∀ r, r < 1024 → ringOwner s r = some n → ringAt t r = {}) ∧
      (∀ q ∈ t.hif.started, q.ring < 1024 → ringOwner s q.ring = some n → q.muted = true) ∧
      (∀ lo d, findReg lo = some (d, lo) → isVecReg n lo = true → rawAt t lo = resetAt lo % 2 ^ 64)) ∧
  (∀ (s : State) (n : Nat), configReach s = true → n < 64 →
    Sys2Proof.Machine.exec (.d3hotEntry n) s = .next (settle (updFn n (fun f => { f with d3hot := true }) s)) ∧
    Sys2Proof.Machine.exec (.atsInvalidation n) s = .next (settle { s with out := s.out ++ [.config n (.ok 0)] }) ∧
    ((fnAt s n).d3hot = true → (∀ x ∈ s.hif.pba, x.2 = true → x.1 / 2048 ≠ n) →
      Sys2Proof.Machine.exec (.d0Return n) s = .next (settle (updFn n (fun f => { f with d3hot := false }) s))) ∧
    ((fnAt s n).d3hot = false → Sys2Proof.Machine.exec (.d0Return n) s = .next (settle s))) ∧
  (∀ (s : State) (code : Nat), configReach s = true → code ≤ 8 →
    Sys2Proof.Machine.exec (.bar2Resize code) s = .next (settle (if s.hif.bar2Log2 = 30 + code then s else
      setRaw 0x200018 0 { s with hif := { s.hif with bar2Log2 := 30 + code } }))) ∧
  (∀ (s : State) (code : Nat), configReach s = false ∨ 8 < code →
    Sys2Proof.Machine.exec (.bar2Resize code) s = .next (settle s)) ∧
  (∀ (s : State) (vec : Nat) (d : RegDef), vec < 2048 →
    writesPlain s (.fn 0) (0x88000C + 16 * vec) (0x88000C + 16 * vec) d 0 →
    let t := written s (0x88000C + 16 * vec) d 0
    (Tbl.get false s.hif.pba vec = true → vecHeld t 0 vec = false →
      Sys2Proof.Machine.exec (.vectorUnmask 0 vec) s = .next (settle (sendVec 0 vec (setPending 0 vec false t)))) ∧
    (Tbl.get false s.hif.pba vec = false →
      Sys2Proof.Machine.exec (.vectorUnmask 0 vec) s = .next (settle t))) ∧
  (∀ (s : State) (n vec : Nat) (d : RegDef), 0 < n → n < 64 → vec < 64 →
    writesPlain s (.fn n) (0x800C + 16 * vec) (0x1_0000_0000 + (n - 1) * 0x400 + 16 * vec + 0xC) d 0 →
    let t := written s (0x1_0000_0000 + (n - 1) * 0x400 + 16 * vec + 0xC) d 0
    (Tbl.get false s.hif.pba (n * 2048 + vec) = true → vecHeld t n vec = false →
      Sys2Proof.Machine.exec (.vectorUnmask n vec) s = .next (settle (sendVec n vec (setPending n vec false t)))) ∧
    (Tbl.get false s.hif.pba (n * 2048 + vec) = false →
      Sys2Proof.Machine.exec (.vectorUnmask n vec) s = .next (settle t)))

/-! Eriati Link (chapter 8) -/

/-- R49, R216, R227, R228, R231: a port is enabled and disabled; it trains, greets and exchanges keys; it goes DOWN at a
limit, for silence or for no signal, and leaves UP with its requests ended; it starts again after the back-off. -/
def Obligations.PortsTrainAndGoDown : Prop :=
  (∀ (s : State) (r : Requester) (cons : Cons) (p : Nat) (d : RegDef), p < 4 →
    writesPlain s r (0x2000000 + 0x100 * p) (0x2000000 + 0x100 * p) d (2 ^ 31) →
    let t := written s (0x2000000 + 0x100 * p) d (2 ^ 31)
    regBit t (0x2000000 + 0x100 * p) 31 = true ∧
    ((portAt s p).st = .disabled → linkRuns s = true → (if p < 2 then s.pwr.okElk0 else s.pwr.okElk1) = true →
      Sys2Proof.Machine.exec (.portEnable r cons p) s = .next (settle (updPort p (fun x => x.idle .phy x.cause) t))) ∧
    ((portAt s p).st ≠ .disabled ∨ linkRuns s = false →
      Sys2Proof.Machine.exec (.portEnable r cons p) s = .next (settle t))) ∧
  (∀ (s : State) (r : Requester) (cons : Cons) (p : Nat) (d : RegDef), p < 4 →
    writesPlain s r (0x2000000 + 0x100 * p) (0x2000000 + 0x100 * p) d 0 →
    let t := written s (0x2000000 + 0x100 * p) d 0
    regBit t (0x2000000 + 0x100 * p) 31 = false ∧
    Sys2Proof.Machine.exec (.portDisable r cons p) s =
      .next (settle (portIdle cons p .disabled (portAt s p).cause t))) ∧
  (∀ (s : State) (cons : Cons) (p : Nat) (st : PortState) (cause : Nat),
    (portUp s p = false → portIdle cons p st cause s = updPort p (fun x => x.idle st cause) s) ∧
    (portUp s p = true →
      let u := completeAll cons (·.port == p) 0x0781 (updPort p (fun x => x.idle st cause) s)
      portIdle cons p st cause s = match peerOf u p with
        | none => u
        | some id => if elkPorts.any (fun q => portUp u q && peerOf u q == some id) then u else suspect id u)) ∧
  (∀ (s : State) (cons : Cons) (p cause : Nat), portDown cons p cause s = portIdle cons p .down cause
    (logErr { cls := 10, cause := if cause = 3 then 3 else 2, sev := sevContained, source := 0x20, index := p, info := 0 }
      (updPort p (fun x => { x with backoff := min 1000 (2 * (if (portAt s p).st = .up ∧
        (portAt s p).upSince + 1000000000 ≤ s.dts then 10 else (portAt s p).backoff)) }) s))) ∧
  (∀ (s : State) (cons : Cons) (p lanes : Nat), linkRuns s = true → (portAt s p).st = .phy →
    let lo := lanes % 256 == 255
    let hi := lanes / 256 % 256 == 255
    (lo = false → hi = false → Sys2Proof.Machine.exec (.phyTrained cons p lanes) s =
      .next (settle (portDown cons p 2 s))) ∧
    (lo = true ∨ hi = true → Sys2Proof.Machine.exec (.phyTrained cons p lanes) s = .next (settle
      (emit (.linkMsg p 1 (helloBytes s p)) (updPort p (fun x => { x with st := .hello, x8 := !(lo && hi) }) s))))) ∧
  (∀ (s : State) (p serial peerPort id : Nat) (hasId : Bool), linkRuns s = true → (portAt s p).st = .hello →
    ∃ key, key.length = 192 ∧ Sys2Proof.Machine.exec (.hello p serial peerPort id hasId) s = .next (settle
      (emit (.linkMsg p 2 key) (updPort p (fun x => { x with
        st := .keyx, peerSerial := serial, peerPort := peerPort % 4, peerId := id % 64, peerHasId := hasId }) s)))) ∧
  (∀ (s : State) (cons : Cons) (p : Nat) (key : List Byte) (sig : Bool), linkRuns s = true → (portAt s p).st = .keyx →
    let listed := ∃ m e, s.elk.manifest = some m ∧ entryOf m (portAt s p).peerSerial = some e
    (listed → sig = false → Sys2Proof.Machine.exec (.key cons p key sig) s = .next (settle (portDown cons p 3 s))) ∧
    (¬ listed ∨ sig = true → Sys2Proof.Machine.exec (.key cons p key sig) s = .next (settle
      (emit (.linkMsg p 3 (digestBytes s)) (updPort p (fun x => { x with peerKey := some key, keySigOk := sig }) s))))) ∧
  (∀ (s : State) (cons : Cons) (p : Nat), linkRuns s = true →
    ((portAt s p).st ∈ [.phy, .hello, .keyx] →
      Sys2Proof.Machine.exec (.linkStateTimeout cons p) s = .next (settle (portDown cons p 2 s))) ∧
    ((portAt s p).st ∉ [.phy, .hello, .keyx] →
      Sys2Proof.Machine.exec (.linkStateTimeout cons p) s = .next (settle s)) ∧
    ((portAt s p).st ∈ [.hello, .keyx, .up, .quarantine] →
      Sys2Proof.Machine.exec (.idleTimeout cons p) s = .next (settle (portDown cons p 7 s)) ∧
      Sys2Proof.Machine.exec (.noSignal cons p) s = .next (settle (portDown cons p 1 s))) ∧
    ((portAt s p).st ∉ [.hello, .keyx, .up, .quarantine] →
      Sys2Proof.Machine.exec (.idleTimeout cons p) s = .next (settle s) ∧
      Sys2Proof.Machine.exec (.noSignal cons p) s = .next (settle s)) ∧
    ((portAt s p).st = .down → regBit s (0x2000000 + p * 0x100) 31 = true →
      (if p < 2 then s.pwr.okElk0 else s.pwr.okElk1) = true →
      Sys2Proof.Machine.exec (.backoffExpiry p) s = .next (settle (updPort p (fun x => x.idle .phy x.cause) s))) ∧
    ((portAt s p).st ≠ .down → Sys2Proof.Machine.exec (.backoffExpiry p) s = .next (settle s)))

/-- R228, R230: FINISHED and REDIGEST bring the peer's digest, and the peer is judged: without a manifest, or unlisted,
the port is in QUARANTINE; a listed peer whose signature fails takes it DOWN; a peer that no link entry joins, or whose
digest differs, is in QUARANTINE; any other is UP. -/
def Obligations.PeersAreJudged : Prop :=
  (∀ (s : State) (cons : Cons) (p digest : Nat) (tagOk : Bool), linkRuns s = true → (portAt s p).st = .keyx →
    (portAt s p).peerKey.isSome = true →
    (tagOk = false → Sys2Proof.Machine.exec (.finished cons p digest tagOk) s = .next (settle (portDown cons p 3 s))) ∧
    (tagOk = true → Sys2Proof.Machine.exec (.finished cons p digest tagOk) s = .next (settle (judgePort cons p
      (portAt s p).keySigOk (updPort p (fun y => { y with peerDigest := some digest }) s))))) ∧
  (∀ (s : State) (cons : Cons) (p digest : Nat) (sig : Bool), linkRuns s = true →
    ((portAt s p).st = .up ∨ (portAt s p).st = .quarantine →
      Sys2Proof.Machine.exec (.redigest cons p digest sig) s = .next (settle (judgePort cons p sig
        (updPort p (fun y => { y with peerDigest := some digest, keySigOk := sig }) s)))) ∧
    ((portAt s p).st ≠ .up → (portAt s p).st ≠ .quarantine →
      Sys2Proof.Machine.exec (.redigest cons p digest sig) s = .next (settle s))) ∧
  (∀ (s : State) (cons : Cons) (p : Nat) (sig : Bool),
    (s.elk.manifest = none → judgePort cons p sig s = portQuarantine cons p 5 s) ∧
    (∀ m, s.elk.manifest = some m →
      (entryOf m (portAt s p).peerSerial = none → judgePort cons p sig s = portQuarantine cons p 5 s) ∧
      (∀ i e, entryOf m (portAt s p).peerSerial = some (i, e) →
        let joined := linkJoined m p i (portAt s p).peerPort
        let same := (portAt s p).peerDigest = some m.digest
        (sig = false → judgePort cons p sig s = portDown cons p 3 s) ∧
        (sig = true → joined = false → judgePort cons p sig s = portQuarantine cons p 5 s) ∧
        (sig = true → joined = true → ¬ same → judgePort cons p sig s = portQuarantine cons p 4 s) ∧
        (sig = true → joined = true → same →
          judgePort cons p sig s = if (portAt s p).st = .up then s else portGoesUp p s)))) ∧
  (∀ (s : State) (cons : Cons) (p cause : Nat), portUp s p = false → portQuarantine cons p cause s = logErr
    { cls := 10, cause := 4, sev := sevNotice, source := 0x20, index := p, info := 0 } (updPort p (fun x => { x with
      st := .quarantine, cause, queues := x.queues.filter (fun q => q.1 == 8 || q.1 == 9) }) s)) ∧
  (∀ (s : State) (p : Nat), let u := updPort p (fun x => { x with st := .up, upSince := s.dts }) s
    portUp u p = true ∧
    (peerOf u p = none → portGoesUp p s = u) ∧
    (∀ id, peerOf u p = some id → portGoesUp p s =
      { u with elk := { u.elk with suspects := u.elk.suspects.filter (· != id) } }))

/-- R218–R222: a flit leaves, a stored one first; a flit that arrives is discarded, acknowledges, or is taken in its
order; unacknowledged flits are replayed, and eight replays without progress or 16 tag failures in a row end the link. -/
def Obligations.FlitsAreSentAckedAndReplayed : Prop :=
  (∀ (s : State) (p : Nat), linkRuns s = true → (portAt s p).st = .up ∨ (portAt s p).st = .quarantine →
    let x := portAt s p
    (∀ f rest, x.resend = f :: rest → Sys2Proof.Machine.exec (.flitTransmit p) s = .next (settle (emit (.flit p f)
      (updPort p (fun y => { y with resend := rest, replay := satInc 0xFFFFFFFF y.replay }) s)))) ∧
    (x.resend = [] → nextHalf s p 15 = none → x.sealed % 2 ^ 30 ≠ 0 ∨ x.sealed = 0 →
      let c := owedHalf x
      let head := flitHead 0 (b2n x.kep) (b2n x.nak) (x.txSeq + 4095) (x.rxSeq + 4095) (c.1 / 2) (c.1 % 2) c.2
      Sys2Proof.Machine.exec (.flitTransmit p) s = .next (settle (emit (.flit p (sealFlit x head (zeros 240)))
        (updPort p (fun y => { y with
          sealed := x.sealed + 1, nak := false, ackOwed := 0, owed := Tbl.upd 0 x.owed c.1 (· - c.2) }) s)))) ∧
    (∀ t m, x.resend = [] → x.unacked.length < 512 → fillFlit p 15 15 [] s = (t, m) → m ≠ [] →
      (portAt t p).sealed % 2 ^ 30 ≠ 0 ∨ (portAt t p).sealed = 0 → ∃ z head,
        Sys2Proof.Machine.exec (.flitTransmit p) s =
          .next (settle (emit (.flit p (sealFlit (portAt t p) head (slice m 0 240))) (updPort p (fun _ => z) t))) ∧
        head = flitHead 1 (b2n (portAt t p).kep) (b2n (portAt t p).nak) (portAt t p).txSeq ((portAt t p).rxSeq + 4095)
          ((owedHalf (portAt t p)).1 / 2) ((owedHalf (portAt t p)).1 % 2) (owedHalf (portAt t p)).2 ∧
        z.txSeq = ((portAt t p).txSeq + 1) % 4096 ∧ z.sealed = (portAt t p).sealed + 1 ∧
        z.unacked = (portAt t p).unacked ++
          [((portAt t p).txSeq, sealFlit (portAt t p) head (slice m 0 240))])) ∧
  (∀ (s : State) (cons : Cons) (p head : Nat) (payload : List Byte) (tagOk : Bool) (uncorr : Nat) (ecc : Ecc) (sig : Bool),
    linkRuns s = true → (portAt s p).st = .up ∨ (portAt s p).st = .quarantine →
    let row : Instr := .flitReceive cons p head payload tagOk uncorr ecc sig
    (uncorr ≠ 0 → Sys2Proof.Machine.exec row s = .next (settle (discardFlit cons p false
      (updPort p (fun y => { y with uncorr := min 0xFFFF (y.uncorr + uncorr) }) s)))) ∧
    (uncorr = 0 → tagOk = false → Sys2Proof.Machine.exec row s = .next (settle (discardFlit cons p true s))) ∧
    (uncorr = 0 → tagOk = true → 2 ≤ fld head 63 62 ∨ 5 ≤ fld head 35 33 ∨ fld head 23 0 ≠ 0 →
      Sys2Proof.Machine.exec row s = .next (settle (discardFlit cons p false s))) ∧
    (uncorr = 0 → tagOk = true → fld head 63 62 < 2 → fld head 35 33 < 5 → fld head 23 0 = 0 →
      bitOf head 60 = false →
      let t := updPort p (fun y => let z := takeAck (fld head 47 36) y
        { z with tagRun := 0, used := Tbl.upd 0 z.used (fld head 35 33 * 2 + fld head 32 32) (· - fld head 31 24)
                 rxRekey := if bitOf head 61 != z.rxKep then z.rxRekey + 1 else z.rxRekey, rxKep := bitOf head 61 }) s
      (fld head 63 62 = 0 → Sys2Proof.Machine.exec row s = .next (settle t)) ∧
      (fld head 63 62 = 1 → fld head 59 48 ≠ (portAt s p).rxSeq →
        Sys2Proof.Machine.exec row s = .next (settle (discardFlit cons p false t))) ∧
      (fld head 63 62 = 1 → fld head 59 48 = (portAt s p).rxSeq →
        let u := acceptMsgs cons p ecc sig (slice payload 0 240) (updPort p (fun y => { y with
          rxSeq := (y.rxSeq + 1) % 4096, nak := false, ackOwed := y.ackOwed + 1 }) t)
        Sys2Proof.Machine.exec row s = .next (settle (if 32 ≤ (portAt u p).ackOwed then flitTransmit p u else u))))) ∧
  (∀ (s : State) (cons : Cons) (p : Nat) (tagFail : Bool),
    let t := updPort p (fun y => { y with nak := true, tagFail := if tagFail then satInc 0xFFFF y.tagFail else y.tagFail
                                          tagRun := if tagFail then y.tagRun + 1 else y.tagRun }) s
    ((portAt s p).tagRun + b2n tagFail < 16 → discardFlit cons p tagFail s = t) ∧
    (16 ≤ (portAt s p).tagRun + b2n tagFail → discardFlit cons p tagFail s = portDown cons p 6 t)) ∧
  (∀ (s : State) (cons : Cons) (p : Nat), linkRuns s = true → (portAt s p).st = .up ∨ (portAt s p).st = .quarantine →
    ((portAt s p).unacked = [] → Sys2Proof.Machine.exec (.replayTimeout cons p) s = .next (settle s)) ∧
    ((portAt s p).unacked ≠ [] → 7 ≤ (portAt s p).noProgress →
      Sys2Proof.Machine.exec (.replayTimeout cons p) s = .next (settle (portDown cons p 6 s))) ∧
    ((portAt s p).unacked ≠ [] → (portAt s p).noProgress < 7 →
      Sys2Proof.Machine.exec (.replayTimeout cons p) s = .next (settle (logErr
        { cls := 10, cause := 1, sev := sevCorrected, source := 0x20, index := p, info := 0 }
        (updPort p (fun y => { y with resend := y.unacked.map (·.2), noProgress := y.noProgress + 1 }) s))))) ∧
  (∀ (s : State) (p : Nat), linkRuns s = true →
    ((portAt s p).ackOwed = 0 → Sys2Proof.Machine.exec (.ackTimer p) s = .next (settle s)) ∧
    (0 < (portAt s p).ackOwed → Sys2Proof.Machine.exec (.ackTimer p) s = .next (settle (flitTransmit p s))))

/-- R224–R226, R229, R231, R237–R240: PROBE is answered and its answer ends suspicion; more PROBEs leave at the timer;
an ID silent for LOSS_HOLD, or named by a FENCE of this epoch, is declared lost; the manifest is staged and committed;
routes are set, an ID is fenced and unfenced. -/
def Obligations.DomainsAreManaged : Prop :=
  (∀ (s : State) (cons : Cons) (p : Nat) (bytes : List Byte), linkRuns s = true → (portAt s p).st = .up →
    let m := parseMsg bytes
    m.mtype = 0xC0 → bytes.length = 16 * (1 + dataUnits m.mtype m.size) → headerLegal m = true →
    (m.mod = 0x10 → forMe s m = true → Sys2Proof.Machine.exec (.probe cons p bytes) s = .next (settle (replyTo p m.src 9
      (msgHead 0xC0 m.src m.tc s.elk.selfId 0 0 m.tag 0 0x11 m.addr) s))) ∧
    (m.mod = 0x11 → forMe s m = true → Sys2Proof.Machine.exec (.probeRsp cons p bytes) s = .next (settle
      { s with elk := { s.elk with suspects := s.elk.suspects.filter (· != m.src) } })) ∧
    (m.mod = 0x20 → (routeAt s (m.addr % 64)).fenced = false →
      s.elk.manifest.map (·.epoch) = some (m.addr / 2 ^ 32) → Sys2Proof.Machine.exec (.fenceMessage cons p bytes) s =
        .next (settle (declareLost cons (m.addr % 64) s))) ∧
    (m.mod = 0x20 → (routeAt s (m.addr % 64)).fenced = true ∨ s.elk.manifest.map (·.epoch) ≠ some (m.addr / 2 ^ 32) →
      Sys2Proof.Machine.exec (.fenceMessage cons p bytes) s = .next (settle (logErr
        { cls := 11, cause := 2, sev := sevNotice, source := 0x20, index := p, info := m.addr % 64 } s)))) ∧
  (∀ (s : State) (cons : Cons) (id : Nat), linkRuns s = true →
    Sys2Proof.Machine.exec .probeTimer s = .next (settle (s.elk.suspects.foldl (fun t i => sendProbe i t) s)) ∧
    (id ∈ s.elk.suspects → Sys2Proof.Machine.exec (.lossHoldExpiry cons id) s =
      .next (settle (declareLost cons id s))) ∧
    (id ∉ s.elk.suspects → Sys2Proof.Machine.exec (.lossHoldExpiry cons id) s = .next (settle s))) ∧
  (∀ (s : State) (cons : Cons) (id : Nat),
    ((routeAt s id).fenced = true → declareLost cons id s = s) ∧
    ((routeAt s id).fenced = false → declareLost cons id s = elkPorts.foldl
      (fun t p => if portUp t p && peerOf t p != some id then sendFence id p t else t)
      (logErr { cls := 11, cause := 1, sev := sevContained, source := 0x20, index := 0, info := id }
        (completeAll cons (·.chip == id) 0x0780 (updRoute id (fun r => { r with fenced := true })
          { s with elk := { s.elk with suspects := s.elk.suspects.filter (· != id) } }))))) ∧
  (∀ (s : State) (r : Requester) (cons : Cons) (d : RegDef) (host : Option (List Byte)), s.elk.staging = false →
    writesPlain s r 0x2008028 0x2008028 d 1 →
    let t := written s 0x2008028 d 1
    let u := { t with out := s.out ++ [.hostRead 0 (rawAt t 0x2008010) (rawAt t 0x2008018)]
                      elk := { s.elk with busy := true, staging := false } }
    (host = none → Sys2Proof.Machine.exec (.stage r cons host) s =
      .next (settle (elkDone 0x0461 (hostError 1 0 (rawAt t 0x2008010) 7 0 u)))) ∧
    (∀ b, host = some b → Sys2Proof.Machine.exec (.stage r cons host) s = .next (settle
      (match parseManifest (slice b 0 (rawAt t 0x2008018)) (s.elk.manifest.map (·.epoch)) with
        | some m => elkDone 0 { u with elk := { u.elk with staged := some m } }
        | none => elkDone 0x0303 u)))) ∧
  (∀ (s : State) (r : Requester) (cons : Cons) (d : RegDef) (sigs : List Bool),
    writesPlain s r 0x2008028 0x2008028 d 2 → s.elk.commitAt = none →
    let t := written s 0x2008028 d 2
    let at_ := rawAt t 0x2008020
    (s.elk.staged = none →
      Sys2Proof.Machine.exec (.commit r cons sigs) s = .next (settle (elkDone 0x0280 t))) ∧
    (∀ m, s.elk.staged = some m →
      (s.dts + 2 ^ 36 < at_ → Sys2Proof.Machine.exec (.commit r cons sigs) s = .next (settle (elkDone 0x0305 t))) ∧
      (at_ ≤ s.dts + 2 ^ 36 → commitRefused t m = true →
        Sys2Proof.Machine.exec (.commit r cons sigs) s = .next (settle (elkDone 0x0225 t))) ∧
      (s.dts < at_ → at_ ≤ s.dts + 2 ^ 36 → commitRefused t m = false →
        Sys2Proof.Machine.exec (.commit r cons sigs) s = .next (settle
          { t with elk := { t.elk with busy := true, commitAt := some at_ } })) ∧
      (at_ ≤ s.dts → commitRefused t m = false → Sys2Proof.Machine.exec (.commit r cons sigs) s = .next (settle
        (commitNow cons sigs { t with elk := { t.elk with busy := true, commitAt := some s.dts } }))))) ∧
  (∀ (s : State) (cons : Cons) (sigs : List Bool), fclkRuns s = true →
    (∀ a, s.elk.commitAt = some a → Sys2Proof.Machine.exec (.commitDtsReached cons sigs) s =
      .next (settle (commitNow cons sigs { s with dts := max s.dts a }))) ∧
    (s.elk.commitAt = none → Sys2Proof.Machine.exec (.commitDtsReached cons sigs) s = .next (settle s))) ∧
  (∀ (s : State) (r : Requester) (cons : Cons) (d : RegDef) (id primary alt : Nat) (altEn : Bool), id < 64 →
    primary < 4 → alt < 4 →
    let v := 3 + id * 2 ^ 8 + primary * 2 ^ 16 + alt * 2 ^ 18 + b2n altEn * 2 ^ 20
    writesPlain s r 0x2008028 0x2008028 d v →
    let t := written s 0x2008028 d v
    let own := s.elk.hasId = true ∧ s.elk.selfId = id
    (own → Sys2Proof.Machine.exec (.routeSet r cons id primary alt altEn) s = .next (settle (elkDone 0x0303 t))) ∧
    (¬ own → (routeAt s id).valid = true → (routeAt s id).fenced = false →
      Sys2Proof.Machine.exec (.routeSet r cons id primary alt altEn) s = .next (settle (elkDone 0x0281 t))) ∧
    (¬ own → (routeAt s id).valid = false ∨ (routeAt s id).fenced = true →
      Sys2Proof.Machine.exec (.routeSet r cons id primary alt altEn) s = .next (settle (elkDone 0
        (updRoute id (fun x => { x with valid := true, fenced := false, altEn, alt, primary, usingAlt := false }) t))))) ∧
  (∀ (s : State) (r : Requester) (cons : Cons) (d : RegDef) (id : Nat), id < 64 →
    (writesPlain s r 0x2008028 0x2008028 d (4 + id * 2 ^ 8) →
      let t := written s 0x2008028 d (4 + id * 2 ^ 8)
      (s.elk.hasId = true → s.elk.selfId = id → Sys2Proof.Machine.exec (.elkFence r cons id) s = .next (settle
        { t with elk := { t.elk with busy := true, selfFence := true } })) ∧
      (s.elk.hasId = false ∨ s.elk.selfId ≠ id → Sys2Proof.Machine.exec (.elkFence r cons id) s =
        .next (settle (elkDone 0 (declareLost cons id t))))) ∧
    (writesPlain s r 0x2008028 0x2008028 d (5 + id * 2 ^ 8) →
      let t := written s 0x2008028 d (5 + id * 2 ^ 8)
      (s.elk.hasId = true → s.elk.selfId = id → Sys2Proof.Machine.exec (.unfence r cons id) s =
        .next (settle (elkDone 0x0303 t))) ∧
      (s.elk.hasId = false ∨ s.elk.selfId ≠ id →
        ((routeAt s id).fenced = false → Sys2Proof.Machine.exec (.unfence r cons id) s =
          .next (settle (elkDone 0x0281 t))) ∧
        ((routeAt s id).fenced = true → Sys2Proof.Machine.exec (.unfence r cons id) s = .next (settle (elkDone 0
          (updRoute id (fun x => { x with fenced := false }) t)))))))

/-! The Sequence Engine (chapter 9) -/

/-- R245–R253, R262–R268, R276: what the engine's packets do: a program is stored; a stream is bound, described,
started, halted and unbound; channels and classes are set; a sequence is admitted, queued, cancelled and queried. -/
def Obligations.SequencesAreConfiguredAndAdmitted : Prop :=
  (∀ (s : State) (r : Nat) (p : Packet) (rest : List Packet), frontReady s r 0x21 1 [(16, 5), (24, 20)] p rest →
    let t := startedBy s r p rest
    let q := inflightOfPacket s r p
    let n := getLe p.bytes 16 2
    let cnt := getLe p.bytes 18 2
    let fl := getLe p.bytes 20 1
    (n ≤ 255 → fl = 1 → programBusy t q.owner n = false → Sys2Proof.Machine.exec (.stepProgramReg r) s = .next (settle
      (finishPkt s.hif.nextId 0 0 0 { t with sqe := { t.sqe with programs := Tbl.set none t.sqe.programs n none } }))) ∧
    (∀ b u, n ≤ 255 → fl = 0 → 0 < cnt → cnt ≤ 256 → getLe p.bytes 24 8 % 64 = 0 →
      engRead (.packetRead s.hif.nextId) q.who [] (getLe p.bytes 24 8) (64 * cnt) t = .ok b u →
      (∀ c, programCause u q.owner n (chainPackets b) = c → c ≠ 0 →
        Sys2Proof.Machine.exec (.stepProgramReg r) s = .next (settle (finishPkt s.hif.nextId 0x0390 0 c u))) ∧
      (programCause u q.owner n (chainPackets b) = 0 →
        let g : StepProgram := { owner := q.owner, packets := chainPackets b, eStep := getLe p.bytes 32 4
                                 eToken := getLe p.bytes 36 4, eSlot := getLe p.bytes 40 4, reg := u.sqe.nextReg }
        Sys2Proof.Machine.exec (.stepProgramReg r) s = .next (settle (finishPkt s.hif.nextId 0 0 0 { u with sqe :=
          { u.sqe with programs := Tbl.set none u.sqe.programs n (some g), nextReg := u.sqe.nextReg + 1 } }))))) ∧
  (∀ (s : State) (r pend : Nat) (h : List Byte) (img : Option (List Byte)) (p : Packet) (rest : List Packet),
    frontReady s r 0x30 1 [(16, 40)] p rest →
    let t := startedBy s r p rest
    let q := inflightOfPacket s r p
    let ch := seqChan t (getLe p.bytes 16 1)
    let i := ch.stream.getD 0
    let restore := fld (getLe p.bytes 18 1) 2 1
    let cls := if getLe p.bytes 17 1 = 0xFF then ch.defClass else getLe p.bytes 17 1
    let u := { t with out := t.out ++ [.hostRead q.owner (getLe p.bytes 24 8) 64] }
    (submitReserved q t = true → Sys2Proof.Machine.exec (.seqSubmit r (some h) pend img) s =
      .next (settle (finishPkt s.hif.nextId 0x0303 0 0 t))) ∧
    (∀ d, submitReserved q t = false → (strm t i).desc = some d →
      pagesFor d.tpp (getLe p.bytes 20 4 + getLe p.bytes 36 4 + getLe p.bytes 19 1) ≤ d.maxBlocks →
      (promptMatches restore (getLe p.bytes 20 4) h = false →
        Sys2Proof.Machine.exec (.seqSubmit r (some h) pend img) s =
          .next (settle (finishPkt s.hif.nextId 0x0303 0 0 u))) ∧
      (promptMatches restore (getLe p.bytes 20 4) h = true → restore = 0 →
        Sys2Proof.Machine.exec (.seqSubmit r (some h) pend img) s =
          .next (settle (takeIn q i cls d (newSeq q u i cls h pend 0) u))) ∧
      Sys2Proof.Machine.exec (.seqSubmit r none pend img) s = .next (settle (finishPkt s.hif.nextId 0x0461 0 0
        (markLogged s.hif.nextId (hostError 1 q.owner (getLe p.bytes 24 8) 4 q.tag u)))))) ∧
  (∀ (s : State) (q : Inflight) (i cls : Nat) (d : StreamDesc) (x : Seq),
    let c := seqClass s i cls
    let need := firstNeed d.tpp x
    (strm s i).st = .paused ∨ (strm s i).st = .running → c.enabled = true →
    (s.sqe.seqs.filter (fun y => (strm s y.stream).owner == (strm s i).owner)).length <
      regFld s (0x2200100 + 4 * (strm s i).owner) 16 0 →
    s.sqe.seqs.length ≠ 65536 →
    need ≤ (strm s i).pageCount - sumOf (fun k => (seqClass s i k).res) (List.range cls) →
    (∀ u, queuedIn s i cls = 0 → canStartSeq i cls need s = some u → takeIn q i cls d x s =
      finishPkt q.id 0 x.id 0 (startSeq x.slot need (takeSlot x u))) ∧
    (0 < queuedIn s i cls ∨ canStartSeq i cls need s = none →
      (c.qmax ≤ queuedIn s i cls → takeIn q i cls d x s = finishPkt q.id 0x0291 0 0 s) ∧
      (queuedIn s i cls < c.qmax →
        takeIn q i cls d x s = finishPkt q.id 0x0190 x.id (queuedIn s i cls + 1) (takeSlot x s)))) ∧
  (∀ (s : State) (r ec : Nat) (p : Packet) (rest : List Packet), frontReady s r 0x31 1 [(16, 4)] p rest →
    let t := startedBy s r p rest
    let o := (inflightOfPacket s r p).owner
    (findSeq t (getLe p.bytes 16 4) = none → Sys2Proof.Machine.exec (.seqCancel r ec) s =
      .next (settle (finishPkt s.hif.nextId 0x0296 0 0 t))) ∧
    (∀ x, findSeq t (getLe p.bytes 16 4) = some x → mayControl t o x.stream = true →
      let reclaim := (seqChan t x.channel).reclaim
      let n := actingStep (strm t x.stream)
      (x.st = .queued → Sys2Proof.Machine.exec (.seqCancel r ec) s = .next (settle (finishPkt s.hif.nextId 0 0 1
        (flushBoundary x.stream ec (endSeq x (if reclaim then 0x0591 else 0x0590) 0 t))))) ∧
      (x.st = .running → reclaim = false → Sys2Proof.Machine.exec (.seqCancel r ec) s = .next (settle
        (finishPkt s.hif.nextId 0 n 2 (updSeq x.slot (fun y => { y with st := .draining }) t)))) ∧
      (x.st = .running → reclaim = true → n ≠ 0 → Sys2Proof.Machine.exec (.seqCancel r ec) s = .next (settle
        (finishPkt s.hif.nextId 0 n 2 (updSeq x.slot (fun y => { y with reclaim := true }) t)))) ∧
      (x.st = .draining → Sys2Proof.Machine.exec (.seqCancel r ec) s =
        .next (settle (finishPkt s.hif.nextId 0 0 4 t))))) ∧
  (∀ (s : State) (r : Nat) (p : Packet) (rest : List Packet), frontReady s r 0x32 1 [(16, 4)] p rest →
    let t := startedBy s r p rest
    ∀ x, findSeq t (getLe p.bytes 16 4) = some x → mayControl t (inflightOfPacket s r p).owner x.stream = true →
      x.st ≠ .queued → Sys2Proof.Machine.exec (.seqQuery r) s = .next (settle (finishPkt s.hif.nextId 0
        (x.tokens + x.st.code * 2 ^ 32 + x.cls * 2 ^ 40) x.pages.length t))) ∧
  (∀ (s : State) (r ec : Nat) (p : Packet) (rest : List Packet),
    frontReady s r 0x33 1 [(16, 3), (20, 8), (48, 16)] p rest →
    let t := startedBy s r p rest
    let i := getLe p.bytes 16 1
    let o := getLe p.bytes 17 1
    let first := getLe p.bytes 20 4
    let cnt := getLe p.bytes 24 4
    (i < 8 → getLe p.bytes 18 1 = 1 → (strm t i).st ≠ .running → Sys2Proof.Machine.exec (.streamBind r ec) s =
      .next (settle (finishPkt s.hif.nextId 0 0 0 (unbindStream i 0x0591 ec t)))) ∧
    (i < 8 → getLe p.bytes 18 1 = 0 → 0 < o → o ≤ 63 → cnt ≠ 0 → getLe p.bytes 48 16 ≠ 0 → first + cnt ≤ 2 ^ 22 →
      (strm t i).st = .unbound → regBit t 0x2200000 31 = true →
      (∀ j < 8, (strm t j).st ≠ .unbound → runsOverlap first cnt (strm t j).pageFirst (strm t j).pageCount = false) →
      (ownerActive t o = false → Sys2Proof.Machine.exec (.streamBind r ec) s =
        .next (settle (finishPkt s.hif.nextId 0x0225 0 0 t))) ∧
      (ownerActive t o = true → Sys2Proof.Machine.exec (.streamBind r ec) s = .next (settle
        (finishPkt s.hif.nextId 0 0 0 (updStrm i (fun _ =>
          { st := .paused, owner := o, clusters := getLe p.bytes 48 16, pageFirst := first, pageCount := cnt }) t)))))) ∧
  (∀ (s : State) (r : Nat) (p : Packet) (rest : List Packet), frontReady s r 0x34 1 [(16, 1), (24, 8)] p rest →
    let t := startedBy s r p rest
    let q := inflightOfPacket s r p
    let i := getLe p.bytes 16 1
    ∀ b u, i < 8 → getLe p.bytes 24 8 % 64 = 0 → (strm t i).st ≠ .unbound → (strm t i).owner = q.owner →
      engRead (.packetRead s.hif.nextId) q.who [] (getLe p.bytes 24 8) 128 t = .ok b u →
      (descOk u i b (parseStream b) = true →
        (∀ e, (strm u i).desc = some e → seqsOf u i = [] ∨ descFixed (parseStream b) e = true) →
        Sys2Proof.Machine.exec (.streamConfig r) s = .next (settle (finishPkt s.hif.nextId 0 0 0
          (updStrm i (fun x => { x with desc := some (parseStream b) }) u)))) ∧
      (descOk u i b (parseStream b) = false → Sys2Proof.Machine.exec (.streamConfig r) s =
        .next (settle (finishPkt s.hif.nextId 0x0303 0 0 u)))) ∧
  (∀ (s : State) (r : Nat) (p : Packet) (rest : List Packet), frontReady s r 0x35 1 [(16, 2)] p rest →
    let t := startedBy s r p rest
    let i := getLe p.bytes 16 1
    let x := strm t i
    i < 8 → mayControl t (inflightOfPacket s r p).owner i = true → x.st ≠ .unbound →
    (getLe p.bytes 17 1 = 1 → x.desc.isSome = true → Sys2Proof.Machine.exec (.streamStart r) s = .next (settle
      (finishPkt s.hif.nextId 0 x.step 0
        (if x.st = .running then t else updStrm i (fun y => { y with st := .running }) t)))) ∧
    (getLe p.bytes 17 1 = 2 → x.stepping = true ∨ x.jobs ≠ [] → Sys2Proof.Machine.exec (.streamPause r) s =
      .next (settle (updStrm i (fun y => { y with ctl := y.ctl ++ [(s.hif.nextId, .paused)] }) t))) ∧
    (getLe p.bytes 17 1 = 2 → x.stepping = false → x.jobs = [] → x.st ≠ .failed →
      Sys2Proof.Machine.exec (.streamPause r) s = .next (settle (finishPkt s.hif.nextId 0 x.step 0
        (updStrm i (fun y => { y with st := .paused }) t)))) ∧
    (getLe p.bytes 17 1 = 3 → x.stepping = true ∨ x.jobs ≠ [] → Sys2Proof.Machine.exec (.streamStop r) s =
      .next (settle (updStrm i (fun y => { y with ctl := y.ctl ++ [(s.hif.nextId, .stopped)] }) t))) ∧
    (getLe p.bytes 17 1 = 3 → x.stepping = false → x.jobs = [] → x.st ≠ .failed →
      Sys2Proof.Machine.exec (.streamStop r) s = .next (settle (finishPkt s.hif.nextId 0 x.step 0
        (updStrm i (fun y => { y with st := .stopped }) t))))) ∧
  (∀ (s : State) (r : Nat) (p : Packet) (rest : List Packet), frontReady s r 0x36 1 [(16, 21)] p rest →
    (inflightOfPacket s r p).owner = 0 →
    let t := startedBy s r p rest
    let i := getLe p.bytes 17 1
    let fl := getLe p.bytes 18 1
    i < 8 ∨ i = 0xFF → fl < 16 → getLe p.bytes 19 1 < 8 → getLe p.bytes 36 1 ≤ 4 →
    Sys2Proof.Machine.exec (.channelConfig r) s = .next (settle (finishPkt s.hif.nextId 0 0 0 { t with sqe := { t.sqe with
      channels := Tbl.set {} t.sqe.channels (getLe p.bytes 16 1)
        { stream := if i = 0xFF then none else some i, enable := bitOf fl 0, reclaim := bitOf fl 1
          evictable := bitOf fl 2, drop := bitOf fl 3, defClass := getLe p.bytes 19 1
          stops := (List.range (getLe p.bytes 36 1)).map (fun j => getLe p.bytes (20 + 4 * j) 4) } } }))) ∧
  (∀ (s : State) (r : Nat) (p : Packet) (rest : List Packet), frontReady s r 0x37 1 [(16, 3), (20, 8)] p rest →
    let t := startedBy s r p rest
    let i := getLe p.bytes 16 1
    let c := getLe p.bytes 17 1
    let res := getLe p.bytes 24 4
    let sum := sumOf (fun k => if k = c then res else (seqClass t i k).res) (List.range 8)
    let k : SeqClass := { enabled := getLe p.bytes 18 1 == 1, qmax := getLe p.bytes 20 4, res }
    i < 8 → c < 8 → getLe p.bytes 18 1 < 2 → getLe p.bytes 20 4 ≤ 65536 → (strm t i).st ≠ .unbound →
    (strm t i).owner = (inflightOfPacket s r p).owner →
    (sum ≤ (strm t i).pageCount → Sys2Proof.Machine.exec (.classConfig r) s = .next (settle (finishPkt s.hif.nextId 0 0 0
      (updStrm i (fun x => { x with classes := Tbl.set {} x.classes c k }) t)))) ∧
    ((strm t i).pageCount < sum → Sys2Proof.Machine.exec (.classConfig r) s =
      .next (settle (finishPkt s.hif.nextId 0x0303 0 0 t))))

/-- R253, R256, R257, R261, R265, R267: a step's packets end, its boundary begins the walk, the prepared batch is fired;
prompt tokens come or fail; a victim's image is written; a swapped-in image's pages are written back. -/
def Obligations.StepsFireAndEnd : Prop :=
  (∀ (s : State) (i ec st : Nat) (rest : List Nat), fclkRuns s = true → (strm s i).dones = st :: rest → st / 256 = 0 →
    (strm s i).failed = none →
    let u := startPackets i 4096 (updStrm i (fun y => { y with dones := rest }) s)
    (strm u i).failed = none →
    ((strm u i).left = [] → (strm u i).dones = [] → inflightOf u (1024 + i) = [] →
      Sys2Proof.Machine.exec (.stepPacketComplete i ec) s =
        .next (settle (updStrm i (fun z => { z with ended := true }) u))) ∧
    ((strm u i).left ≠ [] ∨ (strm u i).dones ≠ [] ∨ inflightOf u (1024 + i) ≠ [] →
      Sys2Proof.Machine.exec (.stepPacketComplete i ec) s = .next (settle u))) ∧
  (∀ (s : State) (i ec : Nat), (strm s i).dones = [] →
    Sys2Proof.Machine.exec (.stepPacketComplete i ec) s = .next (settle s)) ∧
  (∀ (s : State) (i ec uj : Nat), fclkRuns s = true →
    ((strm s i).stepping = true → (strm s i).ended = true → Sys2Proof.Machine.exec (.stepBoundary i ec uj) s =
      .next (settle (runJobs i ec jobFuel (govBoundary i uj (updStrm i (fun y => { y with
        stepping := false, ended := false
        jobs := y.jobs ++ (List.range y.batch.length).map StreamJob.result ++ [.apply true] }) s))))) ∧
    ((strm s i).stepping = false ∨ (strm s i).ended = false →
      Sys2Proof.Machine.exec (.stepBoundary i ec uj) s = .next (settle s))) ∧
  (∀ (s : State) (i ec : Nat) (d : StreamDesc) (b : List SlotPlan), isOn s = true → (strm s i).desc = some d →
    (strm s i).st = .running → (strm s i).stepping = false → (strm s i).jobs = [] → (strm s i).wait = .none →
    (strm s i).ctl = [] → inflightOf s (1024 + i) = [] → awaits s (· == .streamWrite i) = false →
    (strm s i).next = some b →
    (d.pace = false ∨ gateReady s i = true →
      Sys2Proof.Machine.exec (.stepFire i ec) s = .next (settle (fireStep i d b s))) ∧
    (d.pace = true → gateReady s i = false → (strm s i).gateWait = false → Sys2Proof.Machine.exec (.stepFire i ec) s =
      .next (settle (putStatus i (updStrm i (fun z => { z with gateWait := true }) s)))) ∧
    (d.pace = true → gateReady s i = false → (strm s i).gateWait = true →
      Sys2Proof.Machine.exec (.stepFire i ec) s = .next (settle s))) ∧
  (∀ (s : State) (i ec : Nat), (strm s i).st ≠ .running ∨ (strm s i).stepping = true ∨ (strm s i).desc = none →
    Sys2Proof.Machine.exec (.stepFire i ec) s = .next (settle s)) ∧
  (∀ (s : State) (i : Nat) (d : StreamDesc) (b : List SlotPlan), d.pace = false →
    let n := if (strm s i).again then (strm s i).step else (strm s i).step + 1
    let l := ((Tbl.get none s.sqe.programs d.program).map (·.packets)).getD []
    fireStep i d b s = startPackets i 4096 (govFire i (otherSteps s i) (updStrm i (fun y => { y with
      step := n, stepping := true, batch := b, next := none, again := false, gateWait := false, ended := l.isEmpty
      failed := none, dones := []
      left := l.map (fun x => stepPacket x (if n % 2 = 0 then d.meta0 else d.meta1) y.clusters) }) s))) ∧
  (∀ (s : State) (id ec : Nat) (x : Seq) (jr : JournalRead) (l : List Nat), fclkRuns s = true → findSeq s id = some x →
    x.reading = some jr →
    let t := updSeq x.slot (fun y => { y with reading := none }) s
    Sys2Proof.Machine.exec (.journalReadDone id (some l) ec) s = .next (settle (updSeq x.slot (fun y => { y with
      have_ := if x.committed + x.have_.length = jr.first then y.have_ ++ l.take jr.count else y.have_ }) t)) ∧
    Sys2Proof.Machine.exec (.journalReadDone id none ec) s = .next (settle (failStream x.stream 0x0461 ec
      (hostError 1 (strm t x.stream).owner (x.journal + 64 + 4 * jr.first) 4 0 t)))) ∧
  (∀ (s : State) (id ec : Nat) (x : Seq), fclkRuns s = true → findSeq s id = some x → x.st = .ending →
    x.copying = true → (∀ j ∈ (strm s x.stream).jobs, j ≠ .swapOut x.slot) →
    Sys2Proof.Machine.exec (.swapCopyDone id true ec) s =
      .next (settle (flushBoundary x.stream ec (endSeq x 0x0690 x.pages.length s))) ∧
    Sys2Proof.Machine.exec (.swapCopyDone id false ec) s = .next (settle (flushBoundary x.stream ec
      (endSeq x 0x0691 0 (hostError 1 (strm s x.stream).owner x.swap 4 0 s))))) ∧
  (∀ (s : State) (id ec : Nat) (x : Seq) (d : StreamDesc) (b : List Byte), fclkRuns s = true → findSeq s id = some x →
    (strm s x.stream).desc = some d → x.swapIn = true → x.need = 0 → x.copying = false → x.st ≠ .queued →
    Sys2Proof.Machine.exec (.swapInCopyDone id none ec) s = .next (settle (flushBoundary x.stream ec
      (endSeq x 0x0691 0 (hostError 1 (strm s x.stream).owner x.swap 4 0 s)))) ∧
    (let n := pagesFor d.tpp x.committed
     let w := (x.pages.take n).mapIdx (fun j k => StreamJob.write
       (d.kv + (k.page - (strm s x.stream).pageFirst) * kvPageSize s) (slice b (j * kvPageSize s) (kvPageSize s)))
     Sys2Proof.Machine.exec (.swapInCopyDone id (some b) ec) s = .next (settle (runJobs x.stream ec jobFuel
       (updStrm x.stream (fun y => { y with jobs := y.jobs ++ w ++ [.swapIn x.slot] })
         (updSeq x.slot (fun y => { y with
           copying := true, pages := y.pages.mapIdx (fun j k => if j < n then { k with prov := false } else k) }) s)))))) ∧
  (∀ (stops : List Nat) (stopLast : Bool) (limit gen : Nat) (l : List Nat), gen + l.length ≤ limit →
    let c := cutTokens stops stopLast limit l gen
    c.1 = l.take c.1.length ∧ (c.2 = 0 → c.1 = l) ∧ (∀ k ∈ c.1.dropLast, stops.contains k = false) ∧
    (c.2 ≠ 0 → c.2 = 0x0090 ∨ c.2 = 0x0091 ∧ gen + c.1.length = limit))

/-! The Sweep Engine (chapter 10) -/

/-- R278, R280, R282, R303, R306: a sweep channel is bound and unbound, described, started, stopped, flushed, has its
accumulating table copied or cleared, takes records and poses. -/
def Obligations.SweepChannelsAreBoundFedAndControlled : Prop :=
  (∀ (s : State) (r : Nat) (p : Packet) (rest : List Packet), frontReady s r 0x40 1 [(16, 3)] p rest →
    let t := startedBy s r p rest
    let c := getLe p.bytes 16 1
    let o := getLe p.bytes 17 1
    let fl := getLe p.bytes 18 1
    (c < 8 → fl = 0 → 0 < o → o ≤ 63 → (sweepAt t c).st = .unbound →
      (ownerActive t o = true → Sys2Proof.Machine.exec (.sweepBind r) s =
        .next (settle (finishPkt s.hif.nextId 0 0 0 (updSweep c (fun _ => { st := .idle, owner := o }) t)))) ∧
      (ownerActive t o = false → Sys2Proof.Machine.exec (.sweepBind r) s =
        .next (settle (finishPkt s.hif.nextId 0x0225 0 0 t)))) ∧
    (c < 8 → fl = 1 → (sweepAt t c).st = .idle → Sys2Proof.Machine.exec (.sweepBind r) s =
      .next (settle (finishPkt s.hif.nextId 0 0 0 (updSweep c (fun _ => {}) t)))) ∧
    (8 ≤ c ∨ 1 < fl ∨ fl = 1 ∧ (sweepAt t c).st ≠ .idle ∨ fl = 0 ∧ (sweepAt t c).st ≠ .unbound →
      Sys2Proof.Machine.exec (.sweepBind r) s = .next (settle (finishPkt s.hif.nextId 0x0303 0 0 t)))) ∧
  (∀ (s : State) (r : Nat) (p : Packet) (rest : List Packet), frontReady s r 0x41 1 [(16, 1), (24, 8)] p rest →
    let t := startedBy s r p rest
    let q := inflightOfPacket s r p
    let c := getLe p.bytes 16 1
    sweepMine t q = true → getLe p.bytes 24 8 % 64 = 0 →
    ((sweepAt t c).st ≠ .idle → Sys2Proof.Machine.exec (.sweepConfig r) s =
      .next (settle (finishPkt s.hif.nextId 0x02B0 0 0 t))) ∧
    (∀ b u, (sweepAt t c).st = .idle → engRead (.packetRead s.hif.nextId) q.who [] (getLe p.bytes 24 8) 256 t = .ok b u →
      (sweepDescOk b (parseSweep b []) = false → Sys2Proof.Machine.exec (.sweepConfig r) s =
        .next (settle (finishPkt s.hif.nextId 0x0303 0 0 u))) ∧
      (∀ e v, sweepDescOk b (parseSweep b []) = true →
        engRead (.packetRead s.hif.nextId) q.who [] (getLe b 96 8) (16 * getLe b 6 2) u = .ok e v →
        let l := (List.range (getLe b 6 2)).map (fun i => parseBeam (slice e (16 * i) 16))
        ((∀ x ∈ l, x ≠ none) → Sys2Proof.Machine.exec (.sweepConfig r) s = .next (settle (finishPkt s.hif.nextId 0 0 0
          (updSweep c (fun x => { x with desc := some (parseSweep b (l.filterMap id)) }) v)))) ∧
        (none ∈ l → Sys2Proof.Machine.exec (.sweepConfig r) s =
          .next (settle (finishPkt s.hif.nextId 0x0303 0 0 v)))))) ∧
  (∀ (s : State) (r cons : Nat) (p : Packet) (rest : List Packet), frontReady s r 0x42 1 [(16, 2)] p rest →
    let t := startedBy s r p rest
    let q := inflightOfPacket s r p
    let c := getLe p.bytes 16 1
    let op := getLe p.bytes 17 1
    let x := sweepAt t c
    let active := x.st = .running ∨ x.st = .waitPhase
    let refused := settle (finishPkt s.hif.nextId 0x02B0 0 0 t)
    (op = 0 ∨ 5 < op → Sys2Proof.Machine.exec (.sweepStart r) s =
      .next (settle (finishPkt s.hif.nextId 0x0303 0 0 t))) ∧
    (sweepMine t q = true →
      (∀ d, op = 1 → x.desc = some d → x.st = .idle → Sys2Proof.Machine.exec (.sweepStart r) s =
        .next (settle (finishPkt s.hif.nextId 0 0 0 (updSweep c (fun y => { y with
          st := if phaseKnown t d.phase then .running else .waitPhase, offset := none, lastDone := none }) t)))) ∧
      (op = 1 → x.desc = none ∨ x.st ≠ .idle → Sys2Proof.Machine.exec (.sweepStart r) s = .next refused) ∧
      (op = 2 → active → Sys2Proof.Machine.exec (.sweepStop r cons) s = .next (settle
        (let u := x.revs.foldl (fun u v => dropRev c v.rev 0x05B0 cons u) t
         let ids := x.held.map (·.1) ++ x.jobs.filterMap (fun j => match j with
           | .snapshot id _ => some id
           | .clear id => some id
           | _ => none)
         finishPkt s.hif.nextId 0 ((lowRev x).getD 0) 0 (updSweep c (fun y => { y with
           st := .idle, offset := none, held := [], jobs := [], parked := false, remote := false, far := []
           stamped := false }) (updOwner x.owner (fun w => { w with
             parks := w.parks.filter (fun k => !(k.agent == .sweep c)) })
             (ids.foldl (fun u id => finishPkt id 0x02B0 0 0 u) u)))))) ∧
      (op = 2 → ¬active → Sys2Proof.Machine.exec (.sweepStop r cons) s = .next refused) ∧
      (op = 3 → active → x.revs = [] → Sys2Proof.Machine.exec (.sweepFlush r) s =
        .next (settle (finishPkt s.hif.nextId 0 0 0 t))) ∧
      (op = 3 → active → x.revs ≠ [] → Sys2Proof.Machine.exec (.sweepFlush r) s = .next (settle
        (updSweep c (fun y => { y with flushing := y.flushing ++ [(s.hif.nextId, x.revs.map (·.rev))] })
          (forceAll c t)))) ∧
      (op = 3 → ¬active → Sys2Proof.Machine.exec (.sweepFlush r) s = .next refused) ∧
      (∀ d, x.desc = some d → d.accum = true →
        (op = 4 → active → Sys2Proof.Machine.exec (.snapshot r cons) s = .next (settle (runSweep c cons jobFuel
          (updSweep c (fun y => { y with jobs := y.jobs ++ [.snapshot s.hif.nextId 0] }) t)))) ∧
        (op = 4 → ¬active → Sys2Proof.Machine.exec (.snapshot r cons) s = .next refused) ∧
        (op = 5 → Sys2Proof.Machine.exec (.voxReset r cons) s = .next (settle (runSweep c cons jobFuel
          (updSweep c (fun y => { y with jobs := y.jobs ++ [.clear s.hif.nextId] }) t))))) ∧
      (∀ d, x.desc = some d → d.accum = false →
        (op = 4 → Sys2Proof.Machine.exec (.snapshot r cons) s =
          .next (settle (finishPkt s.hif.nextId 0x0303 0 0 t))) ∧
        (op = 5 → Sys2Proof.Machine.exec (.voxReset r cons) s =
          .next (settle (finishPkt s.hif.nextId 0x0303 0 0 t)))))) ∧
  (∀ (s : State) (r : Nat) (p : Packet) (rest : List Packet) (host : Option (List Byte)),
    frontReady s r 0x43 1 [(16, 2), (24, 12)] p rest →
    let t := startedBy s r p rest
    let q := inflightOfPacket s r p
    let c := getLe p.bytes 16 1
    let a := getLe p.bytes 24 8
    let n := getLe p.bytes 32 4
    let active := (sweepAt t c).st = .running ∨ (sweepAt t c).st = .waitPhase
    sweepMine t q = true → getLe p.bytes 17 1 < 2 → a % 8 = 0 →
    (¬active → Sys2Proof.Machine.exec (.sweepSubmit r host) s = .next (settle (finishPkt s.hif.nextId 0x02B0 0 0 t))) ∧
    (active → getLe p.bytes 17 1 = 0 → Sys2Proof.Machine.exec (.sweepSubmit r host) s =
      .next (settle (updSweep c (fun y => { y with held := y.held ++ [(s.hif.nextId, none)] }) t))) ∧
    (active → getLe p.bytes 17 1 = 1 →
      let u := { t with out := t.out ++ [.hostRead q.owner a n] }
      (∀ b, host = some b → Sys2Proof.Machine.exec (.sweepSubmit r host) s = .next (settle (updSweep c (fun y =>
        { y with held := y.held ++ [(s.hif.nextId, some (slice b 0 (min 32801 n)))] }) u))) ∧
      (host = none → Sys2Proof.Machine.exec (.sweepSubmit r host) s = .next (settle (finishPkt s.hif.nextId 0x0461 0 0
        (markLogged s.hif.nextId (hostError 1 q.owner a 5 q.tag u))))))) ∧
  (∀ (s : State) (r : Nat) (p : Packet) (rest : List Packet),
    frontReady s r 0x44 (1 + getLe p.bytes 17 1) [(16, 2)] p rest →
    let t := startedBy s r p rest
    let c := getLe p.bytes 16 1
    let n := getLe p.bytes 17 1
    let x := sweepAt t c
    let l := (List.range n).map (fun i => slice p.bytes (64 + 64 * i) 64)
    let ok := l.all poseOk && rising ((x.poses.getLast?).map (·.dts)) ((l.map parsePose).map (·.dts))
    let kept := (x.poses ++ l.map parsePose).drop ((x.poses ++ l.map parsePose).length - 256)
    sweepMine t (inflightOfPacket s r p) = true → 0 < n → n ≤ 3 → x.st = .running ∨ x.st = .waitPhase →
    (ok = true → Sys2Proof.Machine.exec (.posePush r) s = .next (settle (finishPkt s.hif.nextId 0 kept.length 0
      (updSweep c (fun y => { y with poses := kept }) t)))) ∧
    (ok = false → Sys2Proof.Machine.exec (.posePush r) s = .next (settle (finishPkt s.hif.nextId 0x03B1 0 0 t))))

/-- R285–R288, R292, R293, R297, R302: revolutions open at their phase cycle, slices close on phase and are processed in
order, a slice without a pose is given up; points are filtered, late, capped or stored in their slice's own quota; the
quotas tile the staging half; a voxel's offset lies inside it; a done record goes to the ring unless that is full. -/
def Obligations.RevolutionsOpenFillAndClose : Prop :=
  (∀ (s : State) (c cons off l t : Nat) (d : SweepDesc), fclkRuns s = true →
    let x := sweepAt s c
    let n := match x.revs.getLast? with
      | some v => (v.rev + 1) % 2 ^ 32
      | none => (l + 1) % 2 ^ 32
    x.desc = some d → x.offset = some off → x.lastDone = some l → x.st = .running →
    reachAt s d.phase (cycleOf s d off n * 65536) = some t →
    (x.revs.length < 2 → x.parked = false → x.remote = false → Sys2Proof.Machine.exec (.revolutionOpen c cons) s =
      .next (settle (runSweep c cons jobFuel (openRev c n d off (advanceTo t s))))) ∧
    (2 ≤ x.revs.length → Sys2Proof.Machine.exec (.revolutionOpen c cons) s =
      .next (settle (giveUp c ((lowRev x).getD 0) (advanceTo t s))))) ∧
  (∀ (s : State) (c cons : Nat), (sweepAt s c).offset = none ∨ (sweepAt s c).st ≠ .running →
    (∀ v ∈ (sweepAt s c).revs, ∀ y ∈ v.slices, y.closed.isSome = true) →
    Sys2Proof.Machine.exec (.revolutionOpen c cons) s = .next (settle s) ∧
    Sys2Proof.Machine.exec (.sliceClose c) s = .next (settle s)) ∧
  (∀ (s : State) (c t : Nat) (d : SweepDesc) (v : Rev) (i : Nat), fclkRuns s = true → (sweepAt s c).desc = some d →
    (sweepAt s c).revs = [v] → i < v.slices.length →
    (∀ j < v.slices.length, ((v.slices[j]?).getD {}).closed = none ↔ j = i) →
    reachAt s d.phase (closePhase d v i) = some t →
    Sys2Proof.Machine.exec (.sliceClose c) s = .next (settle
      (let u := latchRevs c d (advanceTo t s)
       if closePhase d v i ≤ phaseAt u d.phase then closeSlice c v.rev i false u else u))) ∧
  (∀ (s : State) (c : Nat) (d : SweepDesc) (v : Rev) (i : Nat) (y : Slice), fclkRuns s = true →
    (sweepAt s c).desc = some d → nextSlice (sweepAt s c) = some (v, i, y) →
    (sliceReady (sweepAt s c) d v i y = false → Sys2Proof.Machine.exec (.poseWaitExpiry c) s = .next (settle
      (updSlice c v.rev i (fun z => { z with missing := true })
        (advanceTo (y.closed.getD s.dts + d.poseWait * 1000) s)))) ∧
    (sliceReady (sweepAt s c) d v i y = true → Sys2Proof.Machine.exec (.poseWaitExpiry c) s = .next (settle s))) ∧
  (∀ (s : State) (cons c : Nat) (d : SweepDesc) (v : Rev) (i : Nat) (y : Slice), fclkRuns s = true →
    readyChannel s = some c → (sweepAt s c).desc = some d → nextSlice (sweepAt s c) = some (v, i, y) →
    let miss := y.missing || (poseTooOld (sweepAt s c) d v i && (slicePose (sweepAt s c) d v i).isNone)
    let t := updSlice c v.rev i (fun z => { z with missing := miss, first := v.kept }) s
    let u := if miss then updRev c v.rev (fun w => { w with poseDrop := w.poseDrop + y.stored }) t else t
    Sys2Proof.Machine.exec (.sliceProcess cons) s = .next (settle
      (runSweep c cons jobFuel (updSweep c (fun z => { z with jobs := [.slice v.rev i 0] }) u)))) ∧
  (∀ (s : State) (cons : Nat), readyChannel s = none →
    Sys2Proof.Machine.exec (.sliceProcess cons) s = .next (settle s)) ∧
  (∀ (s : State) (c cons id r w : Nat) (rest : List Nat) (stored dropped : Nat) (d : SweepDesc) (v : Rev),
    revAt s c r = some v →
    let rng := w / 2 ^ 32 % 2 ^ 24
    let i := (w % 65536 + d.azOff) % 65536 / (65536 / d.slices)
    let y := (v.slices[i]?).getD {}
    (rng < d.minRange ∨ d.maxRange < rng → binPoint c cons id r w rest stored dropped d s =
      putSweep c (.bin id r rest stored dropped)
        (updRev c r (fun q => { q with filtered := (q.filtered + 1) % 2 ^ 32 }) s)) ∧
    (d.minRange ≤ rng → rng ≤ d.maxRange → y.closed.isSome = true → binPoint c cons id r w rest stored dropped d s =
      putSweep c (.bin id r rest stored (dropped + 1)) (updSlice c r i (fun q => { q with late := q.late + 1 }) s)) ∧
    (d.minRange ≤ rng → rng ≤ d.maxRange → y.closed = none → d.rimg = false →
      ((d.quota i).1 ≤ y.stored → binPoint c cons id r w rest stored dropped d s =
        putSweep c (.bin id r rest stored (dropped + 1))
          (updSlice c r i (fun z => { z with capDrop := z.capDrop + 1 }) s)) ∧
      (∀ z u, y.stored < (d.quota i).1 → engWrite (.sweepWrite c) (sweepWho s c)
        (d.stage + (r % 2) * d.cap * 8 + ((d.quota i).2 + y.stored) * 8) (leBytes 8 w) s = .ok z u →
        binPoint c cons id r w rest stored dropped d s = putSweep c (.bin id r rest (stored + 1) dropped)
          (updSlice c r i (fun k => { k with stored := k.stored + 1 }) u)))) ∧
  (∀ d : SweepDesc, 0 < d.slices →
    (d.quota 0).2 = 0 ∧ (d.quota d.slices).2 = d.cap ∧
    ∀ i < d.slices, (d.quota i).2 + (d.quota i).1 = (d.quota (i + 1)).2) ∧
  (∀ size v : Nat, 0 < size →
    toInt 21 v = (voxCoord size v).1 * size + (voxCoord size v).2 ∧ (voxCoord size v).2 < size) ∧
  (∀ (s : State) (c cons : Nat) (rec_ : List Byte) (d : SweepDesc),
    let x := sweepAt s c
    x.desc = some d →
    (sub32 x.doneProd x.doneCons < 2 ^ d.doneLog2 → putDone c cons rec_ s = sendVec x.owner d.vector
      (updSweep c (fun y => { y with doneCons := x.doneCons, doneProd := (y.doneProd + 1) % 2 ^ 32 }) (hostWrite x.owner
        (d.doneBase + x.doneProd % 2 ^ d.doneLog2 * 32)
        (rec_ ++ leBytes 1 (if x.doneProd / 2 ^ d.doneLog2 % 2 = 0 then 128 else 0)) false s))) ∧
    (2 ^ d.doneLog2 ≤ sub32 x.doneProd x.doneCons → 2 ^ d.doneLog2 ≤ sub32 x.doneProd cons →
      putDone c cons rec_ s = bumpFld (0x2401018 + c * 0x100) 31 0 (updSweep c (fun y => { y with doneCons := cons })
        { s with out := s.out ++ [.hostRead x.owner d.doneCons 4] })))

/-! The Phase Timebase Unit (chapter 11) -/

/-- R308, R310–R314, R329: a channel is enabled and disabled; its edges and stamps lock it, keep it and lose it; a missing
cycle start, a predicted one and the end of a holdover act at the instants the rules name; phase time never decreases. -/
def Obligations.PhaseChannelsLockAndHold : Prop :=
  (∀ (s : State) (r : Requester) (c v : Nat) (d : RegDef), c < 8 →
    writesPlain s r (0x2601000 + 0x40 * c) (0x2601000 + 0x40 * c) d v →
    let t := written s (0x2601000 + 0x40 * c) d v
    let was := regBit s (0x2601000 + 0x40 * c) 31
    let is := regBit t (0x2601000 + 0x40 * c) 31
    (was = false → is = true → Sys2Proof.Machine.exec (.channelEnable r c v) s =
      .next (settle (chChanged (updCh c (fun _ => { st := .acquire, since := s.dts }) t)))) ∧
    (was = true → is = false → Sys2Proof.Machine.exec (.channelEnable r c v) s =
      .next (settle (chChanged (updCh c (fun ch => { ch with st := .off }) t)))) ∧
    (was = is → Sys2Proof.Machine.exec (.channelEnable r c v) s = .next (settle t))) ∧
  (∀ (s : State) (c e : Nat), c < 3 → standby s = true →
    let t := { s with dts := max s.dts e }
    let ch := phaseCh s c
    let p := e - ch.start
    let good := regFld s (0x2601004 + 0x40 * c) 15 0 * 10000 ≤ p ∧ p ≤ regFld s (0x2601004 + 0x40 * c) 31 16 * 10000 ∧
      ((p - ch.period) + (ch.period - p)) * 50 ≤ ch.period
    (ch.st = .off → Sys2Proof.Machine.exec (.mainsEdge c e) s = .next (settle t)) ∧
    (ch.st = .acquire → Sys2Proof.Machine.exec (.mainsEdge c e) s = .next (settle (acquireEdge c e t))) ∧
    (ch.st = .holdover ∨ ch.st = .lost → Sys2Proof.Machine.exec (.mainsEdge c e) s = .next (settle (chChanged
      (updCh c (fun x => { x with
        st := .acquire, acqFrom := if ch.st = .lost then .lost else .holdover, lastEdge := some e, good := 0, since := e })
        (holdPhase c (catchUp c t)))))) ∧
    (ch.st = .locked → good → Sys2Proof.Machine.exec (.mainsEdge c e) s = .next (settle (chChanged
      (let u := updCh c (fun x => { x with
         floor := phaseAt t c, cycle := x.cycle + 1, start := e, period := p, lastEdge := some e, lastPeriod := some p
         since := e, recent := (p :: x.recent).take 8, latchDts := e, latchPeriod := p, latchCycle := x.cycle + 1 }) t
       if c = refCh t then freqUpdate u else u)))) ∧
    (ch.st = .locked → ¬good → Sys2Proof.Machine.exec (.mainsEdge c e) s = .next (settle (enterHoldover c
      (updCh c (fun x => { x with lastPeriod := if inRange t c p then some p else x.lastPeriod }) t))))) ∧
  (∀ (s : State) (i e : Nat), 3 ≤ i → standby s = true →
    let t := { s with dts := max s.dts e }
    Sys2Proof.Machine.exec (.mainsEdge i e) s = .next (settle ([3, 4, 5].foldl
      (fun u c => if regFld u (0x2601000 + 0x40 * c) 30 28 + 3 = i then tachEdge c e u else u) t))) ∧
  (∀ (s : State) (c e : Nat),
    ((phaseCh s c).st = .off → tachEdge c e s = s) ∧
    ((phaseCh s c).st ≠ .off →
      let t := updCh c (fun x => { x with edges := x.edges + 1 }) s
      tachEdge c e s = if (phaseCh s c).edges % (regFld s (0x2601000 + 0x40 * c) 27 25 + 1) = 0 then cycleEdge c e t
        else t)) ∧
  (∀ (s : State) (c e : Nat), (phaseCh s c).acqFrom = .first → ∀ f, (phaseCh s c).lastEdge = some f →
    let ch := phaseCh s c
    let p := e - f
    let ok := inRange s c p = true ∧ ∀ q, ch.lastPeriod = some q → ((p - q) + (q - p)) * 50 ≤ q
    let t := updCh c (fun x => { x with
      lastEdge := some e, starts := x.starts + 1, lastPeriod := if inRange s c p then some p else x.lastPeriod }) s
    let u := updCh c (fun x => { x with good := x.good + 1, since := e, recent := (p :: x.recent).take 8 }) t
    (ok → regFld s (0x2601000 + 0x40 * c) 18 16 ≤ ch.good + 1 → acquireEdge c e s = lockEdge c e p u) ∧
    (ok → ch.good + 1 < regFld s (0x2601000 + 0x40 * c) 18 16 → acquireEdge c e s = u) ∧
    (¬ok → acquireEdge c e s = updCh c (fun x => { x with good := 0 })
      (updCh c (fun x => { x with bad := satInc 0xFFFF x.bad }) t))) ∧
  (∀ (s : State) (c : Nat), standby s = true →
    let ch := phaseCh s c
    let miss := regFld s (0x2601008 + 0x40 * c) 15 0
    (ch.st = .locked → c < 6 → Sys2Proof.Machine.exec (.cycleStartMissing c) s = .next (settle (enterHoldover c
      { s with dts := max s.dts (ch.start + ceilDiv ((65536 + miss) * ch.period) 65536) }))) ∧
    (∀ t p, ch.st = .locked → 6 ≤ c → ch.stamp = some (t, p) → ch.rateNum ≠ 0 →
      Sys2Proof.Machine.exec (.cycleStartMissing c) s = .next (settle (enterHoldover c
        { s with dts := max s.dts (t + ceilDiv ((16384 + miss) * ch.rateDen) ch.rateNum) }))) ∧
    (ch.st ≠ .locked → Sys2Proof.Machine.exec (.cycleStartMissing c) s = .next (settle s))) ∧
  (∀ (s : State) (c : Nat),
    let t := bumpBad c s
    (regFld s (0x2601008 + 0x40 * c) 31 16 = 0 → enterHoldover c s = chChanged (catchUp c
      (updCh c (fun ch => { ch with st := .lost, since := s.dts, good := 0 }) (holdPhase c t)))) ∧
    (regFld s (0x2601008 + 0x40 * c) 31 16 ≠ 0 → enterHoldover c s = chChanged (catchUp c
      (updCh c (fun ch => { ch with st := .holdover, since := s.dts, good := 0, badRun := 0 }) (holdPhase c t))))) ∧
  (∀ (s : State) (c : Nat), standby s = true →
    let ch := phaseCh s c
    (hasPhase ch = true → ch.st ≠ .locked → c < 6 → Sys2Proof.Machine.exec (.predictedCycleStart c) s =
      .next (settle (chChanged (catchUp c { s with dts := max s.dts (ch.start + ch.period) })))) ∧
    (∀ t, hasPhase ch = true → 6 ≤ c → reachAt s c ((ch.cycle + 1) * 65536) = some t →
      Sys2Proof.Machine.exec (.predictedCycleStart c) s =
        .next (settle (chChanged (catchUp c { s with dts := max s.dts t })))) ∧
    (hasPhase ch = false → Sys2Proof.Machine.exec (.predictedCycleStart c) s = .next (settle s)) ∧
    (ch.st = .holdover ∨ ch.st = .acquire ∧ ch.acqFrom ≠ .first → Sys2Proof.Machine.exec (.holdoverExpiry c) s =
      .next (settle (enterLost c
        { s with dts := max s.dts (ch.since + regFld s (0x2601008 + 0x40 * c) 31 16 * 1000000) }))) ∧
    (ch.st = .off ∨ ch.st = .locked ∨ ch.st = .lost → Sys2Proof.Machine.exec (.holdoverExpiry c) s =
      .next (settle s))) ∧
  (∀ (s : State) (r : Nat) (p : Packet) (rest : List Packet),
    frontReady s r 0x52 (1 + ceilDiv (getLe p.bytes 17 1) 4) [(16, 2)] p rest →
    let t := startedBy s r p rest
    let o := (inflightOfPacket s r p).owner
    let c := getLe p.bytes 16 1
    let n := getLe p.bytes 17 1
    let l := (List.range n).map (fun i => (getLe p.bytes (64 + 16 * i) 8, getLe p.bytes (72 + 16 * i) 2))
    let ok := c = 6 ∨ c = 7 → 0 < n → n ≤ 12 → (∀ i < n, allZero (slice p.bytes (74 + 16 * i) 6) = true) →
      regFld t (0x2601000 + c * 0x40) 30 28 = 1 → o = 0 ∨ o = regFld t (0x2601000 + c * 0x40) 24 19 →
      stampsOk t.dts l = true →
      let z := l.foldl (fun (acc : State × Nat) x =>
        ((softStamp c x.1 x.2 acc.1).1, if (softStamp c x.1 x.2 acc.1).2 then acc.2 + 1 else acc.2)) (t, 0)
      Sys2Proof.Machine.exec (.phaseStamp r) s = .next (settle (finishPkt s.hif.nextId 0 z.2 (n - z.2) z.1))
    ok ∧
    (c < 6 ∨ 7 < c ∨ n = 0 ∨ 12 < n ∨ regFld t (0x2601000 + c * 0x40) 30 28 ≠ 1 ∨ stampsOk t.dts l = false →
      Sys2Proof.Machine.exec (.phaseStamp r) s = .next (settle (finishPkt s.hif.nextId 0x0303 0 0 t)))) ∧
  (∀ (s : State) (r : Nat) (p : Packet) (rest : List Packet), frontReady s r 0x53 1 [(16, 1)] p rest →
    let t := startedBy s r p rest
    let c := getLe p.bytes 16 1
    (c < 8 → Sys2Proof.Machine.exec (.phaseQuery r) s = .next (settle (finishPkt s.hif.nextId 0
      (phaseAt t c % 2 ^ 48 + (phaseCh t c).st.code * 2 ^ 48) (phaseCh t c).latchPeriod t))) ∧
    (8 ≤ c → Sys2Proof.Machine.exec (.phaseQuery r) s = .next (settle (finishPkt s.hif.nextId 0x0303 0 0 t)))) ∧
  (∀ (s : State) (c t : Nat), s.dts ≤ t → (phaseCh s c).st ≠ .off → (phaseCh s c).everLocked = true →
    phaseAt s c ≤ phaseAt { holdPhase c s with dts := t } c ∧
    ∀ f : PhaseCh → PhaseCh, (f (phaseCh (holdPhase c s) c)).everLocked = true →
      (f (phaseCh (holdPhase c s) c)).st ≠ .off →
      (f (phaseCh (holdPhase c s) c)).floor = (phaseCh (holdPhase c s) c).floor →
      phaseAt s c ≤ phaseAt (updCh c f (holdPhase c s)) c)

/-- R316–R323, R327, R329, R330: phase events are armed, discarded and fired; step gates and pulses end; the site's inputs
and time limits move the site state; the bus lock and the stagger offset follow their registers. -/
def Obligations.PhaseEventsAndSitePower : Prop :=
  (∀ (s : State) (r : Nat) (p : Packet) (rest : List Packet), frontReady s r 0x50 1 [(16, 10), (28, 4)] p rest →
    let t := startedBy s r p rest
    let o := (inflightOfPacket s r p).owner
    let c := getLe p.bytes 16 1
    let act := getLe p.bytes 17 1
    let fl := getLe p.bytes 18 1
    let angle := getLe p.bytes 24 2
    let arg := getLe p.bytes 28 4
    let ends := fun st : Nat => Sys2Proof.Machine.exec (.eventSet r) s = .next (settle (finishPkt s.hif.nextId st 0 0 t))
    (8 ≤ fl ∨ act ∉ [1, 2, 3, 5] ∨ 8 ≤ c ∨ argLegal act arg = false → ends 0x0303) ∧
    (fl < 8 → act ∈ [1, 2, 3, 5] → c < 8 → argLegal act arg = true →
      (act = 1 ∨ act = 5 → o ≠ 0 → ends 0x0328) ∧
      (o = 0 ∨ act = 2 ∨ act = 3 →
        (eventForeign t o act arg = true → ends 0x0303) ∧
        (eventForeign t o act arg = false →
          (eventVoid t act arg = true → ends 0x03C0) ∧
          (eventVoid t act arg = false →
            (phaseKnown t c = false → ends 0x02C1) ∧
            (phaseKnown t c = true →
              (freeEvent t = none → ends 0x02C0) ∧
              (∀ i, freeEvent t = some i →
                let cur := phaseAt t c
                let off := if bitOf fl 0 then t.ptu.offset else 0
                let rel := bitOf fl 2
                let cyc := if rel then nextOcc t c ((angle + off) % 65536) + getLe p.bytes 20 4
                  else ((cur : Int) + phaseDist (getLe p.bytes 20 4 * 65536 + angle) cur).toNat / 65536
                let target := if rel then cyc * 65536 + (angle + off) % 65536 else cyc * 65536 + angle + off
                let e : PhaseEvent := { chan := c, action := act, repeats := getLe p.bytes 19 1, stagger := bitOf fl 0
                                        relative := rel, owner := o, cycle := cyc, angle, target, arg }
                let r1 := target / 65536 % 2 ^ 31 +
                  (if bitOf (target / 65536) 31 || (!rel && decide (target ≤ cur)) then 2 ^ 31 else 0)
                (cur + 2 ^ 24 * 65536 < target → ends 0x0303) ∧
                (target ≤ cur + 2 ^ 24 * 65536 → bitOf fl 1 = false → Sys2Proof.Machine.exec (.eventSet r) s =
                  .next (settle (fireEvents (finishPkt s.hif.nextId 0 i r1 (setEvent i (some e) t))))) ∧
                (target ≤ cur + 2 ^ 24 * 65536 → bitOf fl 1 = true → Sys2Proof.Machine.exec (.eventSet r) s =
                  .next (settle (fireEvents (updPkt s.hif.nextId (fun q => { q with wait := .event })
                    (setEvent i (some { e with wait := some (s.hif.nextId, r1) }) t)))))))))))) ∧
  (∀ (s : State) (r : Nat) (p : Packet) (rest : List Packet), frontReady s r 0x51 1 [(16, 2)] p rest →
    let t := startedBy s r p rest
    let o := (inflightOfPacket s r p).owner
    let i := getLe p.bytes 16 2
    (i = 0xFFFF →
      let l := (List.range 248).filter (fun k => ((eventAt t k).map (fun e => e.owner == o)).getD false)
      Sys2Proof.Machine.exec (.eventClear r) s = .next (settle (finishPkt s.hif.nextId 0 0 l.length
        (l.foldl (fun u k => discardEvent k u) t)))) ∧
    (248 ≤ i → i ≠ 0xFFFF → Sys2Proof.Machine.exec (.eventClear r) s =
      .next (settle (finishPkt s.hif.nextId 0x0303 0 0 t))) ∧
    (i < 248 → eventAt t i = none → Sys2Proof.Machine.exec (.eventClear r) s =
      .next (settle (finishPkt s.hif.nextId 0 0 0 t))) ∧
    (∀ e, i < 248 → eventAt t i = some e →
      (o = 0 ∨ e.owner = o → Sys2Proof.Machine.exec (.eventClear r) s =
        .next (settle (finishPkt s.hif.nextId 0 0 1 (discardEvent i t)))) ∧
      (o ≠ 0 → e.owner ≠ o → Sys2Proof.Machine.exec (.eventClear r) s =
        .next (settle (finishPkt s.hif.nextId 0x0303 0 0 t))))) ∧
  (∀ (s : State) (i : Nat), standby s = true →
    (eventAt s i = none → Sys2Proof.Machine.exec (.eventFire i) s = .next (settle s)) ∧
    (∀ e t, eventAt s i = some e → reachAt s e.chan e.target = some t → Sys2Proof.Machine.exec (.eventFire i) s =
      .next (settle (fireEvents { s with dts := max s.dts t })))) ∧
  (∀ (s : State) (i : Nat) (e : PhaseEvent), eventAt s i = some e →
    let lost := (phaseCh s e.chan).st = .lost ∨ (phaseCh s e.chan).st = .acquire ∧ (phaseCh s e.chan).acqFrom ≠ .first
    (lost → e.action = 3 ∨ e.action = 4 → e.repeats = 0 → reachEvent i s = discardEvent i s) ∧
    (lost → e.action = 3 ∨ e.action = 4 → e.repeats ≠ 0 →
      let n := { e with cycle := e.cycle + e.repeats }
      reachEvent i s = setEvent i (some { n with target := armedTarget s n }) s) ∧
    (¬lost ∨ e.action ≠ 3 ∧ e.action ≠ 4 → e.wait = none → e.repeats = 0 →
      reachEvent i s = setEvent i none (fireAction i e s)) ∧
    (¬lost ∨ e.action ≠ 3 ∧ e.action ≠ 4 → ∀ id r1, e.wait = some (id, r1) → e.repeats = 0 →
      reachEvent i s = setEvent i none (finishPkt id 0 s.dts r1 (fireAction i e s)))) ∧
  (∀ (s : State) (i : Nat), standby s = true →
    (∀ w t, s.ptu.gates.find? (·.stream == i) = some w → reachAt s w.chan w.close = some t →
      let u := { s with dts := max s.dts t }
      Sys2Proof.Machine.exec (.stepGateClose i) s = .next (settle { u with ptu := { u.ptu with
        gates := u.ptu.gates.filter (fun x => !(x.stream == i && decide (x.close ≤ phaseAt u x.chan))) } })) ∧
    (s.ptu.gates.find? (·.stream == i) = none → Sys2Proof.Machine.exec (.stepGateClose i) s = .next (settle s)) ∧
    (∀ e, Tbl.get none s.ptu.pulses i = some e → Sys2Proof.Machine.exec (.pulseEnd i) s = .next (settle
      { s with dts := max s.dts e, out := s.out ++ [.pulse i false]
               ptu := { s.ptu with pulses := Tbl.set none s.ptu.pulses i none } })) ∧
    (Tbl.get none s.ptu.pulses i = none → Sys2Proof.Machine.exec (.pulseEnd i) s = .next (settle s))) ∧
  (∀ (s : State) (i : Nat) (high : Bool), standby s = true →
    (i < 3 → Sys2Proof.Machine.exec (.siteInputChange i high) s = .next (settle (siteEval
      { s with ptu := { s.ptu with siteIn := Tbl.set none s.ptu.siteIn i (some high) } }))) ∧
    (3 ≤ i → Sys2Proof.Machine.exec (.siteInputChange i high) s = .next (settle s)) ∧
    (∀ t, s.ptu.clearSince = some t → s.ptu.site = .sag ∨ s.ptu.site = .bridge →
      Sys2Proof.Machine.exec .clearMsExpiry s = .next (settle (siteEval
        { s with dts := max s.dts (t + regFld s 0x2600018 15 0 * 1000000) }))) ∧
    (s.ptu.clearSince = none ∨ s.ptu.site ≠ .sag ∧ s.ptu.site ≠ .bridge →
      Sys2Proof.Machine.exec .clearMsExpiry s = .next (settle s)) ∧
    (s.ptu.site = .restore → Sys2Proof.Machine.exec .restoreMsExpiry s = .next (settle (siteEval
      { s with dts := max s.dts (s.ptu.restoreSince + regFld s 0x2600018 31 16 * 1000000) }))) ∧
    (s.ptu.site ≠ .restore → Sys2Proof.Machine.exec .restoreMsExpiry s = .next (settle s)) ∧
    (∀ t, s.ptu.allMissSince = some t → Sys2Proof.Machine.exec .allMissBridge s = .next (settle (siteEval
      { s with dts := max s.dts (t + 2 * refPeriod s) }))) ∧
    (s.ptu.allMissSince = none → Sys2Proof.Machine.exec .allMissBridge s = .next (settle s))) ∧
  (∀ s : State,
    (bridgeCause s = true → s.ptu.site ≠ .bridge → nextSite s = some .bridge) ∧
    (bridgeCause s = false → sagCause s = true → s.ptu.site ≠ .sag → nextSite s = some .sag) ∧
    (bridgeCause s = false → sagCause s = false → s.ptu.site = .normal →
      nextSite s = if wanderCause s then some .wander else none) ∧
    (bridgeCause s = false → sagCause s = false → s.ptu.site = .wander →
      nextSite s = if wanderCause s then none else some .normal) ∧
    (∀ t, bridgeCause s = false → sagCause s = false → s.ptu.site = .sag ∨ s.ptu.site = .bridge →
      s.ptu.clearSince = some t →
      nextSite s = if t + regFld s 0x2600018 15 0 * 1000000 ≤ s.dts then some .restore else none)) ∧
  (∀ (s : State) (r : Requester) (d : RegDef) (v : Nat),
    (writesPlain s r 0x2600010 0x2600010 d (setFld v 31 31 1) →
      let t := written s 0x2600010 d (setFld v 31 31 1)
      regBit t 0x2600010 31 = true →
      (regBit s 0x2600010 31 = false → Sys2Proof.Machine.exec (.siteEnable r v) s = .next (settle (siteEval
        (enterSite .restore { t with ptu := { t.ptu with calm := 0 } })))) ∧
      (regBit s 0x2600010 31 = true → Sys2Proof.Machine.exec (.siteEnable r v) s = .next (settle (siteEval t)))) ∧
    (writesPlain s r 0x2600038 0x2600038 d v →
      Sys2Proof.Machine.exec (.buslockWrite r v) s = .next (settle (armBuslock (written s 0x2600038 d v)))) ∧
    (writesPlain s r 0x2600034 0x2600034 d v →
      let t := written s 0x2600034 d v
      (s.ptu.assigned = true → Sys2Proof.Machine.exec (.staggerLocalWrite r v) s = .next (settle t)) ∧
      (s.ptu.assigned = false → Sys2Proof.Machine.exec (.staggerLocalWrite r v) s = .next (settle
        { t with ptu := { t.ptu with offset := regFld t 0x2600034 15 0 } })))) ∧
  (∀ (s : State) (c k n : Nat), regBit s 0x2600038 31 = true → regFld s 0x2600038 25 24 = c → c < 3 →
    hasPhase (phaseCh s c) = true → n = 2 ^ regFld s 0x2600038 17 16 → n ≤ 4 →
    let a := fun k => (regFld s 0x2600038 15 0 + k * 65536 / n) % 65536
    (k < n → ∃ e, eventAt (armBuslock s) (248 + k) = some e ∧ e.chan = c ∧ e.action = 4 ∧ e.repeats = 1 ∧
      e.stagger = false ∧ e.angle = a k) ∧
    (n ≤ k → k < 4 → eventAt (armBuslock s) (248 + k) = none))

/-! The Power Governor (chapter 12) -/

/-- R332, R333, R335, R350: the target is the least source, its limiter the first that gives it, and a fall acts at once;
HOST, SITE and BOARD follow their registers and packets, BOARD the throttle input, and HUDDLE the quorum; a ramp rises by
RAMP in steps of 10 µs and never past the target. -/
def Obligations.CapSourcesMakeTheAppliedCap : Prop :=
  (∀ s : State,
    let t := retarget s
    let src := [srcHost t, t.pgv.huddle, srcSite t, t.pgv.thermal, srcBoard t]
    src = [srcHost s, s.pgv.huddle, srcSite s, s.pgv.thermal, srcBoard s] ∧
    t.pgv.target ∈ src ∧ (∀ w ∈ src, t.pgv.target ≤ w) ∧ src[t.pgv.limiter]? = some t.pgv.target ∧
    (∀ j ∈ [3, 4, 2, 1, 0].takeWhile (· != t.pgv.limiter), src[j]? ≠ some t.pgv.target) ∧
    t.pgv.applied ≤ 1000 * t.pgv.target ∧ (s.pgv.applied ≤ 1000 * t.pgv.target → t.pgv.applied = s.pgv.applied) ∧
    (1000 * t.pgv.target < s.pgv.applied → t.pgv.applied = 1000 * t.pgv.target)) ∧
  (∀ (s : State) (r : Nat) (p : Packet) (rest : List Packet),
    let t := startedBy s r p rest
    let w := getLe p.bytes 16 2
    (frontReady s r 0x58 1 [(16, 2)] p rest →
      (250 ≤ w → w ≤ 1500 → Sys2Proof.Machine.exec (.capSet r) s = .next (settle
        (finishPkt s.hif.nextId 0 (regFld t 0x2700010 10 0) 0 (retarget (setRegFld 0x2700010 10 0 w t))))) ∧
      (w < 250 ∨ 1500 < w → Sys2Proof.Machine.exec (.capSet r) s =
        .next (settle (finishPkt s.hif.nextId 0x0303 0 0 t)))) ∧
    (frontReady s r 0x59 1 [] p rest → Sys2Proof.Machine.exec (.powerQuery r) s = .next (settle
      (finishPkt s.hif.nextId 0 (t.pgv.applied / 1000 + t.pgv.target * 2 ^ 16 + t.pgv.limiter * 2 ^ 27 +
        t.pgv.powerMw % 2 ^ 32 * 2 ^ 32) t.pgv.forecast.watts t)))) ∧
  (∀ (s : State) (r : Requester) (v : Nat) (d : RegDef),
    (writesPlain s r 0x2700010 0x2700010 d v → Sys2Proof.Machine.exec (.hostCapWrite r v) s =
      .next (settle (retarget (written s 0x2700010 d v)))) ∧
    (∀ ix < 3, writesPlain s r (0x2700020 + 4 * ix) (0x2700020 + 4 * ix) d v →
      Sys2Proof.Machine.exec (.pgvSiteCapWrite r ix v) s =
        .next (settle (retarget (written s (0x2700020 + 4 * ix) d v)))) ∧
    (writesPlain s r 0x2700030 0x2700030 d v → Sys2Proof.Machine.exec (.pgvBoardWrite r v) s =
      .next (settle (retarget (written s 0x2700030 d v))))) ∧
  (∀ s : State, standby s = true →
    (s.pgv.applied < s.pgv.target * 1000 → Sys2Proof.Machine.exec .capRampTick s = .next (settle { s with pgv :=
      { s.pgv with applied := min (s.pgv.target * 1000) (s.pgv.applied + regFld s 0x2700038 15 0 * 10) } })) ∧
    (s.pgv.target * 1000 ≤ s.pgv.applied → Sys2Proof.Machine.exec .capRampTick s = .next (settle s)) ∧
    ∀ low, Sys2Proof.Machine.exec (.brdThrotChange low) s =
      .next (settle (retarget { s with pgv := { s.pgv with brdThrot := low } }))) ∧
  (∀ s : State, islandRuns s = true →
    Sys2Proof.Machine.exec (.quorumWrite true) s =
      .next (settle (retarget { s with pgv := { s.pgv with quorum := true } })) ∧
    Sys2Proof.Machine.exec (.quorumWrite false) s = .next (settle (retarget
      (let t := discardEvent 253 s
       { t with pgv := { t.pgv with quorum := false, huddle := 1500 } })))) ∧
  (∀ s : State,
    (s.pgv.quorum = false → srcSite s = min (siteCapOf s s.pgv.siteState) (regFld s 0x2700028 26 16)) ∧
    (s.pgv.quorum = true → srcSite s = siteCapOf s s.pgv.siteState) ∧
    (s.pgv.brdThrot = true → srcBoard s = min (regFld s 0x2700030 10 0) (regFld s 0x2700030 26 16)) ∧
    (s.pgv.brdThrot = false → srcBoard s = regFld s 0x2700030 10 0)) ∧
  (∀ s : State, standby s = false → ∀ low,
    Sys2Proof.Machine.exec .capRampTick s = .next (settle s) ∧
    Sys2Proof.Machine.exec (.brdThrotChange low) s = .next (settle s))

/-- R337, R339–R341, R343–R345, R348: the junction sample and the thermal loop, the duty clamp, the DVFS loop, the rail
measurement and the forecast. The frequencies a VCORE supports are the part's fused table, a value of Config. -/
def Obligations.TheGovernorMeasuresAndClamps : Prop :=
  (∀ (s : State) (l : List Int), standby s = true → l ≠ [] →
    let h := hottest l 0
    let t := { s with pgv := swingStep { s.pgv with th := h.1, sensor := h.2 } }
    (h.1 < 1050 → Sys2Proof.Machine.exec (.tjSample l) s = .next (settle t)) ∧
    (1050 ≤ h.1 → s.pgv.tjFloor = true → Sys2Proof.Machine.exec (.tjSample l) s = .next (settle (retarget
      { t with pgv := { t.pgv with thermal := 250, tjFloor := true } }))) ∧
    (1050 ≤ h.1 → s.pgv.tjFloor = false → Sys2Proof.Machine.exec (.tjSample l) s = .next (settle (retarget
      (let u := logErr { cls := 15, cause := 2, sev := sevNotice, source := 0x27, info := h.2 } t
       { u with pgv := { u.pgv with thermal := 250, tjFloor := true } })))) ∧
    h.1 ∈ l ∧ (∀ x ∈ l, x ≤ h.1) ∧ l[h.2]? = some h.1 ∧ (∀ j x, j < h.2 → l[j]? = some x → x < h.1)) ∧
  (∀ s : State, standby s = true →
    let g := s.pgv
    let tgt : Int := regFld s 0x2700034 23 16
    let step : Int := regFld s 0x2700034 15 8
    let hyst : Int := regFld s 0x2700034 3 0
    let ends := fun (w : Nat) => Sys2Proof.Machine.exec .thermalUpdate s = .next (settle (retarget
      { s with pgv := { g with tjFloor := false, thermal := w } }))
    (1050 ≤ g.th → Sys2Proof.Machine.exec .thermalUpdate s = .next (settle (tjFloorAt s))) ∧
    (g.th < 1050 →
      (g.leakFloor = true → ends 250) ∧
      (g.leakFloor = false → g.tjFloor = true → (tgt - hyst) * 10 ≤ g.th →
        Sys2Proof.Machine.exec .thermalUpdate s = .next (settle s)) ∧
      (g.leakFloor = false → g.tjFloor = false ∨ g.th < (tgt - hyst) * 10 →
        (tgt * 10 < g.th →
          ends (max 250 (min (g.thermal : Int) (g.powerMw / 1000 : Nat) - step * ((g.th - tgt * 10 + 9) / 10))).toNat) ∧
        (g.th ≤ tgt * 10 → g.th < (tgt - hyst) * 10 → ends (min 1500 ((g.thermal : Int) + step)).toNat) ∧
        (g.th ≤ tgt * 10 → (tgt - hyst) * 10 ≤ g.th → ends g.thermal)))) ∧
  (∀ (s : State) (imon : Nat), isOn s = true →
    let i := imon * regFld s 0x270003C 15 0 / 1000
    (clampThreshold s < i → Sys2Proof.Machine.exec (.dutyClampDown imon) s =
      .next (settle { s with pgv := { s.pgv with iCore := i, duty := min 3 (s.pgv.duty + 1) } })) ∧
    (i ≤ clampThreshold s → Sys2Proof.Machine.exec (.dutyClampDown imon) s =
      .next (settle { s with pgv := { s.pgv with iCore := i } })) ∧
    (i * 10 < clampThreshold s * 9 → Sys2Proof.Machine.exec (.dutyClampUp imon) s =
      .next (settle { s with pgv := { s.pgv with iCore := i, duty := s.pgv.duty - 1 } })) ∧
    (clampThreshold s * 9 ≤ i * 10 → Sys2Proof.Machine.exec (.dutyClampUp imon) s =
      .next (settle { s with pgv := { s.pgv with iCore := i } }))) ∧
  (∀ s : State, clampThreshold s ≤ 1700000 ∧ (s.pgv.applied ≤ s.pgv.pOther → clampThreshold s = 0)) ∧
  (∀ (s : State) (imon vout : Nat), standby s = true →
    let i := imon * regFld s 0x270003C 15 0 / 1000
    let p10 := vout * i / 1000 + s.pgv.pOther
    let un := decide (s.pgv.applied < p10) && s.pgv.fclkMhz == 400 && s.pgv.duty == 3
    let t := { s with pgv := { s.pgv with iCore := i, vcoreMv := vout, p10
                                          clampRun := if s.pgv.duty = 0 then s.pgv.clampRun else s.pgv.clampRun + 10 } }
    let v := if un = true ∧ s.pgv.floorUnmet = false then
      logErr { cls := 15, cause := 3, sev := sevCorrected, source := 0x27, info := p10 } t else t
    let u := { v with pgv := { v.pgv with floorUnmet := un } }
    let f := max 400 (s.pgv.fclkMhz - 100)
    let up := s.pgv.fclkMhz + 25
    (fclkRuns s = false → Sys2Proof.Machine.exec (.dvfsTick imon vout) s = .next (settle u)) ∧
    (fclkRuns s = true →
      (s.pgv.applied < p10 → Sys2Proof.Machine.exec (.dvfsTick imon vout) s =
        .next (settle (setVcore (vfMv f) { u with pgv := { u.pgv with fclkMhz := f } }))) ∧
      (p10 * 100 < s.pgv.applied * 97 → s.pgv.duty = 0 → up ≤ 1800 →
        (vfMv up ≤ vout → Sys2Proof.Machine.exec (.dvfsTick imon vout) s =
          .next (settle { u with pgv := { u.pgv with fclkMhz := up } })) ∧
        (vout < vfMv up → Sys2Proof.Machine.exec (.dvfsTick imon vout) s = .next (settle (setVcore (vfMv up) u)))) ∧
      (p10 ≤ s.pgv.applied → s.pgv.applied * 97 ≤ p10 * 100 ∨ s.pgv.duty ≠ 0 ∨ 1800 < up →
        Sys2Proof.Machine.exec (.dvfsTick imon vout) s = .next (settle u)))) ∧
  (∀ (s : State) (mv ma : List Nat), standby s = true →
    let p := fun i => mv.getD i 0 * ma.getD i 0 / 1000
    let other := p 1 + p 2 + p 3 + p 4 + p 5 + p 6 + p 7
    Sys2Proof.Machine.exec (.railPowerSample mv ma) s = .next (settle { s with pgv := { s.pgv with
      pOther := other, powerMw := p 0 + other, railMa := (List.range 8).map (fun i => ma.getD i 0)
      energyUj := (s.pgv.energyUj + (p 0 + other)) % 2 ^ 64, clampUs := min 1000 s.pgv.clampRun, clampRun := 0 } })) ∧
  (∀ s : State, fclkRuns s = true →
    let fs := (List.range 8).filterMap (streamForecast s)
    let idle := regFld s 0x2700040 10 0
    let h := (fs.map (fun x => x.2.2.1)).foldl max 0
    let pw := idle + (fs.map (fun x => x.2.1)).sum / 1000
    Sys2Proof.Machine.exec .forecastUpdate s = .next (settle { s with pgv := { s.pgv with forecast :=
      { mj := (fs.map (fun x => x.1)).sum / 1000000 + idle * h / 1000, horizonUs := h, watts := min pw s.pgv.target
        clipped := decide (s.pgv.target < pw), uncoeffed := fs.any (fun x => x.2.2.2), dts := s.dts } } })) ∧
  (∀ (s : State) (i : Nat) (ps : List PlanStep),
    ((strm s i).st ≠ .running ∨ (govStream s i).plan = none → streamForecast s i = none) ∧
    ((strm s i).st = .running → (govStream s i).plan = some ps →
      let e := (ps.map (fun p => (stepEnergy s p).1)).sum
      let d := 16 * (govStream s i).dur
      streamForecast s i = some (e, e / d, d, ps.any (fun p => (stepEnergy s p).2)))) ∧
  (∀ (s : State) (p : PlanStep),
    (Tbl.get none s.sqe.programs p.prog = none → stepEnergy s p = (0, true)) ∧
    (∀ g, Tbl.get none s.sqe.programs p.prog = some g → g.reg = p.reg → g.eStep + g.eToken + g.eSlot ≠ 0 →
      stepEnergy s p = (1000 * g.eStep + g.eToken * p.tokens + g.eSlot * p.slots, false)) ∧
    (∀ g, Tbl.get none s.sqe.programs p.prog = some g → g.reg ≠ p.reg ∨ g.eStep + g.eToken + g.eSlot = 0 →
      stepEnergy s p = (0, true)))

/-! The Thermal and Fluid Unit (chapter 13) -/

/-- R354–R360: a fan or pump channel drives what its settings ask, never a duty between 0 and MIN_DUTY; the speed loop
moves the request by at most 32 counts; a tach edge measures, a silent tach stalls; the ageing check compares a held
channel with its baseline. -/
def Obligations.FansFollowTheirSettings : Prop :=
  (∀ (s : State) (c : Nat),
    let m := regFld s (0x2800100 + c * 0x20) 10 0
    (regBit s (0x2800100 + c * 0x20) 31 = false → outDuty s c = (1024, false)) ∧
    ∀ d, reqDuty s c = some d →
      (0 < d → d < m → outDuty s c = (if regBit s (0x2800100 + c * 0x20) 29 then m else 0, true)) ∧
      (d = 0 ∨ m ≤ d → outDuty s c = (d, false))) ∧
  (∀ (s : State) (c : Nat), regBit s (0x2800100 + c * 0x20) 31 = true →
    (regBit s (0x2800100 + c * 0x20) 30 = false → reqDuty s c = some (regFld s (0x2800100 + c * 0x20) 26 16)) ∧
    (regBit s (0x2800100 + c * 0x20) 30 = true →
      reqDuty s c = some (if regFld s (0x2800104 + c * 0x20) 15 0 = 0 then 0 else (pwmAt s c).req))) ∧
  (∀ (s : State) (r : Requester) (c v : Nat) (d : RegDef), c < 6 →
    writesPlain s r (0x2800100 + 0x20 * c) (0x2800100 + 0x20 * c) d v →
    let lo := 0x2800100 + 0x20 * c
    let t := written s lo d v
    let u := driveFan c (if regBit t lo 30 = true ∧ regBit s lo 30 = false then
      updPwm c (fun p => { p with req := regFld t lo 26 16 }) t else t)
    (setFld (rawAt s lo) 28 28 0 = setFld (rawAt t lo) 28 28 0 →
      Sys2Proof.Machine.exec (.tfuPwmWrite r c v) s = .next (settle u)) ∧
    (setFld (rawAt s lo) 28 28 0 ≠ setFld (rawAt t lo) 28 28 0 →
      Sys2Proof.Machine.exec (.tfuPwmWrite r c v) s = .next (settle (tfuWrote r u)))) ∧
  (∀ (s : State) (c : Nat),
    let d := outDuty s c
    let t := updPwm c (fun p => { p with
      out := d.1, minApplied := d.2, driven := if (pwmAt s c).out = 0 ∧ 0 < d.1 then s.dts else p.driven }) s
    (d.1 = (pwmAt s c).out → driveFan c s = t) ∧
    (d.1 ≠ (pwmAt s c).out → driveFan c s = judgeHeld c true { t with out := t.out ++ [.pwm c d.1] })) ∧
  (∀ (s : State) (c : Nat), standby s = true →
    let target := regFld s (0x2800104 + c * 0x20) 15 0
    let p := pwmAt s c
    let off := (target - p.rpm) + (p.rpm - target)
    let on := regBit s (0x2800100 + c * 0x20) 31 = true ∧ regBit s (0x2800100 + c * 0x20) 30 = true ∧ target ≠ 0 ∧
      target < 100 * off
    let step := min 32 (off / 16)
    let drives := fun n : Nat => Sys2Proof.Machine.exec (.speedLoopTick c) s =
      .next (settle (driveFan c (updPwm c (fun p => { p with req := n }) s)))
    (on → p.rpm ≤ target → drives (min 1024 (p.req + step))) ∧
    (on → target < p.rpm → drives (min 1024 (p.req - step))) ∧
    (¬on → Sys2Proof.Machine.exec (.speedLoopTick c) s = .next (settle s))) ∧
  (∀ (s : State) (c e : Nat), standby s = true →
    let t := { s with dts := max s.dts e }
    let es := (max s.dts e :: (pwmAt s c).edges).take 9
    let ppr := regFld s (0x280010C + c * 0x20) 2 0 + 1
    Sys2Proof.Machine.exec (.tachEdge c e) s = .next (settle (judgeHeld c false
      (updPwm c (fun p => { p with edges := es, stall := false, rpm := (rpmOf es ppr).getD p.rpm }) t))) ∧
    ∀ a b, es[0]? = some a → es[ppr]? = some b → b < a → rpmOf es ppr = some (min 65535 (60000000000 / (a - b)))) ∧
  (∀ (s : State) (c : Nat), standby s = true →
    let p := pwmAt s c
    (p.out ≠ 0 → p.stall = false → Sys2Proof.Machine.exec (.tachStall c) s = .next (settle (tfuEvent 2
      (judgeHeld c false (updPwm c (fun p => { p with stall := true, rpm := 0 }) (advanceTo
        (max p.driven (p.edges.headD 0) + regFld s (0x280010C + c * 0x20) 15 8 * 100000000) s)))))) ∧
    (p.out = 0 ∨ p.stall = true → Sys2Proof.Machine.exec (.tachStall c) s = .next (settle s))) ∧
  (∀ (s : State) (c : Nat), standby s = true →
    let p := pwmAt s c
    let t := updPwm c (fun p => { p with ageDue := s.dts + 86400000000000 }) s
    let due := p.heldSince + 60000000000 ≤ s.dts ∧ regBit s 0x2D00000 5 = true ∧ p.ageDue ≤ s.dts
    (¬due → Sys2Proof.Machine.exec (.ageingCheck c) s = .next (settle s)) ∧
    (due → baseDuty (basePoints s c) p.rpm = none ∨ baseDuty (basePoints s c) p.rpm = some 0 →
      Sys2Proof.Machine.exec (.ageingCheck c) s = .next (settle (updPwm c (fun p => { p with skipped := true }) t))) ∧
    (∀ b, due → baseDuty (basePoints s c) p.rpm = some (b + 1) →
      let i := min 65535 (1024 * p.out / (b + 1))
      let w := decide (regFld s 0x2800030 15 0 ≤ i)
      let a := decide (regFld s 0x2800030 31 16 ≤ i)
      let u := updPwm c (fun p => { p with index := i, valid := true, warn := w, alarm := a, skipped := false }) t
      let x := if w && !p.warn then tfuEvent 3 u else u
      Sys2Proof.Machine.exec (.ageingCheck c) s = .next (settle (if a && !p.alarm then tfuEvent 4 x else x))))

/-- R361–R365, R367–R375: a valve's gates never overlap and follow its settings unless its fault holds them off; inputs
and ropes are judged; a wet rope or a remote write starts the leak response once, a clear ends it only when dry. -/
def Obligations.ValvesSensorsAndLeaks : Prop :=
  (∀ hi lo onT dt mp : Nat, hi ≠ lo → onT ≤ 10000 → dt ≤ 400 → mp ≤ 1000 →
    ∀ a ∈ (legPeriod hi lo onT dt mp).1, ∀ b ∈ (legPeriod hi lo onT dt mp).1,
      a.2.1 ≤ a.2.2 ∧ a.2.2 ≤ 10000 ∧ (a.1 = hi ∨ a.1 = lo) ∧
      (a.1 = hi → b.1 = lo → a.2.2 + dt ≤ b.2.1 ∧ (b.2.2 = 10000 → dt ≤ a.2.1))) ∧
  (∀ (s : State) (r : Requester) (n v : Nat) (d : RegDef), n < 2 →
    (writesPlain s r (0x2800300 + 0x20 * n) (0x2800300 + 0x20 * n) d v →
      let t := written s (0x2800300 + 0x20 * n) d v
      let u := updValve n (fun y => { y with closed := false }) t
      let x := if (valveAt s n).closing.isSome then updValve n (fun y => { y with written := true }) u
        else driveValve n false u
      Sys2Proof.Machine.exec (.valveWrite r n false v) s = .next (settle
        (if rawAt s (0x2800300 + 0x20 * n) = rawAt t (0x2800300 + 0x20 * n) then x else tfuWrote r x))) ∧
    (writesPlain s r (0x2800304 + 0x20 * n) (0x2800304 + 0x20 * n) d v →
      let t := written s (0x2800304 + 0x20 * n) d v
      Sys2Proof.Machine.exec (.valveWrite r n true v) s = .next (settle
        (if rawAt s (0x2800304 + 0x20 * n) = rawAt t (0x2800304 + 0x20 * n) then driveValve n false t
         else tfuWrote r (driveValve n false t)))) ∧
    (writesPlain s r (0x280030C + 0x20 * n) (0x280030C + 0x20 * n) d (2 ^ 31) →
      let t := updValve n (fun y => { y with sticky := y.sticky &&& 7 ||| y.live })
        (written s (0x280030C + 0x20 * n) d (2 ^ 31))
      ((valveAt s n).fault = true → (valveAt s n).fltLow = false → Sys2Proof.Machine.exec (.valveFaultClear r n) s =
        .next (settle (tfuWrote r (driveValve n false (updValve n (fun y => { y with fault := false }) t))))) ∧
      ((valveAt s n).fault = false ∨ (valveAt s n).fltLow = true →
        Sys2Proof.Machine.exec (.valveFaultClear r n) s = .next (settle t)))) ∧
  (∀ (s : State) (n : Nat), standby s = true →
    let x := valveAt s n
    let t := updValve n (fun y => { y with fltLow := true }) s
    (x.fault = true → Sys2Proof.Machine.exec (.valveFault n) s = .next (settle t)) ∧
    (x.fault = false → Sys2Proof.Machine.exec (.valveFault n) s = .next (settle (logErr
      { cls := 16, cause := 3, sev := sevContained, source := 0x28, index := n } (tfuEvent 5
        (updValve n (fun y => { y with
          fault := true, mode := 0, gates := [], live := 0, spoilt := y.spoilt || y.closing.isSome })
          (if x.gates = [] then t else { t with out := t.out ++ [.gates n []] })))))) ∧
    (x.closing = none → Sys2Proof.Machine.exec (.leakCloseEnd n) s = .next (settle s)) ∧
    (∀ e, x.closing = some e →
      let u := updValve n (fun y => { y with closing := none, written := false }) { s with dts := max s.dts e }
      (x.written = true → Sys2Proof.Machine.exec (.leakCloseEnd n) s = .next (settle (driveValve n false u))) ∧
      (x.written = false → Sys2Proof.Machine.exec (.leakCloseEnd n) s = .next (settle (driveValve n false
        (updValve n (fun y => { y with closed := !y.spoilt }) (setRegFld (0x2800300 + n * 0x20) 13 0 0
          (setRegFld (0x2800300 + n * 0x20) 29 28 (regFld s (0x2800308 + n * 0x20) 27 26) u)))))))) ∧
  (∀ (s : State) (n : Nat), (valveAt s n).fault = true → ∀ gap, driveValve n gap s = s) ∧
  (∀ (s : State) (i code : Nat), standby s = true →
    let kind := regFld s (0x2800400 + i * 0x20) 31 30
    (kind = 0 → Sys2Proof.Machine.exec (.adcSample i code) s = .next (settle s)) ∧
    (kind = 1 → Sys2Proof.Machine.exec (.adcSample i code) s = .next (settle (adcJudge i code
      (max (-32767) (min 32767 (toInt 16 (rawAt s (0x2800408 + i * 0x20)) +
        Int.tdiv (toInt 16 (fld (rawAt s (0x2800404 + i * 0x20)) 15 0) * code) 4096))) s))) ∧
    (1 < kind → code ≤ 15 ∨ 4080 ≤ code → Sys2Proof.Machine.exec (.adcSample i code) s = .next (settle
      { s with tfu := { s.tfu with adc := Tbl.upd {} s.tfu.adc i (fun x => { x with
        code, value := 0x8000, opened := decide (4080 ≤ code), shorted := decide (code ≤ 15) }) } }))) ∧
  (∀ (s : State) (i sns exc : Nat), standby s = true → exc ≠ 0 →
    let ratio := min 1024 (1024 * sns / exc)
    let cfg := rawAt s (0x2800500 + i * 0x10)
    let x := Tbl.get {} s.tfu.ropes i
    let w := standing x.wet (decide (ratio < fld cfg 9 0)) x.nWet (if x.wet then 1000 else fld cfg 15 10)
    let o := standing x.opened (decide (fld cfg 25 16 < ratio)) x.nOpen 100
    let y : Rope := { ratio, wet := w.1, nWet := w.2, opened := o.1, nOpen := o.2 }
    let t := { s with tfu := { s.tfu with ropes := Tbl.set {} s.tfu.ropes i y } }
    let u := if o.1 && !x.opened then logErr { cls := 16, cause := 4, sev := sevNotice, source := 0x28, index := i }
      (tfuEvent 1 t) else t
    Sys2Proof.Machine.exec (.ropeSample i sns exc) s =
      .next (settle (if w.1 && !x.wet && bitOf cfg 31 then leakTrigger (some i) u else u))) ∧
  (∀ (now other : Bool) (n lim : Nat),
    (now = other → standing now other n lim = (now, 0)) ∧
    (now ≠ other → n + 1 < lim → standing now other n lim = (now, n + 1)) ∧
    (now ≠ other → lim ≤ n + 1 → standing now other n lim = (other, 0))) ∧
  (∀ (s : State) (r : Requester) (d : RegDef),
    (writesPlain s r 0x2800018 0x2800018 d 1 → Sys2Proof.Machine.exec (.leakRemote r) s =
      .next (settle (leakTrigger none (written s 0x2800018 d 1)))) ∧
    (writesPlain s r 0x2800014 0x2800014 d 1 →
      let t := written s 0x2800014 d 1
      (s.tfu.latch = false ∨ wetResponder t = true →
        Sys2Proof.Machine.exec (.leakClear r) s = .next (settle t)) ∧
      (s.tfu.latch = true → wetResponder t = false → Sys2Proof.Machine.exec (.leakClear r) s = .next (settle
        (tfuEvent 8 (setLeakFloor false { t with tfu := { t.tfu with latch := false, remote := false } })))))) ∧
  (∀ (s : State) (rope : Option Nat),
    (s.tfu.latch = true → leakTrigger rope s = s) ∧
    (s.tfu.latch = false →
      let t := setLeakFloor true { s with tfu := { s.tfu with latch := true, remote := rope.isNone } }
      let u := tfuEvent 0 (leakFan 5 (leakFan 4 (leakFan 3 (leakFan 2 (leakFan 1 (leakFan 0
        (closeValve 1 (closeValve 0 t))))))))
      let x := logErr { cls := 16, cause := 1, sev := sevContained, source := 0x28, index := rope.getD 0
                        info := rope.getD 0 } u
      t.pgv.leakFloor = true ∧ t.pgv.thermal = 250 ∧
      leakTrigger rope s = queueEvent sevContained 0x0900 (leBytes 4 (tfuStatus x)) x)) ∧
  (∀ (s : State) (i n span two e : Nat), standby s = true →
    let t := { s with dts := max s.dts e }
    let cfg := rawAt s (0x2800600 + i * 0x10)
    let m := mlpmOf (fld cfg 15 0) n span two
    let x := Tbl.get {} s.tfu.flows i
    let low := decide (m < fld cfg 31 16)
    let since := x.since.getD t.dts
    let turn := low != x.low && decide (since + 1000000000 ≤ t.dts)
    let y : Flow := { mlpm := m, low := if turn then low else x.low
                      since := if turn || low == x.low then none else some since }
    let u := { t with tfu := { t.tfu with flows := Tbl.set {} t.tfu.flows i y } }
    Sys2Proof.Machine.exec (.flowUpdate i n span two e) s =
      .next (settle (if turn && low then tfuEvent 7 u else u))) ∧
  (∀ s : State, flowOk s = true ↔ regBit s 0x2800028 31 = false ∨
    regFld s 0x2800028 15 0 ≤ (Tbl.get {} s.tfu.flows (regFld s 0x2800028 16 16)).mlpm)

/-! The Fluid Bus Controller (chapter 14) -/

/-- R380–R386, R390–R398: the controller leaves and enters INIT; a frame is filtered by the first element that matches
and stored where it says; queues never overwrite; requests are made, loaded, aborted and end; errors count, a transmit
counter above 255 is bus-off, and 128 runs of recessive bits end it. -/
def Obligations.TheBusNodeSendsAndReceives : Prop :=
  (∀ (s : State) (r : Requester) (v : Nat) (d : RegDef),
    (writesLocked s r 0x2900000 0x2900000 d (setFld v 31 31 0) → regBit s 0x2900000 31 = true →
      let t := stored s 0x2900000 d (setFld v 31 31 0)
      let u := if regBit t 0x2900000 25 = regBit s 0x2900000 25 then t else fbcEvent 20 t
      regBit t 0x2900000 31 = false →
      (fbcCheck u = none → Sys2Proof.Machine.exec (.initLeave r v) s = .next (settle (updFbc (fun b => { b with
        cfgErr := none, integrated := u.dts + bitsNs u 11, sync := 0, curOver := none, misses := 0, lastSync := none
        corr := 0, good := 0, lastErr := 0 }) u))) ∧
      (∀ off, fbcCheck u = some off → Sys2Proof.Machine.exec (.initLeave r v) s = .next (settle
        (logCfg 1 (0x2908000 + off) r (updFbc (fun b => { b with cfgErr := some off })
          { setRegFld 0x2900000 31 31 1 u with free := u.free + 1 }))))) ∧
    (writesLocked s r 0x2900000 0x2900000 d (setFld v 31 31 1) → regBit s 0x2900000 31 = false →
      let t := stored s 0x2900000 d (setFld v 31 31 1)
      let u := if regBit t 0x2900000 25 = regBit s 0x2900000 25 then t else fbcEvent 20 t
      regBit t 0x2900000 31 = true →
      Sys2Proof.Machine.exec (.initEnter r v) s = .next (settle (levelled (updFbc (fun b => { b with
        sync := 0, curOver := none, refDue := none, take := false, takeAt := none
        level1 := false, level2 := false, level3 := false, misses := 0 })) (setMaster false u))))) ∧
  (∀ (s : State) (f : CanFrame) (sof up : Nat), standby s = true →
    let on := fbcRuns s = true ∧ s.fbc.clkHold = false ∧ s.fbc.busOff = false ∧ s.fbc.integrated ≤ sof
    let t := countRx up (updFbc (fun b => { b with lastErr := 0 }) { s with dts := max s.dts sof })
    (¬on → Sys2Proof.Machine.exec (.frameReceive f sof up) s = .next (settle s)) ∧
    (on → t.fbc.sending = none → isRef t f = false → Sys2Proof.Machine.exec (.frameReceive f sof up) s =
      .next (settle (filterFrame f sof t))) ∧
    (on → t.fbc.sending = none → isRef t f = true → Sys2Proof.Machine.exec (.frameReceive f sof up) s =
      .next (settle (filterFrame f sof (receiveRef f sof t))))) ∧
  (∀ (s : State) (f : CanFrame),
    (∀ k, filterOf s f = some k ↔ k < 96 ∧ filterHits s f k = true ∧ ∀ j < k, filterHits s f j = false) ∧
    (∀ k, filterHits s f k = true → bitOf (ramWord s (16 * k)) 31 = true ∧ bitOf (ramWord s (16 * k)) 30 = f.ide)) ∧
  (∀ (s : State) (f : CanFrame) (sof : Nat), fbcMode s = 0 →
    regBit s 0x2900018 (if f.ide then 9 else 8) = false ∨ f.rtr = false →
    (∀ k, filterOf s f = some k →
      let e := rxElement f false (some k) 0 0 sof
      let act := fld (ramWord s (16 * k)) 26 24
      (act = 0 → filterFrame f sof s = s) ∧ (act = 1 → filterFrame f sof s = storeQueue false e s) ∧
      (act = 2 → filterFrame f sof s = storeQueue true e s) ∧
      (act = 3 → filterFrame f sof s = storeBuffer (fld (ramWord s (16 * k)) 20 16) e s) ∧
      (act = 4 → filterFrame f sof s = storeUrgent e s)) ∧
    (filterOf s f = none →
      let e := rxElement f false none 0 0 sof
      let dest := if f.ide then regFld s 0x2900018 3 2 else regFld s 0x2900018 1 0
      (dest = 0 → filterFrame f sof s = s) ∧ (dest = 1 → filterFrame f sof s = storeQueue false e s) ∧
      (dest = 2 → filterFrame f sof s = storeQueue true e s))) ∧
  (∀ (s : State) (f : CanFrame) (sof : Nat), fbcMode s = 0 → f.rtr = true →
    regBit s 0x2900018 (if f.ide then 9 else 8) = true → filterFrame f sof s = s) ∧
  (∀ (s : State) (e : List Byte),
    (s.fbc.queueA.count = 32 → storeQueue false e s = fbcEvent 12 (bumpFld 0x2900028 31 0 s)) ∧
    (s.fbc.queueA.count ≠ 32 → storeQueue false e s = fbcEvent 11 (updFbc (fun b => { b with
      queueA := { get := s.fbc.queueA.get, count := s.fbc.queueA.count + 1 } })
      (storeRx 1 ((s.fbc.queueA.get + s.fbc.queueA.count) % 32) e s))) ∧
    (regBit s 0x2900090 31 = false →
      storeUrgent e s = fbcEvent 16 (orReg 0x2900090 (2 ^ 31) (storeRx 3 0 e s)))) ∧
  (∀ (s : State) (r : Requester) (d : RegDef) (ix : Nat), ix < 32 →
    (writesLocked s r 0x2900024 0x2900024 d ix → Sys2Proof.Machine.exec (.rxQueueAck r false ix) s = .next (settle
      (updFbc (fun b => { b with queueA :=
        { get := (ix + 1) % 32, count := b.queueA.count - ((ix + 32 - b.queueA.get) % 32 + 1) } })
        (stored s 0x2900024 d ix)))) ∧
    (writesLocked s r 0x2900034 0x2900034 d ix → Sys2Proof.Machine.exec (.rxQueueAck r true ix) s = .next (settle
      (updFbc (fun b => { b with queueB :=
        { get := (ix + 1) % 32, count := b.queueB.count - ((ix + 32 - b.queueB.get) % 32 + 1) } })
        (stored s 0x2900034 d ix)))) ∧
    (writesLocked s r 0x2900084 0x2900084 d ix → Sys2Proof.Machine.exec (.txlogAck r ix) s = .next (settle
      (updFbc (fun b => { b with txLog :=
        { get := (ix + 1) % 32, count := b.txLog.count - ((ix + 32 - b.txLog.get) % 32 + 1) } })
        (stored s 0x2900084 d ix))))) ∧
  (∀ (s : State) (r : Requester) (d : RegDef) (space ix : Nat), space < 4 → ix < 32 →
    writesLocked s r 0x2900400 0x2900400 d (space * 2 ^ 6 + ix) →
    let t := stored s 0x2900400 d (space * 2 ^ 6 + ix)
    let x : RxShadow := { bytes := ramBytes t (rxOffset space ix) 20, valid := true, space, index := ix }
    Sys2Proof.Machine.exec (.shadowSel r space ix) s = .next (settle
      (updFbc (fun b => { b with rx := Tbl.set {} b.rx (shadowOf r) x }) t))) ∧
  (∀ (s : State) (r : Requester) (d : RegDef) (mask : Nat),
    (writesLocked s r 0x2900064 0x2900064 d mask → Sys2Proof.Machine.exec (.txLoad r mask) s = .next (settle
      (updFbc (fun b => { b with loading := b.loading ||| mask }) (stored s 0x2900064 d mask)))) ∧
    (writesLocked s r 0x2900050 0x2900050 d mask → Sys2Proof.Machine.exec (.txReq r mask) s = .next (settle
      (updFbc (fun b => { b with busy := b.busy ||| mask }) (stored s 0x2900050 d mask)))) ∧
    (writesLocked s r 0x2900054 0x2900054 d mask →
      Sys2Proof.Machine.exec (.txAbort r mask) s = .next (settle (abortTx mask (stored s 0x2900054 d mask))))) ∧
  (∀ (s : State) (k : Nat), standby s = true →
    (bitOf s.fbc.busy k = true → Sys2Proof.Machine.exec (.txNotBeforeReached k) s =
      .next (settle { s with dts := max s.dts (getLe (txShadow s k) 8 8) })) ∧
    (bitOf s.fbc.busy k = false → Sys2Proof.Machine.exec (.txNotBeforeReached k) s = .next (settle s))) ∧
  (∀ (s : State) (sof loop err : Nat), standby s = true → s.fbc.sending = none →
    Sys2Proof.Machine.exec (.frameTransmitDone sof loop) s = .next (settle s) ∧
    Sys2Proof.Machine.exec (.txError err) s = .next (settle s)) ∧
  (∀ (s : State) (sof loop : Nat) (c : TxCur), standby s = true → s.fbc.sending = some c →
    let a := max c.sof sof
    let t := { s with dts := max s.dts a }
    let w := fbcEvent 17 (orReg 0x290005C (2 ^ c.buf) (errLimits t (updFbc (fun b => { b with
      sending := none, tec := b.tec - 1, lastErr := 0, busy := b.busy - (b.busy &&& 2 ^ c.buf)
      loopDelay := if c.frame.fdf then loop % 256 else b.loopDelay }) t)))
    let u := { w with out := w.out ++ [.frame c.frame c.buf a] }
    (c.kind ≠ .reference → Sys2Proof.Machine.exec (.frameTransmitDone sof loop) s =
      .next (settle (logTx 1 c.buf c.word1 c.frame c.cycle c.ball a u))) ∧
    (c.kind = .reference → Sys2Proof.Machine.exec (.frameTransmitDone sof loop) s = .next (settle (fbcEvent 0
      (updFbc (fun b => { b with
        curOver := b.curOver.map (fun o => if o.sync = c.sof then { o with sync := a } else o), sentRef := true
        lastSync := some a, masterId := c.frame.ident, corrDts := a
        corrCycle := some (getLe c.frame.data 0 1 % 64) }) u))))) ∧
  (∀ (s : State) (err : Nat) (c : TxCur), standby s = true → s.fbc.sending = some c →
    let up := if err = 3 ∧ (128 ≤ s.fbc.tec ∨ 128 ≤ s.fbc.rec_) then 0 else 8
    let t := endAttempt (updFbc (fun b => { b with tec := b.tec + up, lastErr := min err 6 }) s)
    (err = 0 → Sys2Proof.Machine.exec (.txError err) s = .next (settle (endAttempt s))) ∧
    (err ≠ 0 → t.fbc.tec ≤ 255 → Sys2Proof.Machine.exec (.txError err) s = .next (settle (errLimits s t))) ∧
    (err ≠ 0 → 255 < t.fbc.tec → Sys2Proof.Machine.exec (.txError err) s =
      .next (settle (enterBusOff (errLimits s (updFbc (fun b => { b with tec := 255 }) t)))))) ∧
  (∀ (s : State) (c : TxCur), s.fbc.sending = some c → c.kind = .event →
    let t := updFbc (fun b => { b with sending := none }) s
    endAttempt s = if bitOf c.word1 25 = true ∨ c.abort = true
      then failTx c.buf c.word1 c.frame c.cycle c.ball c.sof t else t) ∧
  (∀ (s : State) (n : Nat), standby s = true →
    let on := s.fbc.busOff = true ∧ fbcRuns s = true ∧ s.fbc.clkHold = false
    (¬on → Sys2Proof.Machine.exec (.busOffRecovery n) s = .next (settle s)) ∧
    (on → s.fbc.recovery + n < 128 → Sys2Proof.Machine.exec (.busOffRecovery n) s =
      .next (settle (updFbc (fun b => { b with recovery := s.fbc.recovery + n }) s))) ∧
    (on → 128 ≤ s.fbc.recovery + n → Sys2Proof.Machine.exec (.busOffRecovery n) s = .next (settle (fbcEvent 10
      (errLimits s (updFbc (fun b => { b with busOff := false, recovery := 128, tec := 0, rec_ := 0, sync := 0
                                              curOver := none, integrated := s.dts, lastErr := 0 }) s))))))

/-- R401, R404, R406–R411: an over ends by its length unless strobes pace it; a ball's exclusive frame is sent or is
LATE; a missing reference begins a predicted over and, the third time, a takeover or error level 3; TAKE and YIELD. -/
def Obligations.OversKeepTime : Prop :=
  (∀ (s : State) (o : Over), standby s = true → s.fbc.curOver = some o →
    let e := o.sync + ownTime s (o.len * 10)
    let next := (o.cycle + 1) % (regFld s 0x2900100 31 26 + 1)
    let t := { s with dts := max s.dts e }
    (s.fbc.master = true → paced s = true → Sys2Proof.Machine.exec .overLengthExpiry s = .next (settle s)) ∧
    (s.fbc.master = true → paced s = false → Sys2Proof.Machine.exec .overLengthExpiry s =
      .next (settle (dueRef (overLen s) false next t))) ∧
    (s.fbc.master = false → s.fbc.take = true → s.fbc.sync = 2 → Sys2Proof.Machine.exec .overLengthExpiry s =
      .next (settle (dueRef o.len false next t))) ∧
    (s.fbc.master = false → s.fbc.take = false ∨ s.fbc.sync ≠ 2 →
      Sys2Proof.Machine.exec .overLengthExpiry s = .next (settle s))) ∧
  (∀ (s : State) (b sof : Nat), s.fbc.curOver = none →
    Sys2Proof.Machine.exec .overLengthExpiry s = .next (settle s) ∧
    Sys2Proof.Machine.exec (.ballStart b sof) s = .next (settle s) ∧
    Sys2Proof.Machine.exec .referenceMissing s = .next (settle s)) ∧
  (∀ (s : State) (len cycle : Nat) (p : Bool),
    (mayTx s = true → s.fbc.sending = none → dueRef len p cycle s = sendRef s.dts { len, paced := p, cycle } s) ∧
    (mayTx s = false ∨ s.fbc.sending ≠ none →
      dueRef len p cycle s = updFbc (fun b => { b with refDue := some { len, paced := p, cycle } }) s)) ∧
  (∀ (s : State) (b sof : Nat) (o : Over), standby s = true → s.fbc.curOver = some o →
    let start := o.sync + ownTime s (b * o.len * 10 / balls s)
    let t := { s with dts := max s.dts start, fbc := { s.fbc with curOver := some { o with nextBall := b + 1 } } }
    (b = 0 ∨ b < o.nextBall ∨ balls s ≤ b → Sys2Proof.Machine.exec (.ballStart b sof) s = .next (settle s)) ∧
    (0 < b → o.nextBall ≤ b → b < balls s →
      (exclusiveIn s o.cycle b = none → Sys2Proof.Machine.exec (.ballStart b sof) s = .next (settle t)) ∧
      (∀ k, exclusiveIn s o.cycle b = some k →
        (s.fbc.busOff = true → Sys2Proof.Machine.exec (.ballStart b sof) s = .next (settle (lateBall o b k t))) ∧
        (s.fbc.busOff = false → mayTx t = false ∨ s.fbc.sync ≠ 2 ∨ 2 ≤ ttLevel s →
          Sys2Proof.Machine.exec (.ballStart b sof) s = .next (settle t)) ∧
        (s.fbc.busOff = false → mayTx t = true → s.fbc.sync = 2 → ttLevel s < 2 →
          let e := txShadow (loadTx t) k
          let at_ := max start sof
          let stop := if b + 1 < balls s then o.sync + ownTime s ((b + 1) * o.len * 10 / balls s)
            else o.sync + ownTime s (o.len * 10)
          let late := s.fbc.sending ≠ none ∨ start + bitsNs s (txEn s) < at_ ∨ stop < at_ + worstNs s (elementFrame e)
          (elementOk t e = false →
            Sys2Proof.Machine.exec (.ballStart b sof) s = .next (settle (mar (failReserved k t)))) ∧
          (elementOk t e = true → late →
            Sys2Proof.Machine.exec (.ballStart b sof) s = .next (settle (lateBall o b k t))) ∧
          (elementOk t e = true → ¬late → Sys2Proof.Machine.exec (.ballStart b sof) s = .next (settle
            (startTx k .exclusive at_ (elementFrame e) (advanceTo at_ (loadTx t))))))))) ∧
  (∀ (s : State) (o : Over), standby s = true → s.fbc.curOver = some o →
    let on := s.fbc.master = false ∧ s.fbc.sync = 2 ∧ fbcRuns s = true ∧ s.fbc.clkHold = false
    let e := o.sync + ownTime s (o.len * 10)
    let n := min 3 (s.fbc.misses + 1)
    let t := mar (fbcEvent 1 (bumpFld 0x2900128 15 8 (updFbc (fun b => { b with misses := n, take := false })
      (beginOver { sync := e, len := o.len, cycle := (o.cycle + 1) % (regFld s 0x2900100 31 26 + 1), predicted := true }
        (advanceTo (e + bitsNs s (regFld s 0x2900100 10 0)) s)))))
    (¬on → Sys2Proof.Machine.exec .referenceMissing s = .next (settle s)) ∧
    (on → n < 3 ∨ s.fbc.misses = 3 → Sys2Proof.Machine.exec .referenceMissing s = .next (settle t)) ∧
    (on → s.fbc.misses = 2 → takesOver t = true → Sys2Proof.Machine.exec .referenceMissing s = .next (settle
      (updFbc (fun b => { b with takeAt := some (t.dts + takeOffset t) }) t))) ∧
    (on → s.fbc.misses = 2 → takesOver t = false → Sys2Proof.Machine.exec .referenceMissing s = .next (settle
      (levelled (updFbc (fun b => { b with level3 := true, sync := 0 })) t)))) ∧
  (∀ s : State, standby s = true →
    (∀ e o, s.fbc.takeAt = some e → s.fbc.curOver = some o →
      let t := updFbc (fun b => { b with takeAt := none }) (advanceTo e s)
      Sys2Proof.Machine.exec .takeover s =
        .next (settle (if mayTx t then dueRef o.len false o.cycle t else t))) ∧
    (s.fbc.takeAt = none → Sys2Proof.Machine.exec .takeover s = .next (settle s)) ∧
    (let t := advanceTo (s.fbc.integrated + 3 * overLen s * 10 + takeOffset s) s
     (s.fbc.sync = 0 → takesOver s = true → mayTx t = true →
       Sys2Proof.Machine.exec .unsyncTakeover s = .next (settle (dueRef (overLen s) false 0 t))) ∧
     (s.fbc.sync ≠ 0 ∨ takesOver s = false ∨ mayTx t = false →
       Sys2Proof.Machine.exec .unsyncTakeover s = .next (settle s)))) ∧
  (∀ (s : State) (r : Requester) (d : RegDef),
    (writesLocked s r 0x2900114 0x2900114 d 1 →
      let t := stored s 0x2900114 d 1
      let can := fbcMode t = 2 ∧ s.fbc.sync = 2 ∧ s.fbc.master = false ∧ fbcRuns t = true
      (can → Sys2Proof.Machine.exec (.take r) s = .next (settle (updFbc (fun b => { b with take := true }) t))) ∧
      (¬can → Sys2Proof.Machine.exec (.take r) s = .next (settle (logCfg 1 0x2900114 r t)))) ∧
    (writesLocked s r 0x2900114 0x2900114 d 2 →
      let t := stored s 0x2900114 d 2
      (s.fbc.master = true → Sys2Proof.Machine.exec (.yield r) s = .next (settle (setMaster false t))) ∧
      (s.fbc.master = false → Sys2Proof.Machine.exec (.yield r) s = .next (settle (logCfg 1 0x2900114 r t))))) ∧
  (∀ (s : State) (f : CanFrame) (sof : Nat),
    (s.fbc.master = false → receiveRef f sof s = acceptRef f sof s) ∧
    (s.fbc.master = true → f.ident < (elementFrame (txShadow s (refBuf s))).ident →
      receiveRef f sof s = acceptRef f sof (setMaster false s)) ∧
    (s.fbc.master = true → (elementFrame (txShadow s (refBuf s))).ident ≤ f.ident → receiveRef f sof s = conflict s)) ∧
  (∀ (s : State) (sof prev t : Nat), s.fbc.lastSync = some t → prev ≠ 0 → t < sof →
    let i : Int := sof - t
    let m : Int := 10 * prev
    let rate := Int.tdiv ((i - m) * 1000000) m
    let phase := i - Int.tdiv (m * (1000000 + s.fbc.corr)) 1000000
    measure sof prev s = (some (decide (rate.natAbs ≤ regFld s 0x2900108 31 16) &&
      decide (phase.natAbs ≤ bitsNs s (regFld s 0x2900108 7 0))),
      { s with fbc := { s.fbc with rate, phase, corr := rate } }))

/-! The row coolant huddle (chapter 15) -/

/-- R416, R420–R449: what each of the huddle's rows does on a tray lead and on a chip that is none; a frame with a
wrong length, identifier or reserved value only counts; election, agreement, roles, caps and offsets by their rules. -/
def Obligations.TheHuddleElectsAllocatesAndStops : Prop :=
  (∀ (s : State) (f : CanFrame) (nodes : List CanFrame), islandRuns s = false → ∀ i ∈ [Instr.rowConfigApply, .election,
      .leadOverWork nodes, .referenceHandling f, .memberStatus f, .trayReport f, .allocation f, .stagger f, .leak f,
      .allStop f], Sys2Proof.Machine.exec i s = .next (settle s)) ∧
  (∀ (s : State) (f : CanFrame), islandRuns s = true → isTrayLead s = false → ∀ i ∈ [Instr.rowConfigApply,
      .referenceHandling f, .memberStatus f, .trayReport f, .allocation f, .stagger f, .leak f, .allStop f],
      Sys2Proof.Machine.exec i s = .next (settle s)) ∧
  (∀ s : State, islandRuns s = true → isTrayLead s = true →
    (s.hud.accepted = [] → Sys2Proof.Machine.exec .rowConfigApply s = .next (settle s)) ∧
    (∀ o, s.hud.accepted ≠ [] → s.fbc.curOver = some o →
      (o.cycle ≠ 0 → Sys2Proof.Machine.exec .rowConfigApply s = .next (settle s)) ∧
      (o.cycle = 0 → Sys2Proof.Machine.exec .rowConfigApply s = .next (settle (applyConfig s)))) ∧
    (s.hud.accepted ≠ [] → s.fbc.curOver = none →
      Sys2Proof.Machine.exec .rowConfigApply s = .next (settle (applyConfig s)))) ∧
  (∀ s : State, let u := updHud (fun h => { h with cfg := s.hud.accepted, accepted := [], chips := [], cool := none }) s
    setUpStands u = true → (s.hud.lead = true → s.fbc.master = true →
      applyConfig s = judgeHuddle (updHud (fun h => { h with writes := nodeWrites u }) u)) ∧
    (s.hud.lead = false ∨ s.fbc.master = false →
      applyConfig s = judgeHuddle (updHud (fun h => { h with lead := false, wasMaster := false }) u))) ∧
  (∀ s : State, islandRuns s = true →
    let may := isMember s = true ∧ s.hud.lead = false ∧ refQuorate s = false ∧ s.fbc.curOver.map (·.cycle) = some 0
    (¬may → Sys2Proof.Machine.exec .election s = .next (settle s)) ∧
    (∀ w, may → electionWinner s = some w → s.fbc.master = false →
      Sys2Proof.Machine.exec .election s = .next (settle { s with hud := { s.hud with winner := some w } })) ∧
    (∀ w, may → electionWinner s = some w → s.fbc.master = true → Sys2Proof.Machine.exec .election s =
      .next (settle { s with hud := { s.hud with winner := some w, loop := { s.hud.loop with st := 0 } } })) ∧
    (may → electionWinner s = none → s.hud.loop.st ≠ 4 → s.fbc.master = false →
      Sys2Proof.Machine.exec .election s = .next (settle (hudEvent 1 s))) ∧
    (may → electionWinner s = none → s.hud.loop.st ≠ 4 → s.fbc.master = true → Sys2Proof.Machine.exec .election s =
      .next (settle (hudEvent 1 { s with hud := { s.hud with loop := { s.hud.loop with st := 4 } } })))) ∧
  (∀ (s : State) (w : Nat), electionWinner s = some w →
    w < 3 ∧ isHeard s w = true ∧ (∃ q, q < 3 ∧ q ≠ w ∧ isHeard s q = true ∧ keyOf s q = keyOf s w) ∧
    ∀ q < 3, isHeard s q = true → keyOf s q = keyOf s w → w ≤ q) ∧
  (∀ s : State, electionWinner s = none ↔ ∀ q < 3, ∀ r < 3, q ≠ r → isHeard s q = true → isHeard s r = true →
    keyOf s q ≠ keyOf s r) ∧
  (∀ (s : State) (nodes : List CanFrame), islandRuns s = true →
    let s1 := nodes.foldl (fun t f => nodeHeard f t) s
    let sent := (elementFrame (txShadow s1 0)).data
    let seq := getLe sent 24 2
    let s2 := if s1.hud.wasMaster then s1
      else becameMaster (updHud (fun h => { h with wasMaster := true, loop := { h.loop with seq } }) s1)
    let act := activeSet s2 (trayRank s2)
    let report := fun t => sendLeak (putMemberStatus (judgeHuddle (noteReference sent t)))
    let away := fun t => putReference t.hud.loop 0 0 t
    (isMember s = false ∨ s.fbc.master = false → Sys2Proof.Machine.exec (.leadOverWork nodes) s = .next (settle
      { s with hud := { s.hud with wasMaster := s.fbc.master, lead := s.hud.lead && s.fbc.master } })) ∧
    (isMember s = true → s.fbc.master = true → s2.hud.winner = none → s2.hud.handover = none → s2.fbc.master = true →
      (s2.hud.lead = true → 2 ≤ ranksIn act →
        let a := updHud (fun h => { h with loop := { h.loop with
          seq, st := if h.loop.st = 0 ∨ h.loop.st = 4 then 1 else h.loop.st } }) (abortTx s2.hud.asked s2)
        let b := classifyChips (measureLoop a)
        let runs := b.hud.loop.st = 1 ∧ b.fbc.curOver.map (·.cycle) = some 0
        let c := ownTray (leadFrames (allocate (if runs then controllerRun b else b)))
        let g := if c.hud.handover.isSome then c.hud.handover.getD 0 + 1 else 0
        let p := putReference { c.hud.loop with seq := (c.hud.loop.seq + 1) % 65536 } act g c
        Sys2Proof.Machine.exec (.leadOverWork nodes) s = .next (settle (report
          (updHud (fun h => { h with active := act, leadRank := trayRank p }) p)))) ∧
      (s2.hud.lead = true → ranksIn act < 2 →
        let t := hudEvent 1 (updHud (fun h => { h with lead := false, loop := { h.loop with st := 4 } }) s2)
        t.hud.handover = none → Sys2Proof.Machine.exec (.leadOverWork nodes) s = .next (settle (report
          (updHud (fun h => { h with active := 0, leadRank := 3 }) (away t))))) ∧
      (s2.hud.lead = false → Sys2Proof.Machine.exec (.leadOverWork nodes) s = .next (settle (report
        (updHud (fun h => { h with active := 0, leadRank := 3 }) (away s2)))))) ∧
    (∀ r, isMember s = true → s.fbc.master = true → s2.hud.winner = none → s2.hud.handover = some r →
      getLe sent 23 1 / 32 % 4 ≠ 0 → Sys2Proof.Machine.exec (.leadOverWork nodes) s = .next (settle (ttCmd 2 .island
        { s2 with hud := { s2.hud with lead := false, wasMaster := false, handover := none, busy := false, result := 0 } })))) ∧
  (∀ (s : State) (f : CanFrame), islandRuns s = true → isTrayLead s = true →
    let bad := vlpOk f 48 = false ∨ f.ident < 2 ∨ 4 < f.ident ∨ bitOf (getLe f.data 23 1) 7 = true ∨
      4 < getLe f.data 22 1 ∨ s.fbc.master = true
    let t := releaseFrame f s
    let r := getLe f.data 23 1 / 8 % 4
    let u := judgeHuddle (noteReference f.data { t with hud := { t.hud with wasMaster := false, lead := false } })
    (bad → Sys2Proof.Machine.exec (.referenceHandling f) s = .next (settle (badFrame s))) ∧
    (¬bad → takesPart t = false → isMember u = false → u.hud.winner = none →
      Sys2Proof.Machine.exec (.referenceHandling f) s = .next (settle (sendLeak u)))) ∧
  (∀ (s : State) (f : CanFrame), islandRuns s = true → isTrayLead s = true →
    let bad := vlpOk f 24 = false ∨ f.ident < 0xA0 ∨ 0xA2 < f.ident ∨ 32 ≤ getLe f.data 14 1 ∨
      4 < getLe f.data 14 1 / 4 ∨ 64 ≤ getLe f.data 15 1 ∨ 16 ≤ getLe f.data 17 1 ∨ 4 < getLe f.data 20 1 ∨
      zeroSpan f.data 21 24 = false
    let u := releaseFrame f s
    (bad → Sys2Proof.Machine.exec (.memberStatus f) s = .next (settle (badFrame s))) ∧
    (¬bad → ∃ t, Sys2Proof.Machine.exec (.memberStatus f) s = .next (settle t) ∧
      peerAt t (f.ident - 0xA0) = { peerAt u (f.ident - 0xA0) with
        epoch := getLe f.data 0 4, digest := getLe f.data 4 8, major := getLe f.data 12 1, minor := getLe f.data 13 1
        heard := some u.fbc.overs, role := getLe f.data 14 1 % 4, cause := getLe f.data 14 1 / 4 } ∧
      (∀ q, q ≠ f.ident - 0xA0 → peerAt t q = peerAt u q) ∧
      { t with hud := { t.hud with peers := u.hud.peers } } = u)) ∧
  (∀ (s : State) (f : CanFrame), islandRuns s = true → isTrayLead s = true →
    let bad := vlpOk f 48 = false ∨ f.ident < 0x300 ∨ 0x317 < f.ident ∨ ∃ p < 4, 8 ≤ getLe f.data (12 * p + 11) 1
    let t := releaseFrame f s
    let slot := f.ident - 0x300
    (bad → Sys2Proof.Machine.exec (.trayReport f) s = .next (settle (badFrame s))) ∧
    (¬bad → isMember t = false ∨ cfgTrays t ≤ slot → Sys2Proof.Machine.exec (.trayReport f) s = .next (settle t)) ∧
    (¬bad → isMember t = true → slot < cfgTrays t → Sys2Proof.Machine.exec (.trayReport f) s = .next (settle
      (chipHeard (4 * slot + 3) (slice f.data 36 12) (chipHeard (4 * slot + 2) (slice f.data 24 12)
        (chipHeard (4 * slot + 1) (slice f.data 12 12) (chipHeard (4 * slot) (slice f.data 0 12) t))))))) ∧
  (∀ (s : State) (f : CanFrame), islandRuns s = true → isTrayLead s = true →
    let bad := vlpOk f 48 = false ∨ f.ident < 0x380 ∨ 0x381 < f.ident ∨
      ∃ j < 48, 251 ≤ getLe f.data j 1 ∧ getLe f.data j 1 ≤ 254
    let t := releaseFrame f s
    (bad → Sys2Proof.Machine.exec (.allocation f) s = .next (settle (badFrame s))) ∧
    (¬bad → takesPart t = false ∨ t.hud.quorum = false → Sys2Proof.Machine.exec (.allocation f) s = .next (settle t)) ∧
    (¬bad → takesPart t = true → t.hud.quorum = true → Sys2Proof.Machine.exec (.allocation f) s =
      .next (settle (applyAllocation (f.ident - 0x380) f.data t)))) ∧
  (∀ (s : State) (f : CanFrame), islandRuns s = true → isTrayLead s = true →
    let bad := vlpOk f 48 = false ∨ f.ident < 0x390 ∨ 0x393 < f.ident
    let t := releaseFrame f s
    (bad → Sys2Proof.Machine.exec (.stagger f) s = .next (settle (badFrame s))) ∧
    (¬bad → takesPart t = false → Sys2Proof.Machine.exec (.stagger f) s = .next (settle t)) ∧
    (¬bad → takesPart t = true → Sys2Proof.Machine.exec (.stagger f) s =
      .next (settle (applyStagger (f.ident - 0x390) f.data t)))) ∧
  (∀ (s : State) (f : CanFrame), islandRuns s = true → isTrayLead s = true →
    let kind := getLe f.data 0 1
    let t := releaseFrame f s
    let u := { t with hud := { t.hud with leakOver := some t.fbc.overs } }
    let badL := vlpOk f 8 = false ∨ f.ident ≠ 1 ∨ (kind ≠ 1 ∧ kind ≠ 2) ∨ zeroSpan f.data 4 8 = false
    let badS := vlpOk f 8 = false ∨ f.ident ≠ 0 ∨ kind = 0 ∨ 3 < kind ∨ zeroSpan f.data 2 8 = false
    (badL → Sys2Proof.Machine.exec (.leak f) s = .next (settle (badFrame s))) ∧
    (¬badL → kind = 1 → t.hud.lead = true → t.hud.loop.st ≠ 3 → bitOf (cfgLe s 16 1) 4 = true →
      Sys2Proof.Machine.exec (.leak f) s = .next (settle (latchTray (setLoopState 2 u)))) ∧
    (¬badL → kind = 1 → t.hud.loop.st = 3 ∨ (t.hud.lead = false ∧ t.hud.loop.st ≠ 1) →
      bitOf (cfgLe s 16 1) 4 = false → Sys2Proof.Machine.exec (.leak f) s = .next (settle u)) ∧
    (¬badL → kind = 2 → bitOf (nodeByte s.hud.cfg (getLe f.data 1 1) 1) 0 = false →
      Sys2Proof.Machine.exec (.leak f) s = .next (settle u)) ∧
    (badS → Sys2Proof.Machine.exec (.allStop f) s = .next (settle (badFrame s))) ∧
    (¬badS → Sys2Proof.Machine.exec (.allStop f) s = .next (settle (latchTray (setLoopState 3 u))))) ∧
  (∀ (s : State) (r : Requester) (d : RegDef) (target : Nat), target < 4 →
    writesPlain s r 0x2C00458 0x2C00458 d (1 + target * 2 ^ 8) →
    let t := written s 0x2C00458 d (1 + target * 2 ^ 8)
    let standby := target ≠ trayRank t ∧ target < 3 ∧ bitOf t.hud.active target = true ∧ isHeard t target = true ∧
      (peerAt t target).role = 2
    (isTrayLead t = false ∨ t.hud.lead = false →
      Sys2Proof.Machine.exec (.handover r target) s = .next (settle { t with hud := { t.hud with result := 1 } })) ∧
    (isTrayLead t = true → t.hud.lead = true → ¬standby →
      Sys2Proof.Machine.exec (.handover r target) s = .next (settle { t with hud := { t.hud with result := 2 } })) ∧
    (isTrayLead t = true → t.hud.lead = true → standby → Sys2Proof.Machine.exec (.handover r target) s =
      .next (settle { t with hud := { t.hud with handover := some target, busy := true } }))) ∧
  (∀ (s : State) (r : Requester) (d : RegDef),
    (writesPlain s r 0x2C00458 0x2C00458 d 2 →
      let t := written s 0x2C00458 d 2
      let u := { t with hud := { t.hud with allStop := false } }
      (isTrayLead t = false →
        Sys2Proof.Machine.exec (.rowClear r) s = .next (settle { t with hud := { t.hud with result := 4 } })) ∧
      (isTrayLead t = true → t.hud.lead = false → Sys2Proof.Machine.exec (.rowClear r) s =
        .next (settle { u with hud := { u.hud with result := if t.hud.allStop then 0 else 1 } })) ∧
      (isTrayLead t = true → t.hud.lead = true →
        (∀ o, t.hud.leakOver = some o → t.fbc.overs - o < 200 → Sys2Proof.Machine.exec (.rowClear r) s =
          .next (settle { u with hud := { u.hud with result := 3 } })) ∧
        (t.hud.leakOver = none → Sys2Proof.Machine.exec (.rowClear r) s =
          .next (settle (hudResult 0 (setLoopState 1 u)))) ∧
        (∀ o, t.hud.leakOver = some o → 200 ≤ t.fbc.overs - o → Sys2Proof.Machine.exec (.rowClear r) s =
          .next (settle (hudResult 0 (setLoopState 1 u)))))) ∧
    (writesPlain s r 0x2C00458 0x2C00458 d 3 →
      let t := written s 0x2C00458 d 3
      (isTrayLead t = false →
        Sys2Proof.Machine.exec (.huddleAllStop r) s = .next (settle { t with hud := { t.hud with result := 4 } })) ∧
      (isTrayLead t = true → Sys2Proof.Machine.exec (.huddleAllStop r) s =
        .next (settle (sendLeak { t with hud := { t.hud with allStop := true, result := 0 } }))))) ∧
  (∀ (n floor bp sd d : Nat),
    (bp ≤ n * floor → chipCap n floor bp sd d = floor) ∧
    (n * floor < bp → sd ≤ bp → chipCap n floor bp sd d = min 1500 (d + (bp - sd) / n)) ∧
    (n * floor < bp → bp < sd → chipCap n floor bp sd d = max floor (d * bp / sd))) ∧
  (∀ (s : State) (i : Nat), staggerOf s i = (cfgLe s 28 2 + i * 65536 / (4 * cfgTrays s)) % 65536) ∧
  (∀ own lead : AgKey, (own.2.2 ≠ lead.2.2 → refusal own lead = 3) ∧
    (own.2.2 = lead.2.2 → own.1 ≠ lead.1 → refusal own lead = 1) ∧
    (own.2.2 = lead.2.2 → own.1 = lead.1 → refusal own lead = 2))

/-! Presence, identity and the tray SMBus (chapter 16) -/

/-- R450–R457, R463, R464, R473: presence changes, site verification and its results, the tray SMBus target's codes, the
tray lead's work in an over and its relaying. -/
def Obligations.TheTrayVerifiesReportsAndRelays : Prop :=
  (∀ (s : State) (n : Nat) (here : Bool) (reads : List (Nat × List (Option (List Byte)))),
    let t := updTmg (fun t => { t with pres := setFld t.pres n n (b2n here) }) (orReg 0x2A00008 (2 ^ n) s)
    let u := queueEvent 0 0x0400 (leBytes 4 t.tmg.pres ++ leBytes 4 (rawAt t 0x2A00008)) t
    (standby s = false ∨ bitOf s.tmg.pres n = here →
      Sys2Proof.Machine.exec (.presenceChange n here reads) s = .next (settle s)) ∧
    (standby s = true → bitOf s.tmg.pres n ≠ here → islandRuns t = false →
      Sys2Proof.Machine.exec (.presenceChange n here reads) s = .next (settle t)) ∧
    (standby s = true → bitOf s.tmg.pres n ≠ here → islandRuns t = true → isTrayLead u = false →
      Sys2Proof.Machine.exec (.presenceChange n here reads) s = .next (settle u)) ∧
    (standby s = true → bitOf s.tmg.pres n ≠ here → islandRuns t = true → isTrayLead u = true → islandRuns u = true →
      Sys2Proof.Machine.exec (.presenceChange n here reads) s = .next (settle ((List.range (siteCount u)).foldl
        (fun x k => if (siteDef x k).kind ≠ 0 ∧ (siteDef x k).noPres = false ∧ (siteDef x k).pres = n
          then verifySite k (readsOf reads k) x else x) u)))) ∧
  (∀ (s : State) (n : Nat) (reads : List (Option (List Byte))) (all : List (Nat × List (Option (List Byte)))),
    let lead := islandRuns s = true ∧ isTrayLead s = true
    (¬lead → Sys2Proof.Machine.exec (.siteVerify n reads) s = .next (settle s) ∧
      Sys2Proof.Machine.exec (.verifyPeriod all) s = .next (settle s)) ∧
    (lead → siteCount s ≤ n → Sys2Proof.Machine.exec (.siteVerify n reads) s = .next (settle s)) ∧
    (lead → n < siteCount s →
      let res := siteResult s n reads
      let old := (siteAt s n).result
      let t := { s with tmg := { s.tmg with
        sites := Tbl.set {} s.tmg.sites n res, verifying := s.tmg.verifying.filter (· != n) } }
      let data := leBytes 1 n ++ leBytes 1 old ++ leBytes 1 res.result ++ zeros 5 ++ leBytes 8 res.serial
      (res.result = old → Sys2Proof.Machine.exec (.siteVerify n reads) s = .next (settle t)) ∧
      (res.result ≠ old → res.result < 3 →
        Sys2Proof.Machine.exec (.siteVerify n reads) s = .next (settle (queueEvent 0 0x0300 data t))) ∧
      (res.result ≠ old → 3 ≤ res.result → Sys2Proof.Machine.exec (.siteVerify n reads) s = .next (settle
        (logErr { cls := 19, cause := 3, sev := sevNotice, source := 0x2A, index := n }
          (queueEvent sevNotice 0x0300 data t))))) ∧
    (lead → Sys2Proof.Machine.exec (.verifyPeriod all) s = .next (settle
      ((List.range (siteCount s)).foldl (fun t k => verifySite k (readsOf all k) t) s)))) ∧
  (∀ (s : State) (r : Requester) (d : RegDef) (all : List (Nat × List (Option (List Byte)))),
    writesPlain s r 0x2A00014 0x2A00014 d 1 →
    let t := written s 0x2A00014 d 1
    let u := verifyAll all { t with tmg := { t.tmg with verifying := List.range (siteCount t) } }
    (isTrayLead t = true → islandRuns t = true → siteCount t ≠ 0 → Sys2Proof.Machine.exec (.verifyCmd r all) s =
      .next (settle { u with tmg := { u.tmg with verifying := [] } })) ∧
    (isTrayLead t = false ∨ islandRuns t = false → t.tmg.verifying = [] →
      Sys2Proof.Machine.exec (.verifyCmd r all) s = .next (settle t))) ∧
  (∀ (s : State) (n : Nat) (reads : List (Option (List Byte))),
    let d := siteDef s n
    let here := if d.noPres then firAnswers reads else bitOf s.tmg.pres d.pres
    let acc := Tbl.get 0 s.tmg.accepted n
    (d.kind = 0 → (siteResult s n reads).result = 0) ∧
    (d.kind ≠ 0 → here = false → firAnswers reads = true → (siteResult s n reads).result = 10) ∧
    (d.kind ≠ 0 → here = false → firAnswers reads = false →
      (siteResult s n reads).result = if d.required then 3 else 2) ∧
    (d.kind ≠ 0 → here = true → firRead 3 reads = none → (siteResult s n reads).result = 4) ∧
    (∀ x, d.kind ≠ 0 → here = true → firRead 3 reads = some x →
      let limits := d.kind = 4 ∧ (200 < getLe x 40 2 ∨ 12 < getLe x 42 2 ∨ getLe x 44 2 < 25)
      (firValid x = false → (siteResult s n reads).result = 5) ∧
      (firValid x = true → getLe x 6 1 ≠ d.kind → (siteResult s n reads).result = 6) ∧
      (firValid x = true → getLe x 6 1 = d.kind → limits → (siteResult s n reads).result = 9) ∧
      (firValid x = true → getLe x 6 1 = d.kind → ¬limits → acc = 0 → (siteResult s n reads).result = 7) ∧
      (firValid x = true → getLe x 6 1 = d.kind → ¬limits → acc ≠ 0 → acc ≠ getLe x 8 8 →
        (siteResult s n reads).result = 8) ∧
      (firValid x = true → getLe x 6 1 = d.kind → ¬limits → acc ≠ 0 → acc = getLe x 8 8 →
        (siteResult s n reads).result = 1))) ∧
  (∀ x : List Byte, firValid x = true → getLe x 0 4 = 0x52494E46 ∧ getLe x 4 2 = 1 ∧
    getLe x 252 4 = crc32 (slice x 0 252) ∧ getLe x 7 1 = 0 ∧ getLe x 8 8 ≠ 0) ∧
  (∀ (s : State) (v code angle : Nat) (byLead : Bool) (block : List Byte) (pos : Nat)
      (answers : List (Nat × Nat × Option (List Byte))), islandRuns s = false →
    ∀ i ∈ [Instr.role byLead, .chipState byLead, .tsbLeak v, .quorum v, .tsbStagger v, .alloc code angle,
      .proxyReq block, .proxyRsp, .traySmbusOver answers, .trayLeadSilence, .proxyTimeout, .outboxPoll pos block],
      Sys2Proof.Machine.exec i s = .next (settle s)) ∧
  (∀ s : State, islandRuns s = true →
    let h := { s with tmg := { s.tmg with lastLead := some s.dts } }
    let role := s.tmg.role % 4 + b2n s.pwr.straps.lead * 4 + s.pwr.straps.pos % 4 * 8
    Sys2Proof.Machine.exec (.role true) s = .next (settle { h with
      out := s.out ++ [.smbus s.pwr.straps.pos 0x01 (leBytes 1 role)], tmg := { h.tmg with roleAsked := true } }) ∧
    Sys2Proof.Machine.exec (.role false) s = .next (settle { s with
      out := s.out ++ [.smbus s.pwr.straps.pos 0x01 (leBytes 1 role)], tmg := { s.tmg with roleAsked := true } }) ∧
    Sys2Proof.Machine.exec (.chipState true) s = .next (settle { h with
      out := s.out ++ [.smbus s.pwr.straps.pos 0x10 (chipState s)] }) ∧
    Sys2Proof.Machine.exec (.chipState false) s = .next (settle { s with
      out := s.out ++ [.smbus s.pwr.straps.pos 0x10 (chipState s)] }) ∧
    (∀ v, (v = 1 → Sys2Proof.Machine.exec (.tsbLeak v) s = .next (settle (leakTrigger none h))) ∧
      (v = 2 → Sys2Proof.Machine.exec (.tsbLeak v) s = .next (settle (leakClear h))) ∧
      (v ≠ 1 → v ≠ 2 → Sys2Proof.Machine.exec (.tsbLeak v) s = .next (settle h))) ∧
    (∀ v, (v = 0 → Sys2Proof.Machine.exec (.quorum v) s = .next (settle (writeQuorum false h))) ∧
      (v = 1 → Sys2Proof.Machine.exec (.quorum v) s = .next (settle (writeQuorum true h))) ∧
      (1 < v → Sys2Proof.Machine.exec (.quorum v) s = .next (settle h))) ∧
    (∀ v, Sys2Proof.Machine.exec (.tsbStagger v) s = .next (settle { h with
      ptu := { s.ptu with offset := v % 65536, assigned := true } })) ∧
    (∀ code angle, (code ≤ 250 → Sys2Proof.Machine.exec (.alloc code angle) s =
        .next (settle (armHuddle (250 + 5 * code) angle h))) ∧
      (250 < code → Sys2Proof.Machine.exec (.alloc code angle) s = .next (settle h))) ∧
    (∀ block : List Byte, let frag := getLe block 0 1
      let i := frag % 128
      let part := (if i = 0 then [] else s.tmg.inFrag) ++ block.drop 1
      let clear := { h with tmg := { h.tmg with inFrag := [], inNext := 0 } }
      (block.length < 2 ∨ 242 < block.length → Sys2Proof.Machine.exec (.proxyReq block) s = .next (settle s)) ∧
      (2 ≤ block.length → block.length ≤ 242 → i ≠ 0 → i ≠ s.tmg.inNext →
        Sys2Proof.Machine.exec (.proxyReq block) s = .next (settle clear)) ∧
      (2 ≤ block.length → block.length ≤ 242 → i = 0 ∨ i = s.tmg.inNext →
        (bitOf frag 7 = true → Sys2Proof.Machine.exec (.proxyReq block) s =
          .next (settle (mmpReceive (zeros 18) part true clear))) ∧
        (bitOf frag 7 = false → Sys2Proof.Machine.exec (.proxyReq block) s =
          .next (settle { h with tmg := { h.tmg with inFrag := part, inNext := i + 1 } })))) ∧
    (s.tmg.outbox = [] → Sys2Proof.Machine.exec .proxyRsp s = .next (settle { h with
      out := s.out ++ [.smbus (0x60 + s.pwr.straps.pos) 0x41 []] })) ∧
    (∀ p rest, s.tmg.outbox = p :: rest →
      let whole := (if p.kind = 2 then slice p.dest 0 18 else []) ++ p.bytes
      let piece := (whole.drop (s.tmg.outFrag * 240)).take 240
      (whole.length ≤ (s.tmg.outFrag + 1) * 240 → Sys2Proof.Machine.exec .proxyRsp s = .next (settle { h with
        out := s.out ++ [.smbus (0x60 + s.pwr.straps.pos) 0x41
          (leBytes 1 (s.tmg.outFrag + 128) ++ leBytes 1 p.kind ++ piece)]
        tmg := { h.tmg with outbox := rest, outFrag := 0 } })) ∧
      ((s.tmg.outFrag + 1) * 240 < whole.length → Sys2Proof.Machine.exec .proxyRsp s = .next (settle { h with
        out := s.out ++ [.smbus (0x60 + s.pwr.straps.pos) 0x41 (leBytes 1 s.tmg.outFrag ++ leBytes 1 p.kind ++ piece)]
        tmg := { h.tmg with outFrag := s.tmg.outFrag + 1 } })))) ∧
  (∀ s : State, islandRuns s = true →
    (isTrayLead s = true → Sys2Proof.Machine.exec .trayLeadSilence s = .next (settle s)) ∧
    (isTrayLead s = false → s.tmg.lastLead = none →
      Sys2Proof.Machine.exec .trayLeadSilence s = .next (settle (writeQuorum false s))) ∧
    (∀ t, isTrayLead s = false → s.tmg.lastLead = some t → Sys2Proof.Machine.exec .trayLeadSilence s =
      .next (settle (writeQuorum false { s with dts := max s.dts (t + 100000000) }))) ∧
    (s.tmg.proxies = [] → Sys2Proof.Machine.exec .proxyTimeout s = .next (settle s)) ∧
    (∀ w rest, s.tmg.proxies = w :: rest →
      let t := nextCounter { s with dts := max s.dts (w.since + 100000000), tmg := { s.tmg with proxies := rest } }
      Sys2Proof.Machine.exec .proxyTimeout s = .next (settle { t with
        out := t.out ++ [.mmp w.src (mmpPacket t 2 w.key w.seq w.command 0x0781 (leBytes 8 t.dts))] }))) ∧
  (∀ (s : State) (pos : Nat) (block : List Byte), islandRuns s = true →
    let frag := getLe block 0 1
    let part := Tbl.get [] s.tmg.readFrag pos ++ (if frag % 128 = 0 then block.drop 1 else block.drop 2)
    let t := { s with tmg := { s.tmg with readFrag := Tbl.erase s.tmg.readFrag pos } }
    (isTrayLead s = false ∨ block.length < 2 →
      Sys2Proof.Machine.exec (.outboxPoll pos block) s = .next (settle s)) ∧
    (isTrayLead s = true → 2 ≤ block.length → bitOf frag 7 = false → Sys2Proof.Machine.exec (.outboxPoll pos block) s =
      .next (settle { s with tmg := { s.tmg with readFrag := Tbl.set [] s.tmg.readFrag pos part } })) ∧
    (isTrayLead s = true → 2 ≤ block.length → bitOf frag 7 = true → getLe part 0 1 = 2 →
      Sys2Proof.Machine.exec (.outboxPoll pos block) s =
        .next (settle { t with out := s.out ++ [.mmp (slice part 1 18) (part.drop 19)] })) ∧
    (isTrayLead s = true → 2 ≤ block.length → bitOf frag 7 = true → getLe part 0 1 ≠ 2 →
      let who := s.tmg.proxies.find? (fun w => w.pos == pos && w.seq == getLe (part.drop 1) 20 4)
      (∀ w, who = some w → Sys2Proof.Machine.exec (.outboxPoll pos block) s = .next (settle { t with
        out := s.out ++ [.mmp w.src (part.drop 1)]
        tmg := { t.tmg with proxies := s.tmg.proxies.filter (· != w) } })) ∧
      (who = none → Sys2Proof.Machine.exec (.outboxPoll pos block) s = .next (settle t)))) ∧
  (∀ (s : State) (answers : List (Nat × Nat × Option (List Byte))), islandRuns s = true →
    (isTrayLead s = false → Sys2Proof.Machine.exec (.traySmbusOver answers) s = .next (settle s)) ∧
    (isTrayLead s = true →
      let t := tsbWrites (fun p => answers.any (fun a => a.1 == p && a.2.2.isNone)) (sendLeak (judgeHuddle s))
      let others := (List.range 4).filter
        (fun p => p != s.pwr.straps.pos && (bitOf (fittedMask t) p || (trayRecord t).isNone))
      let u := others.foldl (fun x p => if (answers.find? (fun a => a.1 == p)).isSome
        then readPosition p ((answers.find? (fun a => a.1 == p)).getD (0, 0, none)).2.1
          ((answers.find? (fun a => a.1 == p)).getD (0, 0, none)).2.2 x else x) t
      let v := refreshEntry s.pwr.straps.pos (chipState u) u
      Sys2Proof.Machine.exec (.traySmbusOver answers) s =
        .next (settle (if takesPart v = true ∧ fbcRuns v = true then putTrayReport v else v)))) ∧
  (∀ (s : State) (p : Nat) (bytes : List Byte),
    let x := posAt s p
    posAt (refreshEntry p bytes s) p = { x with
      seq := (x.seq + 1) % 256, answered := true, fails := 0, state := bytes, readAt := s.dts
      entry := slice bytes 0 10 ++ leBytes 1 ((x.seq + 1) % 256) ++ leBytes 1 (getLe bytes 10 1) })

/-! The management port (chapter 16) -/

/-- R466–R475, R478–R481: how a packet is checked and queued, how a request at the front is judged and answered, events,
the PHY, and PTP. -/
def Obligations.ManagementPacketsAreCheckedAndAnswered : Prop :=
  (∀ (s : State) (src p : List Byte),
    let formed := getLe p 0 4 = 0x31504D4D ∧ getLe p 4 1 = 1 ∧ getLe p 5 1 = 1 ∧ getLe p 28 2 ≤ 1024 ∧
      p.length = 48 + getLe p 28 2 ∧ getLe p 6 1 < 4 ∧ getLe p 7 1 < 2 ∧ getLe p 30 2 = 0
    let target := getLe p 6 1
    let q : MmpRequest := { src, proxied := false, packet := p }
    (romRuns s = false → Sys2Proof.Machine.exec (.mmpReceive src p) s = .next (settle s)) ∧
    (romRuns s = true → ¬formed →
      Sys2Proof.Machine.exec (.mmpReceive src p) s = .next (settle (bumpFld 0x2B00010 15 0 s))) ∧
    (romRuns s = true → formed → target ≠ s.pwr.straps.pos → isTrayLead s = false →
      Sys2Proof.Machine.exec (.mmpReceive src p) s = .next (settle (bumpFld 0x2B00014 15 0 s))) ∧
    (romRuns s = true → formed → target ≠ s.pwr.straps.pos → isTrayLead s = true → 4 ≤ (posAt s target).fails →
      Sys2Proof.Machine.exec (.mmpReceive src p) s = .next (settle (respond q 0x0781 [] s))) ∧
    (romRuns s = true → formed → target ≠ s.pwr.straps.pos → isTrayLead s = true → (posAt s target).fails < 4 →
      let frags := proxyFrags 5 p 0
      Sys2Proof.Machine.exec (.mmpReceive src p) s = .next (settle { s with
        out := s.out ++ frags.map (fun b => .smbus (0x60 + target) 0x40 b)
        tmg := { s.tmg with proxies := s.tmg.proxies ++ [
          { pos := target, seq := getLe p 20 4, key := getLe p 7 1, command := getLe p 24 2, src, since := s.dts }] } })) ∧
    (romRuns s = true → formed → target = s.pwr.straps.pos →
      Sys2Proof.Machine.exec (.mmpReceive src p) s = .next (settle (mmpChecked q s)))) ∧
  (∀ (s : State) (q : MmpRequest),
    let key := mmpKeyAt s (reqField q 7 1)
    let body := slice q.packet 0 (32 + reqField q 28 2)
    let bare := s.boot.path = 1 ∧ s.mgp.key0 = [] ∧ s.mgp.key1 = [] ∧ reqCommand q = 0x60 ∧
      getLe (reqPayload q) 0 1 = 0
    let tagged := key ≠ [] ∧ mmpTag key body = reqTag q
    let mine := reqField q 16 4 = serialLo ∨ (reqField q 16 4 = 0xFFFFFFFF ∧ reqCommand q = 1)
    let c := reqField q 8 8
    (¬bare → ¬tagged → mmpChecked q s = bumpFld 0x2B00010 31 16 s) ∧
    (bare ∨ tagged → ¬mine → mmpChecked q s = bumpFld 0x2B00014 15 0 s) ∧
    (bare ∨ tagged → mine → c ≤ s.mgp.floor →
      (s.mgp.lastTag = some (c, reqTag q) → c = s.mgp.floor → mmpChecked q s = resendKept q s) ∧
      (s.mgp.lastTag ≠ some (c, reqTag q) ∨ c ≠ s.mgp.floor →
        mmpChecked q s = respond q 0x0303 (leBytes 8 s.mgp.floor) (bumpFld 0x2B00014 31 16 s))) ∧
    (bare ∨ tagged → mine → s.mgp.floor < c →
      (16 ≤ s.mgp.queue.length → mmpChecked q s = bumpFld 0x2B00014 15 0 s) ∧
      (s.mgp.queue.length < 16 → mmpChecked q s =
        { s with mgp := { s.mgp with floor := c, queue := s.mgp.queue ++ [q] } }))) ∧
  (∀ (s : State) (i : Instr) (cmd : Nat) (size : Nat → Bool) (lead : Bool), mmpRow i = some (cmd, size, lead) →
    (s.mgp.queue = [] ∨ romRuns s = false → Sys2Proof.Machine.exec i s = .next (settle s)) ∧
    (∀ q rest, s.mgp.queue = q :: rest → reqCommand q ≠ cmd → Sys2Proof.Machine.exec i s = .next (settle s)) ∧
    (∀ n q rest, mmpFront s cmd n q rest → size n = false →
      Sys2Proof.Machine.exec i s = .next (settle (answerReq q 0x0304 [] (takenFrom s q rest)))) ∧
    (∀ n q rest, mmpFront s cmd n q rest → size n = true → lead = true → isTrayLead s = false →
      Sys2Proof.Machine.exec i s = .next (settle (answerReq q 0x02E0 [] (takenFrom s q rest))))) ∧
  (∀ (s : State) (q : MmpRequest) (status : Nat) (payload : List Byte),
    let m := s.mgp
    let c := m.outCounter + 1
    let u := { s with mgp := { m with
      outCounter := c, outReserve := if m.outReserve < c then c + 2 ^ 20 else m.outReserve
      lastTag := some (reqField q 8 8, reqTag q), lastResponse := leBytes 8 s.dts ++ payload, lastKey := reqField q 7 1
      lastSeq := reqField q 20 4, lastCmd := reqCommand q, lastStatus := status } }
    let bytes := mmpPacket u 2 (reqField q 7 1) (reqField q 20 4) (reqCommand q) status (leBytes 8 s.dts ++ payload)
    (q.proxied = false → answerReq q status payload s = { u with out := s.out ++ [.mmp q.src bytes] }) ∧
    (q.proxied = true → answerReq q status payload s =
      { u with tmg := { s.tmg with outbox := s.tmg.outbox ++ [{ kind := 1, dest := q.src, bytes }] } })) ∧
  (∀ s : State,
    (islandRuns s = true → Sys2Proof.Machine.exec .eventResend s = .next (settle
      ((s.mgp.events.filter (fun e => e.sent && eventEnabled s e.code)).foldl (fun t e => sendEvent e t) s))) ∧
    (islandRuns s = false → Sys2Proof.Machine.exec .eventResend s = .next (settle s))) ∧
  (∀ (sev code : Nat) (data : List Byte) (s : State),
    let e : MgpEvent := { seq := s.mgp.nextEv, dts := s.dts, sev, code, data := slice data 0 16, sent := false }
    (s.mgp.events.length < 64 → queueEvent sev code data s = { s with mgp := { s.mgp with
      events := s.mgp.events ++ [e], nextEv := (s.mgp.nextEv + 1) % 2 ^ 32 } }) ∧
    (64 ≤ s.mgp.events.length → queueEvent sev code data s = { s with mgp := { s.mgp with
      events := (s.mgp.events ++ [e]).drop 1, nextEv := (s.mgp.nextEv + 1) % 2 ^ 32
      evLost := satInc 0xFFFF s.mgp.evLost } })) ∧
  (∀ (s : State) (up v4 v6 : Bool) (speed : Nat),
    (romRuns s = false ∨ s.mgp.phyReleased = false →
      Sys2Proof.Machine.exec (.mgpPhyLinkChange up speed v4 v6) s = .next (settle s)) ∧
    (romRuns s = true → s.mgp.phyReleased = true → up = true → speed = 1 ∨ speed = 2 →
      Sys2Proof.Machine.exec (.mgpPhyLinkChange up speed v4 v6) s = .next (settle
        { s with mgp := { s.mgp with link := true, speed := speed, ipv4 := v4, ipv6 := v6 } })) ∧
    (romRuns s = true → s.mgp.phyReleased = true → up = false ∨ (speed ≠ 1 ∧ speed ≠ 2) →
      Sys2Proof.Machine.exec (.mgpPhyLinkChange up speed v4 v6) s = .next (settle
        { s with mgp := { s.mgp with link := false, speed := 0, ipv4 := false, ipv6 := false } }))) ∧
  (∀ (s : State) (t1 t2 t3 t4 gm rank : Nat) (c1 c2 : Int),
    islandRuns s = false ∨ (s.mgp.ptp.st = 0 ∧ islandRuns s = true) →
    Sys2Proof.Machine.exec (.ptpExchangeComplete t1 t2 t3 t4 c1 c2) s = .next (settle s) ∧
    Sys2Proof.Machine.exec (.ptpAnnounce gm rank) s = .next (settle s) ∧
    Sys2Proof.Machine.exec .ptpAnnounceTimeout s = .next (settle s)) ∧
  (∀ (s : State) (t1 t2 t3 t4 : Nat) (c1 c2 : Int), islandRuns s = true → regBit s 0x2B00040 31 = true →
    s.mgp.ptp.st ≠ 0 →
    let a : Int := t2 - regFld s 0x2B00044 15 0
    let b : Int := t3 + regFld s 0x2B00044 31 16
    let o := Int.tdiv ((a - t1 - c1) - (t4 - b - c2)) 2
    let step : Int := regFld s 0x2B00040 15 0 * 1000
    let good := if -1000 ≤ o ∧ o ≤ 1000 then s.mgp.ptp.good + 1 else 0
    let p := { s.mgp.ptp with offset := o, good, slewing := false, slew := 0 }
    (o < -step → Sys2Proof.Machine.exec (.ptpExchangeComplete t1 t2 t3 t4 c1 c2) s = .next (settle (ptpState 2 { s with
      free := s.free + 1, dts := s.dts + (-o).toNat, mgp := { s.mgp with ptp := p } }))) ∧
    (step < o → Sys2Proof.Machine.exec (.ptpExchangeComplete t1 t2 t3 t4 c1 c2) s = .next (settle (ptpState 2 { s with
      free := s.free + 1, mgp := { s.mgp with ptp := { p with slewing := true, slew := o.toNat } } }))) ∧
    (-step ≤ o → o ≤ step → ∃ trim : Int, -20000 ≤ trim ∧ trim ≤ 20000 ∧
      Sys2Proof.Machine.exec (.ptpExchangeComplete t1 t2 t3 t4 c1 c2) s = .next (settle
        (ptpState (if 8 ≤ good ∨ s.mgp.ptp.st = 3 then 3 else 2) { s with
          free := s.free + 1, mgp := { s.mgp with ptp := { p with trim } } })))) ∧
  (∀ (s : State) (gm rank : Nat), islandRuns s = true → regBit s 0x2B00040 31 = true → s.mgp.ptp.st ≠ 0 →
    (∀ r, s.mgp.ptp.gmRank = some r → gm = s.mgp.ptp.gm → Sys2Proof.Machine.exec (.ptpAnnounce gm rank) s =
      .next (settle { s with mgp := { s.mgp with ptp := { s.mgp.ptp with gmRank := some rank } } })) ∧
    (∀ r, s.mgp.ptp.gmRank = some r → gm ≠ s.mgp.ptp.gm → r ≤ rank →
      Sys2Proof.Machine.exec (.ptpAnnounce gm rank) s = .next (settle s)) ∧
    (s.mgp.ptp.gmRank = none ∨ (∃ r, s.mgp.ptp.gmRank = some r ∧ gm ≠ s.mgp.ptp.gm ∧ rank < r) →
      Sys2Proof.Machine.exec (.ptpAnnounce gm rank) s = .next (settle (ptpState 2
        { s with mgp := { s.mgp with ptp := { s.mgp.ptp with gm, gmRank := some rank, good := 0 } } })))) ∧
  (∀ s : State, islandRuns s = true →
    (s.mgp.ptp.st ≤ 1 → Sys2Proof.Machine.exec .ptpAnnounceTimeout s = .next (settle s)) ∧
    (1 < s.mgp.ptp.st → Sys2Proof.Machine.exec .ptpAnnounceTimeout s = .next (settle (ptpState 1
      { s with mgp := { s.mgp with ptp := { s.mgp.ptp with gmRank := none, good := 0 } } }))))

/-- R415, R462, R464, R474–R478, R511: what each management command does once it is served, and how it is answered. -/
def Obligations.ManagementCommandsAct : Prop :=
  (∀ (s : State) (q : MmpRequest) (rest : List MmpRequest),
    let t := takenFrom s q rest
    let p := reqPayload q
    (mmpFront s 1 0 q rest →
      Sys2Proof.Machine.exec .identify s = .next (settle (answerReq q 0 (identifyBytes t) t))) ∧
    (mmpFront s 2 0 q rest → Sys2Proof.Machine.exec .status s = .next (settle (answerReq q 0 (statusBytes t) t))) ∧
    (mmpFront s 0x10 8 q rest →
      let off := getLe p 0 4
      let n := getLe p 4 2
      let bad := n = 0 ∨ 64 < n ∨ getLe p 6 2 ≠ 0 ∨ off % 4 ≠ 0
      (bad → Sys2Proof.Machine.exec .regRead s = .next (settle (answerReq q 0x0303 [] t))) ∧
      (¬bad → mmpShut t off n = true →
        Sys2Proof.Machine.exec .regRead s = .next (settle (answerReq q 0x02F0 [] t))) ∧
      (∀ u, ¬bad → mmpShut t off n = false → mmpReads n off t = (u, none) →
        Sys2Proof.Machine.exec .regRead s = .next (settle (answerReq q 0x0303 [] u))) ∧
      (∀ u l, ¬bad → mmpShut t off n = false → mmpReads n off t = (u, some l) →
        Sys2Proof.Machine.exec .regRead s = .next (settle (answerReq q 0 l u)))) ∧
    (∀ cons m, mmpFront s 0x11 m q rest → 8 ≤ m →
      let off := getLe p 0 4
      let n := getLe p 4 2
      let bad := n = 0 ∨ 64 < n ∨ getLe p 6 2 ≠ 0 ∨ off % 4 ≠ 0
      let w := mmpWrites cons n off (p.drop 8) t
      (p.length ≠ 8 + 4 * n → Sys2Proof.Machine.exec (.regWrite cons) s =
        .next (settle (answerReq q 0x0304 [] t))) ∧
      (bad → p.length = 8 + 4 * n → Sys2Proof.Machine.exec (.regWrite cons) s =
        .next (settle (answerReq q 0x0303 [] t))) ∧
      (¬bad → p.length = 8 + 4 * n → mmpShut t off n = true → Sys2Proof.Machine.exec (.regWrite cons) s =
        .next (settle (answerReq q 0x02F0 [] t))) ∧
      (¬bad → p.length = 8 + 4 * n → mmpShut t off n = false → Sys2Proof.Machine.exec (.regWrite cons) s =
        .next (settle (answerReq q (if w.2 then 0x0303 else 0) [] w.1)))) ∧
    (mmpFront s 0x12 0 q rest →
      Sys2Proof.Machine.exec .mmpChipReset s = .next (settle (applyReset .mmp (answerReq q 0 [] t)))) ∧
    (mmpFront s 0x20 16 q rest →
      let n := getLe p 8 2
      let bad := n = 0 ∨ 16 < n ∨ allZero (slice p 10 6) = false
      (bad → Sys2Proof.Machine.exec .logRead s = .next (settle (answerReq q 0x0303 [] t))) ∧
      (¬bad → Sys2Proof.Machine.exec .logRead s = .next (settle (answerReq q 0
        (((readableLog t).filter (fun e => decide (getLe p 0 8 ≤ e.seq))).take (min n 15) |>.flatMap entryBytes) t)))) ∧
    (mmpFront s 0x21 24 q rest →
      (getLe p 18 2 ≠ 0 ∨ 2 ^ 11 ≤ getLe p 20 4 →
        Sys2Proof.Machine.exec .eventCfg s = .next (settle (answerReq q 0x0303 [] t))) ∧
      (getLe p 18 2 = 0 → getLe p 20 4 < 2 ^ 11 → Sys2Proof.Machine.exec .eventCfg s = .next (settle (answerReq q 0 []
        { t with mgp := { t.mgp with dest := some (slice p 0 18), mask := getLe p 20 4 } })))) ∧
    (mmpFront s 0x22 8 q rest →
      (getLe p 4 4 ≠ 0 → Sys2Proof.Machine.exec .eventAck s = .next (settle (answerReq q 0x0303 [] t))) ∧
      (getLe p 4 4 = 0 → Sys2Proof.Machine.exec .eventAck s = .next (settle (answerReq q 0 []
        { t with mgp := { t.mgp with events := t.mgp.events.filter (fun e => decide (getLe p 0 4 < e.seq)) } }))))) ∧
  (∀ (s : State) (q : MmpRequest) (rest : List MmpRequest), isTrayLead s = true →
    let t := takenFrom s q rest
    let p := reqPayload q
    (∀ reads, mmpFront s 0x30 0 q rest →
      let u := verifyAll reads t
      let sites := (List.range (siteCount u)).map (siteAt u)
      Sys2Proof.Machine.exec (.topoGet reads) s = .next (settle (answerReq q
        (if sites.any (fun r => isMismatch r.result) then 0x02E1 else 0)
        (sites.flatMap (fun r => leBytes 1 r.result ++ leBytes 1 r.kind ++ zeros 6 ++ leBytes 8 r.serial)) u))) ∧
    (∀ n, mmpFront s 0x31 n q rest →
      let sized := 16 ≤ p.length ∧ p.length = 16 + 16 * getLe p 6 1
      (¬sized → Sys2Proof.Machine.exec .topoLoad s = .next (settle (answerReq q 0x0304 [] t))) ∧
      (sized → topologyOk p = false → Sys2Proof.Machine.exec .topoLoad s =
        .next (settle (answerReq q 0x0303 [] t))) ∧
      (sized → topologyOk p = true → Sys2Proof.Machine.exec .topoLoad s = .next (settle (answerReq q 0 []
        { t with tmg := { t.tmg with topology := p, accepted := [], sites := [] } })))) ∧
    (mmpFront s 0x32 8 q rest →
      let named := (List.range 16).filter (fun n => bitOf (getLe p 0 2) n)
      let r := named.foldl (fun (a : Bool × State) n => let x := acceptSite n a.2; (a.1 && x.1, x.2)) (true, t)
      (allZero (slice p 2 6) = false →
        Sys2Proof.Machine.exec .topoAccept s = .next (settle (answerReq q 0x0303 [] t))) ∧
      (allZero (slice p 2 6) = true →
        Sys2Proof.Machine.exec .topoAccept s = .next (settle (answerReq q (if r.1 then 0 else 0x02E1) [] r.2)))) ∧
    (∀ reads, mmpFront s 0x33 8 q rest →
      let bad := siteCount t ≤ getLe p 0 1 ∨ allZero (slice p 1 7) = false
      (bad → Sys2Proof.Machine.exec (.firRead reads) s = .next (settle (answerReq q 0x0303 [] t))) ∧
      (¬bad → firRead 3 reads = none →
        Sys2Proof.Machine.exec (.firRead reads) s = .next (settle (answerReq q 0x02E1 [] t))) ∧
      (∀ x, ¬bad → firRead 3 reads = some x →
        Sys2Proof.Machine.exec (.firRead reads) s = .next (settle (answerReq q 0 (slice x 0 256) t)))) ∧
    (∀ reads, mmpFront s 0x34 264 q rest →
      let n := getLe p 0 1
      let x := slice p 8 256
      let bad := siteCount t ≤ n ∨ allZero (slice p 1 7) = false ∨ firValid x = false ∨ getLe x 6 1 ≠ (siteDef t n).kind
      (bad → Sys2Proof.Machine.exec (.firWrite reads) s = .next (settle (answerReq q 0x0303 [] t))) ∧
      (¬bad → Sys2Proof.Machine.exec (.firWrite reads) s = .next (settle (answerReq q
        (if firRead 3 reads = some x then 0 else 0x02E1) []
        (verifySite n reads { t with out := t.out ++ [.i2c0 n true 0 x] }))))) ∧
    (∀ n, mmpFront s 0x40 n q rest →
      let sized := p.length = 128 + 8 * getLe p 7 1 + 16 * getLe p 6 1
      (¬sized → Sys2Proof.Machine.exec .rowConfigLoad s = .next (settle (answerReq q 0x0304 [] t))) ∧
      (sized → rowConfigOk p = false ∨ getLe p 8 4 ≤ heldEpoch t →
        Sys2Proof.Machine.exec .rowConfigLoad s = .next (settle (answerReq q 0x0303 [] t))) ∧
      (sized → rowConfigOk p = true → heldEpoch t < getLe p 8 4 → Sys2Proof.Machine.exec .rowConfigLoad s =
        .next (settle (answerReq q 0 [] { t with hud := { t.hud with accepted := p } }))))) ∧
  (∀ (s : State) (q : MmpRequest) (rest : List MmpRequest),
    let t := takenFrom s q rest
    let p := reqPayload q
    (∀ n, mmpFront s 0x50 n q rest → 8 ≤ n →
      let r := fwBlock (getLe p 0 1) (getLe p 4 4) (p.drop 8) t
      (getLe p 1 3 ≠ 0 → Sys2Proof.Machine.exec .fwBlock s = .next (settle (answerReq q 0x0303 [] t))) ∧
      (getLe p 1 3 = 0 → Sys2Proof.Machine.exec .fwBlock s = .next (settle (answerReq q r.1 [] r.2)))) ∧
    (∀ sig, mmpFront s 0x51 8 q rest →
      let r := fwCommit (getLe p 0 1) (getLe p 4 4) sig t
      (getLe p 1 3 ≠ 0 → Sys2Proof.Machine.exec (.fwCommit sig) s = .next (settle (answerReq q 0x0303 [] t))) ∧
      (getLe p 1 3 = 0 → Sys2Proof.Machine.exec (.fwCommit sig) s = .next (settle (answerReq q r.1 [] r.2)))) ∧
    (∀ onCurve, mmpFront s 0x60 104 q rest →
      let bad := 2 ≤ getLe p 0 1 ∨ allZero (slice p 1 7) = false ∨ onCurve = false
      let u := answerReq q 0 [] t
      (bad → Sys2Proof.Machine.exec (.keySet onCurve) s = .next (settle (answerReq q 0x0303 [] t))) ∧
      (¬bad → getLe p 0 1 = 0 → Sys2Proof.Machine.exec (.keySet onCurve) s = .next (settle
        { u with mgp := { u.mgp with key0 := (List.range 32).map (Config.mmpKey (slice p 8 96) 0) } })) ∧
      (¬bad → getLe p 0 1 = 1 → Sys2Proof.Machine.exec (.keySet onCurve) s = .next (settle
        { u with mgp := { u.mgp with key1 := (List.range 32).map (Config.mmpKey (slice p 8 96) 1) } })))) ∧
  (∀ (s : State) (k off : Nat) (data : List Byte),
    let bad := 4 ≤ k ∨ slotBusyBoot s k = true ∨ (if k < 2 then 8388608 else 262144) < off + data.length
    (bad → fwBlock k off data s = (0x0303, s)) ∧
    (¬bad → off = 0 → ∃ t, fwBlock k off data s = (0, t) ∧ slotAt t.boot k = { bytes := data } ∧
      Tbl.get 0 t.boot.written k = data.length ∧ ∀ j, j ≠ k → slotAt t.boot j = slotAt s.boot j) ∧
    (¬bad → off ≠ 0 → off ≠ Tbl.get 0 s.boot.written k → fwBlock k off data s = (0x0303, s)) ∧
    (¬bad → off ≠ 0 → off = Tbl.get 0 s.boot.written k → ∃ t, fwBlock k off data s = (0, t) ∧
      slotAt t.boot k = { slotAt s.boot k with bytes := (slotAt s.boot k).bytes ++ data, st := .empty } ∧
      Tbl.get 0 t.boot.written k = off + data.length ∧ ∀ j, j ≠ k → slotAt t.boot j = slotAt s.boot j)) ∧
  (∀ (s : State) (k len : Nat) (sig : Bool),
    let bad := 4 ≤ k ∨ slotBusyBoot s k = true ∨ len ≠ Tbl.get 0 s.boot.written k
    let img := (slotAt s.boot k).bytes
    (bad → fwCommit k len sig s = (0x0303, s)) ∧
    (¬bad → inRecovery s = false → verifies s (k / 2) img sig false = false → (fwCommit k len sig s).1 = 0x02F2 ∧
      (fwCommit k len sig s).2.boot.fw = s.boot.fw ∧ (fwCommit k len sig s).2.boot.cfg = s.boot.cfg) ∧
    (¬bad → inRecovery s = false → verifies s (k / 2) img sig false = true → ∃ t, fwCommit k len sig s = (0, t) ∧
      (slotAt t.boot k).st = .trial ∧ (slotAt t.boot k).bytes = img ∧ t.boot.count = s.boot.count + 1 ∧
      (k < 2 → t.boot.fw = { s.boot.fw with trial := k, tried := false } ∧ t.boot.cfg = s.boot.cfg) ∧
      (2 ≤ k → t.boot.cfg = { s.boot.cfg with trial := k - 2, tried := false } ∧ t.boot.fw = s.boot.fw))) ∧
  (∀ (s : State) (n : Nat),
    let r := siteAt s n
    (siteCount s ≤ n → acceptSite n s = (false, s)) ∧
    (n < siteCount s → r.result = 1 ∨ r.result = 7 ∨ r.result = 8 → (acceptSite n s).1 = true ∧
      Tbl.get 0 (acceptSite n s).2.tmg.accepted n = r.serial ∧ (siteAt (acceptSite n s).2 n).result = 1) ∧
    (n < siteCount s → r.result = 2 → acceptSite n s =
      (true, { s with tmg := { s.tmg with accepted := Tbl.erase s.tmg.accepted n } })) ∧
    (n < siteCount s → r.result ≠ 1 → r.result ≠ 7 → r.result ≠ 8 → r.result ≠ 2 → acceptSite n s = (false, s)))

/-! Errors, escalation and recovery (chapter 17) -/

/-- R484–R495, R500: an occurrence makes an entry, is SECONDARY, primary or raised, or merges; entries close and are
copied; handling ends by the island or the host and is raised when it takes too long; last-gasp acknowledgements. -/
def Obligations.ErrorsAreLoggedHandledAndAcknowledged : Prop :=
  (∀ (s : State) (e : ErrEvent), let t := logErr e s
    (standby s = false → Sys2Proof.Machine.exec (.errorDetect (.event e)) s = .next (settle s)) ∧
    (standby s = true → Sys2Proof.Machine.exec (.errorDetect (.event e)) s = .next (settle t) ∧
      t.pwr = s.pwr ∧ t.boot = s.boot ∧ t.fab = s.fab ∧ t.mov = s.mov ∧ t.elk = s.elk ∧ t.sqe = s.sqe ∧ t.swe = s.swe ∧
      t.ptu = s.ptu ∧ t.pgv = s.pgv ∧ t.tfu = s.tfu ∧ t.fbc = s.fbc ∧ t.tmg = s.tmg ∧ t.hud = s.hud ∧ t.dts = s.dts)) ∧
  (∀ s : State,
    (romRuns s = false → Sys2Proof.Machine.exec (.errorDetect .lockstep) s = .next (settle s)) ∧
    (romRuns s = true → Sys2Proof.Machine.exec (.errorDetect .lockstep) s = .next (settle
      (islandDown false (logErr { cls := 17, cause := 2, sev := sevContained, source := 0x2C } s)))) ∧
    (∀ o, Sys2Proof.Machine.exec (.errorDetect (.fbcRam o)) s = .next (settle (if standby s then ramUe o s else s))) ∧
    Sys2Proof.Machine.exec (.errorDetect .fbcShadow) s = .next (settle (if standby s then shadowUe s else s))) ∧
  (∀ (s : State) (e : ErrEvent), e.secondaryTo = none →
    let c := classAt s e.cls
    let x := logEntryOf e s
    (x.secondary = true ↔ c.handling = true ∧ e.sev ≤ c.sev) ∧
    (x.raised = true ↔ c.handling = true ∧ c.sev < e.sev) ∧
    (x.isolating = true ↔ e.sev = 4 ∧ fatalHeld s = true) ∧
    x.sev = e.sev ∧ x.cls = e.cls ∧ x.cause = e.cause ∧ x.dts = s.dts ∧ x.occurrences = 1 ∧
    (s.err.restored = true → x.seq = s.err.nextSeq ∧ (x.closed = true ↔ 2 ≤ e.sev)) ∧
    (s.err.restored = false → x.seq = 0 ∧ x.closed = false) ∧
    (x.secondary = true → x.primary = c.primary)) ∧
  (∀ (s : State) (x : LogEntry),
    (x.secondary = true → classAt (classAfter x s) x.cls =
      { classAt s x.cls with secondary := satInc 0xFFFF (classAt s x.cls).secondary }) ∧
    (x.secondary = false → 2 ≤ x.sev → classAt (classAfter x s) x.cls = { classAt s x.cls with
      handling := true, sev := x.sev, primary := x.seq, primaryUid := x.uid, waitHost := false, fatalDone := false }) ∧
    (x.secondary = false → x.sev < 2 → classAfter x s = s)) ∧
  (∀ (s : State) (e : ErrEvent),
    (merging e s = true → (storeEntry e s).err.log = s.err.log.map (fun x =>
      if mergeMatch e s x then { x with occurrences := x.occurrences + 1, merged := true } else x)) ∧
    (merging e s = false → s.err.log.length < 4096 → (storeEntry e s).err.log = s.err.log ++ [logEntryOf e s]) ∧
    (merging e s = false → 4096 ≤ s.err.log.length → (storeEntry e s).err.log.length = 4096) ∧
    (1 < e.sev → merging e s = false)) ∧
  (∀ s : State, let due := fun (now : Nat) (e : LogEntry) => !e.closed && e.seq != 0 && decide (e.dts + 1000000 ≤ now)
    (standby s = false ∨ (∀ e ∈ s.err.log, e.closed = true ∨ e.seq = 0) →
      Sys2Proof.Machine.exec .logEntryClose s = .next (settle s)) ∧
    (∀ x, standby s = true → s.err.log.find? (fun e => !e.closed && e.seq != 0) = some x →
      let now := max s.dts (x.dts + 1000000)
      let t := { s with dts := now, err := { s.err with
        log := updWhere (due now) (fun y => { y with closed := true }) s.err.log } }
      Sys2Proof.Machine.exec .logEntryClose s = .next (settle ((s.err.log.filter (due now)).foldl
        (fun u e => routeEntry { e with closed := true } u) t)))) ∧
  (∀ s : State,
    let l := s.err.log.filter (fun e => e.closed && decide (2 ≤ e.sev) && !(s.err.flash.any (·.uid == e.uid)))
    (islandRuns s = false ∨ l = [] → ∀ ok, Sys2Proof.Machine.exec (.flashLogCopy ok) s = .next (settle s)) ∧
    (islandRuns s = true → l ≠ [] → Sys2Proof.Machine.exec (.flashLogCopy true) s = .next (settle { s with err :=
      { s.err with flashFailing := false, flash := s.err.flash ++ l.take (logBlocks * 1024 - s.err.flash.length) } })) ∧
    (islandRuns s = true → l ≠ [] → s.err.flashFailing = true →
      Sys2Proof.Machine.exec (.flashLogCopy false) s = .next (settle s)) ∧
    (islandRuns s = true → l ≠ [] → s.err.flashFailing = false → Sys2Proof.Machine.exec (.flashLogCopy false) s =
      .next (settle (logErr { cls := 17, cause := 4, sev := sevContained, source := 0x2C }
        { s with err := { s.err with flashFailing := true } })))) ∧
  (∀ s : State,
    (s.err.running = none → Sys2Proof.Machine.exec .handlerDone s = .next (settle s) ∧
      Sys2Proof.Machine.exec .ackTimeout s = .next (settle s)) ∧
    (∀ c, s.err.running = some c →
      let x := classAt s c
      let host := regBit s (0x100104 + c * 0x10) 31
      let ack := c + x.primary % 2 ^ 24 * 256
      (islandRuns s = false ∨ x.handling = false → Sys2Proof.Machine.exec .handlerDone s = .next (settle s)) ∧
      (islandRuns s = true → x.handling = true → x.sev = 4 → Sys2Proof.Machine.exec .handlerDone s =
        .next (settle (reschedule (updClass c (fun y => { y with fatalDone := true }) (fatalSteps s))))) ∧
      (islandRuns s = true → x.handling = true → x.sev ≠ 4 → host = true → Sys2Proof.Machine.exec .handlerDone s =
        .next (settle (updClass c (fun y => { y with waitHost := true }) s))) ∧
      (islandRuns s = true → x.handling = true → x.sev ≠ 4 → host = false → c < 20 →
        Sys2Proof.Machine.exec .handlerDone s = .next (settle (errAck .island ack s)) ∧
        errAck .island ack s = reschedule (updClass c (fun _ => {}) s)) ∧
      (standby s = false ∨ x.handling = false ∨ 4 ≤ x.sev →
        Sys2Proof.Machine.exec .ackTimeout s = .next (settle s)) ∧
      (standby s = true → x.handling = true → x.sev < 4 → Sys2Proof.Machine.exec .ackTimeout s =
        .next (settle (logErr { cls := c, cause := 0xFF, sev := x.sev + 1, source := 1 } s))))) ∧
  (∀ (s : State) (r : Requester) (d : RegDef) (c seq : Nat), c < 32 →
    writesPlain s r 0x100020 0x100020 d (c + seq % 2 ^ 24 * 2 ^ 8) →
    let t := written s 0x100020 d (c + seq % 2 ^ 24 * 2 ^ 8)
    let x := classAt t c
    let host := regBit t (0x100104 + c * 0x10) 31
    let named := x.handling = true ∧ x.primary % 2 ^ 24 = seq % 2 ^ 24
    let counts := if host = true then x.waitHost = true ∧ (r = .fn 0 ∨ r = .mmp) else r = .island
    (named → counts → Sys2Proof.Machine.exec (.errAck r c seq) s =
      .next (settle (reschedule (updClass c (fun _ => {}) t)))) ∧
    (¬named ∨ ¬counts → Sys2Proof.Machine.exec (.errAck r c seq) s = .next (settle t))) ∧
  (∀ (s : State) (r : Requester) (d : RegDef), writesPlain s r 0x2C00804 0x2C00804 d 1 →
    let t := written s 0x2C00804 d 1
    (shownGasp t = none → Sys2Proof.Machine.exec (.lastgaspAck r) s = .next (settle t)) ∧
    (∀ x, shownGasp t = some x →
      (x.kind = 2 ∨ t.err.crcReadBy.contains r = false →
        Sys2Proof.Machine.exec (.lastgaspAck r) s = .next (settle t)) ∧
      (x.kind ≠ 2 → t.err.crcReadBy.contains r = true → Sys2Proof.Machine.exec (.lastgaspAck r) s =
        .next (settle { t with err := { t.err with
          crcReadBy := []
          records := t.err.records.map (fun y => if y.number = x.number
            then { y with acked := true, body := putBytes y.body 508 (zeros 4) } else y) } })))) ∧
  (∀ s : State, s.err.isolated = false → s.err.fencePending = true → regBit s 0x100028 0 = true → linkRuns s = true →
    s.elk.hasId = true → fatalSteps s =
      { s with err := { s.err with fencePending := false }, elk := { s.elk with selfFence := true } })

/-! Bring-up (chapter 18) -/

/-- R509–R518: the ROM's choice of a slot, the recovery path, the stages of an island boot, RESTART and CONFIRM, and
chip initialization up to the host port. -/
def Obligations.TheIslandBootsAndTheChipInitializes : Prop :=
  (∀ (base : Nat) (p : PairRec) (slots : Tbl Slot) (ok : Nat → Bool), let c := chooseSlot base p slots ok
    (p.trial ≠ 0xFF → p.tried = false → c.pair = { p with tried := true } ∧ c.writes = 1 ∧
      (ok p.trial = true → c.pick = some p.trial ∧ c.trial = true ∧ c.slots = slots)) ∧
    (p.trial ≠ 0xFF → p.tried = true → c.pair = { p with trial := 0xFF } ∧ c.writes = 1 ∧ c.trial = false ∧
      (p.active ≠ 0xFF → ok p.active = true → c.pick = some p.active ∧
        (Tbl.get {} c.slots (base + p.trial)).st = .rejected)) ∧
    (p.trial = 0xFF → c.pair = p ∧ c.writes = 0 ∧ c.trial = false ∧
      (p.active ≠ 0xFF → ok p.active = true → c.pick = some p.active ∧ c.slots = slots) ∧
      (∀ a, a < 2 → p.active = a → ok a = false → ok (1 - a) = true → c.pick = some (1 - a)) ∧
      (∀ a, a < 2 → p.active = a → ok a = false → ok (1 - a) = false → c.pick = none))) ∧
  (∀ (s : State) (sigs : Nat),
    (standby s = false ∨ s.pwr.islandUp = true ∨ s.pwr.restarting = true ∨ s.pwr.vstby ≠ .qualified ∨
      s.pwr.straps.test = true → Sys2Proof.Machine.exec (.islandBoot sigs) s = .next (settle s)) ∧
    (standby s = true → s.pwr.islandUp = false → s.pwr.restarting = false → s.pwr.vstby = .qualified →
      s.pwr.straps.test = false →
      let f := islandFresh s
      let c := chooseSlot 0 f.boot.fw f.boot.slots (fun k => verifies f 0 (slotAt f.boot k).bytes (bitOf sigs k) false)
      let t := updBoot (fun b => { b with fw := c.pair, slots := c.slots, count := f.boot.count + c.writes }) f
      (s.pwr.straps.recovery = true →
        Sys2Proof.Machine.exec (.islandBoot sigs) s = .next (settle (recoveryStarts 1 f))) ∧
      (s.pwr.straps.recovery = false → c.pick = none →
        Sys2Proof.Machine.exec (.islandBoot sigs) s = .next (settle (recoveryStarts 2 t))) ∧
      (∀ k, s.pwr.straps.recovery = false → c.pick = some k →
        Sys2Proof.Machine.exec (.islandBoot sigs) s = .next (settle (firmwareStarts k c.trial t))))) ∧
  (∀ (s : State) (path : Nat), let t := recoveryStarts path s
    t.boot = { s.boot with path, bootDts := s.dts } ∧ t.out = s.out ∧ t.regs = s.regs ∧ t.fbc = s.fbc ∧ t.tfu = s.tfu ∧
    t.pwr = { s.pwr with islandUp := true, restarting := false } ∧
    t.mgp = { s.mgp with phyReleased := s.mgp.phyReleased || s.pwr.okClk25 }) ∧
  (∀ (s : State) (k : Nat) (trial : Bool), let t := firmwareStarts k trial s
    t.boot.stage = 2 ∧ t.boot.fwSlot = k ∧ t.boot.fwTrial = trial ∧ t.boot.bootDts = s.dts ∧
    t.boot.fwMajor = getLe (slotAt s.boot k).bytes 12 1 ∧ t.pwr.islandUp = true ∧ t.pwr.restarting = false ∧
    t.tmg.role = b2n s.pwr.straps.lead ∧ t.regs = s.regs ∧ t.mem = s.mem ∧
    (s.pwr.st = .off ∨ s.pwr.st = .lockedOut → t.out = s.out ++ [.operation 0 false, .operation 1 false,
      .operation 2 false, .operation 3 false, .operation 4 false, .operation 5 false, .operation 6 false]) ∧
    (s.pwr.st ≠ .off → s.pwr.st ≠ .lockedOut → t.out = s.out)) ∧
  (∀ (s : State) (cons : Cons) (sigs : Nat) (reads : List (Nat × List (Option (List Byte)))),
    let at_ := fun (n : Nat) (t : State) => ({ t with boot := { t.boot with stage := n } } : State)
    (islandRuns s = false ∨ s.boot.stage < 2 ∨ 8 ≤ s.boot.stage →
      Sys2Proof.Machine.exec (.bootStage cons sigs reads) s = .next (settle s)) ∧
    (islandRuns s = true →
      (s.boot.stage = 2 → Sys2Proof.Machine.exec (.bootStage cons sigs reads) s =
        .next (settle (at_ 3 (stageConfig sigs s)))) ∧
      (s.boot.stage = 3 → Sys2Proof.Machine.exec (.bootStage cons sigs reads) s =
        .next (settle (at_ 4 (stageRestore s)))) ∧
      (s.boot.stage = 4 → Sys2Proof.Machine.exec (.bootStage cons sigs reads) s =
        .next (settle (at_ 5 (stageServices cons s)))) ∧
      (s.boot.stage = 5 → Sys2Proof.Machine.exec (.bootStage cons sigs reads) s =
        .next (settle (at_ 6 (stageNetwork s)))) ∧
      (s.boot.stage = 6 → s.tmg.settled = true → Sys2Proof.Machine.exec (.bootStage cons sigs reads) s =
        .next (settle (at_ 7 (stageTray reads s)))) ∧
      (s.boot.stage = 6 → s.tmg.settled = false →
        Sys2Proof.Machine.exec (.bootStage cons sigs reads) s = .next (settle s)) ∧
      (s.boot.stage = 7 → Sys2Proof.Machine.exec (.bootStage cons sigs reads) s = .next (settle (at_ 8 s))))) ∧
  (∀ s : State, s.boot.noConfig = true →
    stageServices {} s = updBoot (fun b => { b with pcieIds := [] }) s ∧
    stageNetwork s = queueEvent 0 0x0A00 (leBytes 8 s.mgp.floor ++ leBytes 1 s.boot.fwMajor ++ leBytes 1 s.boot.fwMinor)
      (releasePhy (updBoot (fun b => { b with net := [1, 1] ++ zeros 14 }) s))) ∧
  (∀ s : State, s.err.restored = true → restoreLog s = s) ∧
  (∀ s : State, let t := restoreLog s
    s.err.restored = false → s.err.log = [] → t.err.restored = true ∧ t.err.nextSeq = s.err.reserve ∧
      t.err.reserve = s.err.reserve + 1048576) ∧
  (∀ (s : State) (r : Requester) (d : RegDef),
    (writesPlain s r 0x2C00C08 0x2C00C08 d 1 → Sys2Proof.Machine.exec (.restart r) s =
      .next (settle (islandDown false (written s 0x2C00C08 d 1)))) ∧
    (∀ raise, writesPlain s r 0x2C00C08 0x2C00C08 d (2 + b2n raise * 4) →
      let t := written s 0x2C00C08 d (2 + b2n raise * 4)
      (islandRuns t = true →
        Sys2Proof.Machine.exec (.confirm r raise) s = .next (settle (confirm raise t))) ∧
      (islandRuns t = false → Sys2Proof.Machine.exec (.confirm r raise) s = .next (settle t)))) ∧
  (∀ (s : State) (raise : Bool),
    (s.boot.fwTrial = false → s.boot.cfgTrial = false → confirm raise s = s) ∧
    (s.boot.fwTrial = true → s.boot.cfgTrial = false →
      let hdr := slice (slotAt s.boot s.boot.fwSlot).bytes 0 256
      let b := (confirm raise s).boot
      b.fw = { active := s.boot.fwSlot, trial := 0xFF, tried := false } ∧ b.fwTrial = false ∧ b.cfg = s.boot.cfg ∧
      b.count = s.boot.count + 1 ∧ b.svn = (if raise then max s.boot.svn (getLe hdr 16 4) else s.boot.svn) ∧
      b.key0Revoked = (s.boot.key0Revoked || bitOf (getLe hdr 7 1) 0) ∧
      (slotAt b s.boot.fwSlot).st = .active)) ∧
  (∀ s : State, let t := islandDown false s
    (romRuns s = false → t = s) ∧
    (romRuns s = true → t.pwr.islandUp = false ∧ t.pwr.restarting = true ∧ t.boot.stage = 1 ∧ t.mem.cells = s.mem.cells ∧
      t.fbc = s.fbc ∧ t.tfu = s.tfu ∧ t.pwr.st = s.pwr.st ∧ t.pwr.rails = s.pwr.rails ∧
      (initRuns s = false → t.err = s.err ∧ t.out = s.out))) ∧
  (∀ s : State, let run := fclkRuns s = true ∧ islandRuns s = true
    (∀ ok, s.pwr.init ≠ .started ∨ ¬run → Sys2Proof.Machine.exec (.chipInit ok) s = .next (settle s)) ∧
    (s.pwr.init = .started → run → (∃ t, Sys2Proof.Machine.exec (.chipInit true) s = .next (settle t) ∧
        t.pwr.init = .keys ∧ t.mem.rngOk = true ∧ (ownerAt t 0).key = some s.mem.nextKey ∧
        (ownerAt t 0).keyGen = ((ownerAt s 0).keyGen + 1) % 1024 ∧ t.mem.nextKey = s.mem.nextKey + 1 ∧
        t.mem.cells = s.mem.cells) ∧
      Sys2Proof.Machine.exec (.chipInit false) s = .next (settle
        (logErr { cls := 18, cause := 1, sev := sevFatal, source := 2 }
          { s with pwr := { s.pwr with init := .failed } }))) ∧
    (∀ mask, s.pwr.init ≠ .keys ∨ ¬run → Sys2Proof.Machine.exec (.hbmTrained mask) s = .next (settle s)) ∧
    (∀ mask, s.pwr.init = .keys → run → mask % 256 = 255 → ∃ t,
      Sys2Proof.Machine.exec (.hbmTrained mask) s = .next (settle t) ∧ t.pwr.init = .memory ∧ t.mem.cells = [] ∧
        t.mem.poison = [] ∧ t.mem.leases = [] ∧ (ownerAt t 0).st = .active ∧ t.mov.hbmTrained = 255 ∧
        t.mov.hbmFailed = 0) ∧
    (∀ mask, s.pwr.init = .keys → run → mask % 256 ≠ 255 → ∃ t,
      Sys2Proof.Machine.exec (.hbmTrained mask) s = .next (settle t) ∧ t.pwr.init = .failed ∧
        t.mov.hbmTrained = mask % 256 ∧ t.mov.hbmFailed = 255 - mask % 256 ∧ t.mem.cells = s.mem.cells) ∧
    (s.pwr.init = .memory → chipReady s = true → Sys2Proof.Machine.exec .hostPortReady s =
      .next (settle { s with pwr := { s.pwr with init := .ready } })) ∧
    (s.pwr.init ≠ .memory ∨ chipReady s = false → Sys2Proof.Machine.exec .hostPortReady s = .next (settle s)))

/-! The block between commands (the model's own frame) -/

/-- The model's queue (log entry 1): the command in front runs with the queue's rest, whatever it is, and comes to a
next state; with none waiting a step is one edge of the 100 MHz reference (log entry 2). -/
def Obligations.StepTakesTheFrontCommand : Prop :=
  (∀ (c : Instr) (s : State) (rest : List Instr), step { s with pending := c :: rest } =
    Sys2Proof.Machine.exec c { s with pending := rest }) ∧
  (∀ (c : Instr) (s : State), ∃ t, Sys2Proof.Machine.exec c s = .next (settle t)) ∧
  (∀ s : State, s.pending = [] → standby s = false → step s = .next s) ∧
  (∀ s : State, s.pending = [] → standby s = true → s.trimAcc = 0 →
    (s.mgp.ptp.slewing = false → s.mgp.ptp.trim = 0 → fclkRuns s = false →
      ∃ t, step s = .next (settle t) ∧ t.dts = s.dts + 10 ∧ t.fab.fclkMilli = s.fab.fclkMilli ∧ t.regs = s.regs ∧
        t.mem = s.mem ∧ t.pwr = s.pwr) ∧
    (s.mgp.ptp.slewing = true → ∃ t, step s = .next (settle t) ∧ t.dts = s.dts + 10 ∧ t.trimAcc = -10000)) ∧
  (∀ s : State, s.trimAcc = -9990000 → s.mgp.ptp.slewing = true →
    (tickDts s).dts = s.dts + 9 ∧ (tickDts s).trimAcc = 0) ∧
  (∀ (s : State) (nbits w : Nat), State.withFetchWord s nbits w = s)

/-- What the block does by itself after a command changes nothing where nothing waits in it. -/
def Obligations.RestIsStill : Prop := ∀ s : State, AtRest s → settle s = s

/-- Every step keeps what holds between commands, whatever the command does (R59, R239, R401, R475). -/
def Obligations.StepsKeepTheBlockSettled : Prop :=
  ∀ s t : State, Settled s → step s = .next t → Settled t

/-- The block right after reset: settled and at rest, no command waiting, and R36's state of a block without power, the
power state OFF, no huddle or tray role, the link without an ID. -/
def Obligations.ResetIsSettled : Prop :=
  Settled State.reset ∧ AtRest State.reset ∧ State.reset.pending = [] ∧ State.reset.dts = 0 ∧
  State.reset.pwr.st = .off ∧ standby State.reset = false ∧ isOn State.reset = false ∧ fclkRuns State.reset = false ∧
  State.reset.mem.cells = [] ∧ State.reset.tmg.role = 0 ∧ State.reset.hud.role = 0 ∧ State.reset.elk.hasId = false
end

