-- ==== Sys2Proof/Laws/Bits.lean ====
section
/-! SUPPORT. Bit fields, tables and register images: what is put is what is read. -/

namespace Sys2Proof.Laws

open Sys2Proof.Machine Sys2Proof.Safety

/-- A field put back into its own register changes nothing. -/
theorem setFld_self (v hi lo : Nat) : setFld v hi lo (fld v hi lo) = v := by
  have h1 : fld v hi lo % 2 ^ (hi + 1 - lo) = fld v hi lo := by simp [fld]
  have h2 : fld v hi lo * 2 ^ lo ≤ v := by
    unfold fld
    rw [Nat.shiftRight_eq_div_pow]
    calc v / 2 ^ lo % 2 ^ (hi + 1 - lo) * 2 ^ lo ≤ v / 2 ^ lo * 2 ^ lo :=
          Nat.mul_le_mul_right _ (Nat.mod_le _ _)
      _ ≤ v := Nat.div_mul_le_self v (2 ^ lo)
  simp [setFld, h1]; omega

/-- A bit of a field. -/
theorem testBit_fld (v hi lo i : Nat) : (fld v hi lo).testBit i = (decide (i < hi + 1 - lo) && v.testBit (lo + i)) := by
  simp [fld, Nat.testBit_mod_two_pow, Nat.testBit_shiftRight]

/-- A register with one field replaced, as a sum. -/
theorem setFld_eq (v hi lo x : Nat) :
    setFld v hi lo x = (v / 2 ^ (lo + (hi + 1 - lo))) * 2 ^ (lo + (hi + 1 - lo)) +
      (x % 2 ^ (hi + 1 - lo) * 2 ^ lo + v % 2 ^ lo) := by
  generalize hw : hi + 1 - lo = w
  unfold setFld fld
  rw [hw, Nat.shiftRight_eq_div_pow]
  have h1 := Nat.div_add_mod v (2 ^ lo)
  have h2 := Nat.div_add_mod (v / 2 ^ lo) (2 ^ w)
  rw [Nat.div_div_eq_div_mul, ← Nat.pow_add] at h2
  have h3 : v = v / 2 ^ (lo + w) * 2 ^ (lo + w) + (v / 2 ^ lo % 2 ^ w * 2 ^ lo + v % 2 ^ lo) := by
    calc v = 2 ^ lo * (v / 2 ^ lo) + v % 2 ^ lo := h1.symm
      _ = 2 ^ lo * (2 ^ w * (v / 2 ^ (lo + w)) + v / 2 ^ lo % 2 ^ w) + v % 2 ^ lo := by rw [h2]
      _ = _ := by simp only [Nat.pow_add, Nat.mul_add, Nat.mul_comm, Nat.add_assoc, Nat.mul_assoc]
  omega

/-- A bit of a register with one field replaced. -/
theorem testBit_setFld (v hi lo x i : Nat) : (setFld v hi lo x).testBit i =
    if lo ≤ i ∧ i < lo + (hi + 1 - lo) then x.testBit (i - lo) else v.testBit i := by
  rw [setFld_eq]
  generalize hi + 1 - lo = w
  have hb : v % 2 ^ lo < 2 ^ lo := Nat.mod_lt _ (Nat.two_pow_pos _)
  have hm : x % 2 ^ w * 2 ^ lo + v % 2 ^ lo < 2 ^ (lo + w) := by
    have : x % 2 ^ w < 2 ^ w := Nat.mod_lt _ (Nat.two_pow_pos _)
    have h2 : x % 2 ^ w * 2 ^ lo + 2 ^ lo ≤ 2 ^ w * 2 ^ lo := by
      calc x % 2 ^ w * 2 ^ lo + 2 ^ lo = (x % 2 ^ w + 1) * 2 ^ lo := (Nat.succ_mul _ _).symm
        _ ≤ 2 ^ w * 2 ^ lo := Nat.mul_le_mul_right _ this
    rw [Nat.pow_add, Nat.mul_comm (2 ^ lo)]; exact Nat.lt_of_lt_of_le (Nat.add_lt_add_left hb _) h2
  rw [Nat.mul_comm (v / 2 ^ (lo + w)), Nat.testBit_two_pow_mul_add _ hm]
  rw [Nat.mul_comm (x % 2 ^ w), Nat.testBit_two_pow_mul_add _ hb]
  split
  · split
    · rename_i h1 h2; rw [if_neg (by omega), Nat.testBit_mod_two_pow]; simp [h2]
    · rw [if_pos (by omega), Nat.testBit_mod_two_pow]
      have h1 : i - lo < w := by omega
      simp [h1]
  · rw [if_neg (by omega), Nat.testBit_div_two_pow]; congr 1; omega

/-- Clearing the bits of a mask by subtraction. -/
theorem testBit_sub_and (a b i : Nat) : (a - (a &&& b)).testBit i = (a.testBit i && !(b.testBit i)) := by
  induction i generalizing a b with
  | zero =>
    have h1 : a &&& b ≤ a := Nat.and_le_left
    have h2 : (a &&& b) % 2 = (a % 2) * (b % 2) := by
      have := @Nat.and_mod_two_eq_one a b
      rcases Nat.mod_two_eq_zero_or_one a with x | x <;> rcases Nat.mod_two_eq_zero_or_one b with y | y <;>
        rcases Nat.mod_two_eq_zero_or_one (a &&& b) with z | z <;> simp_all
    simp only [Nat.testBit_zero]
    rcases Nat.mod_two_eq_zero_or_one a with x | x <;> rcases Nat.mod_two_eq_zero_or_one b with y | y <;>
      simp only [x, y] at h2 <;> simp [x, y] <;> omega
  | succ i ih =>
    have h1 : a &&& b ≤ a := Nat.and_le_left
    have h2 : (a &&& b) / 2 = a / 2 &&& b / 2 := Nat.and_div_two
    have h3 : (a &&& b) % 2 ≤ a % 2 := by
      have := @Nat.and_mod_two_eq_one a b
      rcases Nat.mod_two_eq_zero_or_one a with x | x <;>
        rcases Nat.mod_two_eq_zero_or_one (a &&& b) with z | z <;> simp_all <;> omega
    have h4 : (a - (a &&& b)) / 2 = a / 2 - (a / 2 &&& b / 2) := by rw [← h2]; omega
    rw [Nat.testBit_succ, Nat.testBit_succ, Nat.testBit_succ, h4, ih]

/-- Reading a table after an insertion: the same key. -/
theorem get_insert_same {α : Type} (d : α) (t : Tbl α) (k : Nat) (v : α) : Tbl.get d (Tbl.insert t k v) k = v := by
  induction t with
  | nil => simp [Tbl.insert, Tbl.get]
  | cons p t ih =>
    obtain ⟨k', v'⟩ := p
    simp only [Tbl.insert]
    split
    · simp [Tbl.get]
    · split
      · simp [Tbl.get]
      · rename_i h1 h2
        have : ¬ k' = k := fun h => h2 h.symm
        simp [Tbl.get, this, ih]

/-- Reading a table after an insertion: another key. -/
theorem get_insert_other {α : Type} (d : α) (t : Tbl α) (k j : Nat) (v : α) (h : j ≠ k) :
    Tbl.get d (Tbl.insert t k v) j = Tbl.get d t j := by
  induction t with
  | nil => simp only [Tbl.insert, Tbl.get, if_neg (Ne.symm h)]
  | cons p t ih =>
    obtain ⟨k', v'⟩ := p
    simp only [Tbl.insert]
    split
    · simp only [Tbl.get, if_neg (Ne.symm h)]
    · split
      · rename_i _ e
        subst e
        simp only [Tbl.get, if_neg (Ne.symm h)]
      · simp only [Tbl.get, ih]

/-- Reading a table after an erasure: another key. -/
theorem get_erase_other {α : Type} (d : α) (t : Tbl α) (k j : Nat) (h : j ≠ k) :
    Tbl.get d (Tbl.erase t k) j = Tbl.get d t j := by
  induction t with
  | nil => simp [Tbl.erase]
  | cons p t ih =>
    obtain ⟨k', v'⟩ := p
    simp only [Tbl.erase] at ih ⊢
    by_cases e : k' = k
    · subst e
      simp [Tbl.get, ih]; exact fun e => absurd e.symm h
    · simp [e, Tbl.get, ih]

/-- Reading a table after an erasure: the same key gives the default. -/
theorem get_erase_same {α : Type} (d : α) (t : Tbl α) (k : Nat) : Tbl.get d (Tbl.erase t k) k = d := by
  induction t with
  | nil => simp [Tbl.erase, Tbl.get]
  | cons p t ih =>
    obtain ⟨k', v'⟩ := p
    simp only [Tbl.erase] at ih ⊢
    by_cases e : k' = k
    · subst e; simpa using ih
    · simp [e, Tbl.get, ih]

/-- What is set is what is read. -/
@[simp] theorem get_set_same {α : Type} [DecidableEq α] (d : α) (t : Tbl α) (k : Nat) (v : α) :
    Tbl.get d (Tbl.set d t k v) k = v := by
  unfold Tbl.set
  split
  · rename_i h; rw [get_erase_same, h]
  · exact get_insert_same d t k v

/-- Setting one key leaves every other as it is. -/
theorem get_set_other {α : Type} [DecidableEq α] (d : α) (t : Tbl α) (k j : Nat) (v : α) (h : j ≠ k) :
    Tbl.get d (Tbl.set d t k v) j = Tbl.get d t j := by
  unfold Tbl.set
  split
  · exact get_erase_other d t k j h
  · exact get_insert_other d t k j v h

/-- What is stored is what is read. -/
theorem rawAt_setRaw (s : State) (lo v : Nat) : rawAt (setRaw lo v s) lo = v % 2 ^ 64 := by
  simp [rawAt, setRaw]

/-- A stored image of another register is as it was. -/
theorem rawAt_setRaw_other (s : State) (lo lo' v : Nat) (h : lo' ≠ lo) :
    rawAt (setRaw lo v s) lo' = rawAt s lo' := by
  unfold rawAt setRaw
  by_cases e : resetAt lo' = resetAt lo
  · simp [e, get_set_other _ _ _ _ _ h]
  · dsimp only
    congr 1
    unfold Tbl.set
    split
    · exact get_erase_other _ _ _ _ h
    · exact get_insert_other _ _ _ _ _ h

/-- A register image has 64 bits. -/
theorem rawAt_lt (s : State) (lo : Nat) : rawAt s lo < 2 ^ 64 := by
  unfold rawAt; exact BitVec.isLt _

end Sys2Proof.Laws
end

