-- ==== Sys2Proof/Laws/State.lean ====
section
/-! SUPPORT. One lemma per field and update of the state. -/

namespace Sys2Proof.Laws

open Sys2Proof.Machine

/-! emit -/

@[simp] theorem emit_pending (s : State) (e : Emit) : (emit e s).pending = s.pending := rfl
@[simp] theorem emit_out (s : State) (e : Emit) : (emit e s).out = s.out ++ [e] := rfl
@[simp] theorem emit_free (s : State) (e : Emit) : (emit e s).free = s.free := rfl
@[simp] theorem emit_dts (s : State) (e : Emit) : (emit e s).dts = s.dts := rfl
@[simp] theorem emit_trimAcc (s : State) (e : Emit) : (emit e s).trimAcc = s.trimAcc := rfl
@[simp] theorem emit_regs (s : State) (e : Emit) : (emit e s).regs = s.regs := rfl
@[simp] theorem emit_err (s : State) (e : Emit) : (emit e s).err = s.err := rfl
@[simp] theorem emit_pwr (s : State) (e : Emit) : (emit e s).pwr = s.pwr := rfl
@[simp] theorem emit_boot (s : State) (e : Emit) : (emit e s).boot = s.boot := rfl
@[simp] theorem emit_hif (s : State) (e : Emit) : (emit e s).hif = s.hif := rfl
@[simp] theorem emit_mem (s : State) (e : Emit) : (emit e s).mem = s.mem := rfl
@[simp] theorem emit_fab (s : State) (e : Emit) : (emit e s).fab = s.fab := rfl
@[simp] theorem emit_mov (s : State) (e : Emit) : (emit e s).mov = s.mov := rfl
@[simp] theorem emit_mgp (s : State) (e : Emit) : (emit e s).mgp = s.mgp := rfl
@[simp] theorem emit_elk (s : State) (e : Emit) : (emit e s).elk = s.elk := rfl
@[simp] theorem emit_pgv (s : State) (e : Emit) : (emit e s).pgv = s.pgv := rfl
@[simp] theorem emit_ptu (s : State) (e : Emit) : (emit e s).ptu = s.ptu := rfl
@[simp] theorem emit_sqe (s : State) (e : Emit) : (emit e s).sqe = s.sqe := rfl
@[simp] theorem emit_swe (s : State) (e : Emit) : (emit e s).swe = s.swe := rfl
@[simp] theorem emit_tfu (s : State) (e : Emit) : (emit e s).tfu = s.tfu := rfl
@[simp] theorem emit_fbc (s : State) (e : Emit) : (emit e s).fbc = s.fbc := rfl
@[simp] theorem emit_tmg (s : State) (e : Emit) : (emit e s).tmg = s.tmg := rfl
@[simp] theorem emit_hud (s : State) (e : Emit) : (emit e s).hud = s.hud := rfl
@[simp] theorem emit_mirror (s : State) (e : Emit) : (emit e s).mirror = s.mirror := rfl

/-! setRaw -/

@[simp] theorem setRaw_pending (s : State) (lo v : Nat) : (setRaw lo v s).pending = s.pending := rfl
@[simp] theorem setRaw_out (s : State) (lo v : Nat) : (setRaw lo v s).out = s.out := rfl
@[simp] theorem setRaw_free (s : State) (lo v : Nat) : (setRaw lo v s).free = s.free := rfl
@[simp] theorem setRaw_dts (s : State) (lo v : Nat) : (setRaw lo v s).dts = s.dts := rfl
@[simp] theorem setRaw_trimAcc (s : State) (lo v : Nat) : (setRaw lo v s).trimAcc = s.trimAcc := rfl
@[simp] theorem setRaw_regs (s : State) (lo v : Nat) : (setRaw lo v s).regs =
    Tbl.set (BitVec.ofNat 64 (resetAt lo)) s.regs lo (BitVec.ofNat 64 v) := rfl
@[simp] theorem setRaw_err (s : State) (lo v : Nat) : (setRaw lo v s).err = s.err := rfl
@[simp] theorem setRaw_pwr (s : State) (lo v : Nat) : (setRaw lo v s).pwr = s.pwr := rfl
@[simp] theorem setRaw_boot (s : State) (lo v : Nat) : (setRaw lo v s).boot = s.boot := rfl
@[simp] theorem setRaw_hif (s : State) (lo v : Nat) : (setRaw lo v s).hif = s.hif := rfl
@[simp] theorem setRaw_mem (s : State) (lo v : Nat) : (setRaw lo v s).mem = s.mem := rfl
@[simp] theorem setRaw_fab (s : State) (lo v : Nat) : (setRaw lo v s).fab = s.fab := rfl
@[simp] theorem setRaw_mov (s : State) (lo v : Nat) : (setRaw lo v s).mov = s.mov := rfl
@[simp] theorem setRaw_mgp (s : State) (lo v : Nat) : (setRaw lo v s).mgp = s.mgp := rfl
@[simp] theorem setRaw_elk (s : State) (lo v : Nat) : (setRaw lo v s).elk = s.elk := rfl
@[simp] theorem setRaw_pgv (s : State) (lo v : Nat) : (setRaw lo v s).pgv = s.pgv := rfl
@[simp] theorem setRaw_ptu (s : State) (lo v : Nat) : (setRaw lo v s).ptu = s.ptu := rfl
@[simp] theorem setRaw_sqe (s : State) (lo v : Nat) : (setRaw lo v s).sqe = s.sqe := rfl
@[simp] theorem setRaw_swe (s : State) (lo v : Nat) : (setRaw lo v s).swe = s.swe := rfl
@[simp] theorem setRaw_tfu (s : State) (lo v : Nat) : (setRaw lo v s).tfu = s.tfu := rfl
@[simp] theorem setRaw_fbc (s : State) (lo v : Nat) : (setRaw lo v s).fbc = s.fbc := rfl
@[simp] theorem setRaw_tmg (s : State) (lo v : Nat) : (setRaw lo v s).tmg = s.tmg := rfl
@[simp] theorem setRaw_hud (s : State) (lo v : Nat) : (setRaw lo v s).hud = s.hud := rfl
@[simp] theorem setRaw_mirror (s : State) (lo v : Nat) : (setRaw lo v s).mirror = s.mirror := rfl

/-! updBoot -/

@[simp] theorem updBoot_pending (s : State) (g : Boot → Boot) : (updBoot g s).pending = s.pending := rfl
@[simp] theorem updBoot_out (s : State) (g : Boot → Boot) : (updBoot g s).out = s.out := rfl
@[simp] theorem updBoot_free (s : State) (g : Boot → Boot) : (updBoot g s).free = s.free := rfl
@[simp] theorem updBoot_dts (s : State) (g : Boot → Boot) : (updBoot g s).dts = s.dts := rfl
@[simp] theorem updBoot_trimAcc (s : State) (g : Boot → Boot) : (updBoot g s).trimAcc = s.trimAcc := rfl
@[simp] theorem updBoot_regs (s : State) (g : Boot → Boot) : (updBoot g s).regs = s.regs := rfl
@[simp] theorem updBoot_err (s : State) (g : Boot → Boot) : (updBoot g s).err = s.err := rfl
@[simp] theorem updBoot_pwr (s : State) (g : Boot → Boot) : (updBoot g s).pwr = s.pwr := rfl
@[simp] theorem updBoot_boot (s : State) (g : Boot → Boot) : (updBoot g s).boot = g s.boot := rfl
@[simp] theorem updBoot_hif (s : State) (g : Boot → Boot) : (updBoot g s).hif = s.hif := rfl
@[simp] theorem updBoot_mem (s : State) (g : Boot → Boot) : (updBoot g s).mem = s.mem := rfl
@[simp] theorem updBoot_fab (s : State) (g : Boot → Boot) : (updBoot g s).fab = s.fab := rfl
@[simp] theorem updBoot_mov (s : State) (g : Boot → Boot) : (updBoot g s).mov = s.mov := rfl
@[simp] theorem updBoot_mgp (s : State) (g : Boot → Boot) : (updBoot g s).mgp = s.mgp := rfl
@[simp] theorem updBoot_elk (s : State) (g : Boot → Boot) : (updBoot g s).elk = s.elk := rfl
@[simp] theorem updBoot_pgv (s : State) (g : Boot → Boot) : (updBoot g s).pgv = s.pgv := rfl
@[simp] theorem updBoot_ptu (s : State) (g : Boot → Boot) : (updBoot g s).ptu = s.ptu := rfl
@[simp] theorem updBoot_sqe (s : State) (g : Boot → Boot) : (updBoot g s).sqe = s.sqe := rfl
@[simp] theorem updBoot_swe (s : State) (g : Boot → Boot) : (updBoot g s).swe = s.swe := rfl
@[simp] theorem updBoot_tfu (s : State) (g : Boot → Boot) : (updBoot g s).tfu = s.tfu := rfl
@[simp] theorem updBoot_fbc (s : State) (g : Boot → Boot) : (updBoot g s).fbc = s.fbc := rfl
@[simp] theorem updBoot_tmg (s : State) (g : Boot → Boot) : (updBoot g s).tmg = s.tmg := rfl
@[simp] theorem updBoot_hud (s : State) (g : Boot → Boot) : (updBoot g s).hud = s.hud := rfl
@[simp] theorem updBoot_mirror (s : State) (g : Boot → Boot) : (updBoot g s).mirror = s.mirror := rfl

/-! updErr -/

@[simp] theorem updErr_pending (s : State) (g : ErrUnit → ErrUnit) : (updErr g s).pending = s.pending := rfl
@[simp] theorem updErr_out (s : State) (g : ErrUnit → ErrUnit) : (updErr g s).out = s.out := rfl
@[simp] theorem updErr_free (s : State) (g : ErrUnit → ErrUnit) : (updErr g s).free = s.free := rfl
@[simp] theorem updErr_dts (s : State) (g : ErrUnit → ErrUnit) : (updErr g s).dts = s.dts := rfl
@[simp] theorem updErr_trimAcc (s : State) (g : ErrUnit → ErrUnit) : (updErr g s).trimAcc = s.trimAcc := rfl
@[simp] theorem updErr_regs (s : State) (g : ErrUnit → ErrUnit) : (updErr g s).regs = s.regs := rfl
@[simp] theorem updErr_err (s : State) (g : ErrUnit → ErrUnit) : (updErr g s).err = g s.err := rfl
@[simp] theorem updErr_pwr (s : State) (g : ErrUnit → ErrUnit) : (updErr g s).pwr = s.pwr := rfl
@[simp] theorem updErr_boot (s : State) (g : ErrUnit → ErrUnit) : (updErr g s).boot = s.boot := rfl
@[simp] theorem updErr_hif (s : State) (g : ErrUnit → ErrUnit) : (updErr g s).hif = s.hif := rfl
@[simp] theorem updErr_mem (s : State) (g : ErrUnit → ErrUnit) : (updErr g s).mem = s.mem := rfl
@[simp] theorem updErr_fab (s : State) (g : ErrUnit → ErrUnit) : (updErr g s).fab = s.fab := rfl
@[simp] theorem updErr_mov (s : State) (g : ErrUnit → ErrUnit) : (updErr g s).mov = s.mov := rfl
@[simp] theorem updErr_mgp (s : State) (g : ErrUnit → ErrUnit) : (updErr g s).mgp = s.mgp := rfl
@[simp] theorem updErr_elk (s : State) (g : ErrUnit → ErrUnit) : (updErr g s).elk = s.elk := rfl
@[simp] theorem updErr_pgv (s : State) (g : ErrUnit → ErrUnit) : (updErr g s).pgv = s.pgv := rfl
@[simp] theorem updErr_ptu (s : State) (g : ErrUnit → ErrUnit) : (updErr g s).ptu = s.ptu := rfl
@[simp] theorem updErr_sqe (s : State) (g : ErrUnit → ErrUnit) : (updErr g s).sqe = s.sqe := rfl
@[simp] theorem updErr_swe (s : State) (g : ErrUnit → ErrUnit) : (updErr g s).swe = s.swe := rfl
@[simp] theorem updErr_tfu (s : State) (g : ErrUnit → ErrUnit) : (updErr g s).tfu = s.tfu := rfl
@[simp] theorem updErr_fbc (s : State) (g : ErrUnit → ErrUnit) : (updErr g s).fbc = s.fbc := rfl
@[simp] theorem updErr_tmg (s : State) (g : ErrUnit → ErrUnit) : (updErr g s).tmg = s.tmg := rfl
@[simp] theorem updErr_hud (s : State) (g : ErrUnit → ErrUnit) : (updErr g s).hud = s.hud := rfl
@[simp] theorem updErr_mirror (s : State) (g : ErrUnit → ErrUnit) : (updErr g s).mirror = s.mirror := rfl

/-! updFbc -/

@[simp] theorem updFbc_pending (s : State) (g : Fbc → Fbc) : (updFbc g s).pending = s.pending := rfl
@[simp] theorem updFbc_out (s : State) (g : Fbc → Fbc) : (updFbc g s).out = s.out := rfl
@[simp] theorem updFbc_free (s : State) (g : Fbc → Fbc) : (updFbc g s).free = s.free := rfl
@[simp] theorem updFbc_dts (s : State) (g : Fbc → Fbc) : (updFbc g s).dts = s.dts := rfl
@[simp] theorem updFbc_trimAcc (s : State) (g : Fbc → Fbc) : (updFbc g s).trimAcc = s.trimAcc := rfl
@[simp] theorem updFbc_regs (s : State) (g : Fbc → Fbc) : (updFbc g s).regs = s.regs := rfl
@[simp] theorem updFbc_err (s : State) (g : Fbc → Fbc) : (updFbc g s).err = s.err := rfl
@[simp] theorem updFbc_pwr (s : State) (g : Fbc → Fbc) : (updFbc g s).pwr = s.pwr := rfl
@[simp] theorem updFbc_boot (s : State) (g : Fbc → Fbc) : (updFbc g s).boot = s.boot := rfl
@[simp] theorem updFbc_hif (s : State) (g : Fbc → Fbc) : (updFbc g s).hif = s.hif := rfl
@[simp] theorem updFbc_mem (s : State) (g : Fbc → Fbc) : (updFbc g s).mem = s.mem := rfl
@[simp] theorem updFbc_fab (s : State) (g : Fbc → Fbc) : (updFbc g s).fab = s.fab := rfl
@[simp] theorem updFbc_mov (s : State) (g : Fbc → Fbc) : (updFbc g s).mov = s.mov := rfl
@[simp] theorem updFbc_mgp (s : State) (g : Fbc → Fbc) : (updFbc g s).mgp = s.mgp := rfl
@[simp] theorem updFbc_elk (s : State) (g : Fbc → Fbc) : (updFbc g s).elk = s.elk := rfl
@[simp] theorem updFbc_pgv (s : State) (g : Fbc → Fbc) : (updFbc g s).pgv = s.pgv := rfl
@[simp] theorem updFbc_ptu (s : State) (g : Fbc → Fbc) : (updFbc g s).ptu = s.ptu := rfl
@[simp] theorem updFbc_sqe (s : State) (g : Fbc → Fbc) : (updFbc g s).sqe = s.sqe := rfl
@[simp] theorem updFbc_swe (s : State) (g : Fbc → Fbc) : (updFbc g s).swe = s.swe := rfl
@[simp] theorem updFbc_tfu (s : State) (g : Fbc → Fbc) : (updFbc g s).tfu = s.tfu := rfl
@[simp] theorem updFbc_fbc (s : State) (g : Fbc → Fbc) : (updFbc g s).fbc = g s.fbc := rfl
@[simp] theorem updFbc_tmg (s : State) (g : Fbc → Fbc) : (updFbc g s).tmg = s.tmg := rfl
@[simp] theorem updFbc_hud (s : State) (g : Fbc → Fbc) : (updFbc g s).hud = s.hud := rfl
@[simp] theorem updFbc_mirror (s : State) (g : Fbc → Fbc) : (updFbc g s).mirror = s.mirror := rfl

/-! updHud -/

@[simp] theorem updHud_pending (s : State) (g : Huddle → Huddle) : (updHud g s).pending = s.pending := rfl
@[simp] theorem updHud_out (s : State) (g : Huddle → Huddle) : (updHud g s).out = s.out := rfl
@[simp] theorem updHud_free (s : State) (g : Huddle → Huddle) : (updHud g s).free = s.free := rfl
@[simp] theorem updHud_dts (s : State) (g : Huddle → Huddle) : (updHud g s).dts = s.dts := rfl
@[simp] theorem updHud_trimAcc (s : State) (g : Huddle → Huddle) : (updHud g s).trimAcc = s.trimAcc := rfl
@[simp] theorem updHud_regs (s : State) (g : Huddle → Huddle) : (updHud g s).regs = s.regs := rfl
@[simp] theorem updHud_err (s : State) (g : Huddle → Huddle) : (updHud g s).err = s.err := rfl
@[simp] theorem updHud_pwr (s : State) (g : Huddle → Huddle) : (updHud g s).pwr = s.pwr := rfl
@[simp] theorem updHud_boot (s : State) (g : Huddle → Huddle) : (updHud g s).boot = s.boot := rfl
@[simp] theorem updHud_hif (s : State) (g : Huddle → Huddle) : (updHud g s).hif = s.hif := rfl
@[simp] theorem updHud_mem (s : State) (g : Huddle → Huddle) : (updHud g s).mem = s.mem := rfl
@[simp] theorem updHud_fab (s : State) (g : Huddle → Huddle) : (updHud g s).fab = s.fab := rfl
@[simp] theorem updHud_mov (s : State) (g : Huddle → Huddle) : (updHud g s).mov = s.mov := rfl
@[simp] theorem updHud_mgp (s : State) (g : Huddle → Huddle) : (updHud g s).mgp = s.mgp := rfl
@[simp] theorem updHud_elk (s : State) (g : Huddle → Huddle) : (updHud g s).elk = s.elk := rfl
@[simp] theorem updHud_pgv (s : State) (g : Huddle → Huddle) : (updHud g s).pgv = s.pgv := rfl
@[simp] theorem updHud_ptu (s : State) (g : Huddle → Huddle) : (updHud g s).ptu = s.ptu := rfl
@[simp] theorem updHud_sqe (s : State) (g : Huddle → Huddle) : (updHud g s).sqe = s.sqe := rfl
@[simp] theorem updHud_swe (s : State) (g : Huddle → Huddle) : (updHud g s).swe = s.swe := rfl
@[simp] theorem updHud_tfu (s : State) (g : Huddle → Huddle) : (updHud g s).tfu = s.tfu := rfl
@[simp] theorem updHud_fbc (s : State) (g : Huddle → Huddle) : (updHud g s).fbc = s.fbc := rfl
@[simp] theorem updHud_tmg (s : State) (g : Huddle → Huddle) : (updHud g s).tmg = s.tmg := rfl
@[simp] theorem updHud_hud (s : State) (g : Huddle → Huddle) : (updHud g s).hud = g s.hud := rfl
@[simp] theorem updHud_mirror (s : State) (g : Huddle → Huddle) : (updHud g s).mirror = s.mirror := rfl

/-! updElk -/

@[simp] theorem updElk_pending (s : State) (g : Elk → Elk) : (updElk g s).pending = s.pending := rfl
@[simp] theorem updElk_out (s : State) (g : Elk → Elk) : (updElk g s).out = s.out := rfl
@[simp] theorem updElk_free (s : State) (g : Elk → Elk) : (updElk g s).free = s.free := rfl
@[simp] theorem updElk_dts (s : State) (g : Elk → Elk) : (updElk g s).dts = s.dts := rfl
@[simp] theorem updElk_trimAcc (s : State) (g : Elk → Elk) : (updElk g s).trimAcc = s.trimAcc := rfl
@[simp] theorem updElk_regs (s : State) (g : Elk → Elk) : (updElk g s).regs = s.regs := rfl
@[simp] theorem updElk_err (s : State) (g : Elk → Elk) : (updElk g s).err = s.err := rfl
@[simp] theorem updElk_pwr (s : State) (g : Elk → Elk) : (updElk g s).pwr = s.pwr := rfl
@[simp] theorem updElk_boot (s : State) (g : Elk → Elk) : (updElk g s).boot = s.boot := rfl
@[simp] theorem updElk_hif (s : State) (g : Elk → Elk) : (updElk g s).hif = s.hif := rfl
@[simp] theorem updElk_mem (s : State) (g : Elk → Elk) : (updElk g s).mem = s.mem := rfl
@[simp] theorem updElk_fab (s : State) (g : Elk → Elk) : (updElk g s).fab = s.fab := rfl
@[simp] theorem updElk_mov (s : State) (g : Elk → Elk) : (updElk g s).mov = s.mov := rfl
@[simp] theorem updElk_mgp (s : State) (g : Elk → Elk) : (updElk g s).mgp = s.mgp := rfl
@[simp] theorem updElk_elk (s : State) (g : Elk → Elk) : (updElk g s).elk = g s.elk := rfl
@[simp] theorem updElk_pgv (s : State) (g : Elk → Elk) : (updElk g s).pgv = s.pgv := rfl
@[simp] theorem updElk_ptu (s : State) (g : Elk → Elk) : (updElk g s).ptu = s.ptu := rfl
@[simp] theorem updElk_sqe (s : State) (g : Elk → Elk) : (updElk g s).sqe = s.sqe := rfl
@[simp] theorem updElk_swe (s : State) (g : Elk → Elk) : (updElk g s).swe = s.swe := rfl
@[simp] theorem updElk_tfu (s : State) (g : Elk → Elk) : (updElk g s).tfu = s.tfu := rfl
@[simp] theorem updElk_fbc (s : State) (g : Elk → Elk) : (updElk g s).fbc = s.fbc := rfl
@[simp] theorem updElk_tmg (s : State) (g : Elk → Elk) : (updElk g s).tmg = s.tmg := rfl
@[simp] theorem updElk_hud (s : State) (g : Elk → Elk) : (updElk g s).hud = s.hud := rfl
@[simp] theorem updElk_mirror (s : State) (g : Elk → Elk) : (updElk g s).mirror = s.mirror := rfl

/-! updMov -/

@[simp] theorem updMov_pending (s : State) (g : Movers → Movers) : (updMov g s).pending = s.pending := rfl
@[simp] theorem updMov_out (s : State) (g : Movers → Movers) : (updMov g s).out = s.out := rfl
@[simp] theorem updMov_free (s : State) (g : Movers → Movers) : (updMov g s).free = s.free := rfl
@[simp] theorem updMov_dts (s : State) (g : Movers → Movers) : (updMov g s).dts = s.dts := rfl
@[simp] theorem updMov_trimAcc (s : State) (g : Movers → Movers) : (updMov g s).trimAcc = s.trimAcc := rfl
@[simp] theorem updMov_regs (s : State) (g : Movers → Movers) : (updMov g s).regs = s.regs := rfl
@[simp] theorem updMov_err (s : State) (g : Movers → Movers) : (updMov g s).err = s.err := rfl
@[simp] theorem updMov_pwr (s : State) (g : Movers → Movers) : (updMov g s).pwr = s.pwr := rfl
@[simp] theorem updMov_boot (s : State) (g : Movers → Movers) : (updMov g s).boot = s.boot := rfl
@[simp] theorem updMov_hif (s : State) (g : Movers → Movers) : (updMov g s).hif = s.hif := rfl
@[simp] theorem updMov_mem (s : State) (g : Movers → Movers) : (updMov g s).mem = s.mem := rfl
@[simp] theorem updMov_fab (s : State) (g : Movers → Movers) : (updMov g s).fab = s.fab := rfl
@[simp] theorem updMov_mov (s : State) (g : Movers → Movers) : (updMov g s).mov = g s.mov := rfl
@[simp] theorem updMov_mgp (s : State) (g : Movers → Movers) : (updMov g s).mgp = s.mgp := rfl
@[simp] theorem updMov_elk (s : State) (g : Movers → Movers) : (updMov g s).elk = s.elk := rfl
@[simp] theorem updMov_pgv (s : State) (g : Movers → Movers) : (updMov g s).pgv = s.pgv := rfl
@[simp] theorem updMov_ptu (s : State) (g : Movers → Movers) : (updMov g s).ptu = s.ptu := rfl
@[simp] theorem updMov_sqe (s : State) (g : Movers → Movers) : (updMov g s).sqe = s.sqe := rfl
@[simp] theorem updMov_swe (s : State) (g : Movers → Movers) : (updMov g s).swe = s.swe := rfl
@[simp] theorem updMov_tfu (s : State) (g : Movers → Movers) : (updMov g s).tfu = s.tfu := rfl
@[simp] theorem updMov_fbc (s : State) (g : Movers → Movers) : (updMov g s).fbc = s.fbc := rfl
@[simp] theorem updMov_tmg (s : State) (g : Movers → Movers) : (updMov g s).tmg = s.tmg := rfl
@[simp] theorem updMov_hud (s : State) (g : Movers → Movers) : (updMov g s).hud = s.hud := rfl
@[simp] theorem updMov_mirror (s : State) (g : Movers → Movers) : (updMov g s).mirror = s.mirror := rfl

/-! updPgv -/

@[simp] theorem updPgv_pending (s : State) (g : Pgv → Pgv) : (updPgv g s).pending = s.pending := rfl
@[simp] theorem updPgv_out (s : State) (g : Pgv → Pgv) : (updPgv g s).out = s.out := rfl
@[simp] theorem updPgv_free (s : State) (g : Pgv → Pgv) : (updPgv g s).free = s.free := rfl
@[simp] theorem updPgv_dts (s : State) (g : Pgv → Pgv) : (updPgv g s).dts = s.dts := rfl
@[simp] theorem updPgv_trimAcc (s : State) (g : Pgv → Pgv) : (updPgv g s).trimAcc = s.trimAcc := rfl
@[simp] theorem updPgv_regs (s : State) (g : Pgv → Pgv) : (updPgv g s).regs = s.regs := rfl
@[simp] theorem updPgv_err (s : State) (g : Pgv → Pgv) : (updPgv g s).err = s.err := rfl
@[simp] theorem updPgv_pwr (s : State) (g : Pgv → Pgv) : (updPgv g s).pwr = s.pwr := rfl
@[simp] theorem updPgv_boot (s : State) (g : Pgv → Pgv) : (updPgv g s).boot = s.boot := rfl
@[simp] theorem updPgv_hif (s : State) (g : Pgv → Pgv) : (updPgv g s).hif = s.hif := rfl
@[simp] theorem updPgv_mem (s : State) (g : Pgv → Pgv) : (updPgv g s).mem = s.mem := rfl
@[simp] theorem updPgv_fab (s : State) (g : Pgv → Pgv) : (updPgv g s).fab = s.fab := rfl
@[simp] theorem updPgv_mov (s : State) (g : Pgv → Pgv) : (updPgv g s).mov = s.mov := rfl
@[simp] theorem updPgv_mgp (s : State) (g : Pgv → Pgv) : (updPgv g s).mgp = s.mgp := rfl
@[simp] theorem updPgv_elk (s : State) (g : Pgv → Pgv) : (updPgv g s).elk = s.elk := rfl
@[simp] theorem updPgv_pgv (s : State) (g : Pgv → Pgv) : (updPgv g s).pgv = g s.pgv := rfl
@[simp] theorem updPgv_ptu (s : State) (g : Pgv → Pgv) : (updPgv g s).ptu = s.ptu := rfl
@[simp] theorem updPgv_sqe (s : State) (g : Pgv → Pgv) : (updPgv g s).sqe = s.sqe := rfl
@[simp] theorem updPgv_swe (s : State) (g : Pgv → Pgv) : (updPgv g s).swe = s.swe := rfl
@[simp] theorem updPgv_tfu (s : State) (g : Pgv → Pgv) : (updPgv g s).tfu = s.tfu := rfl
@[simp] theorem updPgv_fbc (s : State) (g : Pgv → Pgv) : (updPgv g s).fbc = s.fbc := rfl
@[simp] theorem updPgv_tmg (s : State) (g : Pgv → Pgv) : (updPgv g s).tmg = s.tmg := rfl
@[simp] theorem updPgv_hud (s : State) (g : Pgv → Pgv) : (updPgv g s).hud = s.hud := rfl
@[simp] theorem updPgv_mirror (s : State) (g : Pgv → Pgv) : (updPgv g s).mirror = s.mirror := rfl

/-! updPwr -/

@[simp] theorem updPwr_pending (s : State) (g : Power → Power) : (updPwr g s).pending = s.pending := rfl
@[simp] theorem updPwr_out (s : State) (g : Power → Power) : (updPwr g s).out = s.out := rfl
@[simp] theorem updPwr_free (s : State) (g : Power → Power) : (updPwr g s).free = s.free := rfl
@[simp] theorem updPwr_dts (s : State) (g : Power → Power) : (updPwr g s).dts = s.dts := rfl
@[simp] theorem updPwr_trimAcc (s : State) (g : Power → Power) : (updPwr g s).trimAcc = s.trimAcc := rfl
@[simp] theorem updPwr_regs (s : State) (g : Power → Power) : (updPwr g s).regs = s.regs := rfl
@[simp] theorem updPwr_err (s : State) (g : Power → Power) : (updPwr g s).err = s.err := rfl
@[simp] theorem updPwr_pwr (s : State) (g : Power → Power) : (updPwr g s).pwr = g s.pwr := rfl
@[simp] theorem updPwr_boot (s : State) (g : Power → Power) : (updPwr g s).boot = s.boot := rfl
@[simp] theorem updPwr_hif (s : State) (g : Power → Power) : (updPwr g s).hif = s.hif := rfl
@[simp] theorem updPwr_mem (s : State) (g : Power → Power) : (updPwr g s).mem = s.mem := rfl
@[simp] theorem updPwr_fab (s : State) (g : Power → Power) : (updPwr g s).fab = s.fab := rfl
@[simp] theorem updPwr_mov (s : State) (g : Power → Power) : (updPwr g s).mov = s.mov := rfl
@[simp] theorem updPwr_mgp (s : State) (g : Power → Power) : (updPwr g s).mgp = s.mgp := rfl
@[simp] theorem updPwr_elk (s : State) (g : Power → Power) : (updPwr g s).elk = s.elk := rfl
@[simp] theorem updPwr_pgv (s : State) (g : Power → Power) : (updPwr g s).pgv = s.pgv := rfl
@[simp] theorem updPwr_ptu (s : State) (g : Power → Power) : (updPwr g s).ptu = s.ptu := rfl
@[simp] theorem updPwr_sqe (s : State) (g : Power → Power) : (updPwr g s).sqe = s.sqe := rfl
@[simp] theorem updPwr_swe (s : State) (g : Power → Power) : (updPwr g s).swe = s.swe := rfl
@[simp] theorem updPwr_tfu (s : State) (g : Power → Power) : (updPwr g s).tfu = s.tfu := rfl
@[simp] theorem updPwr_fbc (s : State) (g : Power → Power) : (updPwr g s).fbc = s.fbc := rfl
@[simp] theorem updPwr_tmg (s : State) (g : Power → Power) : (updPwr g s).tmg = s.tmg := rfl
@[simp] theorem updPwr_hud (s : State) (g : Power → Power) : (updPwr g s).hud = s.hud := rfl
@[simp] theorem updPwr_mirror (s : State) (g : Power → Power) : (updPwr g s).mirror = s.mirror := rfl

/-! updPtu -/

@[simp] theorem updPtu_pending (s : State) (g : Ptu → Ptu) : (updPtu g s).pending = s.pending := rfl
@[simp] theorem updPtu_out (s : State) (g : Ptu → Ptu) : (updPtu g s).out = s.out := rfl
@[simp] theorem updPtu_free (s : State) (g : Ptu → Ptu) : (updPtu g s).free = s.free := rfl
@[simp] theorem updPtu_dts (s : State) (g : Ptu → Ptu) : (updPtu g s).dts = s.dts := rfl
@[simp] theorem updPtu_trimAcc (s : State) (g : Ptu → Ptu) : (updPtu g s).trimAcc = s.trimAcc := rfl
@[simp] theorem updPtu_regs (s : State) (g : Ptu → Ptu) : (updPtu g s).regs = s.regs := rfl
@[simp] theorem updPtu_err (s : State) (g : Ptu → Ptu) : (updPtu g s).err = s.err := rfl
@[simp] theorem updPtu_pwr (s : State) (g : Ptu → Ptu) : (updPtu g s).pwr = s.pwr := rfl
@[simp] theorem updPtu_boot (s : State) (g : Ptu → Ptu) : (updPtu g s).boot = s.boot := rfl
@[simp] theorem updPtu_hif (s : State) (g : Ptu → Ptu) : (updPtu g s).hif = s.hif := rfl
@[simp] theorem updPtu_mem (s : State) (g : Ptu → Ptu) : (updPtu g s).mem = s.mem := rfl
@[simp] theorem updPtu_fab (s : State) (g : Ptu → Ptu) : (updPtu g s).fab = s.fab := rfl
@[simp] theorem updPtu_mov (s : State) (g : Ptu → Ptu) : (updPtu g s).mov = s.mov := rfl
@[simp] theorem updPtu_mgp (s : State) (g : Ptu → Ptu) : (updPtu g s).mgp = s.mgp := rfl
@[simp] theorem updPtu_elk (s : State) (g : Ptu → Ptu) : (updPtu g s).elk = s.elk := rfl
@[simp] theorem updPtu_pgv (s : State) (g : Ptu → Ptu) : (updPtu g s).pgv = s.pgv := rfl
@[simp] theorem updPtu_ptu (s : State) (g : Ptu → Ptu) : (updPtu g s).ptu = g s.ptu := rfl
@[simp] theorem updPtu_sqe (s : State) (g : Ptu → Ptu) : (updPtu g s).sqe = s.sqe := rfl
@[simp] theorem updPtu_swe (s : State) (g : Ptu → Ptu) : (updPtu g s).swe = s.swe := rfl
@[simp] theorem updPtu_tfu (s : State) (g : Ptu → Ptu) : (updPtu g s).tfu = s.tfu := rfl
@[simp] theorem updPtu_fbc (s : State) (g : Ptu → Ptu) : (updPtu g s).fbc = s.fbc := rfl
@[simp] theorem updPtu_tmg (s : State) (g : Ptu → Ptu) : (updPtu g s).tmg = s.tmg := rfl
@[simp] theorem updPtu_hud (s : State) (g : Ptu → Ptu) : (updPtu g s).hud = s.hud := rfl
@[simp] theorem updPtu_mirror (s : State) (g : Ptu → Ptu) : (updPtu g s).mirror = s.mirror := rfl

/-! updHif -/

@[simp] theorem updHif_pending (s : State) (g : Hif → Hif) : (updHif g s).pending = s.pending := rfl
@[simp] theorem updHif_out (s : State) (g : Hif → Hif) : (updHif g s).out = s.out := rfl
@[simp] theorem updHif_free (s : State) (g : Hif → Hif) : (updHif g s).free = s.free := rfl
@[simp] theorem updHif_dts (s : State) (g : Hif → Hif) : (updHif g s).dts = s.dts := rfl
@[simp] theorem updHif_trimAcc (s : State) (g : Hif → Hif) : (updHif g s).trimAcc = s.trimAcc := rfl
@[simp] theorem updHif_regs (s : State) (g : Hif → Hif) : (updHif g s).regs = s.regs := rfl
@[simp] theorem updHif_err (s : State) (g : Hif → Hif) : (updHif g s).err = s.err := rfl
@[simp] theorem updHif_pwr (s : State) (g : Hif → Hif) : (updHif g s).pwr = s.pwr := rfl
@[simp] theorem updHif_boot (s : State) (g : Hif → Hif) : (updHif g s).boot = s.boot := rfl
@[simp] theorem updHif_hif (s : State) (g : Hif → Hif) : (updHif g s).hif = g s.hif := rfl
@[simp] theorem updHif_mem (s : State) (g : Hif → Hif) : (updHif g s).mem = s.mem := rfl
@[simp] theorem updHif_fab (s : State) (g : Hif → Hif) : (updHif g s).fab = s.fab := rfl
@[simp] theorem updHif_mov (s : State) (g : Hif → Hif) : (updHif g s).mov = s.mov := rfl
@[simp] theorem updHif_mgp (s : State) (g : Hif → Hif) : (updHif g s).mgp = s.mgp := rfl
@[simp] theorem updHif_elk (s : State) (g : Hif → Hif) : (updHif g s).elk = s.elk := rfl
@[simp] theorem updHif_pgv (s : State) (g : Hif → Hif) : (updHif g s).pgv = s.pgv := rfl
@[simp] theorem updHif_ptu (s : State) (g : Hif → Hif) : (updHif g s).ptu = s.ptu := rfl
@[simp] theorem updHif_sqe (s : State) (g : Hif → Hif) : (updHif g s).sqe = s.sqe := rfl
@[simp] theorem updHif_swe (s : State) (g : Hif → Hif) : (updHif g s).swe = s.swe := rfl
@[simp] theorem updHif_tfu (s : State) (g : Hif → Hif) : (updHif g s).tfu = s.tfu := rfl
@[simp] theorem updHif_fbc (s : State) (g : Hif → Hif) : (updHif g s).fbc = s.fbc := rfl
@[simp] theorem updHif_tmg (s : State) (g : Hif → Hif) : (updHif g s).tmg = s.tmg := rfl
@[simp] theorem updHif_hud (s : State) (g : Hif → Hif) : (updHif g s).hud = s.hud := rfl
@[simp] theorem updHif_mirror (s : State) (g : Hif → Hif) : (updHif g s).mirror = s.mirror := rfl

/-! updSqe -/

@[simp] theorem updSqe_pending (s : State) (g : Sqe → Sqe) : (updSqe g s).pending = s.pending := rfl
@[simp] theorem updSqe_out (s : State) (g : Sqe → Sqe) : (updSqe g s).out = s.out := rfl
@[simp] theorem updSqe_free (s : State) (g : Sqe → Sqe) : (updSqe g s).free = s.free := rfl
@[simp] theorem updSqe_dts (s : State) (g : Sqe → Sqe) : (updSqe g s).dts = s.dts := rfl
@[simp] theorem updSqe_trimAcc (s : State) (g : Sqe → Sqe) : (updSqe g s).trimAcc = s.trimAcc := rfl
@[simp] theorem updSqe_regs (s : State) (g : Sqe → Sqe) : (updSqe g s).regs = s.regs := rfl
@[simp] theorem updSqe_err (s : State) (g : Sqe → Sqe) : (updSqe g s).err = s.err := rfl
@[simp] theorem updSqe_pwr (s : State) (g : Sqe → Sqe) : (updSqe g s).pwr = s.pwr := rfl
@[simp] theorem updSqe_boot (s : State) (g : Sqe → Sqe) : (updSqe g s).boot = s.boot := rfl
@[simp] theorem updSqe_hif (s : State) (g : Sqe → Sqe) : (updSqe g s).hif = s.hif := rfl
@[simp] theorem updSqe_mem (s : State) (g : Sqe → Sqe) : (updSqe g s).mem = s.mem := rfl
@[simp] theorem updSqe_fab (s : State) (g : Sqe → Sqe) : (updSqe g s).fab = s.fab := rfl
@[simp] theorem updSqe_mov (s : State) (g : Sqe → Sqe) : (updSqe g s).mov = s.mov := rfl
@[simp] theorem updSqe_mgp (s : State) (g : Sqe → Sqe) : (updSqe g s).mgp = s.mgp := rfl
@[simp] theorem updSqe_elk (s : State) (g : Sqe → Sqe) : (updSqe g s).elk = s.elk := rfl
@[simp] theorem updSqe_pgv (s : State) (g : Sqe → Sqe) : (updSqe g s).pgv = s.pgv := rfl
@[simp] theorem updSqe_ptu (s : State) (g : Sqe → Sqe) : (updSqe g s).ptu = s.ptu := rfl
@[simp] theorem updSqe_sqe (s : State) (g : Sqe → Sqe) : (updSqe g s).sqe = g s.sqe := rfl
@[simp] theorem updSqe_swe (s : State) (g : Sqe → Sqe) : (updSqe g s).swe = s.swe := rfl
@[simp] theorem updSqe_tfu (s : State) (g : Sqe → Sqe) : (updSqe g s).tfu = s.tfu := rfl
@[simp] theorem updSqe_fbc (s : State) (g : Sqe → Sqe) : (updSqe g s).fbc = s.fbc := rfl
@[simp] theorem updSqe_tmg (s : State) (g : Sqe → Sqe) : (updSqe g s).tmg = s.tmg := rfl
@[simp] theorem updSqe_hud (s : State) (g : Sqe → Sqe) : (updSqe g s).hud = s.hud := rfl
@[simp] theorem updSqe_mirror (s : State) (g : Sqe → Sqe) : (updSqe g s).mirror = s.mirror := rfl

/-! updTfu -/

@[simp] theorem updTfu_pending (s : State) (g : Tfu → Tfu) : (updTfu g s).pending = s.pending := rfl
@[simp] theorem updTfu_out (s : State) (g : Tfu → Tfu) : (updTfu g s).out = s.out := rfl
@[simp] theorem updTfu_free (s : State) (g : Tfu → Tfu) : (updTfu g s).free = s.free := rfl
@[simp] theorem updTfu_dts (s : State) (g : Tfu → Tfu) : (updTfu g s).dts = s.dts := rfl
@[simp] theorem updTfu_trimAcc (s : State) (g : Tfu → Tfu) : (updTfu g s).trimAcc = s.trimAcc := rfl
@[simp] theorem updTfu_regs (s : State) (g : Tfu → Tfu) : (updTfu g s).regs = s.regs := rfl
@[simp] theorem updTfu_err (s : State) (g : Tfu → Tfu) : (updTfu g s).err = s.err := rfl
@[simp] theorem updTfu_pwr (s : State) (g : Tfu → Tfu) : (updTfu g s).pwr = s.pwr := rfl
@[simp] theorem updTfu_boot (s : State) (g : Tfu → Tfu) : (updTfu g s).boot = s.boot := rfl
@[simp] theorem updTfu_hif (s : State) (g : Tfu → Tfu) : (updTfu g s).hif = s.hif := rfl
@[simp] theorem updTfu_mem (s : State) (g : Tfu → Tfu) : (updTfu g s).mem = s.mem := rfl
@[simp] theorem updTfu_fab (s : State) (g : Tfu → Tfu) : (updTfu g s).fab = s.fab := rfl
@[simp] theorem updTfu_mov (s : State) (g : Tfu → Tfu) : (updTfu g s).mov = s.mov := rfl
@[simp] theorem updTfu_mgp (s : State) (g : Tfu → Tfu) : (updTfu g s).mgp = s.mgp := rfl
@[simp] theorem updTfu_elk (s : State) (g : Tfu → Tfu) : (updTfu g s).elk = s.elk := rfl
@[simp] theorem updTfu_pgv (s : State) (g : Tfu → Tfu) : (updTfu g s).pgv = s.pgv := rfl
@[simp] theorem updTfu_ptu (s : State) (g : Tfu → Tfu) : (updTfu g s).ptu = s.ptu := rfl
@[simp] theorem updTfu_sqe (s : State) (g : Tfu → Tfu) : (updTfu g s).sqe = s.sqe := rfl
@[simp] theorem updTfu_swe (s : State) (g : Tfu → Tfu) : (updTfu g s).swe = s.swe := rfl
@[simp] theorem updTfu_tfu (s : State) (g : Tfu → Tfu) : (updTfu g s).tfu = g s.tfu := rfl
@[simp] theorem updTfu_fbc (s : State) (g : Tfu → Tfu) : (updTfu g s).fbc = s.fbc := rfl
@[simp] theorem updTfu_tmg (s : State) (g : Tfu → Tfu) : (updTfu g s).tmg = s.tmg := rfl
@[simp] theorem updTfu_hud (s : State) (g : Tfu → Tfu) : (updTfu g s).hud = s.hud := rfl
@[simp] theorem updTfu_mirror (s : State) (g : Tfu → Tfu) : (updTfu g s).mirror = s.mirror := rfl

/-! updFab -/

@[simp] theorem updFab_pending (s : State) (g : Fabric → Fabric) : (updFab g s).pending = s.pending := rfl
@[simp] theorem updFab_out (s : State) (g : Fabric → Fabric) : (updFab g s).out = s.out := rfl
@[simp] theorem updFab_free (s : State) (g : Fabric → Fabric) : (updFab g s).free = s.free := rfl
@[simp] theorem updFab_dts (s : State) (g : Fabric → Fabric) : (updFab g s).dts = s.dts := rfl
@[simp] theorem updFab_trimAcc (s : State) (g : Fabric → Fabric) : (updFab g s).trimAcc = s.trimAcc := rfl
@[simp] theorem updFab_regs (s : State) (g : Fabric → Fabric) : (updFab g s).regs = s.regs := rfl
@[simp] theorem updFab_err (s : State) (g : Fabric → Fabric) : (updFab g s).err = s.err := rfl
@[simp] theorem updFab_pwr (s : State) (g : Fabric → Fabric) : (updFab g s).pwr = s.pwr := rfl
@[simp] theorem updFab_boot (s : State) (g : Fabric → Fabric) : (updFab g s).boot = s.boot := rfl
@[simp] theorem updFab_hif (s : State) (g : Fabric → Fabric) : (updFab g s).hif = s.hif := rfl
@[simp] theorem updFab_mem (s : State) (g : Fabric → Fabric) : (updFab g s).mem = s.mem := rfl
@[simp] theorem updFab_fab (s : State) (g : Fabric → Fabric) : (updFab g s).fab = g s.fab := rfl
@[simp] theorem updFab_mov (s : State) (g : Fabric → Fabric) : (updFab g s).mov = s.mov := rfl
@[simp] theorem updFab_mgp (s : State) (g : Fabric → Fabric) : (updFab g s).mgp = s.mgp := rfl
@[simp] theorem updFab_elk (s : State) (g : Fabric → Fabric) : (updFab g s).elk = s.elk := rfl
@[simp] theorem updFab_pgv (s : State) (g : Fabric → Fabric) : (updFab g s).pgv = s.pgv := rfl
@[simp] theorem updFab_ptu (s : State) (g : Fabric → Fabric) : (updFab g s).ptu = s.ptu := rfl
@[simp] theorem updFab_sqe (s : State) (g : Fabric → Fabric) : (updFab g s).sqe = s.sqe := rfl
@[simp] theorem updFab_swe (s : State) (g : Fabric → Fabric) : (updFab g s).swe = s.swe := rfl
@[simp] theorem updFab_tfu (s : State) (g : Fabric → Fabric) : (updFab g s).tfu = s.tfu := rfl
@[simp] theorem updFab_fbc (s : State) (g : Fabric → Fabric) : (updFab g s).fbc = s.fbc := rfl
@[simp] theorem updFab_tmg (s : State) (g : Fabric → Fabric) : (updFab g s).tmg = s.tmg := rfl
@[simp] theorem updFab_hud (s : State) (g : Fabric → Fabric) : (updFab g s).hud = s.hud := rfl
@[simp] theorem updFab_mirror (s : State) (g : Fabric → Fabric) : (updFab g s).mirror = s.mirror := rfl

/-! updMgp -/

@[simp] theorem updMgp_pending (s : State) (g : Mgp → Mgp) : (updMgp g s).pending = s.pending := rfl
@[simp] theorem updMgp_out (s : State) (g : Mgp → Mgp) : (updMgp g s).out = s.out := rfl
@[simp] theorem updMgp_free (s : State) (g : Mgp → Mgp) : (updMgp g s).free = s.free := rfl
@[simp] theorem updMgp_dts (s : State) (g : Mgp → Mgp) : (updMgp g s).dts = s.dts := rfl
@[simp] theorem updMgp_trimAcc (s : State) (g : Mgp → Mgp) : (updMgp g s).trimAcc = s.trimAcc := rfl
@[simp] theorem updMgp_regs (s : State) (g : Mgp → Mgp) : (updMgp g s).regs = s.regs := rfl
@[simp] theorem updMgp_err (s : State) (g : Mgp → Mgp) : (updMgp g s).err = s.err := rfl
@[simp] theorem updMgp_pwr (s : State) (g : Mgp → Mgp) : (updMgp g s).pwr = s.pwr := rfl
@[simp] theorem updMgp_boot (s : State) (g : Mgp → Mgp) : (updMgp g s).boot = s.boot := rfl
@[simp] theorem updMgp_hif (s : State) (g : Mgp → Mgp) : (updMgp g s).hif = s.hif := rfl
@[simp] theorem updMgp_mem (s : State) (g : Mgp → Mgp) : (updMgp g s).mem = s.mem := rfl
@[simp] theorem updMgp_fab (s : State) (g : Mgp → Mgp) : (updMgp g s).fab = s.fab := rfl
@[simp] theorem updMgp_mov (s : State) (g : Mgp → Mgp) : (updMgp g s).mov = s.mov := rfl
@[simp] theorem updMgp_mgp (s : State) (g : Mgp → Mgp) : (updMgp g s).mgp = g s.mgp := rfl
@[simp] theorem updMgp_elk (s : State) (g : Mgp → Mgp) : (updMgp g s).elk = s.elk := rfl
@[simp] theorem updMgp_pgv (s : State) (g : Mgp → Mgp) : (updMgp g s).pgv = s.pgv := rfl
@[simp] theorem updMgp_ptu (s : State) (g : Mgp → Mgp) : (updMgp g s).ptu = s.ptu := rfl
@[simp] theorem updMgp_sqe (s : State) (g : Mgp → Mgp) : (updMgp g s).sqe = s.sqe := rfl
@[simp] theorem updMgp_swe (s : State) (g : Mgp → Mgp) : (updMgp g s).swe = s.swe := rfl
@[simp] theorem updMgp_tfu (s : State) (g : Mgp → Mgp) : (updMgp g s).tfu = s.tfu := rfl
@[simp] theorem updMgp_fbc (s : State) (g : Mgp → Mgp) : (updMgp g s).fbc = s.fbc := rfl
@[simp] theorem updMgp_tmg (s : State) (g : Mgp → Mgp) : (updMgp g s).tmg = s.tmg := rfl
@[simp] theorem updMgp_hud (s : State) (g : Mgp → Mgp) : (updMgp g s).hud = s.hud := rfl
@[simp] theorem updMgp_mirror (s : State) (g : Mgp → Mgp) : (updMgp g s).mirror = s.mirror := rfl

/-! updTmg -/

@[simp] theorem updTmg_pending (s : State) (g : Tmg → Tmg) : (updTmg g s).pending = s.pending := rfl
@[simp] theorem updTmg_out (s : State) (g : Tmg → Tmg) : (updTmg g s).out = s.out := rfl
@[simp] theorem updTmg_free (s : State) (g : Tmg → Tmg) : (updTmg g s).free = s.free := rfl
@[simp] theorem updTmg_dts (s : State) (g : Tmg → Tmg) : (updTmg g s).dts = s.dts := rfl
@[simp] theorem updTmg_trimAcc (s : State) (g : Tmg → Tmg) : (updTmg g s).trimAcc = s.trimAcc := rfl
@[simp] theorem updTmg_regs (s : State) (g : Tmg → Tmg) : (updTmg g s).regs = s.regs := rfl
@[simp] theorem updTmg_err (s : State) (g : Tmg → Tmg) : (updTmg g s).err = s.err := rfl
@[simp] theorem updTmg_pwr (s : State) (g : Tmg → Tmg) : (updTmg g s).pwr = s.pwr := rfl
@[simp] theorem updTmg_boot (s : State) (g : Tmg → Tmg) : (updTmg g s).boot = s.boot := rfl
@[simp] theorem updTmg_hif (s : State) (g : Tmg → Tmg) : (updTmg g s).hif = s.hif := rfl
@[simp] theorem updTmg_mem (s : State) (g : Tmg → Tmg) : (updTmg g s).mem = s.mem := rfl
@[simp] theorem updTmg_fab (s : State) (g : Tmg → Tmg) : (updTmg g s).fab = s.fab := rfl
@[simp] theorem updTmg_mov (s : State) (g : Tmg → Tmg) : (updTmg g s).mov = s.mov := rfl
@[simp] theorem updTmg_mgp (s : State) (g : Tmg → Tmg) : (updTmg g s).mgp = s.mgp := rfl
@[simp] theorem updTmg_elk (s : State) (g : Tmg → Tmg) : (updTmg g s).elk = s.elk := rfl
@[simp] theorem updTmg_pgv (s : State) (g : Tmg → Tmg) : (updTmg g s).pgv = s.pgv := rfl
@[simp] theorem updTmg_ptu (s : State) (g : Tmg → Tmg) : (updTmg g s).ptu = s.ptu := rfl
@[simp] theorem updTmg_sqe (s : State) (g : Tmg → Tmg) : (updTmg g s).sqe = s.sqe := rfl
@[simp] theorem updTmg_swe (s : State) (g : Tmg → Tmg) : (updTmg g s).swe = s.swe := rfl
@[simp] theorem updTmg_tfu (s : State) (g : Tmg → Tmg) : (updTmg g s).tfu = s.tfu := rfl
@[simp] theorem updTmg_fbc (s : State) (g : Tmg → Tmg) : (updTmg g s).fbc = s.fbc := rfl
@[simp] theorem updTmg_tmg (s : State) (g : Tmg → Tmg) : (updTmg g s).tmg = g s.tmg := rfl
@[simp] theorem updTmg_hud (s : State) (g : Tmg → Tmg) : (updTmg g s).hud = s.hud := rfl
@[simp] theorem updTmg_mirror (s : State) (g : Tmg → Tmg) : (updTmg g s).mirror = s.mirror := rfl

/-! updGrid -/

@[simp] theorem updGrid_pending (s : State) (i : Nat) (g : Grid → Grid) : (updGrid i g s).pending = s.pending := rfl
@[simp] theorem updGrid_out (s : State) (i : Nat) (g : Grid → Grid) : (updGrid i g s).out = s.out := rfl
@[simp] theorem updGrid_free (s : State) (i : Nat) (g : Grid → Grid) : (updGrid i g s).free = s.free := rfl
@[simp] theorem updGrid_dts (s : State) (i : Nat) (g : Grid → Grid) : (updGrid i g s).dts = s.dts := rfl
@[simp] theorem updGrid_trimAcc (s : State) (i : Nat) (g : Grid → Grid) : (updGrid i g s).trimAcc = s.trimAcc := rfl
@[simp] theorem updGrid_regs (s : State) (i : Nat) (g : Grid → Grid) : (updGrid i g s).regs = s.regs := rfl
@[simp] theorem updGrid_err (s : State) (i : Nat) (g : Grid → Grid) : (updGrid i g s).err = s.err := rfl
@[simp] theorem updGrid_pwr (s : State) (i : Nat) (g : Grid → Grid) : (updGrid i g s).pwr = s.pwr := rfl
@[simp] theorem updGrid_boot (s : State) (i : Nat) (g : Grid → Grid) : (updGrid i g s).boot = s.boot := rfl
@[simp] theorem updGrid_hif (s : State) (i : Nat) (g : Grid → Grid) : (updGrid i g s).hif = s.hif := rfl
@[simp] theorem updGrid_mem (s : State) (i : Nat) (g : Grid → Grid) : (updGrid i g s).mem = s.mem := rfl
@[simp] theorem updGrid_fab (s : State) (i : Nat) (g : Grid → Grid) : (updGrid i g s).fab =
    { s.fab with grids := Tbl.upd {} s.fab.grids i g } := rfl
@[simp] theorem updGrid_mov (s : State) (i : Nat) (g : Grid → Grid) : (updGrid i g s).mov = s.mov := rfl
@[simp] theorem updGrid_mgp (s : State) (i : Nat) (g : Grid → Grid) : (updGrid i g s).mgp = s.mgp := rfl
@[simp] theorem updGrid_elk (s : State) (i : Nat) (g : Grid → Grid) : (updGrid i g s).elk = s.elk := rfl
@[simp] theorem updGrid_pgv (s : State) (i : Nat) (g : Grid → Grid) : (updGrid i g s).pgv = s.pgv := rfl
@[simp] theorem updGrid_ptu (s : State) (i : Nat) (g : Grid → Grid) : (updGrid i g s).ptu = s.ptu := rfl
@[simp] theorem updGrid_sqe (s : State) (i : Nat) (g : Grid → Grid) : (updGrid i g s).sqe = s.sqe := rfl
@[simp] theorem updGrid_swe (s : State) (i : Nat) (g : Grid → Grid) : (updGrid i g s).swe = s.swe := rfl
@[simp] theorem updGrid_tfu (s : State) (i : Nat) (g : Grid → Grid) : (updGrid i g s).tfu = s.tfu := rfl
@[simp] theorem updGrid_fbc (s : State) (i : Nat) (g : Grid → Grid) : (updGrid i g s).fbc = s.fbc := rfl
@[simp] theorem updGrid_tmg (s : State) (i : Nat) (g : Grid → Grid) : (updGrid i g s).tmg = s.tmg := rfl
@[simp] theorem updGrid_hud (s : State) (i : Nat) (g : Grid → Grid) : (updGrid i g s).hud = s.hud := rfl
@[simp] theorem updGrid_mirror (s : State) (i : Nat) (g : Grid → Grid) : (updGrid i g s).mirror = s.mirror := rfl

/-! updChip -/

@[simp] theorem updChip_pending (s : State) (i : Nat) (g : ChipRep → ChipRep) : (updChip i g s).pending =
    s.pending := rfl
@[simp] theorem updChip_out (s : State) (i : Nat) (g : ChipRep → ChipRep) : (updChip i g s).out = s.out := rfl
@[simp] theorem updChip_free (s : State) (i : Nat) (g : ChipRep → ChipRep) : (updChip i g s).free = s.free := rfl
@[simp] theorem updChip_dts (s : State) (i : Nat) (g : ChipRep → ChipRep) : (updChip i g s).dts = s.dts := rfl
@[simp] theorem updChip_trimAcc (s : State) (i : Nat) (g : ChipRep → ChipRep) : (updChip i g s).trimAcc =
    s.trimAcc := rfl
@[simp] theorem updChip_regs (s : State) (i : Nat) (g : ChipRep → ChipRep) : (updChip i g s).regs = s.regs := rfl
@[simp] theorem updChip_err (s : State) (i : Nat) (g : ChipRep → ChipRep) : (updChip i g s).err = s.err := rfl
@[simp] theorem updChip_pwr (s : State) (i : Nat) (g : ChipRep → ChipRep) : (updChip i g s).pwr = s.pwr := rfl
@[simp] theorem updChip_boot (s : State) (i : Nat) (g : ChipRep → ChipRep) : (updChip i g s).boot = s.boot := rfl
@[simp] theorem updChip_hif (s : State) (i : Nat) (g : ChipRep → ChipRep) : (updChip i g s).hif = s.hif := rfl
@[simp] theorem updChip_mem (s : State) (i : Nat) (g : ChipRep → ChipRep) : (updChip i g s).mem = s.mem := rfl
@[simp] theorem updChip_fab (s : State) (i : Nat) (g : ChipRep → ChipRep) : (updChip i g s).fab = s.fab := rfl
@[simp] theorem updChip_mov (s : State) (i : Nat) (g : ChipRep → ChipRep) : (updChip i g s).mov = s.mov := rfl
@[simp] theorem updChip_mgp (s : State) (i : Nat) (g : ChipRep → ChipRep) : (updChip i g s).mgp = s.mgp := rfl
@[simp] theorem updChip_elk (s : State) (i : Nat) (g : ChipRep → ChipRep) : (updChip i g s).elk = s.elk := rfl
@[simp] theorem updChip_pgv (s : State) (i : Nat) (g : ChipRep → ChipRep) : (updChip i g s).pgv = s.pgv := rfl
@[simp] theorem updChip_ptu (s : State) (i : Nat) (g : ChipRep → ChipRep) : (updChip i g s).ptu = s.ptu := rfl
@[simp] theorem updChip_sqe (s : State) (i : Nat) (g : ChipRep → ChipRep) : (updChip i g s).sqe = s.sqe := rfl
@[simp] theorem updChip_swe (s : State) (i : Nat) (g : ChipRep → ChipRep) : (updChip i g s).swe = s.swe := rfl
@[simp] theorem updChip_tfu (s : State) (i : Nat) (g : ChipRep → ChipRep) : (updChip i g s).tfu = s.tfu := rfl
@[simp] theorem updChip_fbc (s : State) (i : Nat) (g : ChipRep → ChipRep) : (updChip i g s).fbc = s.fbc := rfl
@[simp] theorem updChip_tmg (s : State) (i : Nat) (g : ChipRep → ChipRep) : (updChip i g s).tmg = s.tmg := rfl
@[simp] theorem updChip_hud (s : State) (i : Nat) (g : ChipRep → ChipRep) : (updChip i g s).hud =
    { s.hud with chips := Tbl.upd {} s.hud.chips i g } := rfl
@[simp] theorem updChip_mirror (s : State) (i : Nat) (g : ChipRep → ChipRep) : (updChip i g s).mirror = s.mirror := rfl

/-! updPort -/

@[simp] theorem updPort_pending (s : State) (i : Nat) (g : Port → Port) : (updPort i g s).pending = s.pending := rfl
@[simp] theorem updPort_out (s : State) (i : Nat) (g : Port → Port) : (updPort i g s).out = s.out := rfl
@[simp] theorem updPort_free (s : State) (i : Nat) (g : Port → Port) : (updPort i g s).free = s.free := rfl
@[simp] theorem updPort_dts (s : State) (i : Nat) (g : Port → Port) : (updPort i g s).dts = s.dts := rfl
@[simp] theorem updPort_trimAcc (s : State) (i : Nat) (g : Port → Port) : (updPort i g s).trimAcc = s.trimAcc := rfl
@[simp] theorem updPort_regs (s : State) (i : Nat) (g : Port → Port) : (updPort i g s).regs = s.regs := rfl
@[simp] theorem updPort_err (s : State) (i : Nat) (g : Port → Port) : (updPort i g s).err = s.err := rfl
@[simp] theorem updPort_pwr (s : State) (i : Nat) (g : Port → Port) : (updPort i g s).pwr = s.pwr := rfl
@[simp] theorem updPort_boot (s : State) (i : Nat) (g : Port → Port) : (updPort i g s).boot = s.boot := rfl
@[simp] theorem updPort_hif (s : State) (i : Nat) (g : Port → Port) : (updPort i g s).hif = s.hif := rfl
@[simp] theorem updPort_mem (s : State) (i : Nat) (g : Port → Port) : (updPort i g s).mem = s.mem := rfl
@[simp] theorem updPort_fab (s : State) (i : Nat) (g : Port → Port) : (updPort i g s).fab = s.fab := rfl
@[simp] theorem updPort_mov (s : State) (i : Nat) (g : Port → Port) : (updPort i g s).mov = s.mov := rfl
@[simp] theorem updPort_mgp (s : State) (i : Nat) (g : Port → Port) : (updPort i g s).mgp = s.mgp := rfl
@[simp] theorem updPort_elk (s : State) (i : Nat) (g : Port → Port) : (updPort i g s).elk =
    { s.elk with ports := Tbl.upd {} s.elk.ports i g } := rfl
@[simp] theorem updPort_pgv (s : State) (i : Nat) (g : Port → Port) : (updPort i g s).pgv = s.pgv := rfl
@[simp] theorem updPort_ptu (s : State) (i : Nat) (g : Port → Port) : (updPort i g s).ptu = s.ptu := rfl
@[simp] theorem updPort_sqe (s : State) (i : Nat) (g : Port → Port) : (updPort i g s).sqe = s.sqe := rfl
@[simp] theorem updPort_swe (s : State) (i : Nat) (g : Port → Port) : (updPort i g s).swe = s.swe := rfl
@[simp] theorem updPort_tfu (s : State) (i : Nat) (g : Port → Port) : (updPort i g s).tfu = s.tfu := rfl
@[simp] theorem updPort_fbc (s : State) (i : Nat) (g : Port → Port) : (updPort i g s).fbc = s.fbc := rfl
@[simp] theorem updPort_tmg (s : State) (i : Nat) (g : Port → Port) : (updPort i g s).tmg = s.tmg := rfl
@[simp] theorem updPort_hud (s : State) (i : Nat) (g : Port → Port) : (updPort i g s).hud = s.hud := rfl
@[simp] theorem updPort_mirror (s : State) (i : Nat) (g : Port → Port) : (updPort i g s).mirror = s.mirror := rfl

/-! updRoute -/

@[simp] theorem updRoute_pending (s : State) (i : Nat) (g : Route → Route) : (updRoute i g s).pending = s.pending := rfl
@[simp] theorem updRoute_out (s : State) (i : Nat) (g : Route → Route) : (updRoute i g s).out = s.out := rfl
@[simp] theorem updRoute_free (s : State) (i : Nat) (g : Route → Route) : (updRoute i g s).free = s.free := rfl
@[simp] theorem updRoute_dts (s : State) (i : Nat) (g : Route → Route) : (updRoute i g s).dts = s.dts := rfl
@[simp] theorem updRoute_trimAcc (s : State) (i : Nat) (g : Route → Route) : (updRoute i g s).trimAcc = s.trimAcc := rfl
@[simp] theorem updRoute_regs (s : State) (i : Nat) (g : Route → Route) : (updRoute i g s).regs = s.regs := rfl
@[simp] theorem updRoute_err (s : State) (i : Nat) (g : Route → Route) : (updRoute i g s).err = s.err := rfl
@[simp] theorem updRoute_pwr (s : State) (i : Nat) (g : Route → Route) : (updRoute i g s).pwr = s.pwr := rfl
@[simp] theorem updRoute_boot (s : State) (i : Nat) (g : Route → Route) : (updRoute i g s).boot = s.boot := rfl
@[simp] theorem updRoute_hif (s : State) (i : Nat) (g : Route → Route) : (updRoute i g s).hif = s.hif := rfl
@[simp] theorem updRoute_mem (s : State) (i : Nat) (g : Route → Route) : (updRoute i g s).mem = s.mem := rfl
@[simp] theorem updRoute_fab (s : State) (i : Nat) (g : Route → Route) : (updRoute i g s).fab = s.fab := rfl
@[simp] theorem updRoute_mov (s : State) (i : Nat) (g : Route → Route) : (updRoute i g s).mov = s.mov := rfl
@[simp] theorem updRoute_mgp (s : State) (i : Nat) (g : Route → Route) : (updRoute i g s).mgp = s.mgp := rfl
@[simp] theorem updRoute_elk (s : State) (i : Nat) (g : Route → Route) : (updRoute i g s).elk =
    { s.elk with routes := Tbl.upd {} s.elk.routes i g } := rfl
@[simp] theorem updRoute_pgv (s : State) (i : Nat) (g : Route → Route) : (updRoute i g s).pgv = s.pgv := rfl
@[simp] theorem updRoute_ptu (s : State) (i : Nat) (g : Route → Route) : (updRoute i g s).ptu = s.ptu := rfl
@[simp] theorem updRoute_sqe (s : State) (i : Nat) (g : Route → Route) : (updRoute i g s).sqe = s.sqe := rfl
@[simp] theorem updRoute_swe (s : State) (i : Nat) (g : Route → Route) : (updRoute i g s).swe = s.swe := rfl
@[simp] theorem updRoute_tfu (s : State) (i : Nat) (g : Route → Route) : (updRoute i g s).tfu = s.tfu := rfl
@[simp] theorem updRoute_fbc (s : State) (i : Nat) (g : Route → Route) : (updRoute i g s).fbc = s.fbc := rfl
@[simp] theorem updRoute_tmg (s : State) (i : Nat) (g : Route → Route) : (updRoute i g s).tmg = s.tmg := rfl
@[simp] theorem updRoute_hud (s : State) (i : Nat) (g : Route → Route) : (updRoute i g s).hud = s.hud := rfl
@[simp] theorem updRoute_mirror (s : State) (i : Nat) (g : Route → Route) : (updRoute i g s).mirror = s.mirror := rfl

/-! updLease -/

@[simp] theorem updLease_pending (s : State) (i : Nat) (g : Lease → Lease) : (updLease i g s).pending = s.pending := rfl
@[simp] theorem updLease_out (s : State) (i : Nat) (g : Lease → Lease) : (updLease i g s).out = s.out := rfl
@[simp] theorem updLease_free (s : State) (i : Nat) (g : Lease → Lease) : (updLease i g s).free = s.free := rfl
@[simp] theorem updLease_dts (s : State) (i : Nat) (g : Lease → Lease) : (updLease i g s).dts = s.dts := rfl
@[simp] theorem updLease_trimAcc (s : State) (i : Nat) (g : Lease → Lease) : (updLease i g s).trimAcc = s.trimAcc := rfl
@[simp] theorem updLease_regs (s : State) (i : Nat) (g : Lease → Lease) : (updLease i g s).regs = s.regs := rfl
@[simp] theorem updLease_err (s : State) (i : Nat) (g : Lease → Lease) : (updLease i g s).err = s.err := rfl
@[simp] theorem updLease_pwr (s : State) (i : Nat) (g : Lease → Lease) : (updLease i g s).pwr = s.pwr := rfl
@[simp] theorem updLease_boot (s : State) (i : Nat) (g : Lease → Lease) : (updLease i g s).boot = s.boot := rfl
@[simp] theorem updLease_hif (s : State) (i : Nat) (g : Lease → Lease) : (updLease i g s).hif = s.hif := rfl
@[simp] theorem updLease_mem (s : State) (i : Nat) (g : Lease → Lease) : (updLease i g s).mem =
    { s.mem with leases := Tbl.upd {} s.mem.leases i g } := rfl
@[simp] theorem updLease_fab (s : State) (i : Nat) (g : Lease → Lease) : (updLease i g s).fab = s.fab := rfl
@[simp] theorem updLease_mov (s : State) (i : Nat) (g : Lease → Lease) : (updLease i g s).mov = s.mov := rfl
@[simp] theorem updLease_mgp (s : State) (i : Nat) (g : Lease → Lease) : (updLease i g s).mgp = s.mgp := rfl
@[simp] theorem updLease_elk (s : State) (i : Nat) (g : Lease → Lease) : (updLease i g s).elk = s.elk := rfl
@[simp] theorem updLease_pgv (s : State) (i : Nat) (g : Lease → Lease) : (updLease i g s).pgv = s.pgv := rfl
@[simp] theorem updLease_ptu (s : State) (i : Nat) (g : Lease → Lease) : (updLease i g s).ptu = s.ptu := rfl
@[simp] theorem updLease_sqe (s : State) (i : Nat) (g : Lease → Lease) : (updLease i g s).sqe = s.sqe := rfl
@[simp] theorem updLease_swe (s : State) (i : Nat) (g : Lease → Lease) : (updLease i g s).swe = s.swe := rfl
@[simp] theorem updLease_tfu (s : State) (i : Nat) (g : Lease → Lease) : (updLease i g s).tfu = s.tfu := rfl
@[simp] theorem updLease_fbc (s : State) (i : Nat) (g : Lease → Lease) : (updLease i g s).fbc = s.fbc := rfl
@[simp] theorem updLease_tmg (s : State) (i : Nat) (g : Lease → Lease) : (updLease i g s).tmg = s.tmg := rfl
@[simp] theorem updLease_hud (s : State) (i : Nat) (g : Lease → Lease) : (updLease i g s).hud = s.hud := rfl
@[simp] theorem updLease_mirror (s : State) (i : Nat) (g : Lease → Lease) : (updLease i g s).mirror = s.mirror := rfl

/-! updOwner -/

@[simp] theorem updOwner_pending (s : State) (i : Nat) (g : Owner → Owner) : (updOwner i g s).pending = s.pending := rfl
@[simp] theorem updOwner_out (s : State) (i : Nat) (g : Owner → Owner) : (updOwner i g s).out = s.out := rfl
@[simp] theorem updOwner_free (s : State) (i : Nat) (g : Owner → Owner) : (updOwner i g s).free = s.free := rfl
@[simp] theorem updOwner_dts (s : State) (i : Nat) (g : Owner → Owner) : (updOwner i g s).dts = s.dts := rfl
@[simp] theorem updOwner_trimAcc (s : State) (i : Nat) (g : Owner → Owner) : (updOwner i g s).trimAcc = s.trimAcc := rfl
@[simp] theorem updOwner_regs (s : State) (i : Nat) (g : Owner → Owner) : (updOwner i g s).regs = s.regs := rfl
@[simp] theorem updOwner_err (s : State) (i : Nat) (g : Owner → Owner) : (updOwner i g s).err = s.err := rfl
@[simp] theorem updOwner_pwr (s : State) (i : Nat) (g : Owner → Owner) : (updOwner i g s).pwr = s.pwr := rfl
@[simp] theorem updOwner_boot (s : State) (i : Nat) (g : Owner → Owner) : (updOwner i g s).boot = s.boot := rfl
@[simp] theorem updOwner_hif (s : State) (i : Nat) (g : Owner → Owner) : (updOwner i g s).hif = s.hif := rfl
@[simp] theorem updOwner_mem (s : State) (i : Nat) (g : Owner → Owner) : (updOwner i g s).mem =
    { s.mem with owners := Tbl.upd {} s.mem.owners i g } := rfl
@[simp] theorem updOwner_fab (s : State) (i : Nat) (g : Owner → Owner) : (updOwner i g s).fab = s.fab := rfl
@[simp] theorem updOwner_mov (s : State) (i : Nat) (g : Owner → Owner) : (updOwner i g s).mov = s.mov := rfl
@[simp] theorem updOwner_mgp (s : State) (i : Nat) (g : Owner → Owner) : (updOwner i g s).mgp = s.mgp := rfl
@[simp] theorem updOwner_elk (s : State) (i : Nat) (g : Owner → Owner) : (updOwner i g s).elk = s.elk := rfl
@[simp] theorem updOwner_pgv (s : State) (i : Nat) (g : Owner → Owner) : (updOwner i g s).pgv = s.pgv := rfl
@[simp] theorem updOwner_ptu (s : State) (i : Nat) (g : Owner → Owner) : (updOwner i g s).ptu = s.ptu := rfl
@[simp] theorem updOwner_sqe (s : State) (i : Nat) (g : Owner → Owner) : (updOwner i g s).sqe = s.sqe := rfl
@[simp] theorem updOwner_swe (s : State) (i : Nat) (g : Owner → Owner) : (updOwner i g s).swe = s.swe := rfl
@[simp] theorem updOwner_tfu (s : State) (i : Nat) (g : Owner → Owner) : (updOwner i g s).tfu = s.tfu := rfl
@[simp] theorem updOwner_fbc (s : State) (i : Nat) (g : Owner → Owner) : (updOwner i g s).fbc = s.fbc := rfl
@[simp] theorem updOwner_tmg (s : State) (i : Nat) (g : Owner → Owner) : (updOwner i g s).tmg = s.tmg := rfl
@[simp] theorem updOwner_hud (s : State) (i : Nat) (g : Owner → Owner) : (updOwner i g s).hud = s.hud := rfl
@[simp] theorem updOwner_mirror (s : State) (i : Nat) (g : Owner → Owner) : (updOwner i g s).mirror = s.mirror := rfl

/-! updFn -/

@[simp] theorem updFn_pending (s : State) (i : Nat) (g : Fn → Fn) : (updFn i g s).pending = s.pending := rfl
@[simp] theorem updFn_out (s : State) (i : Nat) (g : Fn → Fn) : (updFn i g s).out = s.out := rfl
@[simp] theorem updFn_free (s : State) (i : Nat) (g : Fn → Fn) : (updFn i g s).free = s.free := rfl
@[simp] theorem updFn_dts (s : State) (i : Nat) (g : Fn → Fn) : (updFn i g s).dts = s.dts := rfl
@[simp] theorem updFn_trimAcc (s : State) (i : Nat) (g : Fn → Fn) : (updFn i g s).trimAcc = s.trimAcc := rfl
@[simp] theorem updFn_regs (s : State) (i : Nat) (g : Fn → Fn) : (updFn i g s).regs = s.regs := rfl
@[simp] theorem updFn_err (s : State) (i : Nat) (g : Fn → Fn) : (updFn i g s).err = s.err := rfl
@[simp] theorem updFn_pwr (s : State) (i : Nat) (g : Fn → Fn) : (updFn i g s).pwr = s.pwr := rfl
@[simp] theorem updFn_boot (s : State) (i : Nat) (g : Fn → Fn) : (updFn i g s).boot = s.boot := rfl
@[simp] theorem updFn_hif (s : State) (i : Nat) (g : Fn → Fn) : (updFn i g s).hif =
    { s.hif with fns := Tbl.upd {} s.hif.fns i g } := rfl
@[simp] theorem updFn_mem (s : State) (i : Nat) (g : Fn → Fn) : (updFn i g s).mem = s.mem := rfl
@[simp] theorem updFn_fab (s : State) (i : Nat) (g : Fn → Fn) : (updFn i g s).fab = s.fab := rfl
@[simp] theorem updFn_mov (s : State) (i : Nat) (g : Fn → Fn) : (updFn i g s).mov = s.mov := rfl
@[simp] theorem updFn_mgp (s : State) (i : Nat) (g : Fn → Fn) : (updFn i g s).mgp = s.mgp := rfl
@[simp] theorem updFn_elk (s : State) (i : Nat) (g : Fn → Fn) : (updFn i g s).elk = s.elk := rfl
@[simp] theorem updFn_pgv (s : State) (i : Nat) (g : Fn → Fn) : (updFn i g s).pgv = s.pgv := rfl
@[simp] theorem updFn_ptu (s : State) (i : Nat) (g : Fn → Fn) : (updFn i g s).ptu = s.ptu := rfl
@[simp] theorem updFn_sqe (s : State) (i : Nat) (g : Fn → Fn) : (updFn i g s).sqe = s.sqe := rfl
@[simp] theorem updFn_swe (s : State) (i : Nat) (g : Fn → Fn) : (updFn i g s).swe = s.swe := rfl
@[simp] theorem updFn_tfu (s : State) (i : Nat) (g : Fn → Fn) : (updFn i g s).tfu = s.tfu := rfl
@[simp] theorem updFn_fbc (s : State) (i : Nat) (g : Fn → Fn) : (updFn i g s).fbc = s.fbc := rfl
@[simp] theorem updFn_tmg (s : State) (i : Nat) (g : Fn → Fn) : (updFn i g s).tmg = s.tmg := rfl
@[simp] theorem updFn_hud (s : State) (i : Nat) (g : Fn → Fn) : (updFn i g s).hud = s.hud := rfl
@[simp] theorem updFn_mirror (s : State) (i : Nat) (g : Fn → Fn) : (updFn i g s).mirror = s.mirror := rfl

/-! updClass -/

@[simp] theorem updClass_pending (s : State) (i : Nat) (g : ClassState → ClassState) : (updClass i g s).pending =
    s.pending := rfl
@[simp] theorem updClass_out (s : State) (i : Nat) (g : ClassState → ClassState) : (updClass i g s).out = s.out := rfl
@[simp] theorem updClass_free (s : State) (i : Nat) (g : ClassState → ClassState) : (updClass i g s).free =
    s.free := rfl
@[simp] theorem updClass_dts (s : State) (i : Nat) (g : ClassState → ClassState) : (updClass i g s).dts = s.dts := rfl
@[simp] theorem updClass_trimAcc (s : State) (i : Nat) (g : ClassState → ClassState) : (updClass i g s).trimAcc =
    s.trimAcc := rfl
@[simp] theorem updClass_regs (s : State) (i : Nat) (g : ClassState → ClassState) : (updClass i g s).regs =
    s.regs := rfl
@[simp] theorem updClass_err (s : State) (i : Nat) (g : ClassState → ClassState) : (updClass i g s).err =
    { s.err with classes := Tbl.upd {} s.err.classes i g } := rfl
@[simp] theorem updClass_pwr (s : State) (i : Nat) (g : ClassState → ClassState) : (updClass i g s).pwr = s.pwr := rfl
@[simp] theorem updClass_boot (s : State) (i : Nat) (g : ClassState → ClassState) : (updClass i g s).boot =
    s.boot := rfl
@[simp] theorem updClass_hif (s : State) (i : Nat) (g : ClassState → ClassState) : (updClass i g s).hif = s.hif := rfl
@[simp] theorem updClass_mem (s : State) (i : Nat) (g : ClassState → ClassState) : (updClass i g s).mem = s.mem := rfl
@[simp] theorem updClass_fab (s : State) (i : Nat) (g : ClassState → ClassState) : (updClass i g s).fab = s.fab := rfl
@[simp] theorem updClass_mov (s : State) (i : Nat) (g : ClassState → ClassState) : (updClass i g s).mov = s.mov := rfl
@[simp] theorem updClass_mgp (s : State) (i : Nat) (g : ClassState → ClassState) : (updClass i g s).mgp = s.mgp := rfl
@[simp] theorem updClass_elk (s : State) (i : Nat) (g : ClassState → ClassState) : (updClass i g s).elk = s.elk := rfl
@[simp] theorem updClass_pgv (s : State) (i : Nat) (g : ClassState → ClassState) : (updClass i g s).pgv = s.pgv := rfl
@[simp] theorem updClass_ptu (s : State) (i : Nat) (g : ClassState → ClassState) : (updClass i g s).ptu = s.ptu := rfl
@[simp] theorem updClass_sqe (s : State) (i : Nat) (g : ClassState → ClassState) : (updClass i g s).sqe = s.sqe := rfl
@[simp] theorem updClass_swe (s : State) (i : Nat) (g : ClassState → ClassState) : (updClass i g s).swe = s.swe := rfl
@[simp] theorem updClass_tfu (s : State) (i : Nat) (g : ClassState → ClassState) : (updClass i g s).tfu = s.tfu := rfl
@[simp] theorem updClass_fbc (s : State) (i : Nat) (g : ClassState → ClassState) : (updClass i g s).fbc = s.fbc := rfl
@[simp] theorem updClass_tmg (s : State) (i : Nat) (g : ClassState → ClassState) : (updClass i g s).tmg = s.tmg := rfl
@[simp] theorem updClass_hud (s : State) (i : Nat) (g : ClassState → ClassState) : (updClass i g s).hud = s.hud := rfl
@[simp] theorem updClass_mirror (s : State) (i : Nat) (g : ClassState → ClassState) : (updClass i g s).mirror =
    s.mirror := rfl

/-! updGov -/

@[simp] theorem updGov_pending (s : State) (i : Nat) (g : GovStream → GovStream) : (updGov i g s).pending =
    s.pending := rfl
@[simp] theorem updGov_out (s : State) (i : Nat) (g : GovStream → GovStream) : (updGov i g s).out = s.out := rfl
@[simp] theorem updGov_free (s : State) (i : Nat) (g : GovStream → GovStream) : (updGov i g s).free = s.free := rfl
@[simp] theorem updGov_dts (s : State) (i : Nat) (g : GovStream → GovStream) : (updGov i g s).dts = s.dts := rfl
@[simp] theorem updGov_trimAcc (s : State) (i : Nat) (g : GovStream → GovStream) : (updGov i g s).trimAcc =
    s.trimAcc := rfl
@[simp] theorem updGov_regs (s : State) (i : Nat) (g : GovStream → GovStream) : (updGov i g s).regs = s.regs := rfl
@[simp] theorem updGov_err (s : State) (i : Nat) (g : GovStream → GovStream) : (updGov i g s).err = s.err := rfl
@[simp] theorem updGov_pwr (s : State) (i : Nat) (g : GovStream → GovStream) : (updGov i g s).pwr = s.pwr := rfl
@[simp] theorem updGov_boot (s : State) (i : Nat) (g : GovStream → GovStream) : (updGov i g s).boot = s.boot := rfl
@[simp] theorem updGov_hif (s : State) (i : Nat) (g : GovStream → GovStream) : (updGov i g s).hif = s.hif := rfl
@[simp] theorem updGov_mem (s : State) (i : Nat) (g : GovStream → GovStream) : (updGov i g s).mem = s.mem := rfl
@[simp] theorem updGov_fab (s : State) (i : Nat) (g : GovStream → GovStream) : (updGov i g s).fab = s.fab := rfl
@[simp] theorem updGov_mov (s : State) (i : Nat) (g : GovStream → GovStream) : (updGov i g s).mov = s.mov := rfl
@[simp] theorem updGov_mgp (s : State) (i : Nat) (g : GovStream → GovStream) : (updGov i g s).mgp = s.mgp := rfl
@[simp] theorem updGov_elk (s : State) (i : Nat) (g : GovStream → GovStream) : (updGov i g s).elk = s.elk := rfl
@[simp] theorem updGov_pgv (s : State) (i : Nat) (g : GovStream → GovStream) : (updGov i g s).pgv =
    { s.pgv with streams := Tbl.upd {} s.pgv.streams i g } := rfl
@[simp] theorem updGov_ptu (s : State) (i : Nat) (g : GovStream → GovStream) : (updGov i g s).ptu = s.ptu := rfl
@[simp] theorem updGov_sqe (s : State) (i : Nat) (g : GovStream → GovStream) : (updGov i g s).sqe = s.sqe := rfl
@[simp] theorem updGov_swe (s : State) (i : Nat) (g : GovStream → GovStream) : (updGov i g s).swe = s.swe := rfl
@[simp] theorem updGov_tfu (s : State) (i : Nat) (g : GovStream → GovStream) : (updGov i g s).tfu = s.tfu := rfl
@[simp] theorem updGov_fbc (s : State) (i : Nat) (g : GovStream → GovStream) : (updGov i g s).fbc = s.fbc := rfl
@[simp] theorem updGov_tmg (s : State) (i : Nat) (g : GovStream → GovStream) : (updGov i g s).tmg = s.tmg := rfl
@[simp] theorem updGov_hud (s : State) (i : Nat) (g : GovStream → GovStream) : (updGov i g s).hud = s.hud := rfl
@[simp] theorem updGov_mirror (s : State) (i : Nat) (g : GovStream → GovStream) : (updGov i g s).mirror =
    s.mirror := rfl

/-! updRail -/

@[simp] theorem updRail_pending (s : State) (i : Nat) (g : Rail → Rail) : (updRail i g s).pending = s.pending := rfl
@[simp] theorem updRail_out (s : State) (i : Nat) (g : Rail → Rail) : (updRail i g s).out = s.out := rfl
@[simp] theorem updRail_free (s : State) (i : Nat) (g : Rail → Rail) : (updRail i g s).free = s.free := rfl
@[simp] theorem updRail_dts (s : State) (i : Nat) (g : Rail → Rail) : (updRail i g s).dts = s.dts := rfl
@[simp] theorem updRail_trimAcc (s : State) (i : Nat) (g : Rail → Rail) : (updRail i g s).trimAcc = s.trimAcc := rfl
@[simp] theorem updRail_regs (s : State) (i : Nat) (g : Rail → Rail) : (updRail i g s).regs = s.regs := rfl
@[simp] theorem updRail_err (s : State) (i : Nat) (g : Rail → Rail) : (updRail i g s).err = s.err := rfl
@[simp] theorem updRail_pwr (s : State) (i : Nat) (g : Rail → Rail) : (updRail i g s).pwr =
    { s.pwr with rails := Tbl.upd {} s.pwr.rails i g } := rfl
@[simp] theorem updRail_boot (s : State) (i : Nat) (g : Rail → Rail) : (updRail i g s).boot = s.boot := rfl
@[simp] theorem updRail_hif (s : State) (i : Nat) (g : Rail → Rail) : (updRail i g s).hif = s.hif := rfl
@[simp] theorem updRail_mem (s : State) (i : Nat) (g : Rail → Rail) : (updRail i g s).mem = s.mem := rfl
@[simp] theorem updRail_fab (s : State) (i : Nat) (g : Rail → Rail) : (updRail i g s).fab = s.fab := rfl
@[simp] theorem updRail_mov (s : State) (i : Nat) (g : Rail → Rail) : (updRail i g s).mov = s.mov := rfl
@[simp] theorem updRail_mgp (s : State) (i : Nat) (g : Rail → Rail) : (updRail i g s).mgp = s.mgp := rfl
@[simp] theorem updRail_elk (s : State) (i : Nat) (g : Rail → Rail) : (updRail i g s).elk = s.elk := rfl
@[simp] theorem updRail_pgv (s : State) (i : Nat) (g : Rail → Rail) : (updRail i g s).pgv = s.pgv := rfl
@[simp] theorem updRail_ptu (s : State) (i : Nat) (g : Rail → Rail) : (updRail i g s).ptu = s.ptu := rfl
@[simp] theorem updRail_sqe (s : State) (i : Nat) (g : Rail → Rail) : (updRail i g s).sqe = s.sqe := rfl
@[simp] theorem updRail_swe (s : State) (i : Nat) (g : Rail → Rail) : (updRail i g s).swe = s.swe := rfl
@[simp] theorem updRail_tfu (s : State) (i : Nat) (g : Rail → Rail) : (updRail i g s).tfu = s.tfu := rfl
@[simp] theorem updRail_fbc (s : State) (i : Nat) (g : Rail → Rail) : (updRail i g s).fbc = s.fbc := rfl
@[simp] theorem updRail_tmg (s : State) (i : Nat) (g : Rail → Rail) : (updRail i g s).tmg = s.tmg := rfl
@[simp] theorem updRail_hud (s : State) (i : Nat) (g : Rail → Rail) : (updRail i g s).hud = s.hud := rfl
@[simp] theorem updRail_mirror (s : State) (i : Nat) (g : Rail → Rail) : (updRail i g s).mirror = s.mirror := rfl

/-! updCh -/

@[simp] theorem updCh_pending (s : State) (i : Nat) (g : PhaseCh → PhaseCh) : (updCh i g s).pending = s.pending := rfl
@[simp] theorem updCh_out (s : State) (i : Nat) (g : PhaseCh → PhaseCh) : (updCh i g s).out = s.out := rfl
@[simp] theorem updCh_free (s : State) (i : Nat) (g : PhaseCh → PhaseCh) : (updCh i g s).free = s.free := rfl
@[simp] theorem updCh_dts (s : State) (i : Nat) (g : PhaseCh → PhaseCh) : (updCh i g s).dts = s.dts := rfl
@[simp] theorem updCh_trimAcc (s : State) (i : Nat) (g : PhaseCh → PhaseCh) : (updCh i g s).trimAcc = s.trimAcc := rfl
@[simp] theorem updCh_regs (s : State) (i : Nat) (g : PhaseCh → PhaseCh) : (updCh i g s).regs = s.regs := rfl
@[simp] theorem updCh_err (s : State) (i : Nat) (g : PhaseCh → PhaseCh) : (updCh i g s).err = s.err := rfl
@[simp] theorem updCh_pwr (s : State) (i : Nat) (g : PhaseCh → PhaseCh) : (updCh i g s).pwr = s.pwr := rfl
@[simp] theorem updCh_boot (s : State) (i : Nat) (g : PhaseCh → PhaseCh) : (updCh i g s).boot = s.boot := rfl
@[simp] theorem updCh_hif (s : State) (i : Nat) (g : PhaseCh → PhaseCh) : (updCh i g s).hif = s.hif := rfl
@[simp] theorem updCh_mem (s : State) (i : Nat) (g : PhaseCh → PhaseCh) : (updCh i g s).mem = s.mem := rfl
@[simp] theorem updCh_fab (s : State) (i : Nat) (g : PhaseCh → PhaseCh) : (updCh i g s).fab = s.fab := rfl
@[simp] theorem updCh_mov (s : State) (i : Nat) (g : PhaseCh → PhaseCh) : (updCh i g s).mov = s.mov := rfl
@[simp] theorem updCh_mgp (s : State) (i : Nat) (g : PhaseCh → PhaseCh) : (updCh i g s).mgp = s.mgp := rfl
@[simp] theorem updCh_elk (s : State) (i : Nat) (g : PhaseCh → PhaseCh) : (updCh i g s).elk = s.elk := rfl
@[simp] theorem updCh_pgv (s : State) (i : Nat) (g : PhaseCh → PhaseCh) : (updCh i g s).pgv = s.pgv := rfl
@[simp] theorem updCh_ptu (s : State) (i : Nat) (g : PhaseCh → PhaseCh) : (updCh i g s).ptu =
    { s.ptu with chans := Tbl.upd {} s.ptu.chans i g } := rfl
@[simp] theorem updCh_sqe (s : State) (i : Nat) (g : PhaseCh → PhaseCh) : (updCh i g s).sqe = s.sqe := rfl
@[simp] theorem updCh_swe (s : State) (i : Nat) (g : PhaseCh → PhaseCh) : (updCh i g s).swe = s.swe := rfl
@[simp] theorem updCh_tfu (s : State) (i : Nat) (g : PhaseCh → PhaseCh) : (updCh i g s).tfu = s.tfu := rfl
@[simp] theorem updCh_fbc (s : State) (i : Nat) (g : PhaseCh → PhaseCh) : (updCh i g s).fbc = s.fbc := rfl
@[simp] theorem updCh_tmg (s : State) (i : Nat) (g : PhaseCh → PhaseCh) : (updCh i g s).tmg = s.tmg := rfl
@[simp] theorem updCh_hud (s : State) (i : Nat) (g : PhaseCh → PhaseCh) : (updCh i g s).hud = s.hud := rfl
@[simp] theorem updCh_mirror (s : State) (i : Nat) (g : PhaseCh → PhaseCh) : (updCh i g s).mirror = s.mirror := rfl

/-! updRing -/

@[simp] theorem updRing_pending (s : State) (i : Nat) (g : Ring → Ring) : (updRing i g s).pending = s.pending := rfl
@[simp] theorem updRing_out (s : State) (i : Nat) (g : Ring → Ring) : (updRing i g s).out = s.out := rfl
@[simp] theorem updRing_free (s : State) (i : Nat) (g : Ring → Ring) : (updRing i g s).free = s.free := rfl
@[simp] theorem updRing_dts (s : State) (i : Nat) (g : Ring → Ring) : (updRing i g s).dts = s.dts := rfl
@[simp] theorem updRing_trimAcc (s : State) (i : Nat) (g : Ring → Ring) : (updRing i g s).trimAcc = s.trimAcc := rfl
@[simp] theorem updRing_regs (s : State) (i : Nat) (g : Ring → Ring) : (updRing i g s).regs = s.regs := rfl
@[simp] theorem updRing_err (s : State) (i : Nat) (g : Ring → Ring) : (updRing i g s).err = s.err := rfl
@[simp] theorem updRing_pwr (s : State) (i : Nat) (g : Ring → Ring) : (updRing i g s).pwr = s.pwr := rfl
@[simp] theorem updRing_boot (s : State) (i : Nat) (g : Ring → Ring) : (updRing i g s).boot = s.boot := rfl
@[simp] theorem updRing_hif (s : State) (i : Nat) (g : Ring → Ring) : (updRing i g s).hif =
    { s.hif with rings := Tbl.upd {} s.hif.rings i g } := rfl
@[simp] theorem updRing_mem (s : State) (i : Nat) (g : Ring → Ring) : (updRing i g s).mem = s.mem := rfl
@[simp] theorem updRing_fab (s : State) (i : Nat) (g : Ring → Ring) : (updRing i g s).fab = s.fab := rfl
@[simp] theorem updRing_mov (s : State) (i : Nat) (g : Ring → Ring) : (updRing i g s).mov = s.mov := rfl
@[simp] theorem updRing_mgp (s : State) (i : Nat) (g : Ring → Ring) : (updRing i g s).mgp = s.mgp := rfl
@[simp] theorem updRing_elk (s : State) (i : Nat) (g : Ring → Ring) : (updRing i g s).elk = s.elk := rfl
@[simp] theorem updRing_pgv (s : State) (i : Nat) (g : Ring → Ring) : (updRing i g s).pgv = s.pgv := rfl
@[simp] theorem updRing_ptu (s : State) (i : Nat) (g : Ring → Ring) : (updRing i g s).ptu = s.ptu := rfl
@[simp] theorem updRing_sqe (s : State) (i : Nat) (g : Ring → Ring) : (updRing i g s).sqe = s.sqe := rfl
@[simp] theorem updRing_swe (s : State) (i : Nat) (g : Ring → Ring) : (updRing i g s).swe = s.swe := rfl
@[simp] theorem updRing_tfu (s : State) (i : Nat) (g : Ring → Ring) : (updRing i g s).tfu = s.tfu := rfl
@[simp] theorem updRing_fbc (s : State) (i : Nat) (g : Ring → Ring) : (updRing i g s).fbc = s.fbc := rfl
@[simp] theorem updRing_tmg (s : State) (i : Nat) (g : Ring → Ring) : (updRing i g s).tmg = s.tmg := rfl
@[simp] theorem updRing_hud (s : State) (i : Nat) (g : Ring → Ring) : (updRing i g s).hud = s.hud := rfl
@[simp] theorem updRing_mirror (s : State) (i : Nat) (g : Ring → Ring) : (updRing i g s).mirror = s.mirror := rfl

/-! updStrm -/

@[simp] theorem updStrm_pending (s : State) (i : Nat) (g : Stream → Stream) : (updStrm i g s).pending = s.pending := rfl
@[simp] theorem updStrm_out (s : State) (i : Nat) (g : Stream → Stream) : (updStrm i g s).out = s.out := rfl
@[simp] theorem updStrm_free (s : State) (i : Nat) (g : Stream → Stream) : (updStrm i g s).free = s.free := rfl
@[simp] theorem updStrm_dts (s : State) (i : Nat) (g : Stream → Stream) : (updStrm i g s).dts = s.dts := rfl
@[simp] theorem updStrm_trimAcc (s : State) (i : Nat) (g : Stream → Stream) : (updStrm i g s).trimAcc = s.trimAcc := rfl
@[simp] theorem updStrm_regs (s : State) (i : Nat) (g : Stream → Stream) : (updStrm i g s).regs = s.regs := rfl
@[simp] theorem updStrm_err (s : State) (i : Nat) (g : Stream → Stream) : (updStrm i g s).err = s.err := rfl
@[simp] theorem updStrm_pwr (s : State) (i : Nat) (g : Stream → Stream) : (updStrm i g s).pwr = s.pwr := rfl
@[simp] theorem updStrm_boot (s : State) (i : Nat) (g : Stream → Stream) : (updStrm i g s).boot = s.boot := rfl
@[simp] theorem updStrm_hif (s : State) (i : Nat) (g : Stream → Stream) : (updStrm i g s).hif = s.hif := rfl
@[simp] theorem updStrm_mem (s : State) (i : Nat) (g : Stream → Stream) : (updStrm i g s).mem = s.mem := rfl
@[simp] theorem updStrm_fab (s : State) (i : Nat) (g : Stream → Stream) : (updStrm i g s).fab = s.fab := rfl
@[simp] theorem updStrm_mov (s : State) (i : Nat) (g : Stream → Stream) : (updStrm i g s).mov = s.mov := rfl
@[simp] theorem updStrm_mgp (s : State) (i : Nat) (g : Stream → Stream) : (updStrm i g s).mgp = s.mgp := rfl
@[simp] theorem updStrm_elk (s : State) (i : Nat) (g : Stream → Stream) : (updStrm i g s).elk = s.elk := rfl
@[simp] theorem updStrm_pgv (s : State) (i : Nat) (g : Stream → Stream) : (updStrm i g s).pgv = s.pgv := rfl
@[simp] theorem updStrm_ptu (s : State) (i : Nat) (g : Stream → Stream) : (updStrm i g s).ptu = s.ptu := rfl
@[simp] theorem updStrm_sqe (s : State) (i : Nat) (g : Stream → Stream) : (updStrm i g s).sqe =
    { s.sqe with streams := Tbl.upd {} s.sqe.streams i g } := rfl
@[simp] theorem updStrm_swe (s : State) (i : Nat) (g : Stream → Stream) : (updStrm i g s).swe = s.swe := rfl
@[simp] theorem updStrm_tfu (s : State) (i : Nat) (g : Stream → Stream) : (updStrm i g s).tfu = s.tfu := rfl
@[simp] theorem updStrm_fbc (s : State) (i : Nat) (g : Stream → Stream) : (updStrm i g s).fbc = s.fbc := rfl
@[simp] theorem updStrm_tmg (s : State) (i : Nat) (g : Stream → Stream) : (updStrm i g s).tmg = s.tmg := rfl
@[simp] theorem updStrm_hud (s : State) (i : Nat) (g : Stream → Stream) : (updStrm i g s).hud = s.hud := rfl
@[simp] theorem updStrm_mirror (s : State) (i : Nat) (g : Stream → Stream) : (updStrm i g s).mirror = s.mirror := rfl

/-! updSweep -/

@[simp] theorem updSweep_pending (s : State) (i : Nat) (g : Sweep → Sweep) : (updSweep i g s).pending = s.pending := rfl
@[simp] theorem updSweep_out (s : State) (i : Nat) (g : Sweep → Sweep) : (updSweep i g s).out = s.out := rfl
@[simp] theorem updSweep_free (s : State) (i : Nat) (g : Sweep → Sweep) : (updSweep i g s).free = s.free := rfl
@[simp] theorem updSweep_dts (s : State) (i : Nat) (g : Sweep → Sweep) : (updSweep i g s).dts = s.dts := rfl
@[simp] theorem updSweep_trimAcc (s : State) (i : Nat) (g : Sweep → Sweep) : (updSweep i g s).trimAcc = s.trimAcc := rfl
@[simp] theorem updSweep_regs (s : State) (i : Nat) (g : Sweep → Sweep) : (updSweep i g s).regs = s.regs := rfl
@[simp] theorem updSweep_err (s : State) (i : Nat) (g : Sweep → Sweep) : (updSweep i g s).err = s.err := rfl
@[simp] theorem updSweep_pwr (s : State) (i : Nat) (g : Sweep → Sweep) : (updSweep i g s).pwr = s.pwr := rfl
@[simp] theorem updSweep_boot (s : State) (i : Nat) (g : Sweep → Sweep) : (updSweep i g s).boot = s.boot := rfl
@[simp] theorem updSweep_hif (s : State) (i : Nat) (g : Sweep → Sweep) : (updSweep i g s).hif = s.hif := rfl
@[simp] theorem updSweep_mem (s : State) (i : Nat) (g : Sweep → Sweep) : (updSweep i g s).mem = s.mem := rfl
@[simp] theorem updSweep_fab (s : State) (i : Nat) (g : Sweep → Sweep) : (updSweep i g s).fab = s.fab := rfl
@[simp] theorem updSweep_mov (s : State) (i : Nat) (g : Sweep → Sweep) : (updSweep i g s).mov = s.mov := rfl
@[simp] theorem updSweep_mgp (s : State) (i : Nat) (g : Sweep → Sweep) : (updSweep i g s).mgp = s.mgp := rfl
@[simp] theorem updSweep_elk (s : State) (i : Nat) (g : Sweep → Sweep) : (updSweep i g s).elk = s.elk := rfl
@[simp] theorem updSweep_pgv (s : State) (i : Nat) (g : Sweep → Sweep) : (updSweep i g s).pgv = s.pgv := rfl
@[simp] theorem updSweep_ptu (s : State) (i : Nat) (g : Sweep → Sweep) : (updSweep i g s).ptu = s.ptu := rfl
@[simp] theorem updSweep_sqe (s : State) (i : Nat) (g : Sweep → Sweep) : (updSweep i g s).sqe = s.sqe := rfl
@[simp] theorem updSweep_swe (s : State) (i : Nat) (g : Sweep → Sweep) : (updSweep i g s).swe =
    { s.swe with chans := Tbl.upd {} s.swe.chans i g } := rfl
@[simp] theorem updSweep_tfu (s : State) (i : Nat) (g : Sweep → Sweep) : (updSweep i g s).tfu = s.tfu := rfl
@[simp] theorem updSweep_fbc (s : State) (i : Nat) (g : Sweep → Sweep) : (updSweep i g s).fbc = s.fbc := rfl
@[simp] theorem updSweep_tmg (s : State) (i : Nat) (g : Sweep → Sweep) : (updSweep i g s).tmg = s.tmg := rfl
@[simp] theorem updSweep_hud (s : State) (i : Nat) (g : Sweep → Sweep) : (updSweep i g s).hud = s.hud := rfl
@[simp] theorem updSweep_mirror (s : State) (i : Nat) (g : Sweep → Sweep) : (updSweep i g s).mirror = s.mirror := rfl

/-! updPwm -/

@[simp] theorem updPwm_pending (s : State) (i : Nat) (g : Pwm → Pwm) : (updPwm i g s).pending = s.pending := rfl
@[simp] theorem updPwm_out (s : State) (i : Nat) (g : Pwm → Pwm) : (updPwm i g s).out = s.out := rfl
@[simp] theorem updPwm_free (s : State) (i : Nat) (g : Pwm → Pwm) : (updPwm i g s).free = s.free := rfl
@[simp] theorem updPwm_dts (s : State) (i : Nat) (g : Pwm → Pwm) : (updPwm i g s).dts = s.dts := rfl
@[simp] theorem updPwm_trimAcc (s : State) (i : Nat) (g : Pwm → Pwm) : (updPwm i g s).trimAcc = s.trimAcc := rfl
@[simp] theorem updPwm_regs (s : State) (i : Nat) (g : Pwm → Pwm) : (updPwm i g s).regs = s.regs := rfl
@[simp] theorem updPwm_err (s : State) (i : Nat) (g : Pwm → Pwm) : (updPwm i g s).err = s.err := rfl
@[simp] theorem updPwm_pwr (s : State) (i : Nat) (g : Pwm → Pwm) : (updPwm i g s).pwr = s.pwr := rfl
@[simp] theorem updPwm_boot (s : State) (i : Nat) (g : Pwm → Pwm) : (updPwm i g s).boot = s.boot := rfl
@[simp] theorem updPwm_hif (s : State) (i : Nat) (g : Pwm → Pwm) : (updPwm i g s).hif = s.hif := rfl
@[simp] theorem updPwm_mem (s : State) (i : Nat) (g : Pwm → Pwm) : (updPwm i g s).mem = s.mem := rfl
@[simp] theorem updPwm_fab (s : State) (i : Nat) (g : Pwm → Pwm) : (updPwm i g s).fab = s.fab := rfl
@[simp] theorem updPwm_mov (s : State) (i : Nat) (g : Pwm → Pwm) : (updPwm i g s).mov = s.mov := rfl
@[simp] theorem updPwm_mgp (s : State) (i : Nat) (g : Pwm → Pwm) : (updPwm i g s).mgp = s.mgp := rfl
@[simp] theorem updPwm_elk (s : State) (i : Nat) (g : Pwm → Pwm) : (updPwm i g s).elk = s.elk := rfl
@[simp] theorem updPwm_pgv (s : State) (i : Nat) (g : Pwm → Pwm) : (updPwm i g s).pgv = s.pgv := rfl
@[simp] theorem updPwm_ptu (s : State) (i : Nat) (g : Pwm → Pwm) : (updPwm i g s).ptu = s.ptu := rfl
@[simp] theorem updPwm_sqe (s : State) (i : Nat) (g : Pwm → Pwm) : (updPwm i g s).sqe = s.sqe := rfl
@[simp] theorem updPwm_swe (s : State) (i : Nat) (g : Pwm → Pwm) : (updPwm i g s).swe = s.swe := rfl
@[simp] theorem updPwm_tfu (s : State) (i : Nat) (g : Pwm → Pwm) : (updPwm i g s).tfu =
    { s.tfu with pwm := Tbl.upd {} s.tfu.pwm i g } := rfl
@[simp] theorem updPwm_fbc (s : State) (i : Nat) (g : Pwm → Pwm) : (updPwm i g s).fbc = s.fbc := rfl
@[simp] theorem updPwm_tmg (s : State) (i : Nat) (g : Pwm → Pwm) : (updPwm i g s).tmg = s.tmg := rfl
@[simp] theorem updPwm_hud (s : State) (i : Nat) (g : Pwm → Pwm) : (updPwm i g s).hud = s.hud := rfl
@[simp] theorem updPwm_mirror (s : State) (i : Nat) (g : Pwm → Pwm) : (updPwm i g s).mirror = s.mirror := rfl

/-! updValve -/

@[simp] theorem updValve_pending (s : State) (i : Nat) (g : Valve → Valve) : (updValve i g s).pending = s.pending := rfl
@[simp] theorem updValve_out (s : State) (i : Nat) (g : Valve → Valve) : (updValve i g s).out = s.out := rfl
@[simp] theorem updValve_free (s : State) (i : Nat) (g : Valve → Valve) : (updValve i g s).free = s.free := rfl
@[simp] theorem updValve_dts (s : State) (i : Nat) (g : Valve → Valve) : (updValve i g s).dts = s.dts := rfl
@[simp] theorem updValve_trimAcc (s : State) (i : Nat) (g : Valve → Valve) : (updValve i g s).trimAcc = s.trimAcc := rfl
@[simp] theorem updValve_regs (s : State) (i : Nat) (g : Valve → Valve) : (updValve i g s).regs = s.regs := rfl
@[simp] theorem updValve_err (s : State) (i : Nat) (g : Valve → Valve) : (updValve i g s).err = s.err := rfl
@[simp] theorem updValve_pwr (s : State) (i : Nat) (g : Valve → Valve) : (updValve i g s).pwr = s.pwr := rfl
@[simp] theorem updValve_boot (s : State) (i : Nat) (g : Valve → Valve) : (updValve i g s).boot = s.boot := rfl
@[simp] theorem updValve_hif (s : State) (i : Nat) (g : Valve → Valve) : (updValve i g s).hif = s.hif := rfl
@[simp] theorem updValve_mem (s : State) (i : Nat) (g : Valve → Valve) : (updValve i g s).mem = s.mem := rfl
@[simp] theorem updValve_fab (s : State) (i : Nat) (g : Valve → Valve) : (updValve i g s).fab = s.fab := rfl
@[simp] theorem updValve_mov (s : State) (i : Nat) (g : Valve → Valve) : (updValve i g s).mov = s.mov := rfl
@[simp] theorem updValve_mgp (s : State) (i : Nat) (g : Valve → Valve) : (updValve i g s).mgp = s.mgp := rfl
@[simp] theorem updValve_elk (s : State) (i : Nat) (g : Valve → Valve) : (updValve i g s).elk = s.elk := rfl
@[simp] theorem updValve_pgv (s : State) (i : Nat) (g : Valve → Valve) : (updValve i g s).pgv = s.pgv := rfl
@[simp] theorem updValve_ptu (s : State) (i : Nat) (g : Valve → Valve) : (updValve i g s).ptu = s.ptu := rfl
@[simp] theorem updValve_sqe (s : State) (i : Nat) (g : Valve → Valve) : (updValve i g s).sqe = s.sqe := rfl
@[simp] theorem updValve_swe (s : State) (i : Nat) (g : Valve → Valve) : (updValve i g s).swe = s.swe := rfl
@[simp] theorem updValve_tfu (s : State) (i : Nat) (g : Valve → Valve) : (updValve i g s).tfu =
    { s.tfu with valves := Tbl.upd {} s.tfu.valves i g } := rfl
@[simp] theorem updValve_fbc (s : State) (i : Nat) (g : Valve → Valve) : (updValve i g s).fbc = s.fbc := rfl
@[simp] theorem updValve_tmg (s : State) (i : Nat) (g : Valve → Valve) : (updValve i g s).tmg = s.tmg := rfl
@[simp] theorem updValve_hud (s : State) (i : Nat) (g : Valve → Valve) : (updValve i g s).hud = s.hud := rfl
@[simp] theorem updValve_mirror (s : State) (i : Nat) (g : Valve → Valve) : (updValve i g s).mirror = s.mirror := rfl

/-! updThread -/

@[simp] theorem updThread_pending (s : State) (i : Nat) (g : Thread → Thread) : (updThread i g s).pending =
    s.pending := rfl
@[simp] theorem updThread_out (s : State) (i : Nat) (g : Thread → Thread) : (updThread i g s).out = s.out := rfl
@[simp] theorem updThread_free (s : State) (i : Nat) (g : Thread → Thread) : (updThread i g s).free = s.free := rfl
@[simp] theorem updThread_dts (s : State) (i : Nat) (g : Thread → Thread) : (updThread i g s).dts = s.dts := rfl
@[simp] theorem updThread_trimAcc (s : State) (i : Nat) (g : Thread → Thread) : (updThread i g s).trimAcc =
    s.trimAcc := rfl
@[simp] theorem updThread_regs (s : State) (i : Nat) (g : Thread → Thread) : (updThread i g s).regs = s.regs := rfl
@[simp] theorem updThread_err (s : State) (i : Nat) (g : Thread → Thread) : (updThread i g s).err = s.err := rfl
@[simp] theorem updThread_pwr (s : State) (i : Nat) (g : Thread → Thread) : (updThread i g s).pwr = s.pwr := rfl
@[simp] theorem updThread_boot (s : State) (i : Nat) (g : Thread → Thread) : (updThread i g s).boot = s.boot := rfl
@[simp] theorem updThread_hif (s : State) (i : Nat) (g : Thread → Thread) : (updThread i g s).hif = s.hif := rfl
@[simp] theorem updThread_mem (s : State) (i : Nat) (g : Thread → Thread) : (updThread i g s).mem = s.mem := rfl
@[simp] theorem updThread_fab (s : State) (i : Nat) (g : Thread → Thread) : (updThread i g s).fab =
    { s.fab with threads := Tbl.upd none s.fab.threads i (Option.map g) } := rfl
@[simp] theorem updThread_mov (s : State) (i : Nat) (g : Thread → Thread) : (updThread i g s).mov = s.mov := rfl
@[simp] theorem updThread_mgp (s : State) (i : Nat) (g : Thread → Thread) : (updThread i g s).mgp = s.mgp := rfl
@[simp] theorem updThread_elk (s : State) (i : Nat) (g : Thread → Thread) : (updThread i g s).elk = s.elk := rfl
@[simp] theorem updThread_pgv (s : State) (i : Nat) (g : Thread → Thread) : (updThread i g s).pgv = s.pgv := rfl
@[simp] theorem updThread_ptu (s : State) (i : Nat) (g : Thread → Thread) : (updThread i g s).ptu = s.ptu := rfl
@[simp] theorem updThread_sqe (s : State) (i : Nat) (g : Thread → Thread) : (updThread i g s).sqe = s.sqe := rfl
@[simp] theorem updThread_swe (s : State) (i : Nat) (g : Thread → Thread) : (updThread i g s).swe = s.swe := rfl
@[simp] theorem updThread_tfu (s : State) (i : Nat) (g : Thread → Thread) : (updThread i g s).tfu = s.tfu := rfl
@[simp] theorem updThread_fbc (s : State) (i : Nat) (g : Thread → Thread) : (updThread i g s).fbc = s.fbc := rfl
@[simp] theorem updThread_tmg (s : State) (i : Nat) (g : Thread → Thread) : (updThread i g s).tmg = s.tmg := rfl
@[simp] theorem updThread_hud (s : State) (i : Nat) (g : Thread → Thread) : (updThread i g s).hud = s.hud := rfl
@[simp] theorem updThread_mirror (s : State) (i : Nat) (g : Thread → Thread) : (updThread i g s).mirror =
    s.mirror := rfl

/-! updPkt -/

@[simp] theorem updPkt_pending (s : State) (i : Nat) (g : Inflight → Inflight) : (updPkt i g s).pending =
    s.pending := rfl
@[simp] theorem updPkt_out (s : State) (i : Nat) (g : Inflight → Inflight) : (updPkt i g s).out = s.out := rfl
@[simp] theorem updPkt_free (s : State) (i : Nat) (g : Inflight → Inflight) : (updPkt i g s).free = s.free := rfl
@[simp] theorem updPkt_dts (s : State) (i : Nat) (g : Inflight → Inflight) : (updPkt i g s).dts = s.dts := rfl
@[simp] theorem updPkt_trimAcc (s : State) (i : Nat) (g : Inflight → Inflight) : (updPkt i g s).trimAcc =
    s.trimAcc := rfl
@[simp] theorem updPkt_regs (s : State) (i : Nat) (g : Inflight → Inflight) : (updPkt i g s).regs = s.regs := rfl
@[simp] theorem updPkt_err (s : State) (i : Nat) (g : Inflight → Inflight) : (updPkt i g s).err = s.err := rfl
@[simp] theorem updPkt_pwr (s : State) (i : Nat) (g : Inflight → Inflight) : (updPkt i g s).pwr = s.pwr := rfl
@[simp] theorem updPkt_boot (s : State) (i : Nat) (g : Inflight → Inflight) : (updPkt i g s).boot = s.boot := rfl
@[simp] theorem updPkt_hif (s : State) (i : Nat) (g : Inflight → Inflight) : (updPkt i g s).hif =
    { s.hif with started := updWhere (·.id == i) g s.hif.started } := rfl
@[simp] theorem updPkt_mem (s : State) (i : Nat) (g : Inflight → Inflight) : (updPkt i g s).mem = s.mem := rfl
@[simp] theorem updPkt_fab (s : State) (i : Nat) (g : Inflight → Inflight) : (updPkt i g s).fab = s.fab := rfl
@[simp] theorem updPkt_mov (s : State) (i : Nat) (g : Inflight → Inflight) : (updPkt i g s).mov = s.mov := rfl
@[simp] theorem updPkt_mgp (s : State) (i : Nat) (g : Inflight → Inflight) : (updPkt i g s).mgp = s.mgp := rfl
@[simp] theorem updPkt_elk (s : State) (i : Nat) (g : Inflight → Inflight) : (updPkt i g s).elk = s.elk := rfl
@[simp] theorem updPkt_pgv (s : State) (i : Nat) (g : Inflight → Inflight) : (updPkt i g s).pgv = s.pgv := rfl
@[simp] theorem updPkt_ptu (s : State) (i : Nat) (g : Inflight → Inflight) : (updPkt i g s).ptu = s.ptu := rfl
@[simp] theorem updPkt_sqe (s : State) (i : Nat) (g : Inflight → Inflight) : (updPkt i g s).sqe = s.sqe := rfl
@[simp] theorem updPkt_swe (s : State) (i : Nat) (g : Inflight → Inflight) : (updPkt i g s).swe = s.swe := rfl
@[simp] theorem updPkt_tfu (s : State) (i : Nat) (g : Inflight → Inflight) : (updPkt i g s).tfu = s.tfu := rfl
@[simp] theorem updPkt_fbc (s : State) (i : Nat) (g : Inflight → Inflight) : (updPkt i g s).fbc = s.fbc := rfl
@[simp] theorem updPkt_tmg (s : State) (i : Nat) (g : Inflight → Inflight) : (updPkt i g s).tmg = s.tmg := rfl
@[simp] theorem updPkt_hud (s : State) (i : Nat) (g : Inflight → Inflight) : (updPkt i g s).hud = s.hud := rfl
@[simp] theorem updPkt_mirror (s : State) (i : Nat) (g : Inflight → Inflight) : (updPkt i g s).mirror = s.mirror := rfl

/-! updSeq -/

@[simp] theorem updSeq_pending (s : State) (i : Nat) (g : Seq → Seq) : (updSeq i g s).pending = s.pending := rfl
@[simp] theorem updSeq_out (s : State) (i : Nat) (g : Seq → Seq) : (updSeq i g s).out = s.out := rfl
@[simp] theorem updSeq_free (s : State) (i : Nat) (g : Seq → Seq) : (updSeq i g s).free = s.free := rfl
@[simp] theorem updSeq_dts (s : State) (i : Nat) (g : Seq → Seq) : (updSeq i g s).dts = s.dts := rfl
@[simp] theorem updSeq_trimAcc (s : State) (i : Nat) (g : Seq → Seq) : (updSeq i g s).trimAcc = s.trimAcc := rfl
@[simp] theorem updSeq_regs (s : State) (i : Nat) (g : Seq → Seq) : (updSeq i g s).regs = s.regs := rfl
@[simp] theorem updSeq_err (s : State) (i : Nat) (g : Seq → Seq) : (updSeq i g s).err = s.err := rfl
@[simp] theorem updSeq_pwr (s : State) (i : Nat) (g : Seq → Seq) : (updSeq i g s).pwr = s.pwr := rfl
@[simp] theorem updSeq_boot (s : State) (i : Nat) (g : Seq → Seq) : (updSeq i g s).boot = s.boot := rfl
@[simp] theorem updSeq_hif (s : State) (i : Nat) (g : Seq → Seq) : (updSeq i g s).hif = s.hif := rfl
@[simp] theorem updSeq_mem (s : State) (i : Nat) (g : Seq → Seq) : (updSeq i g s).mem = s.mem := rfl
@[simp] theorem updSeq_fab (s : State) (i : Nat) (g : Seq → Seq) : (updSeq i g s).fab = s.fab := rfl
@[simp] theorem updSeq_mov (s : State) (i : Nat) (g : Seq → Seq) : (updSeq i g s).mov = s.mov := rfl
@[simp] theorem updSeq_mgp (s : State) (i : Nat) (g : Seq → Seq) : (updSeq i g s).mgp = s.mgp := rfl
@[simp] theorem updSeq_elk (s : State) (i : Nat) (g : Seq → Seq) : (updSeq i g s).elk = s.elk := rfl
@[simp] theorem updSeq_pgv (s : State) (i : Nat) (g : Seq → Seq) : (updSeq i g s).pgv = s.pgv := rfl
@[simp] theorem updSeq_ptu (s : State) (i : Nat) (g : Seq → Seq) : (updSeq i g s).ptu = s.ptu := rfl
@[simp] theorem updSeq_sqe (s : State) (i : Nat) (g : Seq → Seq) : (updSeq i g s).sqe =
    { s.sqe with seqs := updWhere (·.slot == i) g s.sqe.seqs } := rfl
@[simp] theorem updSeq_swe (s : State) (i : Nat) (g : Seq → Seq) : (updSeq i g s).swe = s.swe := rfl
@[simp] theorem updSeq_tfu (s : State) (i : Nat) (g : Seq → Seq) : (updSeq i g s).tfu = s.tfu := rfl
@[simp] theorem updSeq_fbc (s : State) (i : Nat) (g : Seq → Seq) : (updSeq i g s).fbc = s.fbc := rfl
@[simp] theorem updSeq_tmg (s : State) (i : Nat) (g : Seq → Seq) : (updSeq i g s).tmg = s.tmg := rfl
@[simp] theorem updSeq_hud (s : State) (i : Nat) (g : Seq → Seq) : (updSeq i g s).hud = s.hud := rfl
@[simp] theorem updSeq_mirror (s : State) (i : Nat) (g : Seq → Seq) : (updSeq i g s).mirror = s.mirror := rfl

/-! updGroup -/

@[simp] theorem updGroup_pending (s : State) (i : Nat) (g : Group → Group) : (updGroup i g s).pending = s.pending := rfl
@[simp] theorem updGroup_out (s : State) (i : Nat) (g : Group → Group) : (updGroup i g s).out = s.out := rfl
@[simp] theorem updGroup_free (s : State) (i : Nat) (g : Group → Group) : (updGroup i g s).free = s.free := rfl
@[simp] theorem updGroup_dts (s : State) (i : Nat) (g : Group → Group) : (updGroup i g s).dts = s.dts := rfl
@[simp] theorem updGroup_trimAcc (s : State) (i : Nat) (g : Group → Group) : (updGroup i g s).trimAcc = s.trimAcc := rfl
@[simp] theorem updGroup_regs (s : State) (i : Nat) (g : Group → Group) : (updGroup i g s).regs = s.regs := rfl
@[simp] theorem updGroup_err (s : State) (i : Nat) (g : Group → Group) : (updGroup i g s).err = s.err := rfl
@[simp] theorem updGroup_pwr (s : State) (i : Nat) (g : Group → Group) : (updGroup i g s).pwr = s.pwr := rfl
@[simp] theorem updGroup_boot (s : State) (i : Nat) (g : Group → Group) : (updGroup i g s).boot = s.boot := rfl
@[simp] theorem updGroup_hif (s : State) (i : Nat) (g : Group → Group) : (updGroup i g s).hif = s.hif := rfl
@[simp] theorem updGroup_mem (s : State) (i : Nat) (g : Group → Group) : (updGroup i g s).mem = s.mem := rfl
@[simp] theorem updGroup_fab (s : State) (i : Nat) (g : Group → Group) : (updGroup i g s).fab =
    { s.fab with groups := updWhere (·.gid == i) g s.fab.groups } := rfl
@[simp] theorem updGroup_mov (s : State) (i : Nat) (g : Group → Group) : (updGroup i g s).mov = s.mov := rfl
@[simp] theorem updGroup_mgp (s : State) (i : Nat) (g : Group → Group) : (updGroup i g s).mgp = s.mgp := rfl
@[simp] theorem updGroup_elk (s : State) (i : Nat) (g : Group → Group) : (updGroup i g s).elk = s.elk := rfl
@[simp] theorem updGroup_pgv (s : State) (i : Nat) (g : Group → Group) : (updGroup i g s).pgv = s.pgv := rfl
@[simp] theorem updGroup_ptu (s : State) (i : Nat) (g : Group → Group) : (updGroup i g s).ptu = s.ptu := rfl
@[simp] theorem updGroup_sqe (s : State) (i : Nat) (g : Group → Group) : (updGroup i g s).sqe = s.sqe := rfl
@[simp] theorem updGroup_swe (s : State) (i : Nat) (g : Group → Group) : (updGroup i g s).swe = s.swe := rfl
@[simp] theorem updGroup_tfu (s : State) (i : Nat) (g : Group → Group) : (updGroup i g s).tfu = s.tfu := rfl
@[simp] theorem updGroup_fbc (s : State) (i : Nat) (g : Group → Group) : (updGroup i g s).fbc = s.fbc := rfl
@[simp] theorem updGroup_tmg (s : State) (i : Nat) (g : Group → Group) : (updGroup i g s).tmg = s.tmg := rfl
@[simp] theorem updGroup_hud (s : State) (i : Nat) (g : Group → Group) : (updGroup i g s).hud = s.hud := rfl
@[simp] theorem updGroup_mirror (s : State) (i : Nat) (g : Group → Group) : (updGroup i g s).mirror = s.mirror := rfl

/-! updLaunch -/

@[simp] theorem updLaunch_pending (s : State) (i : Nat) (g : Launch → Launch) : (updLaunch i g s).pending =
    s.pending := rfl
@[simp] theorem updLaunch_out (s : State) (i : Nat) (g : Launch → Launch) : (updLaunch i g s).out = s.out := rfl
@[simp] theorem updLaunch_free (s : State) (i : Nat) (g : Launch → Launch) : (updLaunch i g s).free = s.free := rfl
@[simp] theorem updLaunch_dts (s : State) (i : Nat) (g : Launch → Launch) : (updLaunch i g s).dts = s.dts := rfl
@[simp] theorem updLaunch_trimAcc (s : State) (i : Nat) (g : Launch → Launch) : (updLaunch i g s).trimAcc =
    s.trimAcc := rfl
@[simp] theorem updLaunch_regs (s : State) (i : Nat) (g : Launch → Launch) : (updLaunch i g s).regs = s.regs := rfl
@[simp] theorem updLaunch_err (s : State) (i : Nat) (g : Launch → Launch) : (updLaunch i g s).err = s.err := rfl
@[simp] theorem updLaunch_pwr (s : State) (i : Nat) (g : Launch → Launch) : (updLaunch i g s).pwr = s.pwr := rfl
@[simp] theorem updLaunch_boot (s : State) (i : Nat) (g : Launch → Launch) : (updLaunch i g s).boot = s.boot := rfl
@[simp] theorem updLaunch_hif (s : State) (i : Nat) (g : Launch → Launch) : (updLaunch i g s).hif = s.hif := rfl
@[simp] theorem updLaunch_mem (s : State) (i : Nat) (g : Launch → Launch) : (updLaunch i g s).mem = s.mem := rfl
@[simp] theorem updLaunch_fab (s : State) (i : Nat) (g : Launch → Launch) : (updLaunch i g s).fab =
    { s.fab with launches := updWhere (·.id == i) g s.fab.launches } := rfl
@[simp] theorem updLaunch_mov (s : State) (i : Nat) (g : Launch → Launch) : (updLaunch i g s).mov = s.mov := rfl
@[simp] theorem updLaunch_mgp (s : State) (i : Nat) (g : Launch → Launch) : (updLaunch i g s).mgp = s.mgp := rfl
@[simp] theorem updLaunch_elk (s : State) (i : Nat) (g : Launch → Launch) : (updLaunch i g s).elk = s.elk := rfl
@[simp] theorem updLaunch_pgv (s : State) (i : Nat) (g : Launch → Launch) : (updLaunch i g s).pgv = s.pgv := rfl
@[simp] theorem updLaunch_ptu (s : State) (i : Nat) (g : Launch → Launch) : (updLaunch i g s).ptu = s.ptu := rfl
@[simp] theorem updLaunch_sqe (s : State) (i : Nat) (g : Launch → Launch) : (updLaunch i g s).sqe = s.sqe := rfl
@[simp] theorem updLaunch_swe (s : State) (i : Nat) (g : Launch → Launch) : (updLaunch i g s).swe = s.swe := rfl
@[simp] theorem updLaunch_tfu (s : State) (i : Nat) (g : Launch → Launch) : (updLaunch i g s).tfu = s.tfu := rfl
@[simp] theorem updLaunch_fbc (s : State) (i : Nat) (g : Launch → Launch) : (updLaunch i g s).fbc = s.fbc := rfl
@[simp] theorem updLaunch_tmg (s : State) (i : Nat) (g : Launch → Launch) : (updLaunch i g s).tmg = s.tmg := rfl
@[simp] theorem updLaunch_hud (s : State) (i : Nat) (g : Launch → Launch) : (updLaunch i g s).hud = s.hud := rfl
@[simp] theorem updLaunch_mirror (s : State) (i : Nat) (g : Launch → Launch) : (updLaunch i g s).mirror =
    s.mirror := rfl

/-! setRegFld -/

@[simp] theorem setRegFld_pending (s : State) (lo hi l v : Nat) : (setRegFld lo hi l v s).pending = s.pending := rfl
@[simp] theorem setRegFld_out (s : State) (lo hi l v : Nat) : (setRegFld lo hi l v s).out = s.out := rfl
@[simp] theorem setRegFld_free (s : State) (lo hi l v : Nat) : (setRegFld lo hi l v s).free = s.free := rfl
@[simp] theorem setRegFld_dts (s : State) (lo hi l v : Nat) : (setRegFld lo hi l v s).dts = s.dts := rfl
@[simp] theorem setRegFld_trimAcc (s : State) (lo hi l v : Nat) : (setRegFld lo hi l v s).trimAcc = s.trimAcc := rfl
@[simp] theorem setRegFld_err (s : State) (lo hi l v : Nat) : (setRegFld lo hi l v s).err = s.err := rfl
@[simp] theorem setRegFld_pwr (s : State) (lo hi l v : Nat) : (setRegFld lo hi l v s).pwr = s.pwr := rfl
@[simp] theorem setRegFld_boot (s : State) (lo hi l v : Nat) : (setRegFld lo hi l v s).boot = s.boot := rfl
@[simp] theorem setRegFld_hif (s : State) (lo hi l v : Nat) : (setRegFld lo hi l v s).hif = s.hif := rfl
@[simp] theorem setRegFld_mem (s : State) (lo hi l v : Nat) : (setRegFld lo hi l v s).mem = s.mem := rfl
@[simp] theorem setRegFld_fab (s : State) (lo hi l v : Nat) : (setRegFld lo hi l v s).fab = s.fab := rfl
@[simp] theorem setRegFld_mov (s : State) (lo hi l v : Nat) : (setRegFld lo hi l v s).mov = s.mov := rfl
@[simp] theorem setRegFld_mgp (s : State) (lo hi l v : Nat) : (setRegFld lo hi l v s).mgp = s.mgp := rfl
@[simp] theorem setRegFld_elk (s : State) (lo hi l v : Nat) : (setRegFld lo hi l v s).elk = s.elk := rfl
@[simp] theorem setRegFld_pgv (s : State) (lo hi l v : Nat) : (setRegFld lo hi l v s).pgv = s.pgv := rfl
@[simp] theorem setRegFld_ptu (s : State) (lo hi l v : Nat) : (setRegFld lo hi l v s).ptu = s.ptu := rfl
@[simp] theorem setRegFld_sqe (s : State) (lo hi l v : Nat) : (setRegFld lo hi l v s).sqe = s.sqe := rfl
@[simp] theorem setRegFld_swe (s : State) (lo hi l v : Nat) : (setRegFld lo hi l v s).swe = s.swe := rfl
@[simp] theorem setRegFld_tfu (s : State) (lo hi l v : Nat) : (setRegFld lo hi l v s).tfu = s.tfu := rfl
@[simp] theorem setRegFld_fbc (s : State) (lo hi l v : Nat) : (setRegFld lo hi l v s).fbc = s.fbc := rfl
@[simp] theorem setRegFld_tmg (s : State) (lo hi l v : Nat) : (setRegFld lo hi l v s).tmg = s.tmg := rfl
@[simp] theorem setRegFld_hud (s : State) (lo hi l v : Nat) : (setRegFld lo hi l v s).hud = s.hud := rfl
@[simp] theorem setRegFld_mirror (s : State) (lo hi l v : Nat) : (setRegFld lo hi l v s).mirror = s.mirror := rfl

/-! orReg -/

@[simp] theorem orReg_pending (s : State) (lo m : Nat) : (orReg lo m s).pending = s.pending := rfl
@[simp] theorem orReg_out (s : State) (lo m : Nat) : (orReg lo m s).out = s.out := rfl
@[simp] theorem orReg_free (s : State) (lo m : Nat) : (orReg lo m s).free = s.free := rfl
@[simp] theorem orReg_dts (s : State) (lo m : Nat) : (orReg lo m s).dts = s.dts := rfl
@[simp] theorem orReg_trimAcc (s : State) (lo m : Nat) : (orReg lo m s).trimAcc = s.trimAcc := rfl
@[simp] theorem orReg_err (s : State) (lo m : Nat) : (orReg lo m s).err = s.err := rfl
@[simp] theorem orReg_pwr (s : State) (lo m : Nat) : (orReg lo m s).pwr = s.pwr := rfl
@[simp] theorem orReg_boot (s : State) (lo m : Nat) : (orReg lo m s).boot = s.boot := rfl
@[simp] theorem orReg_hif (s : State) (lo m : Nat) : (orReg lo m s).hif = s.hif := rfl
@[simp] theorem orReg_mem (s : State) (lo m : Nat) : (orReg lo m s).mem = s.mem := rfl
@[simp] theorem orReg_fab (s : State) (lo m : Nat) : (orReg lo m s).fab = s.fab := rfl
@[simp] theorem orReg_mov (s : State) (lo m : Nat) : (orReg lo m s).mov = s.mov := rfl
@[simp] theorem orReg_mgp (s : State) (lo m : Nat) : (orReg lo m s).mgp = s.mgp := rfl
@[simp] theorem orReg_elk (s : State) (lo m : Nat) : (orReg lo m s).elk = s.elk := rfl
@[simp] theorem orReg_pgv (s : State) (lo m : Nat) : (orReg lo m s).pgv = s.pgv := rfl
@[simp] theorem orReg_ptu (s : State) (lo m : Nat) : (orReg lo m s).ptu = s.ptu := rfl
@[simp] theorem orReg_sqe (s : State) (lo m : Nat) : (orReg lo m s).sqe = s.sqe := rfl
@[simp] theorem orReg_swe (s : State) (lo m : Nat) : (orReg lo m s).swe = s.swe := rfl
@[simp] theorem orReg_tfu (s : State) (lo m : Nat) : (orReg lo m s).tfu = s.tfu := rfl
@[simp] theorem orReg_fbc (s : State) (lo m : Nat) : (orReg lo m s).fbc = s.fbc := rfl
@[simp] theorem orReg_tmg (s : State) (lo m : Nat) : (orReg lo m s).tmg = s.tmg := rfl
@[simp] theorem orReg_hud (s : State) (lo m : Nat) : (orReg lo m s).hud = s.hud := rfl
@[simp] theorem orReg_mirror (s : State) (lo m : Nat) : (orReg lo m s).mirror = s.mirror := rfl

/-! clearBits -/

@[simp] theorem clearBits_pending (s : State) (lo m : Nat) : (clearBits lo m s).pending = s.pending := rfl
@[simp] theorem clearBits_out (s : State) (lo m : Nat) : (clearBits lo m s).out = s.out := rfl
@[simp] theorem clearBits_free (s : State) (lo m : Nat) : (clearBits lo m s).free = s.free := rfl
@[simp] theorem clearBits_dts (s : State) (lo m : Nat) : (clearBits lo m s).dts = s.dts := rfl
@[simp] theorem clearBits_trimAcc (s : State) (lo m : Nat) : (clearBits lo m s).trimAcc = s.trimAcc := rfl
@[simp] theorem clearBits_err (s : State) (lo m : Nat) : (clearBits lo m s).err = s.err := rfl
@[simp] theorem clearBits_pwr (s : State) (lo m : Nat) : (clearBits lo m s).pwr = s.pwr := rfl
@[simp] theorem clearBits_boot (s : State) (lo m : Nat) : (clearBits lo m s).boot = s.boot := rfl
@[simp] theorem clearBits_hif (s : State) (lo m : Nat) : (clearBits lo m s).hif = s.hif := rfl
@[simp] theorem clearBits_mem (s : State) (lo m : Nat) : (clearBits lo m s).mem = s.mem := rfl
@[simp] theorem clearBits_fab (s : State) (lo m : Nat) : (clearBits lo m s).fab = s.fab := rfl
@[simp] theorem clearBits_mov (s : State) (lo m : Nat) : (clearBits lo m s).mov = s.mov := rfl
@[simp] theorem clearBits_mgp (s : State) (lo m : Nat) : (clearBits lo m s).mgp = s.mgp := rfl
@[simp] theorem clearBits_elk (s : State) (lo m : Nat) : (clearBits lo m s).elk = s.elk := rfl
@[simp] theorem clearBits_pgv (s : State) (lo m : Nat) : (clearBits lo m s).pgv = s.pgv := rfl
@[simp] theorem clearBits_ptu (s : State) (lo m : Nat) : (clearBits lo m s).ptu = s.ptu := rfl
@[simp] theorem clearBits_sqe (s : State) (lo m : Nat) : (clearBits lo m s).sqe = s.sqe := rfl
@[simp] theorem clearBits_swe (s : State) (lo m : Nat) : (clearBits lo m s).swe = s.swe := rfl
@[simp] theorem clearBits_tfu (s : State) (lo m : Nat) : (clearBits lo m s).tfu = s.tfu := rfl
@[simp] theorem clearBits_fbc (s : State) (lo m : Nat) : (clearBits lo m s).fbc = s.fbc := rfl
@[simp] theorem clearBits_tmg (s : State) (lo m : Nat) : (clearBits lo m s).tmg = s.tmg := rfl
@[simp] theorem clearBits_hud (s : State) (lo m : Nat) : (clearBits lo m s).hud = s.hud := rfl
@[simp] theorem clearBits_mirror (s : State) (lo m : Nat) : (clearBits lo m s).mirror = s.mirror := rfl

/-! bumpFldBy -/

@[simp] theorem bumpFldBy_pending (s : State) (lo hi l n : Nat) : (bumpFldBy lo hi l n s).pending = s.pending := rfl
@[simp] theorem bumpFldBy_out (s : State) (lo hi l n : Nat) : (bumpFldBy lo hi l n s).out = s.out := rfl
@[simp] theorem bumpFldBy_free (s : State) (lo hi l n : Nat) : (bumpFldBy lo hi l n s).free = s.free := rfl
@[simp] theorem bumpFldBy_dts (s : State) (lo hi l n : Nat) : (bumpFldBy lo hi l n s).dts = s.dts := rfl
@[simp] theorem bumpFldBy_trimAcc (s : State) (lo hi l n : Nat) : (bumpFldBy lo hi l n s).trimAcc = s.trimAcc := rfl
@[simp] theorem bumpFldBy_err (s : State) (lo hi l n : Nat) : (bumpFldBy lo hi l n s).err = s.err := rfl
@[simp] theorem bumpFldBy_pwr (s : State) (lo hi l n : Nat) : (bumpFldBy lo hi l n s).pwr = s.pwr := rfl
@[simp] theorem bumpFldBy_boot (s : State) (lo hi l n : Nat) : (bumpFldBy lo hi l n s).boot = s.boot := rfl
@[simp] theorem bumpFldBy_hif (s : State) (lo hi l n : Nat) : (bumpFldBy lo hi l n s).hif = s.hif := rfl
@[simp] theorem bumpFldBy_mem (s : State) (lo hi l n : Nat) : (bumpFldBy lo hi l n s).mem = s.mem := rfl
@[simp] theorem bumpFldBy_fab (s : State) (lo hi l n : Nat) : (bumpFldBy lo hi l n s).fab = s.fab := rfl
@[simp] theorem bumpFldBy_mov (s : State) (lo hi l n : Nat) : (bumpFldBy lo hi l n s).mov = s.mov := rfl
@[simp] theorem bumpFldBy_mgp (s : State) (lo hi l n : Nat) : (bumpFldBy lo hi l n s).mgp = s.mgp := rfl
@[simp] theorem bumpFldBy_elk (s : State) (lo hi l n : Nat) : (bumpFldBy lo hi l n s).elk = s.elk := rfl
@[simp] theorem bumpFldBy_pgv (s : State) (lo hi l n : Nat) : (bumpFldBy lo hi l n s).pgv = s.pgv := rfl
@[simp] theorem bumpFldBy_ptu (s : State) (lo hi l n : Nat) : (bumpFldBy lo hi l n s).ptu = s.ptu := rfl
@[simp] theorem bumpFldBy_sqe (s : State) (lo hi l n : Nat) : (bumpFldBy lo hi l n s).sqe = s.sqe := rfl
@[simp] theorem bumpFldBy_swe (s : State) (lo hi l n : Nat) : (bumpFldBy lo hi l n s).swe = s.swe := rfl
@[simp] theorem bumpFldBy_tfu (s : State) (lo hi l n : Nat) : (bumpFldBy lo hi l n s).tfu = s.tfu := rfl
@[simp] theorem bumpFldBy_fbc (s : State) (lo hi l n : Nat) : (bumpFldBy lo hi l n s).fbc = s.fbc := rfl
@[simp] theorem bumpFldBy_tmg (s : State) (lo hi l n : Nat) : (bumpFldBy lo hi l n s).tmg = s.tmg := rfl
@[simp] theorem bumpFldBy_hud (s : State) (lo hi l n : Nat) : (bumpFldBy lo hi l n s).hud = s.hud := rfl
@[simp] theorem bumpFldBy_mirror (s : State) (lo hi l n : Nat) : (bumpFldBy lo hi l n s).mirror = s.mirror := rfl

/-! bumpFld -/

@[simp] theorem bumpFld_pending (s : State) (lo hi l : Nat) : (bumpFld lo hi l s).pending = s.pending := rfl
@[simp] theorem bumpFld_out (s : State) (lo hi l : Nat) : (bumpFld lo hi l s).out = s.out := rfl
@[simp] theorem bumpFld_free (s : State) (lo hi l : Nat) : (bumpFld lo hi l s).free = s.free := rfl
@[simp] theorem bumpFld_dts (s : State) (lo hi l : Nat) : (bumpFld lo hi l s).dts = s.dts := rfl
@[simp] theorem bumpFld_trimAcc (s : State) (lo hi l : Nat) : (bumpFld lo hi l s).trimAcc = s.trimAcc := rfl
@[simp] theorem bumpFld_err (s : State) (lo hi l : Nat) : (bumpFld lo hi l s).err = s.err := rfl
@[simp] theorem bumpFld_pwr (s : State) (lo hi l : Nat) : (bumpFld lo hi l s).pwr = s.pwr := rfl
@[simp] theorem bumpFld_boot (s : State) (lo hi l : Nat) : (bumpFld lo hi l s).boot = s.boot := rfl
@[simp] theorem bumpFld_hif (s : State) (lo hi l : Nat) : (bumpFld lo hi l s).hif = s.hif := rfl
@[simp] theorem bumpFld_mem (s : State) (lo hi l : Nat) : (bumpFld lo hi l s).mem = s.mem := rfl
@[simp] theorem bumpFld_fab (s : State) (lo hi l : Nat) : (bumpFld lo hi l s).fab = s.fab := rfl
@[simp] theorem bumpFld_mov (s : State) (lo hi l : Nat) : (bumpFld lo hi l s).mov = s.mov := rfl
@[simp] theorem bumpFld_mgp (s : State) (lo hi l : Nat) : (bumpFld lo hi l s).mgp = s.mgp := rfl
@[simp] theorem bumpFld_elk (s : State) (lo hi l : Nat) : (bumpFld lo hi l s).elk = s.elk := rfl
@[simp] theorem bumpFld_pgv (s : State) (lo hi l : Nat) : (bumpFld lo hi l s).pgv = s.pgv := rfl
@[simp] theorem bumpFld_ptu (s : State) (lo hi l : Nat) : (bumpFld lo hi l s).ptu = s.ptu := rfl
@[simp] theorem bumpFld_sqe (s : State) (lo hi l : Nat) : (bumpFld lo hi l s).sqe = s.sqe := rfl
@[simp] theorem bumpFld_swe (s : State) (lo hi l : Nat) : (bumpFld lo hi l s).swe = s.swe := rfl
@[simp] theorem bumpFld_tfu (s : State) (lo hi l : Nat) : (bumpFld lo hi l s).tfu = s.tfu := rfl
@[simp] theorem bumpFld_fbc (s : State) (lo hi l : Nat) : (bumpFld lo hi l s).fbc = s.fbc := rfl
@[simp] theorem bumpFld_tmg (s : State) (lo hi l : Nat) : (bumpFld lo hi l s).tmg = s.tmg := rfl
@[simp] theorem bumpFld_hud (s : State) (lo hi l : Nat) : (bumpFld lo hi l s).hud = s.hud := rfl
@[simp] theorem bumpFld_mirror (s : State) (lo hi l : Nat) : (bumpFld lo hi l s).mirror = s.mirror := rfl

/-! setPending -/

@[simp] theorem setPending_pending (s : State) (fn vec : Nat) (b : Bool) : (setPending fn vec b s).pending =
    s.pending := rfl
@[simp] theorem setPending_out (s : State) (fn vec : Nat) (b : Bool) : (setPending fn vec b s).out = s.out := rfl
@[simp] theorem setPending_free (s : State) (fn vec : Nat) (b : Bool) : (setPending fn vec b s).free = s.free := rfl
@[simp] theorem setPending_dts (s : State) (fn vec : Nat) (b : Bool) : (setPending fn vec b s).dts = s.dts := rfl
@[simp] theorem setPending_trimAcc (s : State) (fn vec : Nat) (b : Bool) : (setPending fn vec b s).trimAcc =
    s.trimAcc := rfl
@[simp] theorem setPending_regs (s : State) (fn vec : Nat) (b : Bool) : (setPending fn vec b s).regs = s.regs := rfl
@[simp] theorem setPending_err (s : State) (fn vec : Nat) (b : Bool) : (setPending fn vec b s).err = s.err := rfl
@[simp] theorem setPending_pwr (s : State) (fn vec : Nat) (b : Bool) : (setPending fn vec b s).pwr = s.pwr := rfl
@[simp] theorem setPending_boot (s : State) (fn vec : Nat) (b : Bool) : (setPending fn vec b s).boot = s.boot := rfl
@[simp] theorem setPending_mem (s : State) (fn vec : Nat) (b : Bool) : (setPending fn vec b s).mem = s.mem := rfl
@[simp] theorem setPending_fab (s : State) (fn vec : Nat) (b : Bool) : (setPending fn vec b s).fab = s.fab := rfl
@[simp] theorem setPending_mov (s : State) (fn vec : Nat) (b : Bool) : (setPending fn vec b s).mov = s.mov := rfl
@[simp] theorem setPending_mgp (s : State) (fn vec : Nat) (b : Bool) : (setPending fn vec b s).mgp = s.mgp := rfl
@[simp] theorem setPending_elk (s : State) (fn vec : Nat) (b : Bool) : (setPending fn vec b s).elk = s.elk := rfl
@[simp] theorem setPending_pgv (s : State) (fn vec : Nat) (b : Bool) : (setPending fn vec b s).pgv = s.pgv := rfl
@[simp] theorem setPending_ptu (s : State) (fn vec : Nat) (b : Bool) : (setPending fn vec b s).ptu = s.ptu := rfl
@[simp] theorem setPending_sqe (s : State) (fn vec : Nat) (b : Bool) : (setPending fn vec b s).sqe = s.sqe := rfl
@[simp] theorem setPending_swe (s : State) (fn vec : Nat) (b : Bool) : (setPending fn vec b s).swe = s.swe := rfl
@[simp] theorem setPending_tfu (s : State) (fn vec : Nat) (b : Bool) : (setPending fn vec b s).tfu = s.tfu := rfl
@[simp] theorem setPending_fbc (s : State) (fn vec : Nat) (b : Bool) : (setPending fn vec b s).fbc = s.fbc := rfl
@[simp] theorem setPending_tmg (s : State) (fn vec : Nat) (b : Bool) : (setPending fn vec b s).tmg = s.tmg := rfl
@[simp] theorem setPending_hud (s : State) (fn vec : Nat) (b : Bool) : (setPending fn vec b s).hud = s.hud := rfl
@[simp] theorem setPending_mirror (s : State) (fn vec : Nat) (b : Bool) : (setPending fn vec b s).mirror =
    s.mirror := rfl

/-! setPower -/

@[simp] theorem setPower_pending (s : State) (st : PwrState) (step rail : Nat) : (setPower st step rail s).pending =
    s.pending := rfl
@[simp] theorem setPower_out (s : State) (st : PwrState) (step rail : Nat) : (setPower st step rail s).out =
    s.out := rfl
@[simp] theorem setPower_free (s : State) (st : PwrState) (step rail : Nat) : (setPower st step rail s).free =
    s.free := rfl
@[simp] theorem setPower_dts (s : State) (st : PwrState) (step rail : Nat) : (setPower st step rail s).dts =
    s.dts := rfl
@[simp] theorem setPower_trimAcc (s : State) (st : PwrState) (step rail : Nat) : (setPower st step rail s).trimAcc =
    s.trimAcc := rfl
@[simp] theorem setPower_regs (s : State) (st : PwrState) (step rail : Nat) : (setPower st step rail s).regs =
    s.regs := rfl
@[simp] theorem setPower_err (s : State) (st : PwrState) (step rail : Nat) : (setPower st step rail s).err =
    s.err := rfl
@[simp] theorem setPower_pwr (s : State) (st : PwrState) (step rail : Nat) : (setPower st step rail s).pwr =
    { s.pwr with st, step, rail } := rfl
@[simp] theorem setPower_boot (s : State) (st : PwrState) (step rail : Nat) : (setPower st step rail s).boot =
    s.boot := rfl
@[simp] theorem setPower_hif (s : State) (st : PwrState) (step rail : Nat) : (setPower st step rail s).hif =
    s.hif := rfl
@[simp] theorem setPower_mem (s : State) (st : PwrState) (step rail : Nat) : (setPower st step rail s).mem =
    s.mem := rfl
@[simp] theorem setPower_fab (s : State) (st : PwrState) (step rail : Nat) : (setPower st step rail s).fab =
    s.fab := rfl
@[simp] theorem setPower_mov (s : State) (st : PwrState) (step rail : Nat) : (setPower st step rail s).mov =
    s.mov := rfl
@[simp] theorem setPower_mgp (s : State) (st : PwrState) (step rail : Nat) : (setPower st step rail s).mgp =
    s.mgp := rfl
@[simp] theorem setPower_elk (s : State) (st : PwrState) (step rail : Nat) : (setPower st step rail s).elk =
    s.elk := rfl
@[simp] theorem setPower_pgv (s : State) (st : PwrState) (step rail : Nat) : (setPower st step rail s).pgv =
    s.pgv := rfl
@[simp] theorem setPower_ptu (s : State) (st : PwrState) (step rail : Nat) : (setPower st step rail s).ptu =
    s.ptu := rfl
@[simp] theorem setPower_sqe (s : State) (st : PwrState) (step rail : Nat) : (setPower st step rail s).sqe =
    s.sqe := rfl
@[simp] theorem setPower_swe (s : State) (st : PwrState) (step rail : Nat) : (setPower st step rail s).swe =
    s.swe := rfl
@[simp] theorem setPower_tfu (s : State) (st : PwrState) (step rail : Nat) : (setPower st step rail s).tfu =
    s.tfu := rfl
@[simp] theorem setPower_fbc (s : State) (st : PwrState) (step rail : Nat) : (setPower st step rail s).fbc =
    s.fbc := rfl
@[simp] theorem setPower_tmg (s : State) (st : PwrState) (step rail : Nat) : (setPower st step rail s).tmg =
    s.tmg := rfl
@[simp] theorem setPower_hud (s : State) (st : PwrState) (step rail : Nat) : (setPower st step rail s).hud =
    s.hud := rfl
@[simp] theorem setPower_mirror (s : State) (st : PwrState) (step rail : Nat) : (setPower st step rail s).mirror =
    s.mirror := rfl

/-! queueGasp -/

@[simp] theorem queueGasp_pending (s : State) (k : Nat) (c : Option LogEntry) : (queueGasp k c s).pending =
    s.pending := rfl
@[simp] theorem queueGasp_out (s : State) (k : Nat) (c : Option LogEntry) : (queueGasp k c s).out = s.out := rfl
@[simp] theorem queueGasp_free (s : State) (k : Nat) (c : Option LogEntry) : (queueGasp k c s).free = s.free := rfl
@[simp] theorem queueGasp_dts (s : State) (k : Nat) (c : Option LogEntry) : (queueGasp k c s).dts = s.dts := rfl
@[simp] theorem queueGasp_trimAcc (s : State) (k : Nat) (c : Option LogEntry) : (queueGasp k c s).trimAcc =
    s.trimAcc := rfl
@[simp] theorem queueGasp_regs (s : State) (k : Nat) (c : Option LogEntry) : (queueGasp k c s).regs = s.regs := rfl
@[simp] theorem queueGasp_pwr (s : State) (k : Nat) (c : Option LogEntry) : (queueGasp k c s).pwr = s.pwr := rfl
@[simp] theorem queueGasp_boot (s : State) (k : Nat) (c : Option LogEntry) : (queueGasp k c s).boot = s.boot := rfl
@[simp] theorem queueGasp_hif (s : State) (k : Nat) (c : Option LogEntry) : (queueGasp k c s).hif = s.hif := rfl
@[simp] theorem queueGasp_mem (s : State) (k : Nat) (c : Option LogEntry) : (queueGasp k c s).mem = s.mem := rfl
@[simp] theorem queueGasp_fab (s : State) (k : Nat) (c : Option LogEntry) : (queueGasp k c s).fab = s.fab := rfl
@[simp] theorem queueGasp_mov (s : State) (k : Nat) (c : Option LogEntry) : (queueGasp k c s).mov = s.mov := rfl
@[simp] theorem queueGasp_mgp (s : State) (k : Nat) (c : Option LogEntry) : (queueGasp k c s).mgp = s.mgp := rfl
@[simp] theorem queueGasp_elk (s : State) (k : Nat) (c : Option LogEntry) : (queueGasp k c s).elk = s.elk := rfl
@[simp] theorem queueGasp_pgv (s : State) (k : Nat) (c : Option LogEntry) : (queueGasp k c s).pgv = s.pgv := rfl
@[simp] theorem queueGasp_ptu (s : State) (k : Nat) (c : Option LogEntry) : (queueGasp k c s).ptu = s.ptu := rfl
@[simp] theorem queueGasp_sqe (s : State) (k : Nat) (c : Option LogEntry) : (queueGasp k c s).sqe = s.sqe := rfl
@[simp] theorem queueGasp_swe (s : State) (k : Nat) (c : Option LogEntry) : (queueGasp k c s).swe = s.swe := rfl
@[simp] theorem queueGasp_tfu (s : State) (k : Nat) (c : Option LogEntry) : (queueGasp k c s).tfu = s.tfu := rfl
@[simp] theorem queueGasp_fbc (s : State) (k : Nat) (c : Option LogEntry) : (queueGasp k c s).fbc = s.fbc := rfl
@[simp] theorem queueGasp_tmg (s : State) (k : Nat) (c : Option LogEntry) : (queueGasp k c s).tmg = s.tmg := rfl
@[simp] theorem queueGasp_hud (s : State) (k : Nat) (c : Option LogEntry) : (queueGasp k c s).hud = s.hud := rfl
@[simp] theorem queueGasp_mirror (s : State) (k : Nat) (c : Option LogEntry) : (queueGasp k c s).mirror =
    s.mirror := rfl

/-! queueEvent -/

@[simp] theorem queueEvent_pending (s : State) (sev code : Nat) (data : List Byte) : (queueEvent sev code data s).pending =
    s.pending := rfl
@[simp] theorem queueEvent_out (s : State) (sev code : Nat) (data : List Byte) : (queueEvent sev code data s).out =
    s.out := rfl
@[simp] theorem queueEvent_free (s : State) (sev code : Nat) (data : List Byte) : (queueEvent sev code data s).free =
    s.free := rfl
@[simp] theorem queueEvent_dts (s : State) (sev code : Nat) (data : List Byte) : (queueEvent sev code data s).dts =
    s.dts := rfl
@[simp] theorem queueEvent_trimAcc (s : State) (sev code : Nat) (data : List Byte) : (queueEvent sev code data s).trimAcc =
    s.trimAcc := rfl
@[simp] theorem queueEvent_regs (s : State) (sev code : Nat) (data : List Byte) : (queueEvent sev code data s).regs =
    s.regs := rfl
@[simp] theorem queueEvent_err (s : State) (sev code : Nat) (data : List Byte) : (queueEvent sev code data s).err =
    s.err := rfl
@[simp] theorem queueEvent_pwr (s : State) (sev code : Nat) (data : List Byte) : (queueEvent sev code data s).pwr =
    s.pwr := rfl
@[simp] theorem queueEvent_boot (s : State) (sev code : Nat) (data : List Byte) : (queueEvent sev code data s).boot =
    s.boot := rfl
@[simp] theorem queueEvent_hif (s : State) (sev code : Nat) (data : List Byte) : (queueEvent sev code data s).hif =
    s.hif := rfl
@[simp] theorem queueEvent_mem (s : State) (sev code : Nat) (data : List Byte) : (queueEvent sev code data s).mem =
    s.mem := rfl
@[simp] theorem queueEvent_fab (s : State) (sev code : Nat) (data : List Byte) : (queueEvent sev code data s).fab =
    s.fab := rfl
@[simp] theorem queueEvent_mov (s : State) (sev code : Nat) (data : List Byte) : (queueEvent sev code data s).mov =
    s.mov := rfl
@[simp] theorem queueEvent_elk (s : State) (sev code : Nat) (data : List Byte) : (queueEvent sev code data s).elk =
    s.elk := rfl
@[simp] theorem queueEvent_pgv (s : State) (sev code : Nat) (data : List Byte) : (queueEvent sev code data s).pgv =
    s.pgv := rfl
@[simp] theorem queueEvent_ptu (s : State) (sev code : Nat) (data : List Byte) : (queueEvent sev code data s).ptu =
    s.ptu := rfl
@[simp] theorem queueEvent_sqe (s : State) (sev code : Nat) (data : List Byte) : (queueEvent sev code data s).sqe =
    s.sqe := rfl
@[simp] theorem queueEvent_swe (s : State) (sev code : Nat) (data : List Byte) : (queueEvent sev code data s).swe =
    s.swe := rfl
@[simp] theorem queueEvent_tfu (s : State) (sev code : Nat) (data : List Byte) : (queueEvent sev code data s).tfu =
    s.tfu := rfl
@[simp] theorem queueEvent_fbc (s : State) (sev code : Nat) (data : List Byte) : (queueEvent sev code data s).fbc =
    s.fbc := rfl
@[simp] theorem queueEvent_tmg (s : State) (sev code : Nat) (data : List Byte) : (queueEvent sev code data s).tmg =
    s.tmg := rfl
@[simp] theorem queueEvent_hud (s : State) (sev code : Nat) (data : List Byte) : (queueEvent sev code data s).hud =
    s.hud := rfl
@[simp] theorem queueEvent_mirror (s : State) (sev code : Nat) (data : List Byte) : (queueEvent sev code data s).mirror =
    s.mirror := rfl

@[simp] theorem queueGasp_gasp (s : State) (k : Nat) (c : Option LogEntry) :
    (queueGasp k c s).err.gasp = s.err.gasp ++ [⟨k, s.dts, c⟩] := rfl

end Sys2Proof.Laws
end

