-- ==== Sys2Proof/Laws/Log.lean ====
section
/-! SUPPORT. What logging an error leaves alone: everything but outputs, registers, the error unit, fault ring
producers, pending vectors and the event queue. -/

namespace Sys2Proof.Laws

open Sys2Proof.Machine

/-- `t` differs from `s` only in what a log entry touches. -/
structure LogFrame (s t : State) : Prop where
  pending : t.pending = s.pending
  free : t.free = s.free
  dts : t.dts = s.dts
  trimAcc : t.trimAcc = s.trimAcc
  pwr : t.pwr = s.pwr
  boot : t.boot = s.boot
  fab : t.fab = s.fab
  mov : t.mov = s.mov
  elk : t.elk = s.elk
  pgv : t.pgv = s.pgv
  ptu : t.ptu = s.ptu
  sqe : t.sqe = s.sqe
  swe : t.swe = s.swe
  tfu : t.tfu = s.tfu
  fbc : t.fbc = s.fbc
  tmg : t.tmg = s.tmg
  hud : t.hud = s.hud
  mirror : t.mirror = s.mirror
  cells : t.mem.cells = s.mem.cells
  tags : t.mem.tags = s.mem.tags
  poison : t.mem.poison = s.mem.poison
  started : t.hif.started = s.hif.started
  rings : t.hif.rings = s.hif.rings
  fns : t.hif.fns = s.hif.fns
  leases : t.mem.leases = s.mem.leases

/-- Nothing at all changes. -/
theorem LogFrame.refl (s : State) : LogFrame s s := by constructor <;> rfl

/-- One change after another. -/
theorem LogFrame.trans {s t u : State} (h : LogFrame s t) (k : LogFrame t u) : LogFrame s u := by
  cases h; cases k; constructor <;> simp_all

/-- Either branch. -/
theorem LogFrame.ite {s a b : State} {c : Prop} [Decidable c] (h : LogFrame s a) (k : LogFrame s b) :
    LogFrame s (if c then a else b) := by split <;> assumption

/-- A change of the error unit. -/
theorem LogFrame.ofErr {s t : State} {u : ErrUnit} (h : LogFrame s t) : LogFrame s { t with err := u } := by
  cases h; constructor <;> assumption

/-- A change of a class. -/
theorem LogFrame.ofClass {s t : State} {c : Nat} {g : ClassState → ClassState} (h : LogFrame s t) :
    LogFrame s (updClass c g t) :=
  h.ofErr

theorem sendVec_frame {s t : State} {fn vec : Nat} (h : LogFrame s t) : LogFrame s (sendVec fn vec t) := by
  unfold sendVec; repeat' split
  all_goals (cases h; constructor <;> assumption)

theorem hostWrite_frame {s t : State} {fn a : Nat} {d : List Byte} {r : Bool} (h : LogFrame s t) :
    LogFrame s (hostWrite fn a d r t) := by
  unfold hostWrite; split
  all_goals (cases h; constructor <;> assumption)

theorem setRaw_frame {s t : State} {lo v : Nat} (h : LogFrame s t) : LogFrame s (setRaw lo v t) := by
  cases h; constructor <;> assumption

theorem updOwner_fring {s t : State} {o : Nat} {g : Owner → Owner} (h : LogFrame s t) :
    LogFrame s (updOwner o g t) := by
  cases h; constructor <;> assumption

theorem queueEvent_frame {s t : State} {a b : Nat} {d : List Byte} (h : LogFrame s t) :
    LogFrame s (queueEvent a b d t) := by
  cases h; constructor <;> assumption

theorem faultRecord_frame {s t : State} {o : Nat} {i : FaultInfo} (h : LogFrame s t) :
    LogFrame s (faultRecord o i t) := by
  unfold faultRecord; dsimp only
  split
  · exact h
  · split
    · exact setRaw_frame h
    · exact sendVec_frame (updOwner_fring (hostWrite_frame h))

theorem reschedule_frame {s t : State} (h : LogFrame s t) : LogFrame s (reschedule t) := by
  unfold reschedule; dsimp only; repeat' split
  all_goals (cases h; constructor <;> assumption)

theorem errIrq_frame {s t : State} {v : Nat} (h : LogFrame s t) : LogFrame s (errIrq v t) := by
  unfold errIrq; split
  · exact sendVec_frame h
  · exact h

theorem routeEntry_frame {s t : State} {e : LogEntry} (h : LogFrame s t) : LogFrame s (routeEntry e t) := by
  unfold routeEntry; dsimp only
  repeat' first | exact h | with_reducible apply LogFrame.ite | with_reducible apply queueEvent_frame | with_reducible apply errIrq_frame | split | with_reducible apply faultRecord_frame

theorem isolate_frame {s t : State} {e : LogEntry} (h : LogFrame s t) : LogFrame s (isolate e t) := by
  unfold isolate; dsimp only; split
  · exact h
  · exact setRaw_frame h.ofErr

theorem storeEntry_frame {s t : State} {e : ErrEvent} (h : LogFrame s t) : LogFrame s (storeEntry e t) := by
  unfold storeEntry; dsimp only; exact LogFrame.ite h.ofErr h.ofErr

theorem classAfter_frame {s t : State} {x : LogEntry} (h : LogFrame s t) : LogFrame s (classAfter x t) := by
  unfold classAfter; exact LogFrame.ite h.ofClass (LogFrame.ite h.ofClass h)

theorem holdFatal_frame {s t : State} {x : LogEntry} (h : LogFrame s t) : LogFrame s (holdFatal x t) := by
  unfold holdFatal; exact LogFrame.ite h.ofErr h

theorem logCore_frame {s t : State} {e : ErrEvent} (h : LogFrame s t) : LogFrame s (logCore e t).1 := by
  have h1 := holdFatal_frame (x := logEntryOf e t) (classAfter_frame (x := logEntryOf e t) (storeEntry_frame (e := e) h))
  have h2 := LogFrame.ite (c := (logEntryOf e t).isolating = true) (isolate_frame (e := logEntryOf e t) h1) h1
  have h3 := LogFrame.ite (c := isPrimary (logEntryOf e t) = true) (reschedule_frame h2) h2
  exact LogFrame.ite (routeEntry_frame h3) h3

theorem stormCheck_frame {s t : State} {c b : Nat} (h : LogFrame s t) : LogFrame s (stormCheck c b t) := by
  unfold stormCheck; dsimp only; split
  · exact logCore_frame h
  · exact h

/-- Everything a log entry can touch. -/
theorem logErrE_frame {s t : State} {e : ErrEvent} (h : LogFrame s t) : LogFrame s (logErrE e t).1 :=
  stormCheck_frame (logCore_frame h)

/-- Everything a log entry can touch. -/
theorem logErr_frame {s t : State} {e : ErrEvent} (h : LogFrame s t) : LogFrame s (logErr e t) := by
  unfold logErr; split
  · exact logErrE_frame h
  · exact h

/-- A CONFIG entry. -/
theorem logCfgAt_frame {s t : State} {a b c : Nat} {r : Requester} (h : LogFrame s t) :
    LogFrame s (logCfgAt a b c r t) :=
  logErr_frame h

/-- A violation with its fault record. -/
theorem logAccess_frame {s t : State} {c src k tag idx : Nat} {o : Option Nat} {i : FaultInfo} (h : LogFrame s t) :
    LogFrame s (logAccess c o src i k tag idx t) := by
  unfold logAccess; dsimp only; split
  · exact faultRecord_frame (logErr_frame h)
  · exact logErr_frame h

@[simp] theorem logErr_pending (s : State) (e : ErrEvent) : (logErr e s).pending = s.pending :=
  (logErr_frame (LogFrame.refl s)).pending
@[simp] theorem logErr_free (s : State) (e : ErrEvent) : (logErr e s).free = s.free :=
  (logErr_frame (LogFrame.refl s)).free
@[simp] theorem logErr_dts (s : State) (e : ErrEvent) : (logErr e s).dts = s.dts :=
  (logErr_frame (LogFrame.refl s)).dts
@[simp] theorem logErr_trimAcc (s : State) (e : ErrEvent) : (logErr e s).trimAcc = s.trimAcc :=
  (logErr_frame (LogFrame.refl s)).trimAcc
@[simp] theorem logErr_pwr (s : State) (e : ErrEvent) : (logErr e s).pwr = s.pwr :=
  (logErr_frame (LogFrame.refl s)).pwr
@[simp] theorem logErr_boot (s : State) (e : ErrEvent) : (logErr e s).boot = s.boot :=
  (logErr_frame (LogFrame.refl s)).boot
@[simp] theorem logErr_fab (s : State) (e : ErrEvent) : (logErr e s).fab = s.fab :=
  (logErr_frame (LogFrame.refl s)).fab
@[simp] theorem logErr_mov (s : State) (e : ErrEvent) : (logErr e s).mov = s.mov :=
  (logErr_frame (LogFrame.refl s)).mov
@[simp] theorem logErr_elk (s : State) (e : ErrEvent) : (logErr e s).elk = s.elk :=
  (logErr_frame (LogFrame.refl s)).elk
@[simp] theorem logErr_pgv (s : State) (e : ErrEvent) : (logErr e s).pgv = s.pgv :=
  (logErr_frame (LogFrame.refl s)).pgv
@[simp] theorem logErr_ptu (s : State) (e : ErrEvent) : (logErr e s).ptu = s.ptu :=
  (logErr_frame (LogFrame.refl s)).ptu
@[simp] theorem logErr_sqe (s : State) (e : ErrEvent) : (logErr e s).sqe = s.sqe :=
  (logErr_frame (LogFrame.refl s)).sqe
@[simp] theorem logErr_swe (s : State) (e : ErrEvent) : (logErr e s).swe = s.swe :=
  (logErr_frame (LogFrame.refl s)).swe
@[simp] theorem logErr_tfu (s : State) (e : ErrEvent) : (logErr e s).tfu = s.tfu :=
  (logErr_frame (LogFrame.refl s)).tfu
@[simp] theorem logErr_fbc (s : State) (e : ErrEvent) : (logErr e s).fbc = s.fbc :=
  (logErr_frame (LogFrame.refl s)).fbc
@[simp] theorem logErr_tmg (s : State) (e : ErrEvent) : (logErr e s).tmg = s.tmg :=
  (logErr_frame (LogFrame.refl s)).tmg
@[simp] theorem logErr_hud (s : State) (e : ErrEvent) : (logErr e s).hud = s.hud :=
  (logErr_frame (LogFrame.refl s)).hud
@[simp] theorem logErr_mirror (s : State) (e : ErrEvent) : (logErr e s).mirror = s.mirror :=
  (logErr_frame (LogFrame.refl s)).mirror
@[simp] theorem logErr_cells (s : State) (e : ErrEvent) : (logErr e s).mem.cells = s.mem.cells :=
  (logErr_frame (LogFrame.refl s)).cells
@[simp] theorem logErr_tags (s : State) (e : ErrEvent) : (logErr e s).mem.tags = s.mem.tags :=
  (logErr_frame (LogFrame.refl s)).tags
@[simp] theorem logErr_poison (s : State) (e : ErrEvent) : (logErr e s).mem.poison = s.mem.poison :=
  (logErr_frame (LogFrame.refl s)).poison
@[simp] theorem logErr_started (s : State) (e : ErrEvent) : (logErr e s).hif.started = s.hif.started :=
  (logErr_frame (LogFrame.refl s)).started
@[simp] theorem logErr_rings (s : State) (e : ErrEvent) : (logErr e s).hif.rings = s.hif.rings :=
  (logErr_frame (LogFrame.refl s)).rings
@[simp] theorem logErr_fns (s : State) (e : ErrEvent) : (logErr e s).hif.fns = s.hif.fns :=
  (logErr_frame (LogFrame.refl s)).fns
@[simp] theorem logErr_leases (s : State) (e : ErrEvent) : (logErr e s).mem.leases = s.mem.leases :=
  (logErr_frame (LogFrame.refl s)).leases

@[simp] theorem logErrE_pending (s : State) (e : ErrEvent) : (logErrE e s).1.pending = s.pending :=
  (logErrE_frame (LogFrame.refl s)).pending
@[simp] theorem logErrE_free (s : State) (e : ErrEvent) : (logErrE e s).1.free = s.free :=
  (logErrE_frame (LogFrame.refl s)).free
@[simp] theorem logErrE_dts (s : State) (e : ErrEvent) : (logErrE e s).1.dts = s.dts :=
  (logErrE_frame (LogFrame.refl s)).dts
@[simp] theorem logErrE_trimAcc (s : State) (e : ErrEvent) : (logErrE e s).1.trimAcc = s.trimAcc :=
  (logErrE_frame (LogFrame.refl s)).trimAcc
@[simp] theorem logErrE_pwr (s : State) (e : ErrEvent) : (logErrE e s).1.pwr = s.pwr :=
  (logErrE_frame (LogFrame.refl s)).pwr
@[simp] theorem logErrE_boot (s : State) (e : ErrEvent) : (logErrE e s).1.boot = s.boot :=
  (logErrE_frame (LogFrame.refl s)).boot
@[simp] theorem logErrE_fab (s : State) (e : ErrEvent) : (logErrE e s).1.fab = s.fab :=
  (logErrE_frame (LogFrame.refl s)).fab
@[simp] theorem logErrE_mov (s : State) (e : ErrEvent) : (logErrE e s).1.mov = s.mov :=
  (logErrE_frame (LogFrame.refl s)).mov
@[simp] theorem logErrE_elk (s : State) (e : ErrEvent) : (logErrE e s).1.elk = s.elk :=
  (logErrE_frame (LogFrame.refl s)).elk
@[simp] theorem logErrE_pgv (s : State) (e : ErrEvent) : (logErrE e s).1.pgv = s.pgv :=
  (logErrE_frame (LogFrame.refl s)).pgv
@[simp] theorem logErrE_ptu (s : State) (e : ErrEvent) : (logErrE e s).1.ptu = s.ptu :=
  (logErrE_frame (LogFrame.refl s)).ptu
@[simp] theorem logErrE_sqe (s : State) (e : ErrEvent) : (logErrE e s).1.sqe = s.sqe :=
  (logErrE_frame (LogFrame.refl s)).sqe
@[simp] theorem logErrE_swe (s : State) (e : ErrEvent) : (logErrE e s).1.swe = s.swe :=
  (logErrE_frame (LogFrame.refl s)).swe
@[simp] theorem logErrE_tfu (s : State) (e : ErrEvent) : (logErrE e s).1.tfu = s.tfu :=
  (logErrE_frame (LogFrame.refl s)).tfu
@[simp] theorem logErrE_fbc (s : State) (e : ErrEvent) : (logErrE e s).1.fbc = s.fbc :=
  (logErrE_frame (LogFrame.refl s)).fbc
@[simp] theorem logErrE_tmg (s : State) (e : ErrEvent) : (logErrE e s).1.tmg = s.tmg :=
  (logErrE_frame (LogFrame.refl s)).tmg
@[simp] theorem logErrE_hud (s : State) (e : ErrEvent) : (logErrE e s).1.hud = s.hud :=
  (logErrE_frame (LogFrame.refl s)).hud
@[simp] theorem logErrE_mirror (s : State) (e : ErrEvent) : (logErrE e s).1.mirror = s.mirror :=
  (logErrE_frame (LogFrame.refl s)).mirror
@[simp] theorem logErrE_cells (s : State) (e : ErrEvent) : (logErrE e s).1.mem.cells = s.mem.cells :=
  (logErrE_frame (LogFrame.refl s)).cells
@[simp] theorem logErrE_tags (s : State) (e : ErrEvent) : (logErrE e s).1.mem.tags = s.mem.tags :=
  (logErrE_frame (LogFrame.refl s)).tags
@[simp] theorem logErrE_poison (s : State) (e : ErrEvent) : (logErrE e s).1.mem.poison = s.mem.poison :=
  (logErrE_frame (LogFrame.refl s)).poison
@[simp] theorem logErrE_started (s : State) (e : ErrEvent) : (logErrE e s).1.hif.started = s.hif.started :=
  (logErrE_frame (LogFrame.refl s)).started
@[simp] theorem logErrE_rings (s : State) (e : ErrEvent) : (logErrE e s).1.hif.rings = s.hif.rings :=
  (logErrE_frame (LogFrame.refl s)).rings
@[simp] theorem logErrE_fns (s : State) (e : ErrEvent) : (logErrE e s).1.hif.fns = s.hif.fns :=
  (logErrE_frame (LogFrame.refl s)).fns
@[simp] theorem logErrE_leases (s : State) (e : ErrEvent) : (logErrE e s).1.mem.leases = s.mem.leases :=
  (logErrE_frame (LogFrame.refl s)).leases

@[simp] theorem logCfgAt_pending (s : State) (a b c : Nat) (r : Requester) : (logCfgAt a b c r s).pending = s.pending :=
  (logCfgAt_frame (LogFrame.refl s)).pending
@[simp] theorem logCfgAt_free (s : State) (a b c : Nat) (r : Requester) : (logCfgAt a b c r s).free = s.free :=
  (logCfgAt_frame (LogFrame.refl s)).free
@[simp] theorem logCfgAt_dts (s : State) (a b c : Nat) (r : Requester) : (logCfgAt a b c r s).dts = s.dts :=
  (logCfgAt_frame (LogFrame.refl s)).dts
@[simp] theorem logCfgAt_trimAcc (s : State) (a b c : Nat) (r : Requester) : (logCfgAt a b c r s).trimAcc = s.trimAcc :=
  (logCfgAt_frame (LogFrame.refl s)).trimAcc
@[simp] theorem logCfgAt_pwr (s : State) (a b c : Nat) (r : Requester) : (logCfgAt a b c r s).pwr = s.pwr :=
  (logCfgAt_frame (LogFrame.refl s)).pwr
@[simp] theorem logCfgAt_boot (s : State) (a b c : Nat) (r : Requester) : (logCfgAt a b c r s).boot = s.boot :=
  (logCfgAt_frame (LogFrame.refl s)).boot
@[simp] theorem logCfgAt_fab (s : State) (a b c : Nat) (r : Requester) : (logCfgAt a b c r s).fab = s.fab :=
  (logCfgAt_frame (LogFrame.refl s)).fab
@[simp] theorem logCfgAt_mov (s : State) (a b c : Nat) (r : Requester) : (logCfgAt a b c r s).mov = s.mov :=
  (logCfgAt_frame (LogFrame.refl s)).mov
@[simp] theorem logCfgAt_elk (s : State) (a b c : Nat) (r : Requester) : (logCfgAt a b c r s).elk = s.elk :=
  (logCfgAt_frame (LogFrame.refl s)).elk
@[simp] theorem logCfgAt_pgv (s : State) (a b c : Nat) (r : Requester) : (logCfgAt a b c r s).pgv = s.pgv :=
  (logCfgAt_frame (LogFrame.refl s)).pgv
@[simp] theorem logCfgAt_ptu (s : State) (a b c : Nat) (r : Requester) : (logCfgAt a b c r s).ptu = s.ptu :=
  (logCfgAt_frame (LogFrame.refl s)).ptu
@[simp] theorem logCfgAt_sqe (s : State) (a b c : Nat) (r : Requester) : (logCfgAt a b c r s).sqe = s.sqe :=
  (logCfgAt_frame (LogFrame.refl s)).sqe
@[simp] theorem logCfgAt_swe (s : State) (a b c : Nat) (r : Requester) : (logCfgAt a b c r s).swe = s.swe :=
  (logCfgAt_frame (LogFrame.refl s)).swe
@[simp] theorem logCfgAt_tfu (s : State) (a b c : Nat) (r : Requester) : (logCfgAt a b c r s).tfu = s.tfu :=
  (logCfgAt_frame (LogFrame.refl s)).tfu
@[simp] theorem logCfgAt_fbc (s : State) (a b c : Nat) (r : Requester) : (logCfgAt a b c r s).fbc = s.fbc :=
  (logCfgAt_frame (LogFrame.refl s)).fbc
@[simp] theorem logCfgAt_tmg (s : State) (a b c : Nat) (r : Requester) : (logCfgAt a b c r s).tmg = s.tmg :=
  (logCfgAt_frame (LogFrame.refl s)).tmg
@[simp] theorem logCfgAt_hud (s : State) (a b c : Nat) (r : Requester) : (logCfgAt a b c r s).hud = s.hud :=
  (logCfgAt_frame (LogFrame.refl s)).hud
@[simp] theorem logCfgAt_mirror (s : State) (a b c : Nat) (r : Requester) : (logCfgAt a b c r s).mirror = s.mirror :=
  (logCfgAt_frame (LogFrame.refl s)).mirror
@[simp] theorem logCfgAt_cells (s : State) (a b c : Nat) (r : Requester) : (logCfgAt a b c r s).mem.cells = s.mem.cells :=
  (logCfgAt_frame (LogFrame.refl s)).cells
@[simp] theorem logCfgAt_tags (s : State) (a b c : Nat) (r : Requester) : (logCfgAt a b c r s).mem.tags = s.mem.tags :=
  (logCfgAt_frame (LogFrame.refl s)).tags
@[simp] theorem logCfgAt_poison (s : State) (a b c : Nat) (r : Requester) : (logCfgAt a b c r s).mem.poison = s.mem.poison :=
  (logCfgAt_frame (LogFrame.refl s)).poison
@[simp] theorem logCfgAt_started (s : State) (a b c : Nat) (r : Requester) : (logCfgAt a b c r s).hif.started = s.hif.started :=
  (logCfgAt_frame (LogFrame.refl s)).started
@[simp] theorem logCfgAt_rings (s : State) (a b c : Nat) (r : Requester) : (logCfgAt a b c r s).hif.rings = s.hif.rings :=
  (logCfgAt_frame (LogFrame.refl s)).rings
@[simp] theorem logCfgAt_fns (s : State) (a b c : Nat) (r : Requester) : (logCfgAt a b c r s).hif.fns = s.hif.fns :=
  (logCfgAt_frame (LogFrame.refl s)).fns
@[simp] theorem logCfgAt_leases (s : State) (a b c : Nat) (r : Requester) : (logCfgAt a b c r s).mem.leases = s.mem.leases :=
  (logCfgAt_frame (LogFrame.refl s)).leases

end Sys2Proof.Laws
end

