-- ==== Sys2Proof/Laws/Cause.lean ====
section
/-! SUPPORT. Bits of ISL_RST_CAUSE that are set stay set through an entry that names no owner, and last-gasp records
are only added. -/

namespace Sys2Proof.Laws

open Sys2Proof.Machine

/-- What `t` keeps of `s` beside a log entry: the reset causes that were set, and the last-gasp records due. -/
structure CauseFrame (s t : State) : Prop where
  cause : ∀ i, bitOf (rawAt s 0x2C00120) i = true → bitOf (rawAt t 0x2C00120) i = true
  gasp : ∃ x, t.err.gasp = s.err.gasp ++ x

theorem CauseFrame.refl (s : State) : CauseFrame s s := ⟨fun _ h => h, [], by simp⟩

theorem CauseFrame.trans {s t u : State} (h : CauseFrame s t) (k : CauseFrame t u) : CauseFrame s u := by
  obtain ⟨x, hx⟩ := h.gasp
  obtain ⟨y, hy⟩ := k.gasp
  exact ⟨fun i a => k.cause i (h.cause i a), x ++ y, by rw [hy, hx, List.append_assoc]⟩

theorem CauseFrame.ite {s a b : State} {c : Prop} [Decidable c] (h : CauseFrame s a) (k : CauseFrame s b) :
    CauseFrame s (if c then a else b) := by split <;> assumption

/-- Registers and last-gasp records as they were. -/
theorem CauseFrame.same {s t : State} (h : t.regs = s.regs) (k : t.err.gasp = s.err.gasp) : CauseFrame s t :=
  ⟨fun i a => by simpa [rawAt, h] using a, [], by simp [k]⟩

theorem bitOf_or (a b i : Nat) : bitOf (a ||| b) i = (bitOf a i || bitOf b i) := by simp [bitOf]

/-- A register's bits set by the device read 1 (R3), where the mask has 64 bits at most. -/
theorem rawAt_orReg (s : State) (lo m : Nat) (h : m < 2 ^ 64) : rawAt (orReg lo m s) lo = rawAt s lo ||| m := by
  rw [orReg, rawAt_setRaw, Nat.mod_eq_of_lt]
  exact Nat.or_lt_two_pow (rawAt_lt s lo) h

theorem sendVec_cause (fn vec : Nat) (s : State) : CauseFrame s (sendVec fn vec s) := by
  unfold sendVec; repeat' split
  all_goals exact .same rfl rfl

theorem reschedule_cause (s : State) : CauseFrame s (reschedule s) := by
  unfold reschedule; dsimp only; repeat' split
  all_goals exact .same rfl rfl

theorem isolate_cause (e : LogEntry) (s : State) : CauseFrame s (isolate e s) := by
  unfold isolate; dsimp only; split
  · exact .refl s
  · refine ⟨fun i a => ?_, [⟨4, s.dts, some e⟩], rfl⟩
    rw [rawAt_orReg _ _ _ (by decide), bitOf_or]
    simp only [rawAt] at a ⊢
    simp [a]

theorem routeEntry_cause (e : LogEntry) (s : State) (h : e.owner = none) : CauseFrame s (routeEntry e s) := by
  unfold routeEntry; dsimp only
  have k : CauseFrame s (errIrq e.sev s) := by
    unfold errIrq; split
    · exact sendVec_cause _ _ s
    · exact .refl s
  have k2 : ∀ t : State, CauseFrame s t → CauseFrame s (queueEvent e.sev 0x0600 (leBytes 8 e.seq ++ leBytes 1 e.cls) t) :=
    fun t a => a.trans (.same rfl rfl)
  split
  · exact .refl s
  · simp only [h]
    split <;> split <;> first | exact k | exact k2 _ k

theorem storeEntry_cause (e : ErrEvent) (s : State) : CauseFrame s (storeEntry e s) := by
  have h1 : (storeEntry e s).regs = s.regs := by
    cases h : merging e s <;> simp [storeEntry, h]
  have h2 : (storeEntry e s).err.gasp = s.err.gasp := by
    cases h : merging e s <;> simp [storeEntry, h]
  exact .same h1 h2

theorem classAfter_cause (x : LogEntry) (s : State) : CauseFrame s (classAfter x s) := by
  unfold classAfter; repeat' split
  all_goals exact .same rfl rfl

theorem holdFatal_cause (x : LogEntry) (s : State) : CauseFrame s (holdFatal x s) := by
  unfold holdFatal; split <;> exact .same rfl rfl

theorem logCore_cause (e : ErrEvent) (s : State) (h : e.owner = none) : CauseFrame s (logCore e s).1 := by
  unfold logCore
  dsimp only
  have ho : (logEntryOf e s).owner = none := h
  generalize logEntryOf e s = x at ho
  have h3 := ((storeEntry_cause e s).trans (classAfter_cause x _)).trans (holdFatal_cause x _)
  generalize holdFatal x (classAfter x (storeEntry e s)) = t at h3
  have h4 := CauseFrame.ite (c := x.isolating = true) (h3.trans (isolate_cause x _)) h3
  have h5 := CauseFrame.ite (c := isPrimary x = true) (h4.trans (reschedule_cause _)) h4
  exact CauseFrame.ite (h5.trans (routeEntry_cause _ _ ho)) h5

/-- An entry that names no owner keeps the reset causes and adds last-gasp records only. -/
theorem logErrE_cause (e : ErrEvent) (s : State) (h : e.owner = none) : CauseFrame s (logErrE e s).1 := by
  unfold logErrE; dsimp only
  refine (logCore_cause e s h).trans ?_
  unfold stormCheck; dsimp only; split
  · exact logCore_cause _ _ rfl
  · exact .refl _

/-- The same of `logErr`. -/
theorem logErr_cause (e : ErrEvent) (s : State) (h : e.owner = none) : CauseFrame s (logErr e s) := by
  unfold logErr; split
  · exact logErrE_cause e s h
  · exact .refl s

end Sys2Proof.Laws
end

