-- ==== Sys2Proof/Laws/RegWrite.lean ====
section
/-! SUPPORT. What a register write by a requester that reaches the register comes to. -/

namespace Sys2Proof.Laws

open Sys2Proof.Machine Sys2Proof.Safety

/-- A requester that reaches the registers writes one 32-bit register. -/
theorem regWrite_word {s : State} {r : Requester} {cons : Cons} {off v : Nat} {d : RegDef}
    (h : reaches s r) (hr : findReg off = some (d, off)) (hw : d.width = 32) (ha : off % 4 = 0)
    (hs : absentStride off = false) (hb : off < 0x4000000) :
    regWrite cons r off 4 v s = commitReg cons r off d off (v % 2 ^ 32) s := by
  obtain ⟨hp, hn⟩ := h
  have hacc : accessOffset s r off = some off := by
    cases r <;> simp [accessOffset, hb]
    rename_i n; simp [viewOffset, hn n rfl, hb]
  have hv : viewShut s r = false := by
    cases r <;> simp [viewShut]
    rename_i n; simp [hn n rfl]
  simp [regWrite, hp, servedWrite, widthOk, ha, hacc, hs, hv, writeReg, writeWord, hr, hw]

/-- The mirror, the island and the MMP path may write every register outside the ring block and the bindings. -/
theorem ringForeign_out (r : Requester) (lo : Nat) (s : State) (h : lo < 0x400000 ∨ 0x411000 ≤ lo) :
    ringForeign r lo s = false := by
  have h1 : isRingReg lo = false := by simp [isRingReg]; omega
  have h2 : ¬ (0x410000 ≤ lo ∧ lo < 0x411000) := by omega
  unfold ringForeign
  split
  · simp [h1]
  · rfl
  · simp only [h1, Bool.false_and, Bool.false_or, Bool.and_eq_false_iff, decide_eq_false_iff_not]
    omega

/-- A write that R6 passes with no lock in force: the fields are stored, then the register acts. -/
theorem commitReg_plain {s : State} {r : Requester} {cons : Cons} {off lo v : Nat} {d : RegDef}
    (h1 : d.readOnly = false) (h2 : d.reserved v = false) (h3 : crossReserved lo (rawAt s lo) v s = false)
    (h4 : lockOn lo s = false) (h5 : ringForeign r lo s = false) (h6 : lo < 0x2908000 ∨ 0x290C000 ≤ lo)
    (h7 : lo ≠ 0x2200000) :
    commitReg cons r off d lo v s =
      writeHook cons r lo (rawAt s lo) v false (setRaw lo (d.flds.foldl (storeFld false v) (rawAt s lo)) s) := by
  have h8 : ¬ (0x2908000 ≤ lo ∧ lo < 0x290C000) := by omega
  simp [commitReg, h1, h2, h3, h4, h5, h7, h8]

/-- A requester that reaches the registers writes one 32-bit register, and R6 passes the value. -/
theorem regWrite_plain {s : State} {r : Requester} {cons : Cons} {off v : Nat} {d : RegDef}
    (h : reaches s r) (hr : findReg off = some (d, off)) (hw : d.width = 32) (ha : off % 4 = 0)
    (hs : absentStride off = false) (hb : off < 0x4000000) (hv : v < 2 ^ 32)
    (h1 : d.readOnly = false) (h2 : d.reserved v = false) (h3 : crossReserved off (rawAt s off) v s = false)
    (h4 : lockOn off s = false) (h5 : ringForeign r off s = false) (h6 : off < 0x2908000 ∨ 0x290C000 ≤ off)
    (h7 : off ≠ 0x2200000) :
    regWrite cons r off 4 v s =
      writeHook cons r off (rawAt s off) v false (setRaw off (d.flds.foldl (storeFld false v) (rawAt s off)) s) := by
  rw [regWrite_word h hr hw ha hs hb, Nat.mod_eq_of_lt hv]
  exact commitReg_plain h1 h2 h3 h4 h5 h6 h7

/-- A plain write stores the fields, then the register acts. -/
theorem regWrite_written {s : State} {r : Requester} {cons : Cons} {off lo v : Nat} {d : RegDef}
    (h : writesPlain s r off lo d v) (h6 : lo < 0x2908000 ∨ 0x290C000 ≤ lo) (h7 : lo ≠ 0x2200000) :
    regWrite cons r off 4 v s = writeHook cons r lo (rawAt s lo) v false (written s lo d v) := by
  obtain ⟨a1, a2, a3, a4, a5, a6, a7, a8, a9, a10, a11, a12, a13⟩ := h
  simp only [regWrite, a1, servedWrite, widthOk, a3, a4, a2, writeReg, writeWord, a6, a7]
  simp only [commitReg_plain (cons := cons) (off := off) a9 a10 a11 a12 a13 h6 h7, Nat.mod_eq_of_lt a8, a5, written]
  simp

/-- A write that a lock may govern, but that changes no field under it. -/
theorem regWrite_stored {s : State} {r : Requester} {cons : Cons} {off lo v : Nat} {d : RegDef}
    (h : writesLocked s r off lo d v) (h6 : lo < 0x2908000 ∨ 0x290C000 ≤ lo) (h7 : lo ≠ 0x2200000) :
    regWrite cons r off 4 v s = writeHook cons r lo (rawAt s lo) v (lockOn lo s) (stored s lo d v) := by
  obtain ⟨a1, a2, a3, a4, a5, a6, a7, a8, a9, a10, a11, a12, a13⟩ := h
  have h8 : ¬ (0x2908000 ≤ lo ∧ lo < 0x290C000) := by omega
  have h9 : v % 4294967296 = v := by omega
  simp [regWrite, a1, servedWrite, widthOk, a3, a4, a2, writeReg, writeWord, a6, a7, commitReg, a9, a10, a11, a12, a13,
    h7, h8, h9, a5, stored]

/-- An image below 2^64 is stored as it is. -/
theorem rawAt_written {s : State} {lo v : Nat} {d : RegDef}
    (h : d.flds.foldl (storeFld false v) (rawAt s lo) < 2 ^ 64) :
    rawAt (written s lo d v) lo = d.flds.foldl (storeFld false v) (rawAt s lo) := by
  rw [written, rawAt_setRaw, Nat.mod_eq_of_lt h]

end Sys2Proof.Laws
end

