-- ==== Sys2Proof/Laws/Ring.lean ====
section
/-! SUPPORT. The registers of the command rings, and what a write of one comes to. -/

namespace Sys2Proof.Laws

open Sys2Proof Sys2Proof.Machine Sys2Proof.Safety

/-- The fields of every CMD_RING_CTRL. -/
theorem ctrl_tab : ∀ q < 1024, (match findReg (ringReg q 8) with
    | some (d, _) => decide (d.flds = [rw 31 31, rw 30 30, rw 29 29, rw 23 20 4 (.rng 4 15), rw 19 16 4 (.rng 4 15), rw 15 15, rw 10 0])
    | none => false) = true := by decide +kernel

/-- The field of every CMD_RING_TAIL. -/
theorem tail_tab : ∀ q < 1024, (match findReg (ringReg q 0x10) with
    | some (d, _) => decide (d.flds = [rw 31 0])
    | none => false) = true := by decide +kernel

/-- The fields of CMD_RING_CTRL. -/
theorem ctrl_flds {q lo : Nat} {d : RegDef} (hq : q < 1024) (h : findReg (ringReg q 8) = some (d, lo)) :
    d.flds = [rw 31 31, rw 30 30, rw 29 29, rw 23 20 4 (.rng 4 15), rw 19 16 4 (.rng 4 15), rw 15 15, rw 10 0] := by
  have := ctrl_tab q hq
  rw [h] at this; simpa using this

/-- The field of CMD_RING_TAIL. -/
theorem tail_flds {q lo : Nat} {d : RegDef} (hq : q < 1024) (h : findReg (ringReg q 0x10) = some (d, lo)) :
    d.flds = [rw 31 0] := by
  have := tail_tab q hq
  rw [h] at this; simpa using this

/-- Replacing a field below bit `n` keeps a number below 2^n. -/
theorem setFld_lt (n : Nat) {v hi lo x : Nat} (h : v < 2 ^ n) (hh : hi < n) (hl : lo ≤ hi) : setFld v hi lo x < 2 ^ n := by
  apply Nat.lt_pow_two_of_testBit
  intro i hi'
  rw [testBit_setFld]
  have : v.testBit i = false := Nat.testBit_lt_two_pow (Nat.lt_of_lt_of_le h (Nat.pow_le_pow_right (by decide) hi'))
  rw [this]
  simp; omega

/-- Bit 31 of a word whose bit 31 was set to `b`. -/
theorem e_bit (v b : Nat) (hb : b < 2) : (fld (setFld v 31 31 b) 31 31).testBit 0 = decide (b = 1) := by
  rw [testBit_fld, testBit_setFld]
  have h2 : b = 0 ∨ b = 1 := by omega
  rcases h2 with rfl | rfl <;> simp

/-- CMD_RING_CTRL stays in its word. -/
theorem ctrl_lt (n w a1 a2 a3 a4 a5 a6 a7 : Nat) (hn : 32 ≤ n) (hw : w < 2 ^ n) :
    setFld (setFld (setFld (setFld (setFld (setFld (setFld w 31 31 a1) 30 30 a2) 29 29 a3) 23 20 a4) 19 16 a5) 15 15 a6) 10 0 a7 < 2 ^ n := by
  refine setFld_lt n ?_ (by omega) (by omega)
  refine setFld_lt n ?_ (by omega) (by omega)
  refine setFld_lt n ?_ (by omega) (by omega)
  refine setFld_lt n ?_ (by omega) (by omega)
  refine setFld_lt n ?_ (by omega) (by omega)
  refine setFld_lt n ?_ (by omega) (by omega)
  exact setFld_lt n hw (by omega) (by omega)

/-- EN is the bit last stored there. -/
theorem ctrl_bit (w a1 a2 a3 a4 a5 a6 a7 : Nat) :
    (setFld (setFld (setFld (setFld (setFld (setFld (setFld w 31 31 a1) 30 30 a2) 29 29 a3) 23 20 a4) 19 16 a5) 15 15 a6) 10 0 a7).testBit 31 = a1.testBit 0 := by
  simp [testBit_setFld]

/-- What CMD_RING_CTRL holds after a write with EN `b`. -/
theorem ctrl_img (n w v b : Nat) (hn : 32 ≤ n) (hw : w < 2 ^ n) (hb : b < 2) (l : List Fld) (hl : l = [rw 31 31, rw 30 30, rw 29 29, rw 23 20 4 (.rng 4 15), rw 19 16 4 (.rng 4 15), rw 15 15, rw 10 0]) :
    l.foldl (storeFld false (setFld v 31 31 b)) w < 2 ^ n ∧
    (l.foldl (storeFld false (setFld v 31 31 b)) w).testBit 31 = decide (b = 1) := by
  have e := e_bit v b hb
  generalize setFld v 31 31 b = x at e ⊢
  rw [hl]
  have h : ∀ a hi lo r g, storeFld false x a (rw hi lo r g) = setFld a hi lo (fld x hi lo) := fun _ _ _ _ _ => rfl
  rw [List.foldl_cons, List.foldl_cons, List.foldl_cons, List.foldl_cons, List.foldl_cons, List.foldl_cons, List.foldl_cons, List.foldl_nil]
  rw [h, h, h, h, h, h, h]
  exact ⟨ctrl_lt n w _ _ _ _ _ _ _ hn hw, (ctrl_bit w _ _ _ _ _ _ _).trans e⟩

/-- EN reads what was written. -/
theorem en_bit (s : State) (q v : Nat) (d : RegDef) (b : Nat) (hq : q < 1024) (hf : ∃ lo, findReg (ringReg q 8) = some (d, lo)) (hb : b < 2) :
    regBit (written s (ringReg q 8) d (setFld v 31 31 b)) (ringReg q 8) 31 = decide (b = 1) := by
  obtain ⟨lo, hf⟩ := hf
  have h := ctrl_img 64 (rawAt s (ringReg q 8)) v b (by omega) (rawAt_lt _ _) hb d.flds (ctrl_flds hq hf)
  rw [regBit, rawAt_written h.1]
  exact h.2

/-- The ring of a ring register. -/
theorem ringOfReg_ringReg (q k : Nat) (hk : k < 0x40) : ringOfReg (ringReg q k) = q := by
  unfold ringOfReg ringReg; omega

/-- The offset of a ring register in its ring. -/
theorem ringReg_mod (q k : Nat) (hk : k < 0x40) : ringReg q k % 0x40 = k := by unfold ringReg; omega

/-- The last ring register lies in the block. -/
theorem ringReg_top (z k : Nat) (hz : z ≤ 65472) (hk : k < 0x40) : 4194304 + z + k < 4259840 := by omega

/-- A ring register lies in its block. -/
theorem isRingReg_ringReg (q k : Nat) (hq : q < 1024) (hk : k < 0x40) : isRingReg (ringReg q k) = true ∧ ringReg q k < 0x410000 := by
  have h := Nat.mul_le_mul_right 0x40 (Nat.le_of_lt_succ hq)
  have := ringReg_top (q * 0x40) k h hk
  unfold isRingReg
  rw [Bool.and_eq_true, decide_eq_true_eq, decide_eq_true_eq]
  unfold ringReg
  exact ⟨⟨by omega, this⟩, this⟩

/-- Where a ring register lies. -/
theorem ring_addr (q k : Nat) (hq : q < 1024) (hk : k < 0x40) : isRingReg (ringReg q k) = true ∧ ringOfReg (ringReg q k) = q ∧ ringReg q k % 0x40 = k ∧ ringReg q k < 0x410000 :=
  ⟨(isRingReg_ringReg q k hq hk).1, ringOfReg_ringReg q k hk, ringReg_mod q k hk, (isRingReg_ringReg q k hq hk).2⟩

/-- What a write of a ring register does. -/
theorem hook_ring (cons : Cons) (r : Requester) (q k old new : Nat) (l : Bool) (s : State) (hq : q < 1024) (hk : k < 0x40) :
    writeHook cons r (ringReg q k) old new l s = (if k = 8 then ringCtrlWritten q s
    else if k = 0x10 then doorbell q s
    else if k = 0x20 then maybeDisabled q (drainCq q (ringAt s q).held.length s)
    else s) := by
  obtain ⟨a, b, c, e⟩ := ring_addr q k hq hk
  have h1 : ringReg q k < 0x2200000 := by omega
  have h2 : ¬ ringReg q k = 0x100020 := by simp [isRingReg] at a; omega
  simp only [writeHook, h1, true_or, if_true, hostHook, h2, if_false, a, b, c]

/-- A plain write of a ring register. -/
theorem regWrite_ring {s : State} {r : Requester} {off q k v : Nat} {d : RegDef} {cons : Cons} (hq : q < 1024)
    (hk : k < 0x40) (h : writesPlain s r off (ringReg q k) d v) :
    regWrite cons r off 4 v s = (if k = 8 then ringCtrlWritten q (written s (ringReg q k) d v)
      else if k = 0x10 then doorbell q (written s (ringReg q k) d v)
      else if k = 0x20 then maybeDisabled q (drainCq q (ringAt s q).held.length (written s (ringReg q k) d v))
      else written s (ringReg q k) d v) := by
  obtain ⟨_, _, _, e⟩ := ring_addr q k hq hk
  rw [regWrite_written h (by omega) (by omega), hook_ring _ _ _ _ _ _ _ _ hq hk]
  rfl

end Sys2Proof.Laws
end

