-- ==== Sys2Proof/Laws/Link.lean ====
section
/-! SUPPORT. The registers of the link, and its ports after a change. -/

namespace Sys2Proof.Laws

open Sys2Proof Sys2Proof.Machine Sys2Proof.Safety

/-- A field as a quotient and a remainder. -/
theorem fld_div (v hi lo : Nat) : fld v hi lo = v / 2 ^ lo % 2 ^ (hi + 1 - lo) := by
  simp [fld, Nat.shiftRight_eq_div_pow]

/-- A port after a change of that port. -/
@[simp] theorem portAt_updPort (p : Nat) (f : Port → Port) (s : State) : portAt (updPort p f s) p = f (portAt s p) := by
  simp [portAt, updPort, updElk, Tbl.upd]

/-- The field of every ELK_PORT_CTRL. -/
theorem port_tab : ∀ p < 4, (match findReg (0x2000000 + 0x100 * p) with
    | some (d, _) => decide (d.flds = [rw 31 31 1])
    | none => false) = true := by decide +kernel

/-- The field of ELK_PORT_CTRL. -/
theorem port_flds {p lo : Nat} {d : RegDef} (hp : p < 4) (h : findReg (0x2000000 + 0x100 * p) = some (d, lo)) :
    d.flds = [rw 31 31 1] := by
  have := port_tab p hp
  rw [h] at this
  simpa using this

/-- EN reads what was written. -/
theorem port_en (s : State) (p b : Nat) (d : RegDef) (hp : p < 4)
    (hf : ∃ lo, findReg (0x2000000 + 0x100 * p) = some (d, lo)) (hb : b < 2) :
    regBit (written s (0x2000000 + 0x100 * p) d (b * 2 ^ 31)) (0x2000000 + 0x100 * p) 31 = decide (b = 1) := by
  obtain ⟨lo, hf⟩ := hf
  have e : d.flds.foldl (storeFld false (b * 2 ^ 31)) (rawAt s (0x2000000 + 0x100 * p)) =
      setFld (rawAt s (0x2000000 + 0x100 * p)) 31 31 (fld (b * 2 ^ 31) 31 31) := by
    rw [port_flds hp hf, List.foldl_cons, List.foldl_nil]
    rfl
  have hlt : d.flds.foldl (storeFld false (b * 2 ^ 31)) (rawAt s (0x2000000 + 0x100 * p)) < 2 ^ 64 := by
    rw [e]
    exact setFld_lt 64 (rawAt_lt _ _) (by omega) (by omega)
  rw [regBit, rawAt_written hlt, e]
  unfold bitOf
  rw [testBit_setFld, if_pos (by omega)]
  have h2 : b = 0 ∨ b = 1 := by omega
  rcases h2 with rfl | rfl <;> decide

/-- A write of ELK_PORT_CTRL acts on its port. -/
theorem port_hook (cons : Cons) (r : Requester) (p o v : Nat) (l : Bool) (t : State) (hp : p < 4) :
    writeHook cons r (0x2000000 + 0x100 * p) o v l t = portCtrlWritten cons p t := by
  have h4 : p = 0 ∨ p = 1 ∨ p = 2 ∨ p = 3 := by omega
  rcases h4 with rfl | rfl | rfl | rfl <;> rfl

/-- A plain write of ELK_CMD is a command. -/
theorem regWrite_elk {s : State} {r : Requester} {cons : Cons} {d : RegDef} {v : Nat}
    (h : writesPlain s r 0x2008028 0x2008028 d v) :
    regWrite cons r 0x2008028 4 v s = elkCmd cons v (written s 0x2008028 d v) := by
  rw [regWrite_written h (by decide) (by decide)]
  rfl

/-- A port in UP or QUARANTINE sends a stored flit first, else a new one. -/
theorem flitTransmit_ready {s : State} {p : Nat} (h1 : linkRuns s = true)
    (h2 : (portAt s p).st = .up ∨ (portAt s p).st = .quarantine) :
    flitTransmit p s = match (portAt s p).resend with
      | f :: rest => emit (.flit p f)
          (updPort p (fun y => { y with resend := rest, replay := satInc 0xFFFFFFFF y.replay }) s)
      | [] => newFlit p s := by
  simp only [flitTransmit]
  refine (if_neg (by rcases h2 with h2 | h2 <;> simp [h1, h2])).trans ?_
  cases (portAt s p).resend <;> rfl

end Sys2Proof.Laws
end

