-- ==== Sys2Proof/Laws/Memory.lean ====
section
/-! SUPPORT. Stored memory: what a store can change, that it keeps the canonical form, and what reads back. -/

namespace Sys2Proof.Laws

open Sys2Proof Sys2Proof.Machine Sys2Proof.Safety

/-! The canonical form -/

/-- The canonical form, one entry at a time. -/
theorem canon_cons {α : Type} [DecidableEq α] (d : α) (k : Nat) (v : α) (t : Tbl α) :
    Tbl.canon d ((k, v) :: t) = true ↔ v ≠ d ∧ (∀ p ∈ t.head?, k < p.1) ∧ Tbl.canon d t = true := by
  cases t with
  | nil => simp [Tbl.canon]
  | cons p t => obtain ⟨k', v'⟩ := p; simp [Tbl.canon, Bool.and_eq_true, and_assoc]

/-- In canonical form every later key is greater. -/
theorem canon_lt {α : Type} [DecidableEq α] (d : α) (k : Nat) (v : α) (t : Tbl α)
    (h : Tbl.canon d ((k, v) :: t) = true) : ∀ p ∈ t, k < p.1 := by
  induction t generalizing k v with
  | nil => simp
  | cons q t ih =>
    obtain ⟨k', v'⟩ := q
    rw [canon_cons] at h
    obtain ⟨_, h2, h3⟩ := h
    have h2 : k < k' := h2 (k', v') (by simp)
    intro p hp
    rcases List.mem_cons.1 hp with rfl | hp
    · exact h2
    · exact Nat.lt_trans h2 (ih k' v' h3 p hp)

/-- An insertion keeps the canonical form. -/
theorem canon_insert {α : Type} [DecidableEq α] (d : α) (t : Tbl α) (k : Nat) (v : α) (hv : v ≠ d)
    (h : Tbl.canon d t = true) : Tbl.canon d (Tbl.insert t k v) = true := by
  induction t with
  | nil => simp [Tbl.insert, Tbl.canon, hv]
  | cons p t ih =>
    obtain ⟨k', v'⟩ := p
    have h' := h
    rw [canon_cons] at h
    obtain ⟨h1, h2, h3⟩ := h
    simp only [Tbl.insert]
    split
    · rename_i hk
      rw [canon_cons]
      exact ⟨hv, by simpa using hk, h'⟩
    · split
      · rename_i e
        subst e
        rw [canon_cons]; exact ⟨hv, h2, h3⟩
      · rw [canon_cons]
        refine ⟨h1, ?_, ih h3⟩
        cases t with
        | nil => intro q hq; simp [Tbl.insert] at hq; subst hq; simp; omega
        | cons q t =>
          obtain ⟨k2, v2⟩ := q
          have h2 : k' < k2 := h2 (k2, v2) (by simp)
          intro q hq
          simp only [Tbl.insert] at hq
          split at hq
          · simp at hq; subst hq; simp; omega
          · split at hq
            · simp at hq; subst hq; simp; omega
            · simp at hq; subst hq; exact h2

/-- Leaving entries out keeps the canonical form. -/
theorem canon_filter {α : Type} [DecidableEq α] (d : α) (p : Nat × α → Bool) (t : Tbl α)
    (h : Tbl.canon d t = true) : Tbl.canon d (t.filter p) = true := by
  induction t with
  | nil => rfl
  | cons q t ih =>
    obtain ⟨k, v⟩ := q
    have hl := canon_lt d k v t h
    rw [canon_cons] at h
    simp only [List.filter_cons]
    split
    · rw [canon_cons]
      refine ⟨h.1, ?_, ih h.2.2⟩
      intro x hx
      have : x ∈ t.filter p := List.mem_of_mem_head? hx
      exact hl x (List.mem_filter.1 this).1
    · exact ih h.2.2

/-- Setting a key keeps the canonical form. -/
theorem canon_set {α : Type} [DecidableEq α] (d : α) (t : Tbl α) (k : Nat) (v : α)
    (h : Tbl.canon d t = true) : Tbl.canon d (Tbl.set d t k v) = true := by
  unfold Tbl.set
  split
  · exact canon_filter d _ t h
  · rename_i hv; exact canon_insert d t k v hv h

/-- Storing bytes keeps the canonical form. -/
theorem canon_putCells (a : Nat) (bs : List Byte) (c : List (Nat × Byte)) (h : Tbl.canon 0 c = true) :
    Tbl.canon 0 (putCells a bs c) = true := by
  induction bs generalizing a c with
  | nil => exact h
  | cons b bs ih => exact ih (a + 1) _ (canon_set 0 c a b h)

/-- What stands in the cells after bytes are stored. -/
theorem get_putCells (a : Nat) (bs : List Byte) (c : List (Nat × Byte)) (x : Nat) :
    Tbl.get 0 (putCells a bs c) x =
      if a ≤ x ∧ x < a + bs.length then bs.getD (x - a) 0 else Tbl.get 0 c x := by
  induction bs generalizing a c with
  | nil => rw [if_neg (by simp)]; rfl
  | cons b bs ih =>
    rw [putCells, ih]
    by_cases h : a = x
    · subst h
      rw [if_neg (by omega), if_pos (by simp)]; simp
    · by_cases h2 : a + 1 ≤ x ∧ x < a + 1 + bs.length
      · rw [if_pos h2, if_pos (by simp; omega)]
        have : x - a = (x - (a + 1)) + 1 := by omega
        rw [this, List.getD_cons_succ]
      · rw [if_neg h2, if_neg (by simp; omega), get_set_other _ _ _ _ _ (fun e => h e.symm)]

/-! What a store can change -/

/-- Nothing but stored bytes, line tags, poison marks and waiting write-backs differs. -/
def StoresOnly (s t : State) : Prop :=
  ∃ c g p q w, t = { s with
    mem := { s.mem with cells := c, tags := g, poison := p, poisonScratch := q }, mov := { s.mov with writebacks := w } }

theorem StoresOnly.refl (s : State) : StoresOnly s s := ⟨_, _, _, _, _, rfl⟩

theorem StoresOnly.trans {s t u : State} (h : StoresOnly s t) (k : StoresOnly t u) : StoresOnly s u := by
  obtain ⟨_, _, _, _, _, rfl⟩ := h; obtain ⟨_, _, _, _, _, rfl⟩ := k; exact ⟨_, _, _, _, _, rfl⟩

/-- A fold of stores is a store. -/
theorem StoresOnly.foldl {α : Type} (f : State → α → State) (h : ∀ s a, StoresOnly s (f s a)) (l : List α) (s : State) :
    StoresOnly s (l.foldl f s) := by
  induction l generalizing s with
  | nil => exact .refl s
  | cons a l ih => exact (h s a).trans (ih _)

theorem writeLine_only (o a : Nat) (bs : List Byte) (s : State) : StoresOnly s (writeLine o a bs s) := by
  unfold writeLine; split
  · exact .refl s
  · exact ⟨_, _, _, _, _, rfl⟩

/-- Everything a store can do. -/
theorem storeMem_only (o a : Nat) (bs : List Byte) (s : State) : StoresOnly s (storeMem o a bs s) := by
  unfold storeMem dropWritebacks
  split
  · exact (StoresOnly.foldl _ (fun s (c : Nat × List Byte) => writeLine_only o c.1 c.2 s) _ s).trans ⟨_, _, _, _, _, rfl⟩
  · exact ⟨_, _, _, _, _, rfl⟩

theorem writeLine_canon (o a : Nat) (bs : List Byte) (s : State) (h : Tbl.canon 0 s.mem.cells = true) :
    Tbl.canon 0 (writeLine o a bs s).mem.cells = true := by
  unfold writeLine; split
  · exact h
  · exact canon_putCells _ _ _ h

/-- A store keeps the canonical form of memory. -/
theorem storeMem_canon (o a : Nat) (bs : List Byte) (s : State) (h : Tbl.canon 0 s.mem.cells = true) :
    Tbl.canon 0 (storeMem o a bs s).mem.cells = true := by
  have hf : ∀ (l : List (Nat × List Byte)) (t : State), Tbl.canon 0 t.mem.cells = true →
      Tbl.canon 0 (l.foldl (fun t c => writeLine o c.1 c.2 t) t).mem.cells = true := by
    intro l
    induction l with
    | nil => exact fun t h => h
    | cons c l ih => exact fun t h => ih _ (writeLine_canon o c.1 c.2 t h)
  unfold storeMem dropWritebacks
  split
  · exact hf _ s h
  · exact canon_putCells _ _ _ h

/-- Memory right after reset has the canonical form. -/
theorem reset_canon : Tbl.canon 0 State.reset.mem.cells = true := rfl

end Sys2Proof.Laws
end

