-- ==== Sys2Proof/Laws/Mgmt.lean ====
section
/-! SUPPORT. What serving a management request comes to. -/

namespace Sys2Proof.Laws

open Sys2Proof.Machine Sys2Proof.Safety

/-- A row whose command is not at the front, or that nothing serves, does nothing. -/
theorem runMmp_other {s : State} {cmd : Nat} {size : Nat → Bool} {lead : Bool}
    {f : List Byte → State → Nat × List Byte × State}
    (h : s.mgp.queue = [] ∨ romRuns s = false ∨ ∃ q rest, s.mgp.queue = q :: rest ∧ reqCommand q ≠ cmd) :
    runMmp cmd size lead f s = s := by
  rcases h with h | h | ⟨q, rest, h, hc⟩
  · simp [runMmp, h]
  · cases hq : s.mgp.queue <;> simp [runMmp, hq, h]
  · simp [runMmp, h, hc]

/-- The same for the rows whose effect follows the answer. -/
theorem runMmpAfter_other {s : State} {cmd : Nat} {size : Nat → Bool} {f : List Byte → State → Nat}
    {after : List Byte → State → State}
    (h : s.mgp.queue = [] ∨ romRuns s = false ∨ ∃ q rest, s.mgp.queue = q :: rest ∧ reqCommand q ≠ cmd) :
    runMmpAfter cmd size f after s = s := by
  rcases h with h | h | ⟨q, rest, h, hc⟩
  · simp [runMmpAfter, h]
  · cases hq : s.mgp.queue <;> simp [runMmpAfter, hq, h]
  · simp [runMmpAfter, h, hc]

/-- The front request leaves the queue. -/
theorem takeRequest_front {s : State} {q : MmpRequest} {rest : List MmpRequest} (h : s.mgp.queue = q :: rest) :
    takeRequest s = some (q, takenFrom s q rest) := by
  simp only [takeRequest, h]; rfl

/-- Serving the front request: its length, the tray lead, then the command. -/
theorem runMmp_front {s : State} {cmd n : Nat} {size : Nat → Bool} {lead : Bool}
    {f : List Byte → State → Nat × List Byte × State} {q : MmpRequest} {rest : List MmpRequest}
    (h : mmpFront s cmd n q rest) :
    runMmp cmd size lead f s =
      if !(size n) then answerReq q 0x0304 [] (takenFrom s q rest)
      else if lead && !(isTrayLead s) then answerReq q 0x02E0 [] (takenFrom s q rest)
      else answerReq q (f (reqPayload q) (takenFrom s q rest)).1 (f (reqPayload q) (takenFrom s q rest)).2.1
        (f (reqPayload q) (takenFrom s q rest)).2.2 := by
  obtain ⟨hr, hq, hc, hn⟩ := h
  have h1 : s.mgp.queue.head? = some q := by rw [hq]; rfl
  unfold runMmp
  simp only [h1, takeRequest_front hq]
  rw [if_neg (by simp [hc, hr]), hn]
  rfl

/-- The same for the rows whose effect follows the answer. -/
theorem runMmpAfter_front {s : State} {cmd n : Nat} {size : Nat → Bool} {f : List Byte → State → Nat}
    {after : List Byte → State → State} {q : MmpRequest} {rest : List MmpRequest} (h : mmpFront s cmd n q rest) :
    runMmpAfter cmd size f after s =
      if !(size n) then answerReq q 0x0304 [] (takenFrom s q rest)
      else if f (reqPayload q) (takenFrom s q rest) = 0 then
        after (reqPayload q) (answerReq q (f (reqPayload q) (takenFrom s q rest)) [] (takenFrom s q rest))
      else answerReq q (f (reqPayload q) (takenFrom s q rest)) [] (takenFrom s q rest) := by
  obtain ⟨hr, hq, hc, hn⟩ := h
  have h1 : s.mgp.queue.head? = some q := by rw [hq]; rfl
  unfold runMmpAfter
  simp only [h1, takeRequest_front hq]
  rw [if_neg (by simp [hc, hr]), hn]

/-- A management row serves one command, or serves one whose effect follows the answer. -/
theorem exec_mmpRow {i : Instr} {cmd : Nat} {size : Nat → Bool} {lead : Bool} (h : mmpRow i = some (cmd, size, lead)) :
    (∃ f, ∀ s, exec i s = done (runMmp cmd size lead f s)) ∨
    (lead = false ∧ ∃ f after, ∀ s, exec i s = done (runMmpAfter cmd size f after s)) := by
  unfold mmpRow at h
  split at h
  all_goals first | cases h | skip
  all_goals
    simp only [exec, execIdentify, execStatus, execRegRead, execRegWrite, execMmpChipReset, execLogRead, execEventCfg,
      execEventAck, execTopoGet, execTopoLoad, execTopoAccept, execFirRead, execFirWrite, execRowConfigLoad, execFwBlock,
      execFwCommit, execKeySet]
    first
    | exact Or.inl ⟨_, fun _ => by with_reducible rfl⟩
    | exact Or.inr ⟨trivial, _, _, fun _ => by with_reducible rfl⟩

end Sys2Proof.Laws
end

