-- ==== Sys2Proof/Laws/Owner.lean ====
section
/-! SUPPORT. Tables filled by folds; leases; what making mappings leaves alone. -/

namespace Sys2Proof.Laws

open Sys2Proof Sys2Proof.Machine Sys2Proof.Safety

/-- Setting many keys to one value. -/
theorem get_foldl_set {α} [DecidableEq α] (d v : α) (l : List Nat) (t : Tbl α) (x : Nat) :
   Tbl.get d (l.foldl (fun t f => Tbl.set d t f v) t) x = if x ∈ l then v else Tbl.get d t x := by
  induction l generalizing t with
  | nil => simp
  | cons a l ih =>
    simp only [List.foldl_cons, ih, List.mem_cons]
    by_cases h : x ∈ l
    · simp [h]
    · by_cases e : x = a
      · subst e; simp [h]
      · simp [h, e, get_set_other _ _ _ _ _ e]

/-- Keeping the keys a predicate picks. -/
theorem get_filter {α} (d : α) (p : Nat → Bool) (t : Tbl α) (x : Nat) :
   Tbl.get d (t.filter (fun q => p q.1)) x = if p x then Tbl.get d t x else d := by
  induction t with
  | nil => simp [Tbl.get]
  | cons q t ih =>
    obtain ⟨k, v⟩ := q
    by_cases h : p k = true
    · simp only [List.filter_cons, h, if_true, Tbl.get, ih]
      by_cases e : k = x
      · subst e; simp [h]
      · simp [e]
    · simp only [List.filter_cons, h, Tbl.get]
      by_cases e : k = x
      · subst e; simp [h, ih]
      · simp [e, ih]

/-- A list's length is that of its two halves. -/
theorem len_filter {α} (l : List α) (p : α → Bool) : l.length = (l.filter p).length + (l.filter (fun x => !(p x))).length := by
  induction l with
  | nil => rfl
  | cons a l ih => by_cases h : p a = true <;> simp [List.filter_cons, h] <;> omega

/-- A lease after one change. -/
theorem leaseAt_change (o : Option Nat) (c d : Nat) (s : State) :
    leaseAt (changeLease o c s) d = if d = c then { owner := o, clearing := true } else leaseAt s d := by
  show Tbl.get {} (Tbl.upd {} s.mem.leases c (fun _ => { owner := o, clearing := true })) d = _
  unfold Tbl.upd
  by_cases h : d = c
  · subst h; simp
  · simp only [h, if_false]; rw [get_set_other _ _ _ _ _ h]; rfl

/-- A lease after many changes. -/
theorem leaseAt_fold (o : Option Nat) (l : List Nat) (d : Nat) (s : State) :
    leaseAt (l.foldl (fun t c => changeLease o c t) s) d = if d ∈ l then { owner := o, clearing := true } else leaseAt s d := by
  induction l generalizing s with
  | nil => simp
  | cons c l ih =>
    rw [List.foldl_cons, ih, leaseAt_change]
    by_cases h1 : d ∈ l <;> by_cases h2 : d = c <;> simp [h1, h2]

/-- Leaves, grants and leases are as they were. -/
def MapFrame (s t : State) : Prop :=
  t.mem.leaves = s.mem.leaves ∧ t.mem.grants = s.mem.grants ∧ t.mem.leases = s.mem.leases

theorem storeMem_map (o a : Nat) (bs : List Byte) (s : State) : MapFrame s (storeMem o a bs s) := by
  obtain ⟨_, _, _, _, _, e⟩ := storeMem_only o a bs s
  rw [e]; exact ⟨rfl, rfl, rfl⟩

theorem MapFrame.trans {s t u} (h : MapFrame s t) (k : MapFrame t u) : MapFrame s u :=
  ⟨k.1.trans h.1, k.2.1.trans h.2.1, k.2.2.trans h.2.2⟩

theorem make_frame (o dva lvl parent : Nat) (s : State) (x) (h : makeTable o dva lvl parent s = some x) : MapFrame s x.2 := by
  unfold makeTable at h
  split at h
  · cases h
  · dsimp only at h
    generalize zeros 4096 = z at h
    split at h
    · cases h; exact storeMem_map _ _ _ _
    · cases h
      refine MapFrame.trans ?_ (storeMem_map o _ _ _)
      exact storeMem_map o _ _ _

theorem ensure_frame (o dva lvl : Nat) : ∀ (s : State) (x : Nat × State), ensureTable o dva lvl s = some x → MapFrame s x.2 := by
  induction lvl with
  | zero =>
    intro s x h
    simp only [ensureTable] at h
    split at h
    · cases h; exact ⟨rfl, rfl, rfl⟩
    · exact make_frame _ _ _ _ _ _ h
  | succ l ih =>
    intro s x h
    simp only [ensureTable] at h
    split at h
    · cases h; exact ⟨rfl, rfl, rfl⟩
    · split at h
      · cases h
      · rename_i e; exact (ih _ _ e).trans (make_frame _ _ _ _ _ _ h)

/-- Writing a leaf notes it and leaves grants and leases alone. -/
theorem putLeaf_frame (l : Leaf) (s u : State) (h : putLeaf l s = some u) :
   u.mem.leaves = s.mem.leaves ++ [l] ∧ u.mem.grants = s.mem.grants ∧ u.mem.leases = s.mem.leases := by
  unfold putLeaf at h
  split at h
  · cases h
  · rename_i e
    cases h
    have k1 := ensure_frame _ _ _ _ _ e
    dsimp only at k1 ⊢
    have k : ∀ a b c d, MapFrame s (putEntry l.owner a b c d _) := fun a b c d => k1.trans (storeMem_map l.owner _ _ _)
    exact ⟨congrArg (· ++ [l]) (k _ _ _ _).1, (k _ _ _ _).2⟩

/-- Writing leaves notes them in order and leaves grants and leases alone. -/
theorem putLeaves_frame (l : List Leaf) (s u : State) (h : putLeaves l s = some u) :
   u.mem.leaves = s.mem.leaves ++ l ∧ u.mem.grants = s.mem.grants ∧ u.mem.leases = s.mem.leases := by
  induction l generalizing s with
  | nil => cases h; simp
  | cons a l ih =>
    simp only [putLeaves] at h
    split at h
    · cases h
    · rename_i e
      have k1 := putLeaf_frame _ _ _ e
      have k2 := ih _ h
      exact ⟨by rw [k2.1, k1.1]; simp, k2.2.1.trans k1.2.1, k2.2.2.trans k1.2.2⟩

end Sys2Proof.Laws
end

