-- ==== Sys2Proof/Laws/Packet.lean ====
section
/-! SUPPORT. What starting a packet comes to. -/

namespace Sys2Proof.Laws

open Sys2Proof Sys2Proof.Machine Sys2Proof.Safety

/-- A ready front packet starts, and its body runs. -/
theorem runPacket_ready {s : State} {r op : Nat} {sel : List Byte → Bool} {size : List Byte → Nat}
    {fields : List (Nat × Nat)} {body : Inflight → State → State} {p : Packet} {rest : List Packet}
    (h : frontReady s r op (size p.bytes) fields p rest) (hs : sel p.bytes = true) :
    runPacket r sel size fields body s = body (inflightOfPacket s r p) (startedBy s r p rest) := by
  obtain ⟨h1, _, h3, h4, h5⟩ := h
  have h4' : ((ownerAt s (inflightOfPacket s r p).owner).st != .active) = false := by
    simpa [ownerActive] using h4
  simp only [runPacket, h1, hs, h3, Bool.and_true, if_true]
  rw [if_neg (by
    show ¬ ((ownerAt s (inflightOfPacket s r p).owner).st != .active) = true
    simp [h4'])]
  rw [h5]
  rfl

/-- A front packet with an opcode that nothing allots, of an ACTIVE owner, ends in a violation. -/
theorem startUnlisted_ready {s : State} {r : Nat} {p : Packet} {rest : List Packet}
    (h1 : (ringAt s r).fetched = p :: rest) (h2 : opListed (getLe p.bytes 0 1) = false) (h3 : canStart s r p = true)
    (h4 : ownerActive s (inflightOfPacket s r p).owner = true) :
    startUnlisted r s = finishPkt s.hif.nextId
      (if decide (0x60 ≤ getLe p.bytes 0 1) && decide (getLe p.bytes 0 1 < 0x80) && (inflightOfPacket s r p).owner != 0
        then 0x0328 else 0x0301) 0 0 (startedBy s r p rest) := by
  have h4' : ((ownerAt s (inflightOfPacket s r p).owner).st != .active) = false := by
    simpa [ownerActive] using h4
  simp only [startUnlisted, h1, h2, h3, Bool.not_false, Bool.and_true, if_true]
  rw [if_neg (by
    show ¬ ((ownerAt s (inflightOfPacket s r p).owner).st != .active) = true
    simp [h4'])]
  rfl

/-- A packet of the row's opcode. -/
theorem opIs_of {op : Nat} {b : List Byte} (h : getLe b 0 1 = op) : opIs op b = true := by simp [opIs, h]

end Sys2Proof.Laws
end

