-- ==== Sys2Proof/Laws/Reset.lean ====
section
/-! SUPPORT. What the chip reset, the loss of the main rails and the loss of VSTBY leave of each part of the state. -/

namespace Sys2Proof.Laws

open Sys2Proof Sys2Proof.Machine

@[simp] theorem clearChip_pending (s : State) : (clearChip s).pending = s.pending := rfl
@[simp] theorem clearChip_out (s : State) : (clearChip s).out = s.out := rfl
@[simp] theorem clearChip_free (s : State) : (clearChip s).free = s.free := rfl
@[simp] theorem clearChip_dts (s : State) : (clearChip s).dts = s.dts := rfl
@[simp] theorem clearChip_trimAcc (s : State) : (clearChip s).trimAcc = s.trimAcc := rfl
@[simp] theorem clearChip_boot (s : State) : (clearChip s).boot = s.boot := rfl
@[simp] theorem clearChip_tfu (s : State) : (clearChip s).tfu = s.tfu := rfl
@[simp] theorem clearChip_fbc (s : State) : (clearChip s).fbc = s.fbc := rfl
@[simp] theorem clearChip_tmg (s : State) : (clearChip s).tmg = s.tmg := rfl
@[simp] theorem clearChip_hud (s : State) : (clearChip s).hud = s.hud := rfl
@[simp] theorem clearChip_mgp (s : State) : (clearChip s).mgp = s.mgp := rfl
@[simp] theorem clearChip_mirror (s : State) : (clearChip s).mirror = s.mirror := rfl
@[simp] theorem clearChip_fab (s : State) : (clearChip s).fab = {} := rfl
@[simp] theorem clearChip_mov (s : State) : (clearChip s).mov = {} := rfl
@[simp] theorem clearChip_sqe (s : State) : (clearChip s).sqe = {} := rfl
@[simp] theorem clearChip_swe (s : State) : (clearChip s).swe = {} := rfl
@[simp] theorem clearChip_hif_started (s : State) : (clearChip s).hif.started = [] := rfl
@[simp] theorem clearChip_hif_rings (s : State) : (clearChip s).hif.rings = [] := rfl
@[simp] theorem clearChip_mem_leases (s : State) : (clearChip s).mem.leases = [] := rfl
@[simp] theorem clearChip_elk_outstanding (s : State) : (clearChip s).elk.outstanding = [] := rfl
@[simp] theorem clearChip_elk_selfFence (s : State) : (clearChip s).elk.selfFence = false := rfl
@[simp] theorem clearChip_ptu_chans (s : State) : (clearChip s).ptu.chans = s.ptu.chans := rfl
@[simp] theorem clearChip_cells (s : State) : (clearChip s).mem.cells = s.mem.cells := rfl

@[simp] theorem chipReset_pending (s : State) : (chipReset s).pending = s.pending := rfl
@[simp] theorem chipReset_out (s : State) : (chipReset s).out = s.out := rfl
@[simp] theorem chipReset_free (s : State) : (chipReset s).free = s.free := rfl
@[simp] theorem chipReset_dts (s : State) : (chipReset s).dts = s.dts := rfl
@[simp] theorem chipReset_trimAcc (s : State) : (chipReset s).trimAcc = s.trimAcc := rfl
@[simp] theorem chipReset_boot (s : State) : (chipReset s).boot = s.boot := rfl
@[simp] theorem chipReset_tfu (s : State) : (chipReset s).tfu = s.tfu := rfl
@[simp] theorem chipReset_fbc (s : State) : (chipReset s).fbc = s.fbc := rfl
@[simp] theorem chipReset_tmg (s : State) : (chipReset s).tmg = s.tmg := rfl
@[simp] theorem chipReset_hud (s : State) : (chipReset s).hud = s.hud := rfl
@[simp] theorem chipReset_mgp (s : State) : (chipReset s).mgp = s.mgp := rfl
@[simp] theorem chipReset_mirror (s : State) : (chipReset s).mirror = s.mirror := rfl
@[simp] theorem chipReset_fab (s : State) : (chipReset s).fab = {} := rfl
@[simp] theorem chipReset_mov (s : State) : (chipReset s).mov = {} := rfl
@[simp] theorem chipReset_sqe (s : State) : (chipReset s).sqe = {} := rfl
@[simp] theorem chipReset_swe (s : State) : (chipReset s).swe = {} := rfl
@[simp] theorem chipReset_hif_started (s : State) : (chipReset s).hif.started = [] := rfl
@[simp] theorem chipReset_hif_rings (s : State) : (chipReset s).hif.rings = [] := rfl
@[simp] theorem chipReset_mem_leases (s : State) : (chipReset s).mem.leases = [] := rfl
@[simp] theorem chipReset_elk_outstanding (s : State) : (chipReset s).elk.outstanding = [] := rfl
@[simp] theorem chipReset_elk_selfFence (s : State) : (chipReset s).elk.selfFence = false := rfl
@[simp] theorem chipReset_ptu_chans (s : State) : (chipReset s).ptu.chans = s.ptu.chans := rfl
@[simp] theorem chipReset_cells (s : State) : (chipReset s).mem.cells = s.mem.cells := rfl

@[simp] theorem mainLost_pending (s : State) : (mainLost s).pending = s.pending := rfl
@[simp] theorem mainLost_out (s : State) : (mainLost s).out = s.out := rfl
@[simp] theorem mainLost_free (s : State) : (mainLost s).free = s.free := rfl
@[simp] theorem mainLost_dts (s : State) : (mainLost s).dts = s.dts := rfl
@[simp] theorem mainLost_trimAcc (s : State) : (mainLost s).trimAcc = s.trimAcc := rfl
@[simp] theorem mainLost_boot (s : State) : (mainLost s).boot = s.boot := rfl
@[simp] theorem mainLost_tfu (s : State) : (mainLost s).tfu = s.tfu := rfl
@[simp] theorem mainLost_fbc (s : State) : (mainLost s).fbc = s.fbc := rfl
@[simp] theorem mainLost_tmg (s : State) : (mainLost s).tmg = s.tmg := rfl
@[simp] theorem mainLost_hud (s : State) : (mainLost s).hud = s.hud := rfl
@[simp] theorem mainLost_mgp (s : State) : (mainLost s).mgp = s.mgp := rfl
@[simp] theorem mainLost_mirror (s : State) : (mainLost s).mirror = s.mirror := rfl
@[simp] theorem mainLost_fab (s : State) : (mainLost s).fab = {} := rfl
@[simp] theorem mainLost_mov (s : State) : (mainLost s).mov = {} := rfl
@[simp] theorem mainLost_sqe (s : State) : (mainLost s).sqe = {} := rfl
@[simp] theorem mainLost_swe (s : State) : (mainLost s).swe = {} := rfl
@[simp] theorem mainLost_hif_started (s : State) : (mainLost s).hif.started = [] := rfl
@[simp] theorem mainLost_hif_rings (s : State) : (mainLost s).hif.rings = [] := rfl
@[simp] theorem mainLost_mem_leases (s : State) : (mainLost s).mem.leases = [] := rfl
@[simp] theorem mainLost_elk_outstanding (s : State) : (mainLost s).elk.outstanding = [] := rfl
@[simp] theorem mainLost_elk_selfFence (s : State) : (mainLost s).elk.selfFence = false := rfl
@[simp] theorem mainLost_ptu_chans (s : State) : (mainLost s).ptu.chans = s.ptu.chans := rfl
@[simp] theorem mainLost_cells (s : State) : (mainLost s).mem.cells = [] := rfl

@[simp] theorem clearChip_pwr (s : State) : (clearChip s).pwr = s.pwr := rfl
@[simp] theorem clearChip_err (s : State) : (clearChip s).err = s.err := rfl
@[simp] theorem clearChip_regs (s : State) : (clearChip s).regs = s.regs := rfl
@[simp] theorem chipReset_pwr (s : State) : (chipReset s).pwr =
    { s.pwr with init := .idle, fclkStopped := !s.pwr.okRef100 } := rfl
@[simp] theorem chipReset_err (s : State) : (chipReset s).err = clearHandling s.err := rfl
@[simp] theorem mainLost_pwr (s : State) : (mainLost s).pwr =
    { s.pwr with init := .idle, fclkStopped := false } := rfl
@[simp] theorem mainLost_err (s : State) : (mainLost s).err = s.err := rfl

/-- No owner stands after the chip's work is cleared (R54). -/
theorem clearChip_owner (s : State) (o : Nat) :
    (ownerAt (clearChip s) o).st = .free ∧ (ownerAt (clearChip s) o).key = none ∧ (ownerAt (clearChip s) o).parks = [] := by
  have key : ∀ (l : List (Nat × Owner)) (t : Tbl Owner),
      (∀ o, (Tbl.get {} t o).st = .free ∧ (Tbl.get {} t o).key = none ∧ (Tbl.get {} t o).parks = []) →
      ∀ o, (Tbl.get {} (l.foldl (fun t p => Tbl.set {} t p.1 { keyGen := p.2.keyGen }) t) o).st = .free ∧
        (Tbl.get {} (l.foldl (fun t p => Tbl.set {} t p.1 { keyGen := p.2.keyGen }) t) o).key = none ∧
        (Tbl.get {} (l.foldl (fun t p => Tbl.set {} t p.1 { keyGen := p.2.keyGen }) t) o).parks = [] := by
    intro l
    induction l with
    | nil => intro t h o; exact h o
    | cons a l ih =>
      intro t h o
      simp only [List.foldl]
      refine ih _ ?_ o
      intro o'
      by_cases e : o' = a.1
      · rw [e, get_set_same]; exact ⟨rfl, rfl, rfl⟩
      · rw [get_set_other _ _ _ _ _ e]; exact h o'
  exact key s.mem.owners [] (fun _ => ⟨rfl, rfl, rfl⟩) o

/-- An image after a reset of the registers that a predicate picks. -/
theorem rawAt_resetRegs (p : RegDef → Nat → Bool) (s : State) (lo : Nat) :
    rawAt (resetRegs p s) lo = if picks p lo then resetAt lo % 2 ^ 64 else rawAt s lo := by
  have key : ∀ (d : Word) (t : Tbl Word), Tbl.get d (t.filter (fun e => !(picks p e.1))) lo =
      if picks p lo then d else Tbl.get d t lo := by
    intro d t
    induction t with
    | nil => simp [Tbl.get]
    | cons e t ih =>
      obtain ⟨k, v⟩ := e
      rw [List.filter_cons]
      by_cases hk : k = lo
      · subst hk
        cases hp : picks p k
        · simp [Tbl.get]
        · simp only [hp] at ih ⊢; simpa using ih
      · split <;> simp only [Tbl.get, if_neg hk, ih]
  unfold rawAt resetRegs
  dsimp only
  rw [key]
  split <;> simp

/-- Images depend on the register table alone. -/
theorem rawAt_regs {s t : State} (h : t.regs = s.regs) (lo : Nat) : rawAt t lo = rawAt s lo := by simp [rawAt, h]

/-- A write that keeps an image keeps every image. -/
theorem rawAt_kept (s : State) (lo l : Nat) : rawAt (Safety.kept lo s) l = rawAt s l := by
  by_cases e : l = lo
  · subst e; rw [Safety.kept, rawAt_setRaw, Nat.mod_eq_of_lt (rawAt_lt _ _)]
  · rw [Safety.kept, rawAt_setRaw_other _ _ _ _ e]

@[simp] theorem kept_pending (s : State) (lo : Nat) : (Safety.kept lo s).pending = s.pending := rfl
@[simp] theorem kept_out (s : State) (lo : Nat) : (Safety.kept lo s).out = s.out := rfl
@[simp] theorem kept_free (s : State) (lo : Nat) : (Safety.kept lo s).free = s.free := rfl
@[simp] theorem kept_dts (s : State) (lo : Nat) : (Safety.kept lo s).dts = s.dts := rfl
@[simp] theorem kept_trimAcc (s : State) (lo : Nat) : (Safety.kept lo s).trimAcc = s.trimAcc := rfl
@[simp] theorem kept_err (s : State) (lo : Nat) : (Safety.kept lo s).err = s.err := rfl
@[simp] theorem kept_pwr (s : State) (lo : Nat) : (Safety.kept lo s).pwr = s.pwr := rfl
@[simp] theorem kept_boot (s : State) (lo : Nat) : (Safety.kept lo s).boot = s.boot := rfl
@[simp] theorem kept_hif (s : State) (lo : Nat) : (Safety.kept lo s).hif = s.hif := rfl
@[simp] theorem kept_mem (s : State) (lo : Nat) : (Safety.kept lo s).mem = s.mem := rfl
@[simp] theorem kept_fab (s : State) (lo : Nat) : (Safety.kept lo s).fab = s.fab := rfl
@[simp] theorem kept_mov (s : State) (lo : Nat) : (Safety.kept lo s).mov = s.mov := rfl
@[simp] theorem kept_mgp (s : State) (lo : Nat) : (Safety.kept lo s).mgp = s.mgp := rfl
@[simp] theorem kept_elk (s : State) (lo : Nat) : (Safety.kept lo s).elk = s.elk := rfl
@[simp] theorem kept_pgv (s : State) (lo : Nat) : (Safety.kept lo s).pgv = s.pgv := rfl
@[simp] theorem kept_ptu (s : State) (lo : Nat) : (Safety.kept lo s).ptu = s.ptu := rfl
@[simp] theorem kept_sqe (s : State) (lo : Nat) : (Safety.kept lo s).sqe = s.sqe := rfl
@[simp] theorem kept_swe (s : State) (lo : Nat) : (Safety.kept lo s).swe = s.swe := rfl
@[simp] theorem kept_tfu (s : State) (lo : Nat) : (Safety.kept lo s).tfu = s.tfu := rfl
@[simp] theorem kept_fbc (s : State) (lo : Nat) : (Safety.kept lo s).fbc = s.fbc := rfl
@[simp] theorem kept_tmg (s : State) (lo : Nat) : (Safety.kept lo s).tmg = s.tmg := rfl
@[simp] theorem kept_hud (s : State) (lo : Nat) : (Safety.kept lo s).hud = s.hud := rfl
@[simp] theorem kept_mirror (s : State) (lo : Nat) : (Safety.kept lo s).mirror = s.mirror := rfl

end Sys2Proof.Laws
end

