-- ==== Sys2Proof/Laws/Settle.lean ====
section
/-! SUPPORT. What the link, the fluid bus and the management port leave alone while the block settles. -/

namespace Sys2Proof.Laws

open Sys2Proof.Machine

/-- `t` differs from `s` in nothing that the management port, the phase timebase, power or boot hold. -/
structure LinkFrame (s t : State) : Prop where
  mirror : t.mirror = s.mirror
  ptu : t.ptu = s.ptu
  mgp : t.mgp = s.mgp
  pwr : t.pwr = s.pwr
  boot : t.boot = s.boot

theorem LinkFrame.refl (s : State) : LinkFrame s s := by constructor <;> rfl

theorem LinkFrame.trans {s t u : State} (h : LinkFrame s t) (k : LinkFrame t u) : LinkFrame s u := by
  cases h; cases k; constructor <;> simp_all

/-- A fold of steps that each keep the frame. -/
theorem LinkFrame.foldl {α : Type} {f : State → α → State} (h : ∀ s a, LinkFrame s (f s a)) (l : List α) (s : State) :
    LinkFrame s (l.foldl f s) := by
  induction l generalizing s with
  | nil => exact .refl s
  | cons a l ih => exact (h s a).trans (ih _)

theorem updPort_link (p : Nat) (f : Port → Port) (s : State) : LinkFrame s (updPort p f s) := by constructor <;> rfl

theorem setRegFld_link (lo hi l v : Nat) (s : State) : LinkFrame s (setRegFld lo hi l v s) := by constructor <;> rfl

theorem updElk_link (f : Elk → Elk) (s : State) : LinkFrame s (updElk f s) := by constructor <;> rfl

theorem sendFence_link (id p : Nat) (s : State) : LinkFrame s (sendFence id p s) := by constructor <;> rfl

theorem takeMsg_link (p h c : Nat) (s : State) : LinkFrame s (takeMsg p h c s).1 := by
  unfold takeMsg; dsimp only; split
  · exact .refl s
  · dsimp only; split
    · constructor <;> rfl
    · split <;> constructor <;> rfl

theorem fillFlit_link (p n left : Nat) (acc : List Byte) (s : State) : LinkFrame s (fillFlit p n left acc s).1 := by
  induction n generalizing left acc s with
  | zero => exact .refl s
  | succ n ih =>
    unfold fillFlit; split
    · exact .refl s
    · exact (takeMsg_link _ _ _ _).trans (ih _ _ _)

theorem newFlit_link (p : Nat) (s : State) : LinkFrame s (newFlit p s) := by
  have h : LinkFrame s (if decide ((portAt s p).unacked.length < 512) then fillFlit p 15 15 [] s else (s, [])).1 := by
    split
    · exact fillFlit_link _ _ _ _ _
    · exact .refl s
  unfold newFlit
  exact h.trans (by constructor <;> rfl)

theorem flitTransmit_link (p : Nat) (s : State) : LinkFrame s (flitTransmit p s) := by
  unfold flitTransmit; dsimp only; split
  · exact .refl s
  · split
    · constructor <;> rfl
    · exact newFlit_link p s

/-- The end of a self-fence keeps the frame, and a self-fence that stays has something outstanding or no link. -/
theorem settleElk_link (s : State) : LinkFrame s (settleElk s) := by
  unfold settleElk; split
  · exact .refl s
  · have h1 : LinkFrame s (if s.elk.hasId then
        elkPorts.foldl (fun t p => if portUp t p then flitTransmit p (sendFence s.elk.selfId p t) else t) s else s) := by
      split
      · refine LinkFrame.foldl (fun t p => ?_) _ _
        split
        · exact (sendFence_link _ _ _).trans (flitTransmit_link _ _)
        · exact .refl t
      · exact .refl s
    refine h1.trans (LinkFrame.trans (LinkFrame.foldl (fun t p => ?_) _ _) (updElk_link _ _))
    exact (updPort_link _ _ _).trans (setRegFld_link _ _ _ _ _)

theorem settleElk_fence (s : State) (h : (settleElk s).elk.selfFence = true) :
    settleElk s = s ∧ (s.elk.outstanding ≠ [] ∨ linkRuns s = false) := by
  unfold settleElk at h ⊢
  split at h
  · rename_i c
    rw [if_pos c]
    refine ⟨rfl, ?_⟩
    simp only [Bool.or_eq_true, Bool.not_eq_true'] at c
    rcases c with (c | c) | c
    · rw [c] at h; cases h
    · left; intro e; simp [e] at c
    · exact Or.inr c
  · simp [updElk] at h

/-! What the fluid bus and management leave of the phase timebase, and what sending an event keeps. -/

/-- A fold of steps that each keep the phase timebase. -/
theorem foldl_ptu {α : Type} {f : State → α → State} (h : ∀ s a, (f s a).ptu = s.ptu) (l : List α) (s : State) :
    (l.foldl f s).ptu = s.ptu := by
  induction l generalizing s with
  | nil => rfl
  | cons a l ih => exact (ih _).trans (h s a)

@[simp] theorem setRaw_ptu' (lo v : Nat) (s : State) : (setRaw lo v s).ptu = s.ptu := rfl

@[simp] theorem putRam_ptu (o : Nat) (b : List Byte) (s : State) : (putRam o b s).ptu = s.ptu := by
  unfold putRam; exact foldl_ptu (f := fun t k => putRamWord (o + 4 * k) (getLe b (4 * k) 4) t) (fun _ _ => rfl) _ _

@[simp] theorem sendVec_ptu' (fn v : Nat) (s : State) : (sendVec fn v s).ptu = s.ptu := (sendVec_frame (.refl s)).ptu

@[simp] theorem fbcEvent_ptu (b : Nat) (s : State) : (fbcEvent b s).ptu = s.ptu := by
  unfold fbcEvent; dsimp only; repeat' split
  all_goals first | rfl | (rw [sendVec_ptu']; rfl)

/-- Either branch. -/
theorem ite_ptu {c : Prop} [Decidable c] {a b : State} {r : Ptu} (ha : a.ptu = r) (hb : b.ptu = r) :
    (if c then a else b).ptu = r := by split <;> assumption

@[simp] theorem fbcLog_ptu (s : State) : (fbcLog s).ptu = s.ptu := by
  unfold fbcLog; exact logErr_ptu _ _

@[simp] theorem levelled_ptu (f : State → State) (s : State) : (levelled f s).ptu = (f s).ptu := by
  unfold levelled
  dsimp only
  generalize f s = t
  have h : (if ttLevel t = ttLevel s then t
      else if 2 ≤ ttLevel t then fbcLog (fbcEvent 5 t) else fbcEvent 5 t).ptu = t.ptu := by
    refine ite_ptu rfl (ite_ptu ?_ ?_)
    · rw [fbcLog_ptu, fbcEvent_ptu]
    · rw [fbcEvent_ptu]
  refine ite_ptu h ?_
  rw [fbcEvent_ptu, h]

@[simp] theorem mar_ptu (s : State) : (mar s).ptu = s.ptu := by simp [mar]

@[simp] theorem setMaster_ptu (m : Bool) (s : State) : (setMaster m s).ptu = s.ptu := by
  unfold setMaster; split <;> simp

@[simp] theorem logTx_ptu (a b c : Nat) (f : CanFrame) (d e g : Nat) (s : State) : (logTx a b c f d e g s).ptu = s.ptu := by
  unfold logTx
  refine ite_ptu rfl (ite_ptu (bumpFld_ptu _ _ _ _) ?_)
  rw [fbcEvent_ptu, updFbc_ptu, putRam_ptu]

@[simp] theorem failReserved_ptu (k : Nat) (s : State) : (failReserved k s).ptu = s.ptu := by
  simp [failReserved, failPending, failTx, logCfg]

@[simp] theorem beginOver_ptu (o : Over) (s : State) : (beginOver o s).ptu = s.ptu := by simp [beginOver]

@[simp] theorem startTx_ptu (k : Nat) (q : TxKind) (n : Nat) (f : CanFrame) (s : State) : (startTx k q n f s).ptu = s.ptu := rfl

@[simp] theorem sendRef_ptu (n : Nat) (d : RefDue) (s : State) : (sendRef n d s).ptu = s.ptu := by
  unfold sendRef; dsimp only
  refine ite_ptu ?_ ?_
  · exact (failReserved_ptu _ _).trans (updFbc_ptu _ _)
  · rw [startTx_ptu]
    refine ite_ptu ?_ ?_
    · rw [updFbc_ptu, updFbc_ptu, setMaster_ptu, updFbc_ptu]
    · rw [beginOver_ptu, updFbc_ptu, setMaster_ptu, updFbc_ptu]

@[simp] theorem dueRef_ptu (a : Nat) (p : Bool) (c : Nat) (s : State) : (dueRef a p c s).ptu = s.ptu := by
  unfold dueRef; dsimp only; split <;> simp

@[simp] theorem loseBalls_ptu (o : Over) (s : State) : (loseBalls o s).ptu = s.ptu := by
  unfold loseBalls
  refine foldl_ptu (fun t b => ?_) _ _
  split
  · unfold lateBall; rw [logTx_ptu, mar_ptu, fbcEvent_ptu, bumpFld_ptu]
  · rfl

@[simp] theorem strobe_ptu (s : State) : (strobe s).ptu = s.ptu := by
  unfold strobe; dsimp only; repeat' split
  all_goals simp

@[simp] theorem loadTx_ptu (s : State) : (loadTx s).ptu = s.ptu := by
  unfold loadTx
  refine foldl_ptu (fun t b => ?_) _ _
  dsimp only
  repeat' split
  all_goals first | rfl | simp

@[simp] theorem startEvent_ptu (s : State) : (startEvent s).ptu = s.ptu := by
  unfold startEvent; dsimp only; split
  · rfl
  · have h : ∀ (t : State) (k : Nat), (if bitOf t.fbc.busy k && !(elementOk t (txShadow t k)) then failReserved k t else t).ptu = t.ptu := by
      intro t k; split <;> simp
    split
    · rw [startTx_ptu]; exact foldl_ptu h _ _
    · exact foldl_ptu h _ _

/-- The controller has taken every over-start strobe (R401). -/
theorem settleFbc_strobes (s : State) : (settleFbc s).ptu.overStarts = [] := by
  unfold settleFbc; dsimp only; split
  · rename_i h; exact h.2.2.1
  · rw [startEvent_ptu]
    have h2 : ∀ (l : List Nat) (t : State), (l.foldl (fun t _ => strobe t) t).ptu = t.ptu := fun l t => foldl_ptu (fun t _ => strobe_ptu t) l t
    split
    · split
      · simp [h2]
      · simp [h2]
    · simp [h2]

@[simp] theorem answerReq_ptu (q : MmpRequest) (n : Nat) (b : List Byte) (s : State) : (answerReq q n b s).ptu = s.ptu := by
  unfold answerReq respond sendOut; dsimp only; split <;> rfl

/-- Answering unlisted commands keeps the phase timebase. -/
theorem settleMmp_ptu (n : Nat) (s : State) : (settleMmp n s).ptu = s.ptu := by
  induction n generalizing s with
  | zero => rfl
  | succ n ih =>
    unfold settleMmp
    split
    · rfl
    · rename_i q s1 h
      dsimp only
      have h1 : s1.ptu = s.ptu := by
        unfold takeRequest at h; split at h
        · cases h
        · cases h; rfl
      repeat' split
      all_goals first | rfl | (rw [ih]; simp [h1])

/-- Sending an event keeps what decides which events go out. -/
structure EventFrame (s t : State) : Prop where
  mirror : t.mirror = s.mirror
  ptu : t.ptu = s.ptu
  pwr : t.pwr = s.pwr
  boot : t.boot = s.boot
  dest : t.mgp.dest = s.mgp.dest
  key0 : t.mgp.key0 = s.mgp.key0
  key1 : t.mgp.key1 = s.mgp.key1
  mask : t.mgp.mask = s.mgp.mask
  events : t.mgp.events = s.mgp.events

/-- One event sent. -/
theorem sendEvent_frame (e : MgpEvent) (s : State) : EventFrame s (sendEvent e s) := by
  unfold sendEvent sendOut; repeat' split
  all_goals (constructor <;> rfl)

/-- Any number of events sent. -/
theorem sendEvents_frame (l : List MgpEvent) (s : State) : EventFrame s (l.foldl (fun t e => sendEvent e t) s) := by
  induction l generalizing s with
  | nil => constructor <;> rfl
  | cons e l ih =>
    have a := sendEvent_frame e s
    have b := ih (sendEvent e s)
    cases a; cases b
    constructor <;> simp_all

end Sys2Proof.Laws
end

