-- ==== Sys2Proof/Laws/Thermal.lean ====
section
/-! SUPPORT. What a write of a fan, pump or valve register does. -/

namespace Sys2Proof.Laws

open Sys2Proof.Machine

/-- A write of TFU_PWM_CTRL drives the channel, and is noted when an output setting changed (R354, R355). -/
theorem pwm_hook (cons : Cons) (r : Requester) (c o v : Nat) (l : Bool) (t : State) (hc : c < 6) :
    writeHook cons r (0x2800100 + 0x20 * c) o v l t =
      if setFld o 28 28 0 = setFld (rawAt t (0x2800100 + 0x20 * c)) 28 28 0 then pwmWritten c o t
      else tfuWrote r (pwmWritten c o t) := by
  have h1 : (0x2800100 + 0x20 * c - 0x2800100) / 0x20 = c := by omega
  have h2 : (0x2800100 + 0x20 * c - 0x2800100) % 0x20 = 0 := by omega
  rw [writeHook, if_neg (by omega), if_neg (by omega), if_neg (by omega), if_pos (by omega), tfuHook]
  rw [if_neg (by omega), if_neg (by omega), if_pos (by omega), h1, h2, if_pos rfl]

/-- A write of TFU_VLV_CTRL outside a lock (R354, R364). -/
theorem valve_hook (cons : Cons) (r : Requester) (n o v : Nat) (t : State) (hn : n < 2) :
    writeHook cons r (0x2800300 + 0x20 * n) o v false t =
      if o = rawAt t (0x2800300 + 0x20 * n) then valveWritten n t else tfuWrote r (valveWritten n t) := by
  have h : n = 0 ∨ n = 1 := by omega
  rcases h with rfl | rfl <;> rfl

/-- A write of TFU_VLV_TIMING (R354, R364). -/
theorem valve_timing_hook (cons : Cons) (r : Requester) (n o v : Nat) (l : Bool) (t : State) (hn : n < 2) :
    writeHook cons r (0x2800304 + 0x20 * n) o v l t =
      if o = rawAt t (0x2800304 + 0x20 * n) then driveValve n false t else tfuWrote r (driveValve n false t) := by
  have h : n = 0 ∨ n = 1 := by omega
  rcases h with rfl | rfl <;> rfl

/-- A write of TFU_VLV_STATUS (R365). -/
theorem valve_status_hook (cons : Cons) (r : Requester) (n o v : Nat) (l : Bool) (t : State) (hn : n < 2) :
    writeHook cons r (0x280030C + 0x20 * n) o v l t = valveStatusWritten r n v t := by
  have h : n = 0 ∨ n = 1 := by omega
  rcases h with rfl | rfl <;> rfl

end Sys2Proof.Laws
end

