-- ==== Sys2Proof/Laws/Thread.lean ====
section
/-! SUPPORT. Threads: lookups, registers, when one may issue, and what memory's own bookkeeping leaves alone. -/

namespace Sys2Proof.Laws

open Sys2Proof Sys2Proof.Machine Sys2Proof.Safety

/-! Memory's bookkeeping and the thread fabric -/

@[simp] theorem markPoison_fab (a : Nat) (s : State) : (markPoison a s).fab = s.fab := by
  unfold markPoison; split <;> rfl

@[simp] theorem countEcc_fab (lo c : Nat) (s : State) : (countEcc lo c s).fab = s.fab := by
  unfold countEcc; split
  · exact bumpFld_fab ..
  · split
    · exact bumpFld_fab ..
    · exact bumpFld_fab ..

@[simp] theorem foundCe_fab (a : Nat) (s : State) : (foundCe a s).fab = s.fab := by
  simp only [foundCe, logErr_fab, countEcc_fab]

@[simp] theorem noteUe_fab (a : Nat) (s : State) : (noteUe a s).fab = s.fab := markPoison_fab a s

@[simp] theorem foundUe_fab (a : Nat) (s : State) : (foundUe a s).fab = s.fab := by
  simp only [foundUe, logErr_fab, countEcc_fab, noteUe_fab]

@[simp] theorem applyEcc_fab (e : Ecc) (a : Nat) (s : State) : (applyEcc e a s).fab = s.fab := by
  unfold applyEcc
  cases e
  · rfl
  · dsimp only; split
    · rfl
    · exact foundCe_fab a s
  · dsimp only; split
    · rfl
    · exact foundUe_fab a s

@[simp] theorem countBytes_fab (a n : Nat) (w : Bool) (s : State) : (countBytes a n w s).fab = s.fab := by
  unfold countBytes; split <;> rfl

@[simp] theorem chargeTc0_fab (a tc : Nat) (s : State) : (chargeTc0 a tc s).fab = s.fab := by
  unfold chargeTc0; split
  · rfl
  · dsimp only; split <;> rfl

/-! One line -/

/-- Bytes within one line are one piece. -/
theorem chunks_line (n a : Nat) (bs : List Byte) (h : 0 < n) (hb : bs.length = n) (h2 : a % 64 + n ≤ 64) :
    chunks 64 n a bs = [(a, bs)] := by
  obtain ⟨k, rfl⟩ : ∃ k, n = k + 1 := ⟨n - 1, by omega⟩
  cases bs with
  | nil => simp at hb
  | cons b bs =>
    simp only [chunks]
    rw [List.take_of_length_le (by rw [hb]; omega), List.drop_eq_nil_of_le (by rw [hb]; omega)]
    cases k <;> rfl

/-- `leBytes n` gives `n` bytes. -/
@[simp] theorem leBytes_length (n v : Nat) : (leBytes n v).length = n := by
  induction n generalizing v with
  | zero => rfl
  | succ n ih => simp [leBytes, ih]

/-! Threads -/

/-- A thread after one thread was changed. -/
theorem threadAt_upd (k j : Nat) (f : Thread → Thread) (s : State) :
    threadAt (updThread k f s) j = if j = k then (threadAt s k).map f else threadAt s j := by
  show Tbl.get none (Tbl.upd none s.fab.threads k (Option.map f)) j = _
  unfold Tbl.upd
  by_cases h : j = k
  · subst h; simp; rfl
  · simp only [h, if_false]; rw [get_set_other _ _ _ _ _ h]; rfl

/-- One insertion over another. -/
theorem insert_insert {α : Type} (t : Tbl α) (k : Nat) (a b : α) :
    Tbl.insert (Tbl.insert t k a) k b = Tbl.insert t k b := by
  induction t with
  | nil => simp [Tbl.insert]
  | cons p t ih =>
    obtain ⟨k', v⟩ := p
    simp only [Tbl.insert]
    by_cases h : k < k'
    · simp [h, Tbl.insert]
    · by_cases e : k = k'
      · subst e; simp [Tbl.insert]
      · simp [h, e, Tbl.insert, ih]

/-- Two changes of a live thread are one. -/
theorem updThread_twice (k : Nat) (f g : Thread → Thread) (s : State) (t : Thread) (h : threadAt s k = some t) :
    updThread k f (updThread k g s) = updThread k (fun x => f (g x)) s := by
  have h' : Tbl.get none s.fab.threads k = some t := h
  have e : Tbl.upd none (Tbl.upd none s.fab.threads k (Option.map g)) k (Option.map f) =
      Tbl.upd none s.fab.threads k (Option.map (fun x => f (g x))) := by
    simp only [Tbl.upd, get_set_same, h', Option.map_some]
    simp only [Tbl.set, reduceCtorEq, if_false, insert_insert]
  simp only [updThread]
  rw [e]

/-- Threads are what the fabric holds. -/
theorem threadAt_fab {s t : State} (h : t.fab = s.fab) (k : Nat) : threadAt t k = threadAt s k := by
  unfold threadAt; rw [h]

/-- When a slot's thread may issue. -/
theorem issuing_iff (s : State) (c slot : Nat) (t : Thread) : issuing s c slot = some t ↔
    threadAt s (threadKey c slot) = some t ∧ t.st = .active ∧ t.notReady = 0 ∧ fclkRuns s = true ∧
    ∃ l, launchOf s t = some l ∧ l.st = .running ∧ l.stopped = none := by
  unfold issuing
  cases h : threadAt s (threadKey c slot) with
  | none => simp
  | some u =>
    dsimp only
    constructor
    · intro h
      split at h
      · rename_i q
        cases h
        simp only [Bool.and_eq_true, beq_iff_eq] at q
        obtain ⟨⟨⟨a, b⟩, c⟩, d⟩ := q
        refine ⟨rfl, a, b, c, ?_⟩
        cases hl : launchOf s t with
        | none => rw [hl] at d; simp at d
        | some l => rw [hl] at d; simp at d; exact ⟨l, rfl, d⟩
      · cases h
    · rintro ⟨e, a, b, c, l, d, f, g⟩
      cases e
      simp [a, b, c, d, f, g]

/-- What a written x register reads; x0 reads 0 and discards. -/
theorem getX_setX (t : Thread) (r v j : Nat) : getX (setX r v t) j = if j = r ∧ r ≠ 0 then v % 2 ^ 64 else getX t j := by
  unfold getX setX
  by_cases hj : j = 0
  · subst hj
    by_cases hr : r = 0
    · simp [hr]
    · simp [Ne.symm hr]
  · simp only [hj, if_false]
    by_cases hr : r = 0
    · subst hr; simp [hj]
    · simp only [hr, if_false]
      by_cases e : j = r
      · subst e; simp [hj]
      · simp only [e, false_and, if_false]; rw [get_set_other _ _ _ _ _ e]

end Sys2Proof.Laws
end

