-- ==== Sys2Proof/WellFormed.lean ====
section
/-! DEFINITION. Which commands are well formed: every operand lies in the range that the manual gives its number. -/

namespace Sys2Proof.WellFormed

open Machine

/-- A requester of R89: one of 64 functions, the island, MMP, or an agent through the mirror of R59. -/
def reqOk : Requester → Bool
  | .fn n => decide (n < 64)
  | _ => true
/-- R176. -/
def fnOk (n : Nat) : Bool := decide (n < 64)
/-- R189. -/
def ringOk (n : Nat) : Bool := decide (n < 1024)
/-- R64. -/
def ownerOk (n : Nat) : Bool := decide (n < 64)
/-- R214. -/
def portOk (n : Nat) : Bool := decide (n < 4)
/-- R32. -/
def railOk (n : Nat) : Bool := decide (n < 8)
/-- R92. -/
def clusterOk (n : Nat) : Bool := decide (n < 128)
/-- R92. -/
def slotOk (n : Nat) : Bool := decide (n < 96)
/-- R103. -/
def regOk (n : Nat) : Bool := decide (n < 32)
/-- R95. -/
def immOk (i : Int) : Bool := decide (-2048 ≤ i) && decide (i < 2048)
/-- R95. -/
def sizeOk (n : Nat) : Bool := n == 1 || n == 2 || n == 4 || n == 8
/-- R95. -/
def lenOk (n : Nat) : Bool := n == 2 || n == 4
/-- R163. -/
def chanOk (n : Nat) : Bool := decide (n < 528)
/-- R155. -/
def stackOk (n : Nat) : Bool := decide (n < 8)
/-- R269, R302. -/
def wordOk (n : Nat) : Bool := decide (n < 2 ^ 32)
/-- R61. -/
def chipIdOk (n : Nat) : Bool := decide (n < 64)
/-- R388. -/
def frameOk (f : CanFrame) : Bool := decide (f.ident < 2 ^ 29) && decide (f.dlc < 16) && decide (f.data.length ≤ 64)
/-- R50. -/
def strapsOk (x : Straps) : Bool := decide (x.pos < 4)
/-- R55. -/
def sensorOk (n : Nat) : Bool := decide (n < 256)
/-- R493. -/
def classOk (n : Nat) : Bool := decide (n < 256)
/-- R50. -/
def posOk (n : Nat) : Bool := decide (n < 4)
/-- R278. -/
def sweepOk (n : Nat) : Bool := decide (n < 8)
/-- R243. -/
def streamOk (n : Nat) : Bool := decide (n < 8)
/-- R308. -/
def phaseOk (n : Nat) : Bool := decide (n < 8)
/-- R355. -/
def fanOk (n : Nat) : Bool := decide (n < 6)
/-- R361. -/
def valveOk (n : Nat) : Bool := decide (n < 2)
/-- R316. -/
def entryOk (n : Nat) : Bool := decide (n < 256)
/-- R319. -/
def pulseOk (n : Nat) : Bool := decide (n < 2)
/-- R324. -/
def siteOk (n : Nat) : Bool := decide (n < 3)
/-- R308. -/
def inputOk (n : Nat) : Bool := decide (n < 9)
/-- R367. -/
def adcOk (n : Nat) : Bool := decide (n < 8)
/-- R369. -/
def ropeOk (n : Nat) : Bool := decide (n < 4)
/-- R371. -/
def flowOk (n : Nat) : Bool := decide (n < 2)
/-- R396. -/
def txBufOk (n : Nat) : Bool := decide (n < 32)
/-- R332. -/
def capIxOk (n : Nat) : Bool := decide (n < 3)
/-- R404. -/
def ballOk (n : Nat) : Bool := decide (n < 32)
/-- R450. -/
def presOk (n : Nat) : Bool := decide (n < 16)
/-- R462. -/
def siteNoOk (n : Nat) : Bool := decide (n < 16)
/-- R438. -/
def rankOk (n : Nat) : Bool := decide (n < 4)
/-- R96. -/
def f3Ok (n : Nat) : Bool := decide (n < 8) && n % 4 != 0
/-- R96. -/
def csrOk (n : Nat) : Bool := decide (n < 4096)
/-- R111. -/
def amoOk (n : Nat) : Bool := decide (n < 32)
/-- R217. -/
def payloadOk (l : List Byte) : Bool := l.length == 240
/-- R453. -/
def byteOk (n : Nat) : Bool := decide (n < 256)
/-- R453. -/
def angleOk (n : Nat) : Bool := decide (n < 65536)
/-- R453. -/
def blockOk (l : List Byte) : Bool := decide (l.length ≤ 242)
/-- R384. -/
def txErrOk (n : Nat) : Bool := decide (n < 7)
/-- R143. -/
def queuePosOk (n : Nat) : Bool := decide (n < 16)

end Sys2Proof.WellFormed

namespace Sys2Proof

open WellFormed

/-- The command is well formed. -/
def Instr.wellFormed (i : Instr) : Bool :=
  match i with
  | .registerWrite _ r _ _ _ => reqOk r
  | .splitRead r _ _ => reqOk r
  | .splitWrite _ r _ _ => reqOk r
  | .vstbyQualified straps => strapsOk straps
  | .vstbyFall => true
  | .vstbyBrownOut => true
  | .powerUp r => reqOk r
  | .autoOnPowerUp => true
  | .regulatorAckTimeout rail => railOk rail
  | .railUp => true
  | .powerStepDelay => true
  | .powerDown r => reqOk r
  | .quiesceDone => true
  | .quiesceTimeout => true
  | .railOff => true
  | .railOffWaitExpiry rail => railOk rail
  | .railNoRise rail => railOk rail
  | .railLeftWindow rail => railOk rail
  | .lastGaspWritten => true
  | .railClear r => reqOk r
  | .refclkQualified _ => true
  | .refclkLost _ _ => true
  | .clockHoldExit => true
  | .chipRstN => true
  | .pciePerstN => true
  | .chipReset r => reqOk r
  | .chipResetRelease _ => true
  | .islandWatchdog => true
  | .islandRestart _ => true
  | .thermalTrip sensor => sensorOk sensor
  | .thermtripClear r => reqOk r
  | .leadCandidateTimeout _ => true
  | .rolePoll pos _ => posOk pos
  | .ownerCreate ring => ringOk ring
  | .ownerDestroy _ ring => ringOk ring
  | .ownerDrainEnd o => ownerOk o
  | .drainTimeout _ o => ownerOk o
  | .frameGrant ring => ringOk ring
  | .frameRevoke ring => ringOk ring
  | .clusterLease ring => ringOk ring
  | .clusterRelease ring => ringOk ring
  | .scratchClearDone c => clusterOk c
  | .map ring => ringOk ring
  | .unmap ring => ringOk ring
  | .resume _ ring => ringOk ring
  | .windowRead _ _ _ => true
  | .windowWrite _ _ _ => true
  | .remoteRequest _ port _ _ => portOk port
  | .remoteAnswer _ port _ => portOk port
  | .requestTimeout _ _ => true
  | .launch ring => ringOk ring
  | .groupPlace o => ownerOk o
  | .groupEnd _ => true
  | .threadLoad c slot rd rs1 imm size _ _ len _ => clusterOk c && slotOk slot && regOk rd && regOk rs1 && immOk imm && sizeOk size && lenOk len
  | .threadStore c slot rs2 rs1 imm size _ len => clusterOk c && slotOk slot && regOk rs2 && regOk rs1 && immOk imm && sizeOk size && lenOk len
  | .instructionFetch c slot _ _ => clusterOk c && slotOk slot
  | .fenceI c slot => clusterOk c && slotOk slot
  | .threadFence c slot => clusterOk c && slotOk slot
  | .ecall c slot _ => clusterOk c && slotOk slot
  | .csrAccess c slot f3 csr rd rs1 => clusterOk c && slotOk slot && f3Ok f3 && csrOk csr && regOk rd && regOk rs1
  | .pause c slot => clusterOk c && slotOk slot
  | .ubarInit c slot rs1 rs2 => clusterOk c && slotOk slot && regOk rs1 && regOk rs2
  | .ubarArrive c slot rd rs1 => clusterOk c && slotOk slot && regOk rd && regOk rs1
  | .ubarWait c slot rs1 rs2 => clusterOk c && slotOk slot && regOk rs1 && regOk rs2
  | .ubarSync c slot rs1 => clusterOk c && slotOk slot && regOk rs1
  | .ucopy c slot rs1 rs2 => clusterOk c && slotOk slot && regOk rs1 && regOk rs2
  | .ucwait c slot rd rs1 rs2 => clusterOk c && slotOk slot && regOk rd && regOk rs1 && regOk rs2
  | .ucread c slot rd rs1 => clusterOk c && slotOk slot && regOk rd && regOk rs1
  | .ucset c slot rs1 rs2 => clusterOk c && slotOk slot && regOk rs1 && regOk rs2
  | .uend c slot => clusterOk c && slotOk slot
  | .uyield c slot => clusterOk c && slotOk slot
  | .upark c slot rd rs1 rs2 _ => clusterOk c && slotOk slot && regOk rd && regOk rs1 && regOk rs2
  | .uparkTimeout c slot => clusterOk c && slotOk slot
  | .uwake c slot rs1 => clusterOk c && slotOk slot && regOk rs1
  | .ugridAcq c slot => clusterOk c && slotOk slot
  | .ugridRel c slot => clusterOk c && slotOk slot
  | .ugridTry c slot rd => clusterOk c && slotOk slot && regOk rd
  | .ufenceG c slot => clusterOk c && slotOk slot
  | .uamo c slot op rd rs1 rs2 _ _ _ _ => clusterOk c && slotOk slot && amoOk op && regOk rd && regOk rs1 && regOk rs2
  | .ucas c slot rd rs1 rs2 rs3 _ _ _ _ => clusterOk c && slotOk slot && regOk rd && regOk rs1 && regOk rs2 && regOk rs3
  | .lr c slot rd rs1 _ _ _ _ => clusterOk c && slotOk slot && regOk rd && regOk rs1
  | .sc c slot rd rs1 rs2 _ _ _ => clusterOk c && slotOk slot && regOk rd && regOk rs1 && regOk rs2
  | .lrReservationExpiry c slot => clusterOk c && slotOk slot
  | .suspend ring => ringOk ring
  | .suspendSaveDone o _ => ownerOk o
  | .contin ring => ringOk ring
  | .continuePlace o _ => ownerOk o
  | .utset c slot rs1 rs2 => clusterOk c && slotOk slot && regOk rs1 && regOk rs2
  | .utget c slot rd rs1 => clusterOk c && slotOk slot && regOk rd && regOk rs1
  | .utldw c slot rs1 rs2 => clusterOk c && slotOk slot && regOk rs1 && regOk rs2
  | .utmma c slot rs1 rs2 => clusterOk c && slotOk slot && regOk rs1 && regOk rs2
  | .utst c slot rs1 rs2 => clusterOk c && slotOk slot && regOk rs1 && regOk rs2
  | .utldacc c slot rs1 rs2 => clusterOk c && slotOk slot && regOk rs1 && regOk rs2
  | .utzero c slot rs1 rs2 => clusterOk c && slotOk slot && regOk rs1 && regOk rs2
  | .utcvt c slot rs1 rs2 => clusterOk c && slotOk slot && regOk rs1 && regOk rs2
  | .utwait c slot => clusterOk c && slotOk slot
  | .utflags c slot rd => clusterOk c && slotOk slot && regOk rd
  | .tensorEntryStart c => clusterOk c
  | .tensorEntryComplete c pos _ => clusterOk c && queuePosOk pos
  | .descriptorStart ch => chanOk ch
  | .moverStep ch _ _ => chanOk ch
  | .descriptorEnd ch => chanOk ch
  | .moverChainComplete ch => chanOk ch
  | .ceWriteback _ => true
  | .tc0WindowExpiry _ => true
  | .patrolRead _ _ => true
  | .patrolPeriodExpiry _ => true
  | .hbmStackFail k => stackOk k
  | .telemetrySample => true
  | .flashErase _ => true
  | .hostLinkUp _ _ => true
  | .flr fn => fnOk fn
  | .d3hotEntry fn => fnOk fn
  | .d0Return fn => fnOk fn
  | .bar2Resize _ => true
  | .vectorUnmask fn _ => fnOk fn
  | .atsInvalidation fn => fnOk fn
  | .ringEnable r k _ => reqOk r && ringOk k
  | .ringDisable r k _ => reqOk r && ringOk k
  | .doorbell r k _ => reqOk r && ringOk k
  | .ringFetch => true
  | .ringFetchComplete ring _ _ => ringOk ring
  | .cqHeadWrite r k _ => reqOk r && ringOk k
  | .nop ring => ringOk ring
  | .fence ring => ringOk ring
  | .signal ring => ringOk ring
  | .wait ring => ringOk ring
  | .waitPoll ring _ _ => ringOk ring
  | .waitTimeout ring => ringOk ring
  | .timestamp ring => ringOk ring
  | .copy ring => ringOk ring
  | .fill ring => ringOk ring
  | .inlineWrite ring => ringOk ring
  | .flushReadComplete _ _ => true
  | .logCopy ring => ringOk ring
  | .errInject ring => ringOk ring
  | .portEnable r _ port => reqOk r && portOk port
  | .portDisable r _ port => reqOk r && portOk port
  | .phyTrained _ port _ => portOk port
  | .linkStateTimeout _ port => portOk port
  | .backoffExpiry port => portOk port
  | .hello port _ _ id _ => portOk port && chipIdOk id
  | .key _ port _ _ => portOk port
  | .finished _ port _ _ => portOk port
  | .redigest _ port _ _ => portOk port
  | .flitReceive _ port _ payload _ _ _ _ => portOk port && payloadOk payload
  | .flitTransmit port => portOk port
  | .replayTimeout _ port => portOk port
  | .ackTimer port => portOk port
  | .idleTimeout _ port => portOk port
  | .noSignal _ port => portOk port
  | .probe _ port _ => portOk port
  | .probeRsp _ port _ => portOk port
  | .probeTimer => true
  | .lossHoldExpiry _ id => chipIdOk id
  | .fenceMessage _ port _ => portOk port
  | .stage r _ _ => reqOk r
  | .commit r _ _ => reqOk r
  | .commitDtsReached _ _ => true
  | .routeSet r _ id primary alt _ => reqOk r && chipIdOk id && portOk primary && portOk alt
  | .elkFence r _ id => reqOk r && chipIdOk id
  | .unfence r _ id => reqOk r && chipIdOk id
  | .stepProgramReg ring => ringOk ring
  | .seqSubmit ring _ _ _ => ringOk ring
  | .seqCancel ring evCons => ringOk ring && wordOk evCons
  | .seqQuery ring => ringOk ring
  | .streamBind ring evCons => ringOk ring && wordOk evCons
  | .streamConfig ring => ringOk ring
  | .streamStart ring => ringOk ring
  | .streamPause ring => ringOk ring
  | .streamStop ring => ringOk ring
  | .channelConfig ring => ringOk ring
  | .classConfig ring => ringOk ring
  | .stepPacketComplete ix evCons => streamOk ix && wordOk evCons
  | .stepBoundary ix evCons _ => streamOk ix && wordOk evCons
  | .stepFire ix evCons => streamOk ix && wordOk evCons
  | .journalReadDone _ _ evCons => wordOk evCons
  | .swapCopyDone _ _ evCons => wordOk evCons
  | .sweepBind ring => ringOk ring
  | .sweepConfig ring => ringOk ring
  | .sweepStart ring => ringOk ring
  | .sweepStop ring doneCons => ringOk ring && wordOk doneCons
  | .sweepFlush ring => ringOk ring
  | .snapshot ring doneCons => ringOk ring && wordOk doneCons
  | .voxReset ring doneCons => ringOk ring && wordOk doneCons
  | .sweepSubmit ring _ => ringOk ring
  | .posePush ring => ringOk ring
  | .revolutionOpen c doneCons => sweepOk c && wordOk doneCons
  | .sliceClose c => sweepOk c
  | .poseWaitExpiry c => sweepOk c
  | .sliceProcess doneCons => wordOk doneCons
  | .mainsEdge input _ => inputOk input
  | .phaseStamp ring => ringOk ring
  | .cycleStartMissing c => phaseOk c
  | .predictedCycleStart c => phaseOk c
  | .holdoverExpiry c => phaseOk c
  | .channelEnable r c _ => reqOk r && phaseOk c
  | .eventSet ring => ringOk ring
  | .eventClear ring => ringOk ring
  | .phaseQuery ring => ringOk ring
  | .eventFire ix => entryOk ix
  | .stepGateClose ix => streamOk ix
  | .pulseEnd ix => pulseOk ix
  | .siteInputChange ix _ => siteOk ix
  | .clearMsExpiry => true
  | .restoreMsExpiry => true
  | .allMissBridge => true
  | .siteEnable r _ => reqOk r
  | .buslockWrite r _ => reqOk r
  | .staggerLocalWrite r _ => reqOk r
  | .capSet ring => ringOk ring
  | .powerQuery ring => ringOk ring
  | .hostCapWrite r _ => reqOk r
  | .capRampTick => true
  | .brdThrotChange _ => true
  | .quorumWrite _ => true
  | .tjSample _ => true
  | .thermalUpdate => true
  | .dutyClampDown _ => true
  | .dutyClampUp _ => true
  | .dvfsTick _ _ => true
  | .railPowerSample _ _ => true
  | .forecastUpdate => true
  | .tfuPwmWrite r c _ => reqOk r && fanOk c
  | .speedLoopTick c => fanOk c
  | .tachEdge c _ => fanOk c
  | .tachStall c => fanOk c
  | .ageingCheck c => fanOk c
  | .valveWrite r n _ _ => reqOk r && valveOk n
  | .valveFault n => valveOk n
  | .valveFaultClear r n => reqOk r && valveOk n
  | .adcSample ix _ => adcOk ix
  | .ropeSample ix _ _ => ropeOk ix
  | .leakRemote r => reqOk r
  | .leakCloseEnd n => valveOk n
  | .leakClear r => reqOk r
  | .flowUpdate ix _ _ _ _ => flowOk ix
  | .initLeave r _ => reqOk r
  | .initEnter r _ => reqOk r
  | .frameReceive f _ _ => frameOk f
  | .rxQueueAck r _ _ => reqOk r
  | .txlogAck r _ => reqOk r
  | .shadowSel r _ _ => reqOk r
  | .txLoad r _ => reqOk r
  | .txReq r _ => reqOk r
  | .txAbort r _ => reqOk r
  | .frameTransmitDone _ _ => true
  | .txError err => txErrOk err
  | .busOffRecovery _ => true
  | .overLengthExpiry => true
  | .ballStart b _ => ballOk b
  | .referenceMissing => true
  | .takeover => true
  | .unsyncTakeover => true
  | .take r => reqOk r
  | .yield r => reqOk r
  | .rowConfigApply => true
  | .election => true
  | .leadOverWork _ => true
  | .referenceHandling f => frameOk f
  | .memberStatus f => frameOk f
  | .trayReport f => frameOk f
  | .allocation f => frameOk f
  | .stagger f => frameOk f
  | .leak f => frameOk f
  | .allStop f => frameOk f
  | .handover r target => reqOk r && rankOk target
  | .rowClear r => reqOk r
  | .huddleAllStop r => reqOk r
  | .presenceChange n _ _ => presOk n
  | .siteVerify n _ => siteNoOk n
  | .verifyCmd r _ => reqOk r
  | .verifyPeriod _ => true
  | .role _ => true
  | .chipState _ => true
  | .tsbLeak v => byteOk v
  | .quorum v => byteOk v
  | .tsbStagger v => angleOk v
  | .alloc code angle => byteOk code && angleOk angle
  | .proxyReq block => blockOk block
  | .proxyRsp => true
  | .traySmbusOver _ => true
  | .trayLeadSilence => true
  | .proxyTimeout => true
  | .outboxPoll pos block => posOk pos && blockOk block
  | .mmpReceive _ _ => true
  | .identify => true
  | .status => true
  | .regRead => true
  | .regWrite _ => true
  | .mmpChipReset => true
  | .logRead => true
  | .eventCfg => true
  | .eventAck => true
  | .eventResend => true
  | .topoGet _ => true
  | .topoLoad => true
  | .topoAccept => true
  | .firRead _ => true
  | .firWrite _ => true
  | .rowConfigLoad => true
  | .fwBlock => true
  | .fwCommit _ => true
  | .keySet _ => true
  | .ptpExchangeComplete _ _ _ _ _ _ => true
  | .ptpAnnounce _ _ => true
  | .ptpAnnounceTimeout => true
  | .errorDetect _ => true
  | .logEntryClose => true
  | .flashLogCopy _ => true
  | .handlerDone => true
  | .errAck r cls _ => reqOk r && classOk cls
  | .ackTimeout => true
  | .lastgaspAck r => reqOk r
  | .islandBoot _ => true
  | .bootStage _ _ _ => true
  | .restart r => reqOk r
  | .confirm r _ => reqOk r
  | .chipInit _ => true
  | .hbmTrained _ => true
  | .hostPortReady => true
  | .packetNotBeforeReached ring => ringOk ring
  | .txNotBeforeReached k => txBufOk k
  | .hostLinkDown => true
  | .swapInCopyDone _ _ evCons => wordOk evCons
  | .hbmRefreshRateChange k _ => stackOk k
  | .illegalInstruction c slot => clusterOk c && slotOk slot
  | .pgvSiteCapWrite r ix _ => reqOk r && capIxOk ix
  | .pgvBoardWrite r _ => reqOk r
  | .mgpPhyLinkChange _ _ _ _ => true

end Sys2Proof
end

