-- ==== Sys2Proof/Tests/Slice0.lean ====
section
/-! SUPPORT. Ill-formed commands, small steps with results worked out from the manual, and a state that meets the
hypotheses of each statement. -/

namespace Sys2Proof.Tests

open Sys2Proof Sys2Proof.Machine Sys2Proof.Safety

set_option Elab.async false

/-! Ill-formed commands: one for each check of WellFormed. -/

theorem test_illFormed_reqOk : (Instr.chipReset (.fn 64)).wellFormed = false := by decide

theorem test_illFormed_fnOk : (Instr.flr 64).wellFormed = false := by decide

theorem test_illFormed_ringOk : (Instr.nop 1024).wellFormed = false := by decide

theorem test_illFormed_ownerOk : (Instr.ownerDrainEnd 64).wellFormed = false := by decide

theorem test_illFormed_portOk : (Instr.flitTransmit 4).wellFormed = false := by decide

theorem test_illFormed_railOk : (Instr.railNoRise 8).wellFormed = false := by decide

theorem test_illFormed_clusterOk : (Instr.pause 128 0).wellFormed = false := by decide

theorem test_illFormed_slotOk : (Instr.pause 0 96).wellFormed = false := by decide

theorem test_illFormed_regOk : (Instr.utget 0 0 32 0).wellFormed = false := by decide

theorem test_illFormed_immOk : (Instr.threadLoad 0 0 1 1 2048 8 false false 4 .ok).wellFormed = false := by decide

theorem test_illFormed_sizeOk : (Instr.threadLoad 0 0 1 1 0 3 false false 4 .ok).wellFormed = false := by decide

theorem test_illFormed_lenOk : (Instr.threadStore 0 0 1 1 0 8 false 3).wellFormed = false := by decide

theorem test_illFormed_chanOk : (Instr.descriptorStart 528).wellFormed = false := by decide

theorem test_illFormed_stackOk : (Instr.hbmStackFail 8).wellFormed = false := by decide

theorem test_illFormed_wordOk : (Instr.seqCancel 0 4294967296).wellFormed = false := by decide

theorem test_illFormed_chipIdOk : (Instr.lossHoldExpiry {} 64).wellFormed = false := by decide

theorem test_illFormed_frameOk : (Instr.frameReceive { ident := 536870912 } 0 0).wellFormed = false := by decide

theorem test_illFormed_strapsOk : (Instr.vstbyQualified ⟨4, false, false, false⟩).wellFormed = false := by decide

theorem test_illFormed_sensorOk : (Instr.thermalTrip 256).wellFormed = false := by decide

theorem test_illFormed_classOk : (Instr.errAck .island 256 0).wellFormed = false := by decide

theorem test_illFormed_posOk : (Instr.rolePoll 4 0).wellFormed = false := by decide

theorem test_illFormed_sweepOk : (Instr.sliceClose 8).wellFormed = false := by decide

theorem test_illFormed_streamOk : (Instr.stepGateClose 8).wellFormed = false := by decide

theorem test_illFormed_phaseOk : (Instr.holdoverExpiry 8).wellFormed = false := by decide

theorem test_illFormed_fanOk : (Instr.speedLoopTick 6).wellFormed = false := by decide

theorem test_illFormed_valveOk : (Instr.valveFault 2).wellFormed = false := by decide

theorem test_illFormed_entryOk : (Instr.eventFire 256).wellFormed = false := by decide

theorem test_illFormed_pulseOk : (Instr.pulseEnd 2).wellFormed = false := by decide

theorem test_illFormed_siteOk : (Instr.siteInputChange 3 false).wellFormed = false := by decide

theorem test_illFormed_inputOk : (Instr.mainsEdge 9 0).wellFormed = false := by decide

theorem test_illFormed_adcOk : (Instr.adcSample 8 0).wellFormed = false := by decide

theorem test_illFormed_ropeOk : (Instr.ropeSample 4 0 0).wellFormed = false := by decide

theorem test_illFormed_flowOk : (Instr.flowUpdate 2 0 0 0 0).wellFormed = false := by decide

theorem test_illFormed_txBufOk : (Instr.txNotBeforeReached 32).wellFormed = false := by decide

theorem test_illFormed_capIxOk : (Instr.pgvSiteCapWrite .island 3 0).wellFormed = false := by decide

theorem test_illFormed_ballOk : (Instr.ballStart 32 0).wellFormed = false := by decide

theorem test_illFormed_presOk : (Instr.presenceChange 16 false []).wellFormed = false := by decide

theorem test_illFormed_siteNoOk : (Instr.siteVerify 16 []).wellFormed = false := by decide

theorem test_illFormed_rankOk : (Instr.handover .island 4).wellFormed = false := by decide

theorem test_illFormed_f3Ok : (Instr.csrAccess 0 0 4 0 0 0).wellFormed = false := by decide

theorem test_illFormed_csrOk : (Instr.csrAccess 0 0 1 4096 0 0).wellFormed = false := by decide

theorem test_illFormed_amoOk : (Instr.uamo 0 0 32 0 0 0 false false false .ok).wellFormed = false := by decide

theorem test_illFormed_payloadOk : (Instr.flitReceive {} 0 0 [] true 0 .ok true).wellFormed = false := by decide

theorem test_illFormed_byteOk : (Instr.quorum 256).wellFormed = false := by decide

theorem test_illFormed_angleOk : (Instr.tsbStagger 65536).wellFormed = false := by decide

theorem test_illFormed_blockOk : (Instr.proxyReq (List.replicate 243 0)).wellFormed = false := by decide +kernel

theorem test_illFormed_txErrOk : (Instr.txError 7).wellFormed = false := by decide

theorem test_illFormed_queuePosOk : (Instr.tensorEntryComplete 0 16 .ok).wellFormed = false := by decide

/-! States and packets that the tests and witnesses use. -/

/-- A chip with standby power and its island booted, main power OFF. -/
def offS : State :=
  { dts := 1000000
    pwr := { vstby := .qualified, okRef100 := true, okElk0 := true, okElk1 := true, okClk25 := true, islandUp := true }
    boot := { stage := 8 }, err := { restored := true } }

/-- The same chip ON and initialized, its host link up, owners 0 and 1 ACTIVE. -/
def onS : State :=
  { offS with
    pwr := { offS.pwr with st := .on, init := .ready, mainPwrEn := true }
    hif := { up := true, rate := 6, width := 16 }
    mem := { owners := [(0, { st := .active, key := some 1 }), (1, { st := .active, key := some 2 })], rngOk := true
             nextKey := 3 }
    mov := { hbmTrained := 255 } }

/-- Ring `r` of owner `o` runs, one packet fetched. -/
def ringS (s : State) (r o : Nat) (bs : List Byte) : State :=
  { s with
    regs := [(0x400008 + r * 0x40, BitVec.ofNat 64 0x80860000), (0x410000 + r * 4, BitVec.ofNat 64 (0x80000000 + o * 256))]
    hif := { s.hif with rings := [(r, { st := .running, fetched := [{ bytes := bs, fetched := 1000000 }] })] } }

/-- A packet of whole units: opcode, size, and bytes at offsets. -/
def pktB (op size : Nat) (l : List (Nat × List Byte)) : List Byte :=
  l.foldl (fun b e => putBytes b e.1 e.2) (leBytes 1 op ++ [0] ++ leBytes 1 size ++ zeros (64 * size - 3))

/-- Ring 0 holds one packet of an owner on a chip in state `s`. -/
def front (s : State) (o op size : Nat) (l : List (Nat × List Byte)) : State := ringS s 0 o (pktB op size l)

/-- The packet `front` holds. -/
def frontP (op size : Nat) (l : List (Nat × List Byte)) : Packet := { bytes := pktB op size l, fetched := 1000000 }

/-- A write that R6 and R520 let through, as a check that evaluates. -/
def plainB (s : State) (r : Requester) (off lo v : Nat) : Bool :=
  match findReg lo with
  | some (d, l) =>
    decide (pathOf s r = .serves) && !(viewShut s r) && decide (accessOffset s r off = some lo) && !(absentStride lo) &&
    decide (off % 4 = 0) && decide (l = lo) && decide (d.width = 32) && decide (v < 2 ^ 32) && !d.readOnly &&
    !(d.reserved v) && !(crossReserved lo (rawAt s lo) v s) && !(lockOn lo s) && !(ringForeign r lo s)
  | none => false

/-- What the check comes to. -/
theorem plainB_spec {s : State} {r : Requester} {off lo v : Nat} (h : plainB s r off lo v = true) :
    ∃ d, writesPlain s r off lo d v := by
  unfold plainB at h
  split at h
  · rename_i d l e
    simp only [Bool.and_eq_true, decide_eq_true_eq, Bool.not_eq_true'] at h
    obtain ⟨⟨⟨⟨⟨⟨⟨⟨⟨⟨⟨⟨a, b⟩, c⟩, f⟩, g⟩, rfl⟩, i⟩, j⟩, k⟩, m⟩, n⟩, o⟩, p⟩ := h
    exact ⟨d, a, b, c, f, g, e, i, j, k, m, n, o, p⟩
  · cases h

/-- A write that no lock keeps from a field, as a check that evaluates. -/
def lockedB (s : State) (r : Requester) (off lo v : Nat) : Bool :=
  match findReg lo with
  | some (d, l) =>
    decide (pathOf s r = .serves) && !(viewShut s r) && decide (accessOffset s r off = some lo) && !(absentStride lo) &&
    decide (off % 4 = 0) && decide (l = lo) && decide (d.width = 32) && decide (v < 2 ^ 32) && !d.readOnly &&
    !(d.reserved v) && !(crossReserved lo (rawAt s lo) v s) && !(lockOn lo s && changesRwl d (rawAt s lo) v) &&
    !(ringForeign r lo s)
  | none => false

/-- What that check comes to. -/
theorem lockedB_spec {s : State} {r : Requester} {off lo v : Nat} (h : lockedB s r off lo v = true) :
    ∃ d, writesLocked s r off lo d v := by
  unfold lockedB at h
  split at h
  · rename_i d l e
    simp only [Bool.and_eq_true, decide_eq_true_eq, Bool.not_eq_true'] at h
    obtain ⟨⟨⟨⟨⟨⟨⟨⟨⟨⟨⟨⟨a, b⟩, c⟩, f⟩, g⟩, rfl⟩, i⟩, j⟩, k⟩, m⟩, n⟩, o⟩, p⟩ := h
    exact ⟨d, a, b, c, f, g, e, i, j, k, m, n, o, p⟩
  · cases h

/-- A write that no lock keeps from a field. -/
theorem locked_of_plain {s : State} {r : Requester} {off lo v : Nat} (h : plainB s r off lo v = true) :
    ∃ d, writesLocked s r off lo d v := by
  obtain ⟨d, a, b, c, f, g, e, i, j, k, m, n, o, p⟩ := plainB_spec h
  exact ⟨d, a, b, c, f, g, e, i, j, k, m, n, by simp [o], p⟩

/-- A translation that reaches this chip's address `a`, as a check that evaluates. -/
def hereB (x : Except AccessErr Target) (a : Nat) : Bool :=
  match x with
  | .ok (.here b) => b == a
  | _ => false

/-- What that check comes to. -/
theorem hereB_spec {x : Except AccessErr Target} {a : Nat} (h : hereB x a = true) : x = .ok (.here a) := by
  unfold hereB at h
  split at h
  · simp at h; rw [h]
  · cases h

/-- A translation that fails with a status. -/
def failsB (x : Except AccessErr Target) (st : Nat) : Bool :=
  match x with
  | .error e => e.status == st
  | .ok _ => false

/-- Owner 1 holds a table frame, a data frame and cluster 0. DVA 0x1000 maps the start of cluster 0's scratch and DVA
0x2000 the data frame, by tables whose bytes are written out from R70's entries. -/
def mapS : State :=
  { onS with mem := { onS.mem with
    owners := [(0, { st := .active, key := some 1 }), (1, { st := .active, key := some 2, root := 0x1000 })]
    grants := [(0, some { owner := 1, table := true }), (1, some { owner := 1, table := false })]
    leases := [(0, { owner := some 1 })]
    leaves := [{ owner := 1, dva := 0x1000, ps := 0, chip := 0, dpa := 0x48_0000_0000, perm := 7 },
      { owner := 1, dva := 0x2000, ps := 0, chip := 0, dpa := 0x200000, perm := 7 }]
    tables := [{ dpa := 0x1000, owner := 1, level := 0, dva := 0 }, { dpa := 0x2000, owner := 1, level := 1, dva := 0 },
      { dpa := 0x3000, owner := 1, level := 2, dva := 0 }, { dpa := 0x4000, owner := 1, level := 3, dva := 0 }]
    cells := [(0x1000, 3), (0x1001, 0x20), (0x2000, 3), (0x2001, 0x30), (0x3000, 3), (0x3001, 0x40), (0x4008, 0x71),
      (0x400C, 0x48), (0x4010, 0x71), (0x4012, 0x20)]
    tags := [0x40, 0x80, 0xC0, 0x100].map (fun l => (l, some { owner := 1, gen := 0, key := 2 })) } }

/-! A state that meets the hypotheses of each statement, for its clauses in their order. -/

/-- The chip of `offS` in another power state. -/
def powerS (st : PwrState) : State := { offS with pwr := { offS.pwr with st } }

/-- The same ramping up, the step's rails rising. -/
def risingS (n : Nat) : State := { offS with pwr := { offS.pwr with st := .rampUp, step := n, phase := .rising } }

theorem island_reaches : reaches offS .island := ⟨by decide, fun _ h => nomatch h⟩

theorem witness_PowerCommandsFollowTheTable :
    (reaches offS .island ∧ offS.pwr.st = .off ∧ offS.pwr.vstby = .qualified ∧ islandRuns offS = true ∧
      2 ≤ offS.boot.stage ∧ offS.pwr.okRef100 = true ∧ offS.pwr.fault.valid = false ∧ offS.pwr.tripped = false ∧
      offS.pwr.straps.test = false ∧ flowOk offS = true) ∧
    (let s := { offS with pwr := { offS.pwr with okRef100 := false } }
     reaches s .island ∧ s.pwr.st = .off ∧ s.pwr.okRef100 = false) ∧
    (reaches (powerS .quiesce) .island ∧ (powerS .quiesce).pwr.st = .quiesce) ∧
    (reaches (powerS .lockedOut) .island ∧ (powerS .lockedOut).pwr.st = .lockedOut) ∧
    (reaches (powerS .on) .island ∧ (powerS .on).pwr.st = .on) := by
  refine ⟨⟨island_reaches, ?_⟩, ⟨⟨by decide, fun _ h => nomatch h⟩, by decide⟩, ⟨⟨by decide, fun _ h => nomatch h⟩, by decide⟩,
    ⟨⟨by decide, fun _ h => nomatch h⟩, by decide⟩, ⟨⟨by decide, fun _ h => nomatch h⟩, by decide⟩⟩
  decide +kernel

theorem witness_PowerUpRunsStepByStep :
    (standby (risingS 5) = true ∧ (risingS 5).pwr.st = .rampUp ∧ (risingS 5).pwr.phase = .rising ∧
      (risingS 5).pwr.step = 5) ∧
    (let s := { risingS 6 with pwr := { (risingS 6).pwr with rstPin := true } }
     standby s = true ∧ s.pwr.phase = .rising ∧ s.pwr.step = 6 ∧ inChipReset s = true) ∧
    inChipReset (risingS 6) = false ∧
    (let s := { offS with pwr := { offS.pwr with st := .rampUp, phase := .delay } }
     standby s = true ∧ s.pwr.st = .rampUp ∧ s.pwr.phase = .delay) ∧
    (let s := { offS with pwr := { offS.pwr with st := .rampUp, phase := .ack, ackWait := [6] } }
     standby s = true ∧ s.pwr.phase = .ack ∧ s.pwr.ackWait.contains 6 = true) ∧
    ((upRails (risingS 6).pwr.step).contains 0 = true ∧ (railAt (risingS 6) 0).up = false) ∧
    (let s := { offS with regs := [(0x2C00100, BitVec.ofNat 64 4)] }
     standby s = true ∧ islandRuns s = true ∧ regBit s 0x2C00100 2 = true ∧ 5 ≤ s.boot.stage ∧
       s.pwr.autoOnDone = false ∧ flowOk s = true ∧ s.pwr.st = .off ∧ s.pwr.okRef100 = true) := by
  decide +kernel

theorem witness_PowerDownAndRailFaults :
    (standby (powerS .quiesce) = true ∧ (powerS .quiesce).hif.started = [] ∧ (powerS .quiesce).elk.selfFence = false) ∧
    (let s := { offS with pwr := { offS.pwr with st := .rampDown, step := 5 } }
     standby s = true ∧ s.pwr.st = .rampDown ∧ s.pwr.step = 5) ∧
    (let s := { offS with pwr := { offS.pwr with st := .rampDown, step := 6, rails := [(5, { off := false })] } }
     s.pwr.heldUp = false ∧ (downRails s.pwr.step).contains 5 = true ∧ (railAt s 5).off = false) ∧
    (powerS .on).pwr.st = .on ∧
    (let s := { offS with pwr := { offS.pwr with st := .rampUp, rails := [(6, { up := true, enabled := true })] } }
     (railAt s 6).up = true ∧ (railAt s 6).enabled = true) ∧
    (let s := { powerS .forcedOff with err := { gasp := [{ kind := 2, dts := 0, cause := none }] } }
     standby s = true ∧ islandRuns s = true ∧ s.err.gasp ≠ []) ∧
    (let s := { powerS .lockedOut with
       pwr := { (powerS .lockedOut).pwr with fault := { valid := true }, faultReadBy := [.island] } }
     pathOf s .island = .serves ∧ s.pwr.st = .lockedOut ∧ s.pwr.fault.valid = true ∧
       s.pwr.faultReadBy.contains .island = true) := by
  decide +kernel

theorem witness_StandbyRailAndReferences :
    State.reset.pwr.vstby ≠ .qualified ∧ offS.pwr.vstby = .qualified ∧ islandRuns offS = true ∧
    islandRuns { offS with pwr := { offS.pwr with islandUp := false } } = false ∧
    (let s := { offS with pwr := { offS.pwr with okRef100 := false } }
     standby s = true ∧ s.pwr.okClk25 = true ∧ s.pwr.okRef100 = false) ∧
    (let s := { offS with pwr := { offS.pwr with okClk25 := false }, fbc := { clkHold := true, clkHoldEnd := some 5 } }
     standby s = true ∧ s.pwr.okClk25 = false ∧ s.fbc.clkHold = true ∧ s.fbc.clkHoldEnd = some 5) := by
  decide

theorem witness_ChipResetReachesTheChipDomain :
    standby onS = true ∧ reaches onS .island ∧ Instr.chipReset .island = .chipReset .island :=
  ⟨by decide, ⟨by decide, fun _ h => nomatch h⟩, rfl⟩

theorem witness_ResetReleaseTripAndIsland :
    (let s := { onS with pwr := { onS.pwr with rstPin := true, perstPin := true } }
     inChipReset s = true ∧ inChipReset { s with pwr := setReset .pin false s.pwr } = true) ∧
    (let s := { onS with pwr := { onS.pwr with rstPin := true } }
     inChipReset s = true ∧ inChipReset { s with pwr := setReset .pin false s.pwr } = false ∧ s.pwr.st = .on) ∧
    (standby onS = true ∧ onS.pwr.tripped = false) ∧
    (let s := { offS with dts := 10000000005, pwr := { offS.pwr with st := .tripped, tripped := true, tripDts := 5 } }
     pathOf s .island = .serves ∧ s.pwr.tripped = true ∧ s.pwr.tripDts + 10000000000 ≤ s.dts ∧
       s.pwr.fault.valid = false) ∧
    romRuns onS = true ∧
    (let s := { onS with pwr := { onS.pwr with islandUp := false, restarting := true } }
     standby s = true ∧ s.pwr.initInterrupted = false) ∧
    (let s := { offS with pwr := { offS.pwr with straps := ⟨0, true, false, false⟩ }, tmg := { role := 1 } }
     islandRuns s = true ∧ 2 ≤ s.boot.stage ∧ s.tmg.settled = false ∧ s.pwr.straps.lead = true ∧
       ∀ a ∈ [(1, 0)], a.1 = s.pwr.straps.pos ∨ bitOf a.2 2 = false) ∧
    (let s := { offS with tmg := { role := 1 } }
     islandRuns s = true ∧ 3 ≠ s.pwr.straps.pos ∧ bitOf 4 2 = true) := by
  decide

theorem witness_ReservedFieldsReadZero :
    pathOf offS .island = .serves ∧ viewShut offS .island = false ∧ accessOffset offS .island 0x2C00100 = some 0x2C00100 ∧
    absentStride 0x2C00100 = false ∧ (findReg 0x2C00100).map (fun x => (x.1.width, x.2)) = some (32, 0x2C00100) ∧
    (findReg 8).map (fun x => (x.1.width, x.2)) = some (64, 8) := by
  decide +kernel

theorem witness_RegisterWritesAreJudged :
    (pathOf offS .island = .serves ∧ viewShut offS .island = false ∧ accessOffset offS .island 0x2900000 = some 0x2900000 ∧
      absentStride 0x2900000 = false ∧ ringForeign .island 0x2900000 offS = false) ∧
    (findReg 0).map (fun x => (x.1.readOnly, x.1.width, x.2)) = some (true, 32, 0) ∧
    (findReg 0x2900000).map (fun x => (x.1.readOnly, x.1.width, x.1.reserved 0, x.1.reserved 1)) =
      some (false, 32, false, true) ∧
    (findReg 0x400000).map (fun x => (x.1.readOnly, x.1.width, x.1.reserved 0)) = some (false, 64, false) ∧
    (let s := { offS with regs := [(0x2900000, 0)] }
     lockOn 0x2900000 s = true ∧ (findReg 0x2900010).map (fun x => changesRwl x.1 (rawAt s 0x2900010) 0) = some true) := by
  decide +kernel

theorem witness_FieldsActByTheirCodes :
    (findReg 0x2900000).map (fun x => x.1.flds.any (fun f => f.acc == .rwl)) = some true ∧
    (findReg 0x2C00120).map (fun x => x.1.flds.any (fun f => f.acc == .w1c)) = some true ∧
    (findReg 0x2C00100).map (fun x => x.1.flds.any (fun f => f.acc == .wo)) = some true := by
  decide +kernel

theorem witness_CapBlockIsReadOnly :
    reaches offS .island ∧ (findReg 0).isSome = true ∧ findReg 0x2000 = none ∧ (0x2000 : Nat) < 0x100000 :=
  ⟨island_reaches, by decide +kernel, by decide +kernel, by decide⟩

theorem witness_SplitAccessesHoldAWord :
    pathOf offS .island = .serves ∧ accessOffset offS .island 8 = some 8 ∧ accessOffset offS .island 12 = some 12 ∧
    absentStride 8 = false ∧ absentStride 12 = false ∧ (findReg 12).map (fun x => (x.1.width, x.2)) = some (64, 8) ∧
    (findReg 0x400000).map (fun x => (x.1.width, x.1.readOnly)) = some (64, false) := by
  decide +kernel

theorem witness_PacketsAreJudgedBeforeTheyRun :
    (packetRow (.nop 0)).isNone = true ∧ (packetRow (.fence 0)).isSome = true ∧ (ringAt onS 0).fetched = [] ∧
    (let s := front onS 2 1 1 []
     opIs 1 (frontP 1 1 []).bytes = true ∧ canStart s 0 (frontP 1 1 []) = true ∧
       ownerActive s (inflightOfPacket s 0 (frontP 1 1 [])).owner = false) ∧
    (let s := front onS 1 1 2 []
     canStart s 0 (frontP 1 2 []) = true ∧ ownerActive s (inflightOfPacket s 0 (frontP 1 2 [])).owner = true ∧
       headerError (inflightOfPacket s 0 (frontP 1 2 [])) 1000000 1 [] = some 0x0304) := by
  decide +kernel

theorem witness_OwnersComeAndGo :
    (frontReady (front onS 0 0x60 1 [(16, [2])]) 0 0x60 1 [(16, 1)] (frontP 0x60 1 [(16, [2])]) [] ∧
      (ownerAt onS 2).st = .free ∧ onS.mem.rngOk = true) ∧
    (frontReady (front onS 0 0x61 1 [(16, [1])]) 0 0x61 1 [(16, 1)] (frontP 0x61 1 [(16, [1])]) [] ∧
      ownerActive onS 1 = true) ∧
    (let s := { onS with mem := { onS.mem with owners := [(1, { st := .draining, key := some 2, destroyId := some 7 })] } }
     fclkRuns s = true ∧ islandRuns s = true ∧ (ownerAt s 1).st = .draining ∧ (ownerAt s 1).destroyId = some 7 ∧
       (ownerAt s 1).key.isSome = true ∧ ownerBusy s 1 = false ∧ s.mem.leases = []) ∧
    (let p := frontP 5 1 [(16, [3, 0, 0, 0, 0, 1])]
     frontReady (front onS 1 5 1 [(16, [3, 0, 0, 0, 0, 1])]) 0 5 1 [(16, 6)] p [] ∧ getLe p.bytes 16 4 = 3 ∧
       getLe p.bytes 20 1 = 0 ∧ getLe p.bytes 21 1 = 1) := by
  unfold frontReady; decide +kernel

theorem witness_FramesAndClustersAreGivenOut :
    (let l := [(16, [1, 0]), (20, leBytes 4 5 ++ leBytes 4 2)]
     frontReady (front onS 0 0x62 1 l) 0 0x62 1 [(16, 2), (20, 8)] (frontP 0x62 1 l) [] ∧ onS.mem.grants = []) ∧
    (let l := [(20, leBytes 4 99327 ++ leBytes 4 1)]
     frontReady (front onS 0 0x63 1 l) 0 0x63 1 [(20, 8)] (frontP 0x63 1 l) [] ∧
       runMapped (front onS 0 0x63 1 l) 99327 1 = false) ∧
    (let l := [(16, [1]), (63, [128])]
     frontReady (front onS 0 0x64 1 l) 0 0x64 1 [(16, 1), (48, 16)] (frontP 0x64 1 l) [] ∧
       (List.range 128).filter (fun c => (getLe (frontP 0x64 1 l).bytes 48 16).testBit c) = [127] ∧
       (leaseAt onS 127).owner = none) ∧
    (let l := [(17, [1]), (48, [1])]
     frontReady (front onS 0 0x65 1 l) 0 0x65 1 [(17, 1), (48, 16)] (frontP 0x65 1 l) []) ∧
    (let s := { onS with mem := { onS.mem with leases := [(3, { owner := some 1, clearing := true })] } }
     fclkRuns s = true ∧ (leaseAt s 3).clearing = true ∧ ∀ ch ∈ clusterChans 3, chainsAt s ch = []) := by
  unfold frontReady; decide +kernel

theorem witness_MappingsAreMadeAndRemoved :
    (let l := [(16, [1, 3, 0]), (20, leBytes 4 1 ++ leBytes 8 4096 ++ leBytes 8 8192)]
     let s := front onS 0 0x13 1 l
     frontReady s 0 0x13 1 [(16, 3), (20, 20)] (frontP 0x13 1 l) [] ∧ islandRuns s = true ∧ ownerActive s 1 = true ∧
       (inflightOfPacket s 0 (frontP 0x13 1 l)).owner = 0 ∧ (0 : Nat) = s.elk.selfId) ∧
    (let l := [(16, [1]), (24, leBytes 8 (2 ^ 48 - 4096) ++ leBytes 8 4096)]
     frontReady (front onS 1 0x14 1 l) 0 0x14 1 [(16, 1), (24, 16)] (frontP 0x14 1 l) []) := by
  unfold frontReady; decide +kernel

theorem witness_HostWindowAccesses :
    windowAddr onS 56 % 64 + 8 ≤ 64 ∧ fnPath onS 0 = .serves ∧ 56 + 8 ≤ windowSize onS ∧
    windowOpen { onS with regs := [(0x200010, 0)] } = false ∧
    fnPath offS 0 = .dead ∧ fnPath { onS with err := { isolated := true } } 0 = .abort ∧
    (let s := { onS with regs := [(0x200010, BitVec.ofNat 64 0x80000000)] }
     windowOpen s = true ∧ hereB (windowTarget s (windowAddr s 0) 1) 0 = true ∧
       failsB (windowTarget s (windowAddr s 0) 2) 0x0326 = true ∧ failsB (windowTarget s 0x30_A000_0000 1) 0x0329 = true ∧ regionOf 0 ≠ some .regs ∧
       s.elk.outstanding.length < 8192) := by
  decide +kernel
/-- Launch 1 of owner 1, one group of one thread in slot 0 of cluster 0. -/
def launchL : Launch :=
  { id := 1, owner := 1, tag := 9, ring := 0, entry := 0x1000, arg := 0, scrBase := 0, groups := 2, threads := 1, utc := 0
    pack := false, scrPg := 0, clusters := [0], next := 1 }

def groupG : Group :=
  { gid := 1, launch := 1, index := 0, cluster := 0, scrOff := 0, scrPg := 0, slots := [0]
    barriers := List.replicate 8 { expected := 1, arrived := 0, phase := 0 }, copyCtr := List.replicate 8 0
    cycleBase := 0, cycleStart := 0, copies := 0 }

/-- x10 holds the scratch's DVA, x11 a word, x12 the data frame's DVA. -/
def threadT : Thread := { gid := 1, index := 0, pc := 0x1000, x := [(10, 0x1000), (11, 5), (12, 0x2000)] }

/-- `mapS` with a thread. -/
def thrS (t : Thread) : State :=
  { mapS with fab := { launches := [launchL], groups := [groupG], threads := [(0, some t)], nextGid := 2 } }

/-- The thread's grid is held by its group. -/
def gridS (g : Grid) : State := { thrS threadT with fab := { (thrS threadT).fab with grids := [(0, g)] } }

/-- Port 0 is UP, and a message waits for an answer. -/
def linkS (st : PortState) : State :=
  { onS with elk := { ports := [(0, { st, peerHasId := true, peerId := 2 })]
                      outstanding := [{ tag := 5, chip := 2, dpa := 0, owner := 1, tc := 0, port := 0, agent := .posted 0 0 }] } }

/-- A message's 16 bytes: type 0x01 reads 4 bytes, for this chip from chip 2. -/
def readReq : List Byte := [0x01] ++ zeros 15

theorem witness_RemoteRequestsAreServed :
    linkRuns (linkS .up) = true ∧ readReq.length = 16 * (1 + dataUnits (parseMsg readReq).mtype (parseMsg readReq).size) ∧
    (portAt (linkS .up) 0).st = .up ∧ isRequest (parseMsg readReq).mtype = true ∧
    (portAt (linkS .quarantine) 0).st = .quarantine ∧
    (linkS .up).elk.outstanding.find? (·.tag == 6) = none ∧
    ((linkS .up).elk.outstanding.find? (·.tag == 5)).isSome = true ∧ fclkRuns (linkS .up) = true := by
  decide +kernel

theorem witness_ThreadsIssueOnlyWhenReady :
    threadRow (.pause 0 0) = some (0, 0) ∧ issuing onS 0 0 = none ∧
    (issuing (thrS threadT) 0 0 = some threadT ∧ tensorRow (.utwait 0 0) = true ∧
      (gridAt (thrS threadT) 0).heldBy threadT.gid = false) := by
  decide +kernel

theorem witness_ThreadsReachMemory :
    issuing (thrS threadT) 0 0 = some threadT ∧ addrOf threadT 10 56 % 64 + 8 ≤ 64 ∧
    hereB (resolve (thrS threadT) (threadOwner (thrS threadT) threadT) (addrOf threadT 10 56) 1) 0x48_0000_0038 = true ∧
    regionOf 0x48_0000_0038 ≠ some .regs ∧ (thrS threadT).elk.outstanding.length ≤ 8192 ∧
    failsB (resolve (thrS threadT) (threadOwner (thrS threadT) threadT) (addrOf threadT 0 0) 1) 0x0401 = true ∧
    hereB (resolve (thrS threadT) (threadOwner (thrS threadT) threadT) (addrOf threadT 12 0) 2) 0x200000 = true ∧
    hereB (resolve (thrS threadT) (threadOwner (thrS threadT) threadT) threadT.pc 4) 0x48_0000_0000 = true ∧
    poisonIn (thrS threadT) 0x48_0000_0038 8 = none := by
  decide +kernel

theorem witness_FencesTrapsAndCsrs :
    (let t := { threadT with deferred := some (0x3000, 2, 0x0343) }
     issuing (thrS t) 0 0 = some t ∧ t.deferred = some (0x3000, 2, 0x0343)) ∧
    (issuing (thrS threadT) 0 0 = some threadT ∧ threadT.deferred = none ∧ threadAwaits (thrS threadT) 0 = false ∧
      mayEnd (thrS threadT) 0 = true) ∧
    (let s := { thrS threadT with elk := { outstanding := (linkS .up).elk.outstanding } }
     issuing s 0 0 = some threadT ∧ threadAwaits s 0 = true ∧ mayEnd s 0 = false) ∧
    csrRead (thrS threadT) 0 0 threadT 0x7FF = none ∧
    (csrRead (thrS threadT) 0 0 threadT 0xCC0).isSome = true ∧ (0xCC0 : Nat) / 0x400 = 3 := by
  decide +kernel

theorem witness_BarriersAndCopies :
    (issuing (thrS threadT) 0 0 = some threadT ∧ findGroup (thrS threadT) threadT.gid = some groupG) ∧
    8 ≤ getX threadT 10 ∧ getX threadT 11 < 8 ∧ 32 ≤ getX threadT 10 ∧
    ((barrierAt groupG 0).arrived = 0 ∧ getX threadT 0 ≤ groupG.slots.length ∧
      (barrierAt groupG 0).arrived + 1 = (barrierAt groupG 0).expected) ∧
    ((barrierAt groupG 0).phase = getX threadT 0 % 2 ^ 32 ∧ (barrierAt groupG 0).phase ≠ getX threadT 11 % 2 ^ 32) ∧
    (copyReached 0 0 = true ∧ copyReached 0 5 = false) ∧
    ((chainsAt (thrS threadT) (0 * 4 + getX threadT 0 % 4)).length < 16 ∧
      hereB (resolve (thrS threadT) 1 (getX threadT 12) 1) 0x200000 = true) ∧
    (let s := { thrS threadT with mov := { chans := [(0, List.replicate 16
       { cid := 1, owner := 1, origin := .packet 1, dva := 0, ownDesc := false })] } }
     issuing s 0 0 = some threadT ∧ 16 ≤ (chainsAt s 0).length) := by
  decide +kernel

theorem witness_DormancyAndReservations :
    (issuing (thrS threadT) 0 0 = some threadT ∧ getX threadT 11 % 8 ≠ 0) ∧
    (getX threadT 12 % 8 = 0 ∧ hereB (resolve (thrS threadT) 1 (getX threadT 12) 1) 0x200000 = true ∧
      poisonIn (applyEcc .ok 0x200000 (thrS threadT)) 0x200000 8 = none ∧
      ofLe (slice (readMem (thrS threadT) 1 0x200000 8) 0 8) = getX threadT 0 ∧
      ofLe (slice (readMem (thrS threadT) 1 0x200000 8) 0 8) ≠ getX threadT 11) ∧
    (findGroup (thrS threadT) threadT.gid = some groupG ∧ getX threadT 11 ≠ 2 ^ 64 - 1 ∧
      groupG.slots.length ≤ getX threadT 11 ∧ getX threadT 0 < groupG.slots.length) ∧
    (getX threadT 10 % 8 = 0 ∧ regionOf 0x48_0000_0000 = some (.scratch 0) ∧
      hereB (resolve (thrS threadT) 1 (getX threadT 10) 2) 0x48_0000_0000 = true) ∧
    (let t := { threadT with st := .dormant, timeoutAt := 7 }
     fclkRuns (thrS t) = true ∧ threadAt (thrS t) (threadKey 0 0) = some t ∧ t.timeoutAt ≠ 0) := by
  decide +kernel

theorem witness_FarAtomics :
    issuing (thrS threadT) 0 0 = some threadT ∧ amoNew 9 8 0 0 = none ∧ amoNew 8 8 0 0 ≠ none ∧
    getX threadT 11 % 8 ≠ 0 ∧ getX threadT 12 % 8 = 0 ∧
    hereB (resolve (thrS threadT) (threadOwner (thrS threadT) threadT) (getX threadT 12) 8) 0x200000 = true ∧
    poisonIn (applyEcc .ok 0x200000 (chargeTc0 0x200000 threadT.utc (thrS threadT))) 0x200000 8 = none := by
  decide +kernel

theorem witness_LaunchesArePlacedAndEnd :
    (let l := [(4, [7]), (16, leBytes 8 0x1000), (40, leBytes 4 1 ++ [1, 0, 0, 4])]
     let s := front mapS 1 0x20 1 l
     let q := inflightOfPacket s 0 (frontP 0x20 1 l)
     frontReady s 0 0x20 1 [(16, 48)] (frontP 0x20 1 l) [] ∧ launchByTag s q.owner q.tag = none ∧
       leasedTo s 0 q.owner = true ∧ 1024 ≤ scrLimit s 0) ∧
    (let l := [(44, [97])]
     frontReady (front mapS 1 0x20 1 l) 0 0x20 1 [(16, 48)] (frontP 0x20 1 l) [] ∧
       96 < getLe (frontP 0x20 1 l).bytes 44 1) ∧
    (placingLaunch (thrS threadT) 1 = some launchL ∧ placingLaunch onS 1 = none ∧
      (roomFor (thrS threadT) launchL 0).isSome = true) ∧
    (fclkRuns (thrS threadT) = true ∧ findGroup (thrS threadT) 1 = some groupG ∧ groupOver (thrS threadT) groupG = false ∧
      groupOver (thrS { threadT with st := .ended }) groupG = true) := by
  unfold frontReady; decide +kernel

theorem witness_LaunchesSuspendAndContinue :
    (let l := [(16, [9, 0, 0, 0, 0, 1]), (24, leBytes 8 0x2000 ++ leBytes 8 (2 ^ 30))]
     let s := front (thrS threadT) 1 0x22 1 l
     frontReady s 0 0x22 1 [(16, 6), (24, 16)] (frontP 0x22 1 l) [] ∧ launchByTag s 1 9 = some launchL ∧
       saveSize s launchL.id ≤ 2 ^ 30) ∧
    (let j : SuspendJob := { id := 4, dva := 0x2000, bytes := 2 ^ 30, force := false }
     let m := { launchL with st := .suspending, job := some j }
     let s := { thrS { threadT with st := .waitBar } with fab := { (thrS { threadT with st := .waitBar }).fab with launches := [m] } }
     fclkRuns s = true ∧ launchByTag s 1 9 = some m ∧ cleanPoint s m.id = true) ∧
    (let l := [(16, [9, 0, 0, 0, 0, 1]), (24, leBytes 8 0x2000)]
     frontReady (front (thrS threadT) 1 0x23 1 l) 0 0x23 1 [(16, 6), (24, 8)] (frontP 0x23 1 l) [] ∧
       launchL.st ≠ .suspended) ∧
    (let m := { launchL with st := .restoring }
     let s := { mapS with fab := { launches := [m] } }
     fclkRuns s = true ∧ launchByTag s 1 9 = some m ∧ findLaunch s m.id = some m ∧ m.saved.all (·.placed) = true) := by
  unfold frontReady; decide +kernel

theorem witness_TheGridIsHeldByOneGroup :
    (issuing (gridS {}) 0 0 = some threadT ∧ (gridAt (gridS {}) 0).heldBy 1 = false ∧ (gridAt (gridS {}) 0).holder = none) ∧
    (issuing (gridS { holder := some 2 }) 0 0 = some threadT ∧ (gridAt (gridS { holder := some 2 }) 0).heldBy 1 = false) ∧
    (issuing (gridS { holder := some 1 }) 0 0 = some threadT ∧ (gridAt (gridS { holder := some 1 }) 0).heldBy 1 = true ∧
      8 ≤ getX threadT 10 ∧ getX threadT 11 < 8) ∧
    (let g : Grid := { holder := some 1, queue := [{ op := .utset, insn := 0, rs1 := 0, rs2 := 0, slot := 0 }] }
     issuing (gridS g) 0 0 = some threadT ∧ (gridAt (gridS g) 0).heldBy 1 = true ∧ (gridAt (gridS g) 0).queue ≠ []) := by
  decide +kernel

theorem witness_TensorEntriesQueueStartAndLand :
    (let e : TEntry := { op := .utset, insn := tensorWord 0 0 0 0, rs1 := 0, rs2 := 0, slot := 0 }
     issuing (gridS { holder := some 1 }) 0 0 = some threadT ∧ entryTrap (gridAt (gridS { holder := some 1 }) 0) e = none ∧
       entryTrap (gridAt (gridS { holder := some 1 }) 0) { e with rs1 := 8 } ≠ none ∧
       16 ≤ (gridAt (gridS { holder := some 1, queue := List.replicate 16 e }) 0).queue.length) ∧
    (getX threadT 0 &&& 0x300 = getX threadT 0 ∧ getX threadT 11 &&& 0x300 ≠ getX threadT 11) ∧
    (let e : TEntry := { op := .utset, insn := 0, rs1 := 0, rs2 := 0, slot := 0 }
     let s := gridS { holder := some 1, queue := [{ e with started := true }, e] }
     fclkRuns s = true ∧ (gridAt s 0).queue = [{ e with started := true }] ++ e :: [] ∧
       threadAwaits s (threadKey 0 e.slot) = false ∧ holdsBack e (gridAt s 0).cfg { e with started := true } = false) := by
  decide +kernel

theorem witness_IntegerMatrixWordsSaturate :
    scaleOn [0, 0, 0, 0, 0, 0, 0, 0] = false ∧ (127 : Nat) < 128 ∧
    classOf 14 13 false = some { float := false, k := 256 } := by
  decide +kernel

/-- A chain at a phase on channel 512. -/
def chainS (p : ChainPhase) (d : Option Desc) : State :=
  { mapS with mov := { mapS.mov with chans := [(512, [{ cid := 3, owner := 1, origin := .packet 1, dva := 0x2000
                                                        ownDesc := false, phase := p, desc := d }])] } }

def descD (fill srcHost : Bool) : Desc :=
  { next := 0, src := 0x1000, dst := 0x2000, rowBytes := 64, rows := 1, srcStride := 64, dstStride := 64, fill
    poisonPass := false, srcHost, dstHost := false, tc := 0 }

theorem witness_MoverChainsRunDescriptors :
    (let s := chainS .fetch none
     fclkRuns s = true ∧ (pickChain s 512 (fun x => x.phase == .fetch && x.parked.isNone)).isSome = true ∧
       hereB (resolve s 1 0x2000 1) 0x200000 = true ∧ poisonIn s 0x200000 64 = none ∧
       descError true (zeros 64) ≠ none) ∧
    (let s := chainS .steps (some (descD true false))
     (stepChain s 512).isSome = true ∧ hereB (resolve s 1 0x2000 2) 0x200000 = true) ∧
    (let s := chainS .steps (some (descD false false))
     (stepChain s 512).isSome = true ∧ hereB (resolve s 1 0x1000 1) 0x48_0000_0000 = true) ∧
    (let s := chainS (.curOver 0) (some (descD true false))
     (pickChain s 512 isOver).isSome = true) ∧
    (let s := chainS (.finished 0) none
     (pickChain s 512 isFinished).isSome = true ∧ awaits s (· == .moverResult 3) = false) := by
  decide +kernel

theorem witness_BackgroundWorkRuns :
    (fclkRuns onS = true ∧ isOn onS = true ∧ chipReady onS = true ∧ scrubOn onS true = true ∧ scrubOn onS false = true) ∧
    (onS.mov.tierLate = false ∧ onS.mov.hbmTrained.testBit 7 = true) ∧ isOn offS = false ∧
    (let s := { onS with regs := [(0x2D00000, BitVec.ofNat 64 0xF)] }
     isOn s = true ∧ regBit s 0x2D00000 3 = true ∧ hostUp s = true) ∧
    islandRuns onS = true := by
  decide +kernel

theorem witness_BackgroundWorkRuns_flash (x : LogEntry) :
    let s := { onS with err := { flash := List.replicate 235520 x } }
    islandRuns s = true ∧ erasedBlocks s < 2 ∧ s.err.lastErase = none := by
  refine ⟨by rfl, ?_, rfl⟩
  show logBlocks - ceilDiv (List.replicate 235520 x).length 1024 < 2
  rw [List.length_replicate]
  decide
theorem witness_RingsAreEnabledFetchedAndClosed :
    (∃ d, writesPlain (front onS 0 0 1 []) (.fn 0) (ringView (.fn 0) 0 8) (ringReg 0 8) d (setFld 0x860000 31 31 1)) ∧
    (∃ d, writesPlain (front onS 0 0 1 []) (.fn 0) (ringView (.fn 0) 0 8) (ringReg 0 8) d (setFld 0x860000 31 31 0)) ∧
    (∃ d, writesPlain (front onS 0 0 1 []) (.fn 0) (ringView (.fn 0) 0 0x10) (ringReg 0 0x10) d 0xFFFFFFFF) ∧
    (∃ d, writesPlain (front onS 0 0 1 []) (.fn 0) (ringView (.fn 0) 0 0x20) (ringReg 0 0x20) d 0) ∧
    (let s := front onS 0 0 1 []
     let t := { s with regs := s.regs ++ [(0x411000, 0)]
                       hif := { s.hif with rings := [(0, { st := .running, fetching := 1 })] } }
     (ringAt s 0).st = .running ∧ (ringAt s 0).closing = false ∧ isOn s = true ∧ hostUp s = true ∧
       ringOwner s 0 = some 0 ∧ (ringAt t 0).fetching ≠ 0 ∧ (ringAt t 0).st = .running) ∧
    (let c : Record := { dts := 0, tag := 0, status := 0, local_ := 0, r0 := 0, r1 := 0, opcode := 0, flags := 0
                         logged := false }
     let s := updRing 0 (fun g => { g with held := [c] }) (front onS 0 0 1 [])
     (ringAt s 0).held = c :: []) ∧
    (let s := updRing 0 (fun _ => { st := .disabled, closing := true }) (front onS 0 0 1 [])
     (ringAt s 0).closing = true ∧ inflightOf s 0 = [] ∧ (ringAt s 0).held = []) :=
  ⟨plainB_spec (by decide +kernel), plainB_spec (by decide +kernel), plainB_spec (by decide +kernel),
    plainB_spec (by decide +kernel), by decide +kernel, by decide +kernel, by decide +kernel⟩

/-- A ring with a doorbell of 2 units: one packet may be fetched. -/
theorem witness_RingsAreEnabledFetchedAndClosed_fetch :
    let s := { onS with
      regs := [(0x400008, BitVec.ofNat 64 0x80860000), (0x400010, BitVec.ofNat 64 2), (0x410000, BitVec.ofNat 64 0x80000000)]
      hif := { onS.hif with rings := [(0, { st := .running })] } }
    nextFetch s = some (0, 0, 0) ∧ mayFetch s 0 = true ∧ isOn s = true ∧ hostUp s = true := by
  decide +kernel

/-- A packet in flight that waits. -/
def flying (op : Nat) (w : PktWait) (l : List (Nat × List Byte)) : Inflight :=
  { id := 1, ring := 0, owner := 0, local_ := 0, opcode := op, tag := 0, flags := 0, signal := false, logged := false
    started := 0, bytes := pktB op 1 l, muted := false, pendD := false, pendH := false, wait := w, lastHost := some 0x40
    lastWord := 0 }

def flyS (q : Inflight) : State := { onS with hif := { onS.hif with started := [q], nextId := 2 } }

theorem witness_FrontEndPacketsRun :
    frontReady (front onS 0 0 1 []) 0 0 1 [] (frontP 0 1 []) [] ∧
    (opListed 0x7F = false ∧ canStart (front onS 0 0x7F 1 []) 0 (frontP 0x7F 1 []) = true) ∧
    (findPkt (flyS (flying 2 .engine [])) 1 = some (flying 2 .engine []) ∧ (flying 2 .engine []).muted = false) ∧
    (frontReady (front onS 0 1 1 []) 0 1 1 [] (frontP 1 1 []) []) ∧
    (let l := [(16, leBytes 8 0x2000), (32, [2])]
     frontReady (front mapS 1 2 1 l) 0 2 1 [(16, 17)] (frontP 2 1 l) [] ∧
       hereB (resolve (front mapS 1 2 1 l) 1 0x2000 8) 0x200000 = true) ∧
    (let l := [(16, leBytes 8 0x2000), (24, [1])]
     frontReady (front mapS 1 4 1 l) 0 4 1 [(16, 9)] (frontP 4 1 l) []) ∧
    (let l := [(16, leBytes 8 0x2000 ++ leBytes 2 192)]
     frontReady (front mapS 1 0x12 4 l) 0 0x12 (1 + ceilDiv 192 64) [(16, 11)] (frontP 0x12 4 l) []) ∧
    (let l := [(16, leBytes 8 0x2000), (44, [3])]
     frontReady (front mapS 1 3 1 l) 0 3 1 [(16, 30)] (frontP 3 1 l) []) ∧
    (let q := flying 3 .host [(40, [5])]
     waitOf (flyS q) 0 = some q ∧ hostUp (flyS q) = true ∧ waitMet q 0 = true ∧ getLe q.bytes 40 4 ≠ 0) ∧
    (let q := flying 2 (.flush 0 0 0) []
     findPkt (flyS q) 1 = some q ∧ q.wait = .flush 0 0 0) := by
  unfold frontReady; decide +kernel

theorem witness_CopiesLogCopiesAndInjections :
    (let l := [(16, leBytes 8 0x1000 ++ leBytes 8 0x2000 ++ leBytes 8 64), (48, [15])]
     let s := front mapS 1 0x10 1 l
     frontReady s 0 0x10 1 [(16, 34)] (frontP 0x10 1 l) [] ∧ copyBad (inflightOfPacket s 0 (frontP 0x10 1 l)) = false ∧
       inlineError (inlineDesc (inflightOfPacket s 0 (frontP 0x10 1 l))) = none) ∧
    (let l := [(24, leBytes 8 64), (49, [64])]
     let s := front mapS 1 0x11 1 l
     frontReady s 0 0x11 1 [(16, 24), (48, 2)] (frontP 0x11 1 l) [] ∧
       copyBad (inflightOfPacket s 0 (frontP 0x11 1 l)) = true) ∧
    (frontReady (front onS 0 0x70 1 []) 0 0x70 1 [(16, 20)] (frontP 0x70 1 []) [] ∧ islandRuns onS = true) ∧
    frontReady (front onS 0 0x71 1 []) 0 0x71 1 [(16, 3), (24, 8)] (frontP 0x71 1 []) [] := by
  unfold frontReady; decide +kernel

theorem witness_HostPortEvents :
    (hostPhy onS = true ∧ 4 ≤ bestRate 0x3F ∧ bestRate 1 < 4 ∧ hostPhy offS = false) ∧
    (onS.hif.up = true ∧ isOn onS = true ∧ inChipReset onS = false ∧ offS.hif.up = false) ∧
    configReach onS = true ∧ configReach offS = false ∧
    (let s := { onS with hif := { onS.hif with fns := [(63, { d3hot := true })] } }
     configReach s = true ∧ (fnAt s 63).d3hot = true ∧ s.hif.pba = []) ∧
    (∃ d, writesPlain onS (.fn 0) (0x88000C + 16 * 2047) (0x88000C + 16 * 2047) d 0) ∧
    (∃ d, writesPlain onS (.fn 1) (0x800C + 16 * 63) (0x1_0000_0000 + (1 - 1) * 0x400 + 16 * 63 + 0xC) d 0) :=
  ⟨by decide +kernel, by decide +kernel, by decide +kernel, by decide +kernel, by decide +kernel,
    plainB_spec (by decide +kernel), plainB_spec (by decide +kernel)⟩

theorem witness_PortsTrainAndGoDown :
    (∃ d, writesPlain onS .island (0x2000000 + 0x100 * 3) (0x2000000 + 0x100 * 3) d (2 ^ 31)) ∧
    (∃ d, writesPlain onS .island (0x2000000 + 0x100 * 0) (0x2000000 + 0x100 * 0) d 0) ∧
    ((portAt onS 3).st = .disabled ∧ linkRuns onS = true ∧ onS.pwr.okElk1 = true) ∧
    (portUp (linkS .up) 0 = true ∧ portUp (linkS .phy) 0 = false) ∧
    (linkRuns (linkS .phy) = true ∧ (portAt (linkS .phy) 0).st = .phy) ∧ (portAt (linkS .hello) 0).st = .hello ∧
    (portAt (linkS .keyx) 0).st = .keyx ∧
    (let s := { linkS .down with regs := [(0x2000000, BitVec.ofNat 64 0x80000000)] }
     linkRuns s = true ∧ (portAt s 0).st = .down ∧ regBit s 0x2000000 31 = true ∧ s.pwr.okElk0 = true) :=
  ⟨plainB_spec (by decide +kernel), plainB_spec (by decide +kernel), by decide, by decide, by decide, by decide, by decide,
    by decide +kernel⟩

/-- A manifest of two chips, this one with ID 1, joined from port 0 to the other's port 1. -/
def manifestM : Manifest :=
  { domainId := 1, epoch := 7, chips := [{ serial := 5, id := 1, spare := false, devKey := [] },
      { serial := 6, id := 2, spare := false, devKey := [] }]
    links := [{ a := 0, pa := 0, b := 1, pb := 1 }], digest := 9, selfIndex := some 0, selfId := some 1 }

/-- A port with a peer, under that manifest. -/
def peerS (st : PortState) : State :=
  { linkS st with elk := { (linkS st).elk with
      manifest := some manifestM
      ports := [(0, { st, peerSerial := 6, peerPort := 1, peerDigest := some 9, peerKey := some [], keySigOk := true
                      peerHasId := true, peerId := 2, unacked := [(0, [])], ackOwed := 1 })] } }

theorem witness_PeersAreJudged :
    (linkRuns (peerS .keyx) = true ∧ (portAt (peerS .keyx) 0).st = .keyx ∧ (portAt (peerS .keyx) 0).peerKey.isSome = true) ∧
    ((portAt (peerS .quarantine) 0).st = .quarantine ∧ onS.elk.manifest = none) ∧
    (entryOf manifestM (portAt (peerS .keyx) 0).peerSerial = some (1, { serial := 6, id := 2, spare := false, devKey := [] }) ∧
      entryOf manifestM 99 = none ∧ linkJoined manifestM 0 1 (portAt (peerS .keyx) 0).peerPort = true ∧
      linkJoined manifestM 0 1 0 = false ∧ (portAt (peerS .keyx) 0).peerDigest = some manifestM.digest) ∧
    portUp (peerS .keyx) 0 = false := by
  decide

theorem witness_FlitsAreSentAckedAndReplayed :
    (linkRuns (peerS .up) = true ∧ (portAt (peerS .up) 0).st = .up ∧ (portAt (peerS .up) 0).resend = [] ∧
      nextHalf (peerS .up) 0 15 = none ∧ (portAt (peerS .up) 0).sealed = 0) ∧
    (2 ≤ fld (2 ^ 63) 63 62 ∧ fld 0 63 62 < 2 ∧ fld 0 35 33 < 5 ∧ fld 0 23 0 = 0 ∧ bitOf 0 60 = false) ∧
    (fld (2 ^ 62) 63 62 = 1 ∧ fld (2 ^ 62) 59 48 = (portAt (peerS .up) 0).rxSeq) ∧
    (portAt (peerS .up) 0).tagRun + b2n true < 16 ∧
    ((portAt (peerS .up) 0).unacked ≠ [] ∧ (portAt (peerS .up) 0).noProgress < 7 ∧ 0 < (portAt (peerS .up) 0).ackOwed) := by
  decide

theorem witness_DomainsAreManaged :
    (linkRuns (peerS .up) = true ∧ (portAt (peerS .up) 0).st = .up) ∧
    (let s := { peerS .up with elk := { (peerS .up).elk with suspects := [2] } }
     linkRuns s = true ∧ 2 ∈ s.elk.suspects ∧ (routeAt s 2).fenced = false) ∧
    (∃ d, writesPlain onS .island 0x2008028 0x2008028 d 1) ∧ onS.elk.staging = false ∧
    (∃ d, writesPlain onS .island 0x2008028 0x2008028 d 2) ∧ onS.elk.commitAt = none ∧
    (let s := { onS with elk := { onS.elk with commitAt := some 9, staged := some manifestM } }
     fclkRuns s = true ∧ s.elk.commitAt = some 9 ∧ s.elk.staged = some manifestM) ∧
    (∃ d, writesPlain onS .island 0x2008028 0x2008028 d
      (3 + 63 * 2 ^ 8 + 3 * 2 ^ 16 + 3 * 2 ^ 18 + b2n true * 2 ^ 20)) ∧
    (∃ d, writesPlain (peerS .up) .island 0x2008028 0x2008028 d (4 + 1 * 2 ^ 8)) ∧ (peerS .up).elk.selfId = 1 ∧
    (∃ d, writesPlain onS .island 0x2008028 0x2008028 d (5 + 63 * 2 ^ 8)) :=
  ⟨by decide, by decide, plainB_spec (by decide +kernel), by decide, plainB_spec (by decide +kernel), by decide, by decide,
    plainB_spec (by decide +kernel), plainB_spec (by decide +kernel), by decide, plainB_spec (by decide +kernel)⟩

/-- A step stream of owner 1, described and running. -/
def descS : StreamDesc :=
  { program := 0, maxTokens := 64, c0Tokens := 0, maxSlots := 8, c0Slots := 0, chunk := 64, tpp := 16, maxBlocks := 16
    seqLimit := 0, pace := false, kv := 0x2000, bt := 0, meta0 := 0, meta1 := 0, result0 := 0, result1 := 0, evBase := 0
    evCons := 0, status := 0, evLog2 := 4, vector := 0 }

def streamX (st : StreamState) : Stream :=
  { st, owner := 1, clusters := 1, pageFirst := 0, pageCount := 64, desc := some descS }

def seqX (st : SeqState) : Seq :=
  { slot := 0, gen := 0, stream := 0, channel := 0, cls := 0, user := 0, st, arrival := 0, order := 0, spec := false
    draftMax := 0, restore := 0, fillTo := 0, sample := false, journal := 0, journalCap := 0, prompt := 1, maxNew := 1
    swap := 0, swapBytes := 0, tokens := 1, committed := 0, pendingTok := none, hidden := 0, drafts := [], have_ := []
    reading := none, bti := none, pages := [], need := 0, reclaim := false, victim := false, copying := false
    swapIn := false, queuedStep := 0, jgen := 0 }

def seqS (st : StreamState) (x : Seq) : State :=
  { mapS with
    regs := [(0x2200000, BitVec.ofNat 64 0x80000000), (0x2200104, BitVec.ofNat 64 8)]
    sqe := { seqs := [x], streams := [(0, streamX st)]
             channels := [(0, { stream := some 0, enable := true })] } }

/-- A packet in front of ring 0 in a state that has registers of its own. -/
def frontIn (s : State) (o op size : Nat) (l : List (Nat × List Byte)) : State :=
  { s with regs := (front s o op size l).regs ++ s.regs, hif := (front s o op size l).hif }

theorem witness_SequencesAreConfiguredAndAdmitted :
    (let l := [(16, [255, 0]), (20, [1])]
     frontReady (front mapS 1 0x21 1 l) 0 0x21 1 [(16, 5), (24, 20)] (frontP 0x21 1 l) []) ∧
    (let l := [(17, [0xFF])]
     let s := frontIn (seqS .running (seqX .queued)) 1 0x30 1 l
     frontReady s 0 0x30 1 [(16, 40)] (frontP 0x30 1 l) [] ∧
       submitReserved (inflightOfPacket s 0 (frontP 0x30 1 l)) (startedBy s 0 (frontP 0x30 1 l) []) = true) ∧
    (let s := seqS .running (seqX .running)
     (strm s 0).st = .running ∧ (seqClass s 0 0).enabled = true ∧
       (s.sqe.seqs.filter (fun y => (strm s y.stream).owner == (strm s 0).owner)).length <
         regFld s (0x2200100 + 4 * (strm s 0).owner) 16 0 ∧ s.sqe.seqs.length ≠ 65536 ∧ queuedIn s 0 0 = 0) ∧
    (let s := frontIn (seqS .running (seqX .running)) 1 0x31 1 []
     frontReady s 0 0x31 1 [(16, 4)] (frontP 0x31 1 []) [] ∧ (findSeq s 0).isSome = true ∧ mayControl s 1 0 = true) ∧
    (let l := [(16, [7, 63]), (20, leBytes 4 (2 ^ 22 - 1) ++ leBytes 4 1), (63, [1])]
     let s := frontIn (seqS .running (seqX .running)) 0 0x33 1 l
     frontReady s 0 0x33 1 [(16, 3), (20, 8), (48, 16)] (frontP 0x33 1 l) [] ∧ (strm s 7).st = .unbound ∧
       regBit s 0x2200000 31 = true) ∧
    (let l := [(24, leBytes 8 0x2000)]
     frontReady (frontIn (seqS .paused (seqX .running)) 1 0x34 1 l) 0 0x34 1 [(16, 1), (24, 8)] (frontP 0x34 1 l) []) ∧
    (let l := [(16, [0, 3])]
     let s := frontIn (seqS .running (seqX .running)) 1 0x35 1 l
     frontReady s 0 0x35 1 [(16, 2)] (frontP 0x35 1 l) [] ∧ mayControl s 1 0 = true ∧ (strm s 0).stepping = false) ∧
    (let l := [(16, [255, 0xFF, 15, 7]), (36, [4])]
     frontReady (front onS 0 0x36 1 l) 0 0x36 1 [(16, 21)] (frontP 0x36 1 l) []) ∧
    (let l := [(16, [0, 7, 1]), (20, leBytes 4 65536 ++ leBytes 4 64)]
     frontReady (frontIn (seqS .paused (seqX .running)) 1 0x37 1 l) 0 0x37 1 [(16, 3), (20, 8)] (frontP 0x37 1 l) []) := by
  unfold frontReady; decide +kernel

theorem witness_StepsFireAndEnd :
    (let s := { seqS .running (seqX .running) with sqe := { (seqS .running (seqX .running)).sqe with
       streams := [(0, { streamX .running with dones := [0], stepping := true, batch := [] })] } }
     fclkRuns s = true ∧ (strm s 0).dones = [0] ∧ (strm s 0).failed = none) ∧
    (let s := { seqS .running (seqX .running) with sqe := { (seqS .running (seqX .running)).sqe with
       streams := [(0, { streamX .running with stepping := true, ended := true })] } }
     fclkRuns s = true ∧ (strm s 0).stepping = true ∧ (strm s 0).ended = true) ∧
    (let s := { seqS .running (seqX .running) with sqe := { (seqS .running (seqX .running)).sqe with
       streams := [(0, { streamX .running with next := some [] })] } }
     isOn s = true ∧ (strm s 0).desc = some descS ∧ (strm s 0).st = .running ∧ (strm s 0).next = some [] ∧
       inflightOf s 1024 = [] ∧ awaits s (· == .streamWrite 0) = false ∧ descS.pace = false) ∧
    (let x := { seqX .running with reading := some { first := 0, count := 1 } }
     fclkRuns (seqS .running x) = true ∧ findSeq (seqS .running x) 0 = some x ∧ x.reading.isSome = true) ∧
    (let x := { seqX .ending with copying := true }
     findSeq (seqS .running x) 0 = some x ∧ x.copying = true ∧ (strm (seqS .running x) 0).jobs = []) ∧
    (let x := { seqX .running with swapIn := true }
     findSeq (seqS .running x) 0 = some x ∧ x.swapIn = true ∧ x.need = 0 ∧ x.copying = false) ∧
    (0 + [7].length ≤ 1) := by
  decide +kernel
/-- A sweep channel of owner 1 over phase channel 0. -/
def descW : SweepDesc :=
  { phase := 0, azFeed := false, accum := true, rimg := false, vox := true, tc := 0, slices := 4, beams := [], cap := 64
    azOff := 0, lag := 0, minRange := 1, maxRange := 1000, poseWait := 0, poseGap := 0, voxLog2 := 10, voxSize := 8
    voxCap := 4, cols := 0, doneLog2 := 4, vector := 0, extR := [], extT := [], stage := 0x2000, out0 := 0, out1 := 0
    rimg0 := 0, rimg1 := 0, vox0 := 0, vox1 := 0, doneBase := 0, doneCons := 0 }

def revV : Rev := { rev := 1, cycle := 0, start := 0, period := 0, slices := List.replicate 4 { closed := some 5 } }

def sweepS (x : Sweep) : State := { mapS with swe := { chans := [(7, x)] } }

theorem witness_SweepChannelsAreBoundFedAndControlled :
    (let l := [(16, [7, 63, 0])]
     let s := frontIn { mapS with mem := { mapS.mem with owners := [(0, { st := .active }), (63, { st := .active })] } } 0 0x40 1 l
     frontReady s 0 0x40 1 [(16, 3)] (frontP 0x40 1 l) [] ∧ (sweepAt s 7).st = .unbound ∧ ownerActive s 63 = true) ∧
    (let l := [(16, [7]), (24, leBytes 8 0x2000)]
     let s := frontIn (sweepS { st := .idle, owner := 1 }) 1 0x41 1 l
     frontReady s 0 0x41 1 [(16, 1), (24, 8)] (frontP 0x41 1 l) [] ∧
       sweepMine s (inflightOfPacket s 0 (frontP 0x41 1 l)) = true) ∧
    (let l := [(16, [7, 5])]
     let s := frontIn (sweepS { st := .running, owner := 1, desc := some descW }) 1 0x42 1 l
     frontReady s 0 0x42 1 [(16, 2)] (frontP 0x42 1 l) [] ∧
       sweepMine s (inflightOfPacket s 0 (frontP 0x42 1 l)) = true ∧ (sweepAt s 7).desc = some descW ∧
       (sweepAt s 7).revs = []) ∧
    (let l := [(16, [7, 1]), (24, leBytes 8 8 ++ leBytes 4 32800)]
     let s := frontIn (sweepS { st := .waitPhase, owner := 1, desc := some descW }) 1 0x43 1 l
     frontReady s 0 0x43 1 [(16, 2), (24, 12)] (frontP 0x43 1 l) [] ∧
       sweepMine s (inflightOfPacket s 0 (frontP 0x43 1 l)) = true) ∧
    (let l := [(16, [7, 3])]
     let s := frontIn (sweepS { st := .running, owner := 1, desc := some descW }) 1 0x44 4 l
     frontReady s 0 0x44 (1 + getLe (frontP 0x44 4 l).bytes 17 1) [(16, 2)] (frontP 0x44 4 l) [] ∧
       sweepMine s (inflightOfPacket s 0 (frontP 0x44 4 l)) = true) := by
  unfold frontReady; decide +kernel

theorem witness_RevolutionsOpenFillAndClose :
    (let s := { sweepS { st := .running, owner := 1, desc := some descW, offset := some 0, lastDone := some 3 } with
       ptu := { chans := [(0, { st := .locked, everLocked := true, period := 20000000, cycle := 4 })] } }
     fclkRuns s = true ∧ (sweepAt s 7).desc = some descW ∧ (sweepAt s 7).offset = some 0 ∧
       (reachAt s descW.phase (cycleOf s descW 0 4 * 65536)).isSome = true ∧ (sweepAt s 7).revs.length < 2) ∧
    ((sweepAt (sweepS {}) 7).offset = none ∧ (sweepAt (sweepS {}) 7).revs = []) ∧
    (let v := { revV with period := 20000000, slices := [{}, { closed := some 5 }] }
     let s := { sweepS { st := .running, owner := 1, desc := some descW, revs := [v] } with
       ptu := { chans := [(0, { st := .locked, everLocked := true, period := 20000000 })] } }
     (sweepAt s 7).revs = [v] ∧ (∀ j < v.slices.length, ((v.slices[j]?).getD {}).closed = none ↔ j = 0) ∧
       (reachAt s descW.phase (closePhase descW v 0)).isSome = true) ∧
    (let s := sweepS { st := .running, owner := 1, desc := some descW, revs := [revV], offset := some 0 }
     nextSlice (sweepAt s 7) = some (revV, 0, { closed := some 5 }) ∧ revAt s 7 1 = some revV ∧
       readyChannel (sweepS {}) = none) ∧
    (1 ≤ (5 * 2 ^ 32) / 2 ^ 32 % 2 ^ 24 ∧ (5 * 2 ^ 32) / 2 ^ 32 % 2 ^ 24 ≤ descW.maxRange) ∧
    (sub32 0 0 < 2 ^ descW.doneLog2 ∧ 2 ^ descW.doneLog2 ≤ sub32 16 0) := by
  decide +kernel

/-- A phase channel's state on a chip with standby power. -/
def phaseS (c : Nat) (x : PhaseCh) : State := { offS with ptu := { chans := [(c, x)] } }

theorem witness_PhaseChannelsLockAndHold :
    (∃ d, writesPlain offS .island (0x2601000 + 0x40 * 7) (0x2601000 + 0x40 * 7) d 0x44000) ∧
    (standby (phaseS 2 { st := .locked, period := 20000000 }) = true ∧
      (phaseCh (phaseS 2 { st := .locked, period := 20000000 }) 2).st = .locked ∧
      regFld offS (0x2601004 + 0x40 * 2) 15 0 * 10000 ≤ 20000000 ∧
      20000000 ≤ regFld offS (0x2601004 + 0x40 * 2) 31 16 * 10000) ∧
    ((phaseCh (phaseS 3 { st := .acquire, lastEdge := some 5 }) 3).lastEdge = some 5) ∧
    (let x : PhaseCh := { st := .locked, stamp := some (5, 0), rateNum := 1, rateDen := 1 }
     standby (phaseS 7 x) = true ∧ (phaseCh (phaseS 7 x) 7).stamp = some (5, 0) ∧ x.rateNum ≠ 0) ∧
    (let x : PhaseCh := { st := .holdover, everLocked := true, period := 20000000 }
     hasPhase x = true ∧ x.st ≠ .locked) ∧
    (let l := [(16, [7, 12])]
     let s := frontIn { onS with regs := [(0x2601000 + 7 * 0x40, BitVec.ofNat 64 (2 ^ 31 + 2 ^ 28))] } 0 0x52 4 l
     frontReady s 0 0x52 (1 + ceilDiv 12 4) [(16, 2)] (frontP 0x52 4 l) [] ∧ regFld s (0x2601000 + 7 * 0x40) 30 28 = 1) ∧
    frontReady (frontIn onS 1 0x53 1 [(16, [7])]) 0 0x53 1 [(16, 1)] (frontP 0x53 1 [(16, [7])]) [] ∧
    (let s := phaseS 0 { st := .locked, everLocked := true, period := 20000000 }
     s.dts ≤ s.dts + 5 ∧ (phaseCh s 0).st ≠ .off ∧ (phaseCh s 0).everLocked = true) := by
  refine ⟨plainB_spec (by decide +kernel), ?_⟩
  unfold frontReady; decide +kernel

/-- An armed phase event. -/
def eventE : PhaseEvent :=
  { chan := 0, action := 3, repeats := 0, stagger := false, relative := false, owner := 1, cycle := 0, angle := 0
    target := 5, arg := 0 }

theorem witness_PhaseEventsAndSitePower :
    (let l := [(16, [0, 1, 7, 0]), (24, leBytes 2 5), (28, leBytes 4 250)]
     let s := frontIn { onS with ptu := { chans := [(0, { st := .locked, everLocked := true, period := 20000000 })] } } 0 0x50 1 l
     frontReady s 0 0x50 1 [(16, 10), (28, 4)] (frontP 0x50 1 l) [] ∧ phaseKnown s 0 = true ∧ (freeEvent s).isSome = true ∧
       argLegal 1 250 = true ∧ argLegal 9 0 = false ∧ (inflightOfPacket s 0 (frontP 0x50 1 l)).owner = 0 ∧
       eventForeign (startedBy s 0 (frontP 0x50 1 l) []) 0 1 250 = false ∧
       eventVoid (startedBy s 0 (frontP 0x50 1 l) []) 1 250 = false) ∧
    (let l := [(16, [247, 0])]
     frontReady (frontIn onS 1 0x51 1 l) 0 0x51 1 [(16, 2)] (frontP 0x51 1 l) []) ∧
    (let s := { phaseS 0 { st := .locked, everLocked := true, period := 20000000 } with
       ptu := { chans := [(0, { st := .locked, everLocked := true, period := 20000000 })], events := [(247, some eventE)] } }
     standby s = true ∧ eventAt s 247 = some eventE ∧ (reachAt s 0 5).isSome = true) ∧
    (let s := { phaseS 0 { st := .lost } with ptu := { chans := [(0, { st := .lost })], events := [(1, some eventE)] } }
     eventAt s 1 = some eventE ∧ (phaseCh s 0).st = .lost ∧ eventE.action = 3) ∧
    (let s := { offS with ptu := { pulses := [(1, some 9)], clearSince := some 3, site := .sag, allMissSince := some 4 } }
     standby s = true ∧ Tbl.get none s.ptu.pulses 1 = some 9 ∧ s.ptu.clearSince = some 3 ∧ s.ptu.site = .sag ∧
       s.ptu.allMissSince = some 4) ∧
    (∃ d, writesPlain offS .island 0x2600010 0x2600010 d (setFld 0x04000000 31 31 1)) ∧
    (∃ d, writesPlain offS .island 0x2600038 0x2600038 d 0x80000000) ∧
    (∃ d, writesPlain offS .island 0x2600034 0x2600034 d 0xFFFF) ∧
    (let s := { phaseS 2 { st := .locked, everLocked := true, period := 20000000 } with
       regs := [(0x2600038, BitVec.ofNat 64 0x82020000)] }
     regBit s 0x2600038 31 = true ∧ regFld s 0x2600038 25 24 = 2 ∧ hasPhase (phaseCh s 2) = true ∧
       2 ^ regFld s 0x2600038 17 16 = 4) := by
  refine ⟨?_, ?_, ?_, ?_, ?_, plainB_spec (by decide +kernel), plainB_spec (by decide +kernel),
    plainB_spec (by decide +kernel), ?_⟩
  all_goals first | decide +kernel | (unfold frontReady; decide +kernel)

theorem witness_CapSourcesMakeTheAppliedCap :
    (let l := [(16, leBytes 2 1500)]
     frontReady (frontIn onS 0 0x58 1 l) 0 0x58 1 [(16, 2)] (frontP 0x58 1 l) []) ∧
    frontReady (frontIn onS 0 0x59 1 []) 0 0x59 1 [] (frontP 0x59 1 []) [] ∧
    (∃ d, writesPlain offS .island 0x2700010 0x2700010 d 250) ∧
    (∃ d, writesPlain offS .island (0x2700020 + 4 * 2) (0x2700020 + 4 * 2) d (250 * 2 ^ 16 + 250)) ∧
    (∃ d, writesPlain offS .island 0x2700030 0x2700030 d (250 * 2 ^ 16 + 1500)) ∧
    (let s := { offS with pgv := { applied := 250000 } }
     standby s = true ∧ s.pgv.applied < s.pgv.target * 1000) ∧
    islandRuns offS = true ∧ standby State.reset = false := by
  refine ⟨?_, ?_, plainB_spec (by decide +kernel), plainB_spec (by decide +kernel), plainB_spec (by decide +kernel), ?_⟩
  all_goals first | decide +kernel | (unfold frontReady; decide +kernel)

theorem witness_TheGovernorMeasuresAndClamps :
    (standby offS = true ∧ ([1050] : List Int) ≠ [] ∧ 1050 ≤ (hottest [1050] 0).1 ∧ (hottest [1049] 0).1 < 1050) ∧
    (let s := { offS with pgv := { th := 1049 } }
     s.pgv.th < 1050 ∧ s.pgv.leakFloor = false ∧ s.pgv.tjFloor = false ∧ (regFld s 0x2700034 23 16 : Int) * 10 < s.pgv.th) ∧
    (isOn onS = true ∧ clampThreshold onS < 4000000 * regFld onS 0x270003C 15 0 / 1000) ∧
    (let s := { onS with pgv := { applied := 250000, pOther := 300000 } }
     s.pgv.applied ≤ s.pgv.pOther ∧ fclkRuns s = true) ∧
    (let s := seqS .running (seqX .running)
     (strm s 0).st = .running ∧ (govStream s 0).plan = none ∧ Tbl.get none s.sqe.programs 0 = none) := by
  decide +kernel

theorem witness_FansFollowTheirSettings :
    regBit offS (0x2800100 + 5 * 0x20) 31 = false ∧
    (let s := { offS with regs := [(0x28001A0, BitVec.ofNat 64 0xC0000005), (0x28001A4, BitVec.ofNat 64 1000)]
                          tfu := { pwm := [(5, { req := 3, rpm := 500 })] } }
     regBit s (0x2800100 + 5 * 0x20) 31 = true ∧ regBit s (0x2800100 + 5 * 0x20) 30 = true ∧ reqDuty s 5 = some 3 ∧
       regFld s (0x2800104 + 5 * 0x20) 15 0 = 1000 ∧ standby s = true) ∧
    (∃ d, writesPlain offS .island (0x2800100 + 0x20 * 5) (0x2800100 + 0x20 * 5) d 0x80000000) ∧
    ((pwmAt offS 5).out ≠ 0 ∧ (pwmAt offS 5).stall = false) ∧
    (let s := { offS with dts := 60000000000, regs := [(0x2D00000, BitVec.ofNat 64 0x20)]
                          tfu := { pwm := [(5, { rpm := 500 })] } }
     (pwmAt s 5).heldSince + 60000000000 ≤ s.dts ∧ regBit s 0x2D00000 5 = true ∧ (pwmAt s 5).ageDue ≤ s.dts) :=
  ⟨by decide +kernel, by decide +kernel, plainB_spec (by decide +kernel), by decide +kernel, by decide +kernel⟩

theorem witness_ValvesSensorsAndLeaks :
    (0 ≠ 1 ∧ 10000 ≤ 10000 ∧ 400 ≤ 400 ∧ 1000 ≤ 1000) ∧
    (∃ d, writesPlain offS .island (0x2800300 + 0x20 * 1) (0x2800300 + 0x20 * 1) d 0) ∧
    (∃ d, writesPlain offS .island (0x2800304 + 0x20 * 1) (0x2800304 + 0x20 * 1) d (rawAt offS (0x2800304 + 0x20 * 1))) ∧
    (∃ d, writesPlain offS .island (0x280030C + 0x20 * 1) (0x280030C + 0x20 * 1) d (2 ^ 31)) ∧
    (let s := { offS with tfu := { valves := [(1, { closing := some 7, fault := true })] } }
     standby s = true ∧ (valveAt s 1).closing = some 7 ∧ (valveAt s 1).fault = true ∧ (valveAt s 1).written = false) ∧
    (let s := { offS with regs := [(0x28004E0, BitVec.ofNat 64 0x40000000)] }
     regFld s (0x2800400 + 7 * 0x20) 31 30 = 1) ∧
    (∃ d, writesPlain offS .island 0x2800018 0x2800018 d 1) ∧ (∃ d, writesPlain offS .island 0x2800014 0x2800014 d 1) ∧
    (let s := { offS with tfu := { latch := true } }
     s.tfu.latch = true ∧ wetResponder s = false ∧ flowOk s = true) :=
  ⟨by decide, plainB_spec (by decide +kernel), plainB_spec (by decide +kernel), plainB_spec (by decide +kernel),
    by decide +kernel, by decide +kernel, plainB_spec (by decide +kernel), plainB_spec (by decide +kernel),
    by decide +kernel⟩

/-- The bus node runs: INIT is 0. -/
def busS (b : Fbc) : State := { offS with regs := [(0x2900000, 0)], fbc := b }

def txC (kind : TxKind) : TxCur := { buf := 31, kind, sof := 5, frame := { ident := 1 }, word1 := 0, cycle := 0, ball := 0 }

theorem witness_TheBusNodeSendsAndReceives :
    (∃ d, writesLocked offS .island 0x2900000 0x2900000 d (setFld 0 31 31 0)) ∧ regBit offS 0x2900000 31 = true ∧
    (∃ d, writesLocked (busS {}) .island 0x2900000 0x2900000 d (setFld 0 31 31 1)) ∧
    (standby (busS {}) = true ∧ fbcRuns (busS {}) = true ∧ (busS {}).fbc.integrated ≤ 5 ∧
      isRef (busS {}) { ident := 1 } = false) ∧
    (let s := { busS {} with regs := [(0x2900000, 0), (0x29085F0, BitVec.ofNat 64 0x80000000)] }
     fbcMode s = 0 ∧ bitOf (ramWord s (16 * 95)) 31 = true) ∧
    (fbcMode (busS {}) = 0 ∧ filterOf (busS {}) { ident := 1 } = none ∧ regBit (busS {}) 0x2900018 8 = false) ∧
    (busS { queueA := { count := 32 } }).fbc.queueA.count = 32 ∧
    (∃ d, writesLocked (busS { queueA := { count := 32 } }) .island 0x2900024 0x2900024 d 31) ∧
    (∃ d, writesLocked (busS { queueB := { count := 32 } }) .island 0x2900034 0x2900034 d 31) ∧
    (∃ d, writesLocked (busS { txLog := { count := 32 } }) .island 0x2900084 0x2900084 d 31) ∧
    (∃ d, writesLocked offS .island 0x2900400 0x2900400 d (0 * 2 ^ 6 + 31)) ∧
    (∃ d, writesLocked offS .island 0x2900064 0x2900064 d 0xFFFFFFFF) ∧
    (∃ d, writesLocked offS .island 0x2900050 0x2900050 d 1) ∧ (∃ d, writesLocked offS .island 0x2900054 0x2900054 d 1) ∧
    (bitOf (busS { busy := 2 ^ 31 }).fbc.busy 31 = true ∧ (busS { sending := some (txC .event) }).fbc.sending = some (txC .event) ∧
      (busS { sending := some (txC .reference) }).fbc.sending = some (txC .reference)) ∧
    (let s := busS { busOff := true, recovery := 127 }
     s.fbc.busOff = true ∧ fbcRuns s = true ∧ s.fbc.clkHold = false ∧ 128 ≤ s.fbc.recovery + 1) :=
  ⟨locked_of_plain (by decide +kernel), by decide +kernel, lockedB_spec (by decide +kernel), by decide +kernel,
    by decide +kernel, by decide +kernel, by decide +kernel, lockedB_spec (by decide +kernel),
    lockedB_spec (by decide +kernel), lockedB_spec (by decide +kernel), locked_of_plain (by decide +kernel),
    locked_of_plain (by decide +kernel), locked_of_plain (by decide +kernel), locked_of_plain (by decide +kernel),
    by decide +kernel, by decide +kernel⟩

/-- An over of the time-triggered modes. -/
def overO : Over := { sync := 0, len := 100000, cycle := 0 }

theorem witness_OversKeepTime :
    (let s := busS { curOver := some overO, master := true }
     standby s = true ∧ s.fbc.curOver = some overO ∧ s.fbc.master = true ∧ paced s = false) ∧
    (busS {}).fbc.curOver = none ∧ (mayTx (busS {}) = true ∧ mayTx offS = false) ∧
    (let s := { busS { curOver := some overO, sync := 2 } with regs := [(0x2900000, 0), (0x2900100, BitVec.ofNat 64 0x1F0000)] }
     standby s = true ∧ overO.nextBall ≤ 1 ∧ s.fbc.sync = 2 ∧ ttLevel s < 2 ∧ s.fbc.busOff = false) ∧
    (let s := busS { curOver := some overO, sync := 2, misses := 2 }
     s.fbc.master = false ∧ s.fbc.sync = 2 ∧ fbcRuns s = true ∧ s.fbc.clkHold = false ∧ s.fbc.misses = 2) ∧
    (let s := busS { curOver := some overO, takeAt := some 9 }
     standby s = true ∧ s.fbc.takeAt = some 9 ∧ s.fbc.curOver = some overO) ∧
    (busS {}).fbc.sync = 0 ∧
    (∃ d, writesLocked offS .island 0x2900114 0x2900114 d 1) ∧ (∃ d, writesLocked offS .island 0x2900114 0x2900114 d 2) ∧
    (busS { master := true }).fbc.master = true ∧
    (let s := busS { lastSync := some 5 }
     s.fbc.lastSync = some 5 ∧ (100 : Nat) ≠ 0 ∧ 5 < 1005) :=
  ⟨by decide +kernel, by decide, by decide +kernel, by decide +kernel, by decide +kernel, by decide +kernel, by decide,
    locked_of_plain (by decide +kernel), locked_of_plain (by decide +kernel), by decide, by decide⟩

/-! The huddle and the tray -/

/-- A 16-site-less topology of one TRAY site: present at presence bit 0. -/
def topoT : List Byte := putBytes (zeros 32) 0 (leBytes 4 0x54544E46 ++ [1, 0, 1, 0]) |> fun t =>
  putBytes t 16 [1, 1, 0, 0x50, 0xFF, 0xFF, 0xFF, 0xFF]

/-- A tray record: slot 0, rank 2, all four positions fitted, serial 9. -/
def trayR : List Byte := putBytes (putBytes (zeros 256) 8 [9]) 40 [0, 2, 15]

/-- A row configuration of one tray, whose leak bit reads as given. -/
def cfgC (leak : Bool) : List Byte :=
  putBytes (putBytes (putBytes (zeros 144) 6 [1, 0, 5]) 16 [if leak then 0x11 else 1, 8, 8]) 128 ([9] ++ zeros 7 ++ [2])

/-- A tray lead of rank 2 that takes part in the huddle, in cycle 0 of an over. -/
def memS (h : Huddle) (m : Bool) : State :=
  { offS with
    tmg := { role := 2, topology := topoT, sites := [(0, { result := 1, kind := 1, serial := 9, record := trayR })], pres := 1 }
    hud := { h with cfg := cfgC true }
    fbc := { master := m, curOver := some overO } }

/-- A frame of a VLP object with the given bytes. -/
def vlp (ident dlc : Nat) (bs : List Byte) : CanFrame := { ident, fdf := true, brs := true, dlc, data := bs }

/-- Members of ranks 0 and 1 are heard and agree. -/
def peersP : Tbl Peer := [(0, { epoch := 7, digest := 3, heard := some 0 }), (1, { epoch := 7, digest := 3, heard := some 0 })]

/-- No member is heard. -/
theorem alone (h : Huddle) (m : Bool) (hp : h.peers = []) : electionWinner (memS h m) = none := by
  have a : [0, 1, 2].filter (isHeard (memS h m)) = [2] := by
    obtain ⟨⟩ := h; simp only at hp; subst hp; rfl
  simp [electionWinner, a]

/-- Members of ranks 0 and 1 share a key. -/
theorem elected (m : Bool) : electionWinner (memS { peers := peersP } m) = some 0 := by
  have a : [0, 1, 2].filter (isHeard (memS { peers := peersP } m)) = [0, 1, 2] := rfl
  have b : keyOf (memS { peers := peersP } m) 0 = (7, 3, 0) := rfl
  have c : keyOf (memS { peers := peersP } m) 1 = (7, 3, 0) := rfl
  have d : keyOf (memS { peers := peersP } m) 2 = (5, cfgDigest (cfgC true), 0) := rfl
  simp [electionWinner, a, b, c, d]

/-- A member that shares this tray lead's key, as a member of rank 0. -/
def leadS (ps : Tbl Peer) : State := memS { lead := true, wasMaster := true, peers := ps } true

/-- It is in the active set. -/
theorem two_active : 2 ≤ ranksIn (activeSet
    (leadS [(0, { epoch := 5, digest := cfgDigest (cfgC true), heard := some 0 })]) 2) := by
  have a : keyOf (leadS [(0, { epoch := 5, digest := cfgDigest (cfgC true), heard := some 0 })]) 0 =
      keyOf (leadS [(0, { epoch := 5, digest := cfgDigest (cfgC true), heard := some 0 })]) 2 := rfl
  have b : isHeard (leadS [(0, { epoch := 5, digest := cfgDigest (cfgC true), heard := some 0 })]) 0 = true := rfl
  have c : isHeard (leadS [(0, { epoch := 5, digest := cfgDigest (cfgC true), heard := some 0 })]) 1 = false := rfl
  simp [activeSet, a, b, c, b2n, ranksIn, bitOf]
  decide +kernel

theorem witness_TheHuddleElectsAllocatesAndStops_roles :
    islandRuns State.reset = false ∧ (islandRuns offS = true ∧ isTrayLead offS = false) ∧
    (let s := memS {} false; islandRuns s = true ∧ isTrayLead s = true ∧ s.hud.accepted = []) ∧
    (let s := memS { accepted := cfgC true } false
     islandRuns s = true ∧ isTrayLead s = true ∧ s.hud.accepted ≠ [] ∧ s.fbc.curOver = some overO ∧ overO.cycle = 0) ∧
    (let s := { memS { accepted := cfgC true } false with fbc := { curOver := some { overO with cycle := 1 } } }
     islandRuns s = true ∧ isTrayLead s = true ∧ s.hud.accepted ≠ [] ∧ s.fbc.curOver.map (·.cycle) = some 1) ∧
    (let s := { memS { accepted := cfgC true } false with fbc := {} }
     islandRuns s = true ∧ isTrayLead s = true ∧ s.hud.accepted ≠ [] ∧ s.fbc.curOver = none) ∧
    (memS {} false).hud.lead = false ∧ (leadS []).hud.lead = true ∧ (leadS []).fbc.master = true := by
  decide +kernel

/-- A tray lead whose accepted configuration finds the controller set up as R418 asks. -/
def upS : State :=
  let s := memS {} false
  { memS { accepted := cfgC true } false with
    regs := (((0x2900000, huddleCtrl s) :: huddleRegs s) ++ (huddleTriggers s).zipIdx.flatMap (fun (p : (Nat × Nat) × Nat) =>
      [(0x290B000 + 8 * p.2, p.1.1), (0x290B004 + 8 * p.2, p.1.2)])).map (fun (p : Nat × Nat) => (p.1, BitVec.ofNat 64 p.2)) }

theorem witness_TheHuddleElectsAllocatesAndStops_setUp :
    setUpStands (updHud (fun h => { h with cfg := upS.hud.accepted, accepted := [], chips := [], cool := none }) upS) = true ∧
    upS.hud.lead = false := by
  decide +kernel

theorem witness_TheHuddleElectsAllocatesAndStops_election :
    (let s := memS { peers := peersP } false
     islandRuns s = true ∧ isMember s = true ∧ s.hud.lead = false ∧ refQuorate s = false ∧
       s.fbc.curOver.map (·.cycle) = some 0 ∧ s.fbc.master = false ∧ electionWinner s = some 0) ∧
    ((memS { peers := peersP } true).fbc.master = true ∧ isMember (memS { peers := peersP } true) = true ∧
      refQuorate (memS { peers := peersP } true) = false ∧ electionWinner (memS { peers := peersP } true) = some 0) ∧
    (electionWinner (memS {} false) = none ∧ isMember (memS {} false) = true ∧ refQuorate (memS {} false) = false ∧
      (memS {} false).hud.loop.st ≠ 4) ∧
    (electionWinner (memS {} true) = none ∧ isMember (memS {} true) = true ∧ refQuorate (memS {} true) = false ∧
      (memS {} true).hud.loop.st ≠ 4) ∧
    isMember offS = false :=
  ⟨⟨by decide +kernel, by decide +kernel, by decide +kernel, by decide +kernel, by decide +kernel, by decide +kernel,
      elected false⟩, ⟨by decide +kernel, by decide +kernel, by decide +kernel, elected true⟩, ⟨alone _ _ rfl, by decide +kernel⟩, ⟨alone _ _ rfl, by decide +kernel⟩,
    by decide +kernel⟩

theorem witness_TheHuddleElectsAllocatesAndStops_lead :
    (islandRuns (leadS []) = true ∧ isMember (leadS []) = true ∧ (leadS []).fbc.master = true ∧
      (leadS []).hud.winner = none ∧ (leadS []).hud.handover = none ∧ (leadS []).hud.lead = true ∧
      (leadS []).hud.wasMaster = true ∧ trayRank (leadS []) = 2 ∧ ranksIn (activeSet (leadS []) 2) < 2 ∧
      (hudEvent 1 (updHud (fun h => { h with lead := false, loop := { h.loop with st := 4 } }) (leadS []))).hud.handover
        = none) ∧
    2 ≤ ranksIn (activeSet (leadS [(0, { epoch := 5, digest := cfgDigest (cfgC true), heard := some 0 })]) 2) ∧
    (let s := memS { wasMaster := true } true
     isMember s = true ∧ s.fbc.master = true ∧ s.hud.winner = none ∧ s.hud.handover = none ∧ s.hud.lead = false) ∧
    (let e : List Byte := leBytes 4 2 ++ leBytes 4 0xE8000000 ++ zeros 31 ++ [0x20] ++ zeros 24
     let s := { memS { wasMaster := true, handover := some 0 } true with
       fbc := { master := true, curOver := some overO, shadows := [(0, e)] } }
     isMember s = true ∧ s.fbc.master = true ∧ s.hud.winner = none ∧ s.hud.handover = some 0 ∧
       getLe (elementFrame (txShadow s 0)).data 23 1 / 32 % 4 ≠ 0) :=
  ⟨by decide +kernel, two_active, by decide +kernel, by decide +kernel⟩

theorem witness_TheHuddleElectsAllocatesAndStops_frames :
    (let s := memS {} false
     islandRuns s = true ∧ isTrayLead s = true ∧ takesPart s = true ∧ isMember s = true ∧ s.hud.quorum = false) ∧
    (let s := { memS {} false with hud := {} }
     islandRuns s = true ∧ isTrayLead s = true ∧ s.fbc.master = false ∧ takesPart s = false ∧
       isMember (judgeHuddle (noteReference (zeros 48) { s with hud := { s.hud with wasMaster := false, lead := false } }))
         = false ∧
       (judgeHuddle (noteReference (zeros 48) { s with hud := { s.hud with wasMaster := false, lead := false } })).hud.winner
         = none) ∧
    (let f := vlp 2 14 (zeros 48)
     vlpOk f 48 = true ∧ ¬f.ident < 2 ∧ ¬4 < f.ident ∧ bitOf (getLe f.data 23 1) 7 = false ∧ ¬4 < getLe f.data 22 1) ∧
    (let f := vlp 0xA1 12 (zeros 24)
     vlpOk f 24 = true ∧ ¬f.ident < 0xA0 ∧ ¬0xA2 < f.ident ∧ zeroSpan f.data 21 24 = true) ∧
    (let f := vlp 0x300 14 (zeros 48)
     vlpOk f 48 = true ∧ ¬f.ident < 0x300 ∧ ¬0x317 < f.ident ∧ ¬∃ p < 4, 8 ≤ getLe f.data (12 * p + 11) 1) ∧
    (0x300 - 0x300 < cfgTrays (memS {} false) ∧ cfgTrays (memS {} false) ≤ 0x317 - 0x300) ∧
    (let f := vlp 0x380 14 (zeros 48)
     vlpOk f 48 = true ∧ ¬f.ident < 0x380 ∧ ¬0x381 < f.ident ∧
       ¬∃ j < 48, 251 ≤ getLe f.data j 1 ∧ getLe f.data j 1 ≤ 254) ∧
    (takesPart (memS { quorum := true } false) = true ∧ (memS { quorum := true } false).hud.quorum = true) ∧
    (vlpOk (vlp 0x393 14 (zeros 48)) 48 = true ∧ vlpOk (vlp 0x393 8 (zeros 8)) 48 = false) ∧
    (let f := vlp 1 8 ([1] ++ zeros 7)
     vlpOk f 8 = true ∧ getLe f.data 0 1 = 1 ∧ zeroSpan f.data 4 8 = true ∧
       (memS { lead := true } true).hud.lead = true ∧ (memS { lead := true } true).hud.loop.st ≠ 3 ∧
       bitOf (cfgLe (memS { lead := true } true) 16 1) 4 = true) ∧
    (let s := { memS {} false with hud := { cfg := cfgC false } }
     s.hud.lead = false ∧ s.hud.loop.st ≠ 1 ∧ bitOf (cfgLe s 16 1) 4 = false) ∧
    (let f := vlp 1 8 ([2] ++ zeros 7)
     vlpOk f 8 = true ∧ zeroSpan f.data 4 8 = true ∧ getLe f.data 0 1 = 2 ∧
       bitOf (nodeByte (cfgC true) (getLe f.data 1 1) 1) 0 = false) ∧
    (let f := vlp 0 8 ([3] ++ zeros 7)
     vlpOk f 8 = true ∧ ¬3 < getLe f.data 0 1 ∧ zeroSpan f.data 2 8 = true) ∧
    (let p : AgKey := (5, 3, 1)
     let q : AgKey := (6, 3, 1)
     p.2.2 = q.2.2 ∧ p.1 ≠ q.1) := by
  decide +kernel

theorem witness_TheHuddleElectsAllocatesAndStops_commands :
    (∃ d, writesPlain offS .island 0x2C00458 0x2C00458 d (1 + 3 * 2 ^ 8)) ∧
    (let s := memS { lead := true, active := 5, peers := [(0, { role := 2, heard := some 0 })] } true
     (∃ d, writesPlain s .island 0x2C00458 0x2C00458 d (1 + 0 * 2 ^ 8)) ∧ isTrayLead s = true ∧ s.hud.lead = true ∧
       0 ≠ trayRank s ∧ bitOf s.hud.active 0 = true ∧ isHeard s 0 = true ∧ (peerAt s 0).role = 2) ∧
    (∃ d, writesPlain offS .island 0x2C00458 0x2C00458 d 2) ∧ (∃ d, writesPlain offS .island 0x2C00458 0x2C00458 d 3) ∧
    (∃ d, writesPlain (memS { lead := true, leakOver := some 0 } true) .island 0x2C00458 0x2C00458 d 2) ∧
    (let s := { memS { lead := true, leakOver := some 0 } true with fbc := { overs := 200 } }
     (∃ d, writesPlain s .island 0x2C00458 0x2C00458 d 2) ∧ s.hud.leakOver = some 0 ∧ 200 ≤ s.fbc.overs - 0) ∧
    (4 * 300 < 6000 ∧ 4000 ≤ 6000) ∧ (4 * 300 < 6000 ∧ 6000 < 8000) ∧ 1000 ≤ 4 * 300 :=
  ⟨plainB_spec (by decide +kernel), ⟨plainB_spec (by decide +kernel), by decide +kernel⟩, plainB_spec (by decide +kernel),
    plainB_spec (by decide +kernel), plainB_spec (by decide +kernel), ⟨plainB_spec (by decide +kernel), by decide +kernel⟩,
    by decide⟩

/-- A site's memory answers every read with the same bytes. -/
def readsR (x : List Byte) : List (Option (List Byte)) := List.replicate 6 (some x)

/-- A record of a kind with a serial, without its CRC. -/
def firR (kind serial : Nat) (l : List (Nat × List Byte)) : List Byte :=
  l.foldl (fun b e => putBytes b e.1 e.2)
    (putBytes (zeros 252) 0 (leBytes 4 0x52494E46 ++ [1, 0] ++ leBytes 1 kind ++ [0] ++ leBytes 8 serial))

/-- The record with its CRC. -/
def withCrc (b : List Byte) : List Byte := b ++ leBytes 4 (crc32 b)

/-- Three records: the TRAY's, a shelf's, and a site's of kind 4 over its limits. -/
def firT : List Byte := withCrc (firR 1 9 [(40, [0, 2, 15])])

def firP : List Byte := withCrc (firR 3 9 [(40, [1])])

def firO : List Byte := withCrc (firR 4 9 [(40, leBytes 2 201 ++ leBytes 2 12 ++ leBytes 2 25)])

/-- Four bytes hold a CRC. -/
theorem crc_bytes (b : List Byte) : ofLe (leBytes 4 (crc32 b)) = crc32 b := by
  have h : crc32 b < 2 ^ 32 := BitVec.isLt _
  generalize crc32 b = c at *
  simp only [leBytes, ofLe, BitVec.toNat_ofNat]
  omega

/-- A record with its CRC carries it in its last four bytes. -/
theorem crc_of {b : List Byte} (h : b.length = 252) :
    getLe (withCrc b) 252 4 = crc32 (slice (withCrc b) 0 252) := by
  have k : slice (withCrc b) 0 252 = b := by simp [slice, withCrc, h, zeros]
  have l : slice (withCrc b) 252 4 = leBytes 4 (crc32 b) := by
    have m : (leBytes 4 (crc32 b)).length = 4 := rfl
    rw [slice, withCrc, List.drop_left' h, List.take_of_length_le (by simp [m])]
    simp [zeros, m]
  rw [k, getLe, l, crc_bytes]

/-- What R461 asks of a record beside its CRC. -/
def firRest (r : List Byte) : Bool :=
  getLe r 0 4 == 0x52494E46 && getLe r 4 2 == 1 && getLe r 7 1 == 0 && getLe r 8 8 != 0 && kindDataOk r &&
  zeroSpan r 192 252

theorem valid_of {r : List Byte} (c : getLe r 252 4 = crc32 (slice r 0 252)) (h : firRest r = true) :
    firValid r = true := by
  simp only [firRest, Bool.and_eq_true, bne_iff_ne, ne_eq, beq_iff_eq] at h
  simp only [firValid, Bool.and_eq_true, bne_iff_ne, ne_eq, beq_iff_eq]
  exact ⟨⟨⟨⟨⟨⟨h.1.1.1.1.1, h.1.1.1.1.2⟩, c⟩, h.1.1.1.2⟩, h.1.1.2⟩, h.1.2⟩, h.2⟩

theorem fir_valid : firValid firT = true ∧ firValid firP = true ∧ firValid firO = true :=
  ⟨valid_of (crc_of (by decide +kernel)) (by decide +kernel), valid_of (crc_of (by decide +kernel)) (by decide +kernel),
    valid_of (crc_of (by decide +kernel)) (by decide +kernel)⟩

/-- Two reads that agree give the record. -/
theorem read_same {x : List Byte} (h : x.length = 256) : firRead 3 (readsR x) = some x := by
  simp [readsR, firRead, List.replicate, h]

/-- A tray lead with a topology of one site of a kind, its presence as given. -/
def siteS (kind pres acc : Nat) : State :=
  { offS with tmg := { role := 2, pres, accepted := if acc = 0 then [] else [(0, acc)], topology := putBytes topoT 16 [BitVec.ofNat 8 kind] } }

theorem witness_TheTrayVerifiesReportsAndRelays_sites :
    (standby offS = true ∧ bitOf offS.tmg.pres 3 ≠ true ∧ bitOf offS.tmg.pres 3 = false) ∧
    (let s := { offS with boot := { path := 1 } }
     let t := updTmg (fun t => { t with pres := setFld t.pres 3 3 (b2n true) }) (orReg 0x2A00008 (2 ^ 3) s)
     standby s = true ∧ islandRuns t = false) ∧
    (let t := updTmg (fun t => { t with pres := setFld t.pres 3 3 (b2n true) }) (orReg 0x2A00008 (2 ^ 3) offS)
     let u := queueEvent 0 0x0400 (leBytes 4 t.tmg.pres ++ leBytes 4 (rawAt t 0x2A00008)) t
     islandRuns t = true ∧ isTrayLead u = false) ∧
    (let s := memS {} false
     let t := updTmg (fun t => { t with pres := setFld t.pres 3 3 (b2n true) }) (orReg 0x2A00008 (2 ^ 3) s)
     let u := queueEvent 0 0x0400 (leBytes 4 t.tmg.pres ++ leBytes 4 (rawAt t 0x2A00008)) t
     bitOf s.tmg.pres 3 ≠ true ∧ islandRuns t = true ∧ isTrayLead u = true ∧ islandRuns u = true) ∧
    (siteCount (memS {} false) ≤ 1 ∧ 0 < siteCount (memS {} false)) ∧
    ((siteDef (siteS 0 0 0) 0).kind = 0 ∧ (siteDef (siteS 1 0 0) 0).kind ≠ 0 ∧
      bitOf (siteS 1 0 0).tmg.pres (siteDef (siteS 1 0 0) 0).pres = false ∧ firAnswers (readsR firT) = true ∧
      firAnswers [] = false ∧ bitOf (siteS 1 1 0).tmg.pres (siteDef (siteS 1 1 0) 0).pres = true ∧ firRead 3 [] = none ∧
      (siteDef (siteS 1 1 0) 0).noPres = false ∧ getLe firP 6 1 ≠ 1 ∧ getLe firT 6 1 = 1 ∧
      (siteDef (siteS 4 1 0) 0).kind = 4 ∧ getLe firO 6 1 = 4 ∧ 200 < getLe firO 40 2 ∧
      Tbl.get 0 (siteS 1 1 0).tmg.accepted 0 = 0 ∧ Tbl.get 0 (siteS 1 1 8).tmg.accepted 0 = 8 ∧ getLe firT 8 8 = 9) ∧
    ((siteResult (siteS 0 1 9) 0 []).result = (siteAt (siteS 0 1 9) 0).result ∧
      (siteResult (siteS 1 0 0) 0 []).result = 3 ∧ (siteResult (siteS 1 1 0) 0 []).result = 4 ∧
      firValid (zeros 256) = false) := by
  decide +kernel

theorem witness_TheTrayVerifiesReportsAndRelays_reads :
    firRead 3 (readsR firT) = some firT ∧ firRead 3 (readsR firP) = some firP ∧ firRead 3 (readsR firO) = some firO :=
  ⟨read_same (by decide +kernel), read_same (by decide +kernel), read_same (by decide +kernel)⟩

theorem witness_TheTrayVerifiesReportsAndRelays_bus :
    (∃ d, writesPlain (memS {} false) .island 0x2A00014 0x2A00014 d 1) ∧
    (∃ d, writesPlain offS .island 0x2A00014 0x2A00014 d 1) ∧
    (islandRuns State.reset = false ∧ islandRuns offS = true ∧ offS.tmg.outbox = [] ∧ offS.tmg.proxies = [] ∧
      offS.tmg.lastLead = none ∧ isTrayLead offS = false ∧ offS.tmg.verifying = []) ∧
    (let b : List Byte := [0x80] ++ zeros 240
     2 ≤ b.length ∧ b.length ≤ 242 ∧ getLe b 0 1 % 128 = 0 ∧ bitOf (getLe b 0 1) 7 = true) ∧
    (let b : List Byte := [1] ++ zeros 240
     getLe b 0 1 % 128 ≠ 0 ∧ bitOf (getLe b 0 1) 7 = false ∧ getLe b 0 1 % 128 ≠ offS.tmg.inNext) ∧
    (let p : OutPacket := { kind := 1, dest := zeros 18, bytes := zeros 300 }
     let s := { offS with tmg := { outbox := [p] } }
     islandRuns s = true ∧ s.tmg.outbox = p :: [] ∧ (s.tmg.outFrag + 1) * 240 < p.bytes.length) ∧
    (let p : OutPacket := { kind := 2, dest := zeros 18, bytes := zeros 200 }
     let s := { offS with tmg := { outbox := [p] } }
     s.tmg.outbox = p :: [] ∧ (slice p.dest 0 18 ++ p.bytes).length ≤ (s.tmg.outFrag + 1) * 240) ∧
    (let s := { offS with tmg := { lastLead := some 5 } }
     islandRuns s = true ∧ isTrayLead s = false ∧ s.tmg.lastLead = some 5) ∧
    (let w : ProxyWait := { pos := 1, seq := 2, key := 0, command := 1, src := [], since := 5 }
     let s := { memS {} false with tmg := { (memS {} false).tmg with proxies := [w] } }
     let b : List Byte := [0x80, 1] ++ zeros 20 ++ [2] ++ zeros 40
     islandRuns s = true ∧ isTrayLead s = true ∧ s.tmg.proxies = w :: [] ∧ 2 ≤ b.length ∧ bitOf (getLe b 0 1) 7 = true ∧
       getLe (b.drop 1) 0 1 = 1 ∧
       s.tmg.proxies.find? (fun w => w.pos == 1 && w.seq == getLe ((b.drop 1).drop 1) 20 4) = some w) ∧
    (let b : List Byte := [0x80, 2] ++ zeros 40
     bitOf (getLe b 0 1) 7 = true ∧ getLe (b.drop 1) 0 1 = 2 ∧ bitOf (getLe ([0, 2] ++ zeros 40) 0 1) 7 = false) ∧
    (posAt (memS {} false) 1).fails < 4 ∧ (250 ≤ 250 ∧ 250 < 251) :=
  ⟨plainB_spec (by decide +kernel), plainB_spec (by decide +kernel), by decide +kernel⟩

/-! The management port -/

/-- A request as its 32 header bytes and its payload: to a position, with key slot 0, the broadcast serial, a counter, a
sequence number 1, a command. -/
def mmpB (target counter cmd : Nat) (payload : List Byte) : List Byte :=
  leBytes 4 0x31504D4D ++ [1, 1] ++ leBytes 1 target ++ [0] ++ leBytes 8 counter ++ leBytes 4 0xFFFFFFFF ++ leBytes 4 1 ++
    leBytes 2 cmd ++ [0, 0] ++ leBytes 2 payload.length ++ [0, 0] ++ payload

/-- The request with a tag. -/
def mmpQ (counter cmd : Nat) (payload tag : List Byte) : MmpRequest :=
  { src := zeros 18, proxied := false, packet := mmpB 0 counter cmd payload ++ tag }

/-- A chip whose request queue holds one request. -/
def askS (s : State) (cmd : Nat) (payload : List Byte) : State :=
  { s with mgp := { s.mgp with queue := [mmpQ 1 cmd payload (zeros 16)] } }

/-- The fields of the front request. -/
theorem ask_front {s : State} {cmd n : Nat} {p : List Byte} (h : romRuns s = true) (hc : cmd < 65536)
    (hl : n < 65536) (hp : p.length = n) : mmpFront (askS s cmd p) cmd n (mmpQ 1 cmd p (zeros 16)) [] := by
  subst hp
  refine ⟨h, rfl, ?_, ?_⟩
  · show ofLe (leBytes 2 cmd) = cmd
    simp only [leBytes, ofLe, BitVec.toNat_ofNat]
    omega
  · show ofLe (leBytes 2 p.length) = p.length
    simp only [leBytes, ofLe, BitVec.toNat_ofNat]
    omega

theorem witness_ManagementPacketsAreCheckedAndAnswered_checks :
    (let p := mmpB 0 1 1 [] ++ zeros 16
     romRuns offS = true ∧ romRuns State.reset = false ∧ getLe p 0 4 = 0x31504D4D ∧ getLe p 4 1 = 1 ∧ getLe p 5 1 = 1 ∧
       getLe p 28 2 ≤ 1024 ∧ p.length = 48 + getLe p 28 2 ∧ getLe p 6 1 < 4 ∧ getLe p 7 1 < 2 ∧ getLe p 30 2 = 0 ∧
       getLe p 6 1 = offS.pwr.straps.pos) ∧
    (let p := mmpB 1 1 1 [] ++ zeros 16
     getLe p 6 1 ≠ offS.pwr.straps.pos ∧ isTrayLead offS = false ∧ isTrayLead (memS {} false) = true ∧
       (posAt (memS {} false) (getLe p 6 1)).fails < 4) ∧
    (let s := { memS {} false with tmg := { (memS {} false).tmg with positions := [(1, { fails := 4 })] } }
     isTrayLead s = true ∧ 4 ≤ (posAt s 1).fails) ∧
    (let q := mmpQ 1 0x60 (zeros 104) (zeros 16)
     let s := { offS with boot := { path := 1 } }
     s.boot.path = 1 ∧ s.mgp.key0 = [] ∧ s.mgp.key1 = [] ∧ reqCommand q = 0x60 ∧ getLe (reqPayload q) 0 1 = 0) ∧
    (let q := mmpQ 1 1 [] (zeros 16)
     mmpKeyAt offS (reqField q 7 1) = [] ∧ reqCommand q ≠ 0x60) ∧
    (let s := { offS with mgp := { key0 := [1], floor := 5 } }
     let q := mmpQ 5 1 [] (mmpTag [1] (mmpB 0 5 1 []))
     mmpKeyAt s 0 = [1] ∧ reqField q 16 4 = 0xFFFFFFFF ∧ reqCommand q = 1 ∧ reqField q 8 8 ≤ s.mgp.floor) ∧
    (let s := { offS with mgp := { key0 := [1], floor := 5 } }
     s.mgp.queue.length < 16 ∧ s.mgp.floor < reqField (mmpQ 6 1 [] (zeros 16)) 8 8 ∧ s.mgp.lastTag = none) ∧
    (let s := { offS with mgp := { queue := List.replicate 16 (mmpQ 1 1 [] (zeros 16)) } }
     16 ≤ s.mgp.queue.length) := by
  decide +kernel

theorem witness_ManagementPacketsAreCheckedAndAnswered_tag :
    let s := { offS with mgp := { key0 := [1], floor := 5 } }
    let q := mmpQ 5 1 [] (mmpTag [1] (mmpB 0 5 1 []))
    mmpKeyAt s (reqField q 7 1) ≠ [] ∧
    mmpTag (mmpKeyAt s (reqField q 7 1)) (slice q.packet 0 (32 + reqField q 28 2)) = reqTag q ∧
    reqField q 16 4 = 0xFFFFFFFF ∧ reqCommand q = 1 ∧ reqField q 8 8 ≤ s.mgp.floor ∧
    s.mgp.lastTag ≠ some (reqField q 8 8, reqTag q) ∧
    (let u := { s with mgp := { s.mgp with lastTag := some (reqField q 8 8, reqTag q) } }
     u.mgp.lastTag = some (reqField q 8 8, reqTag q) ∧ reqField q 8 8 = u.mgp.floor) :=
  ⟨by decide +kernel, rfl, by decide +kernel, by decide +kernel, by decide +kernel, nofun, rfl, by decide +kernel⟩

theorem witness_ManagementPacketsAreCheckedAndAnswered_rows :
    mmpRow .identify = some (1, sizeIs 0, false) ∧ mmpRow .topoLoad = some (0x31, fun _ => true, true) ∧
    (offS.mgp.queue = [] ∧ (askS offS 2 []).mgp.queue = mmpQ 1 2 [] (zeros 16) :: [] ∧
      reqCommand (mmpQ 1 2 [] (zeros 16)) ≠ 1) ∧
    (mmpFront (askS offS 1 [0]) 1 1 (mmpQ 1 1 [0] (zeros 16)) [] ∧ sizeIs 0 1 = false) ∧
    (mmpFront (askS offS 0x31 []) 0x31 0 (mmpQ 1 0x31 [] (zeros 16)) [] ∧ isTrayLead (askS offS 0x31 []) = false) :=
  ⟨rfl, rfl, by decide +kernel, ⟨ask_front rfl (by decide) (by decide) rfl, rfl⟩, ask_front rfl (by decide) (by decide) rfl, rfl⟩

theorem witness_ManagementPacketsAreCheckedAndAnswered_ptp :
    (islandRuns offS = true ∧ romRuns offS = true ∧ offS.mgp.phyReleased = false ∧ offS.mgp.events.length < 64 ∧
      offS.mgp.ptp.st = 0) ∧
    (let e : MgpEvent := { seq := 0, dts := 0, sev := 0, code := 0x100, data := [], sent := false }
     64 ≤ (List.replicate 64 e).length) ∧
    (let s := { offS with mgp := { phyReleased := true } }
     romRuns s = true ∧ s.mgp.phyReleased = true) ∧
    (let s := { offS with regs := [(0x2B00040, BitVec.ofNat 64 0x80000010)], mgp := { ptp := { st := 1 } } }
     islandRuns s = true ∧ regBit s 0x2B00040 31 = true ∧ s.mgp.ptp.st ≠ 0 ∧ s.mgp.ptp.gmRank = none ∧ s.mgp.ptp.st ≤ 1 ∧
       regFld s 0x2B00040 15 0 = 16 ∧
       Int.tdiv ((100000 - 0 - 0) - (0 - 0 - 0) : Int) 2 > 16 * 1000 ∧
       Int.tdiv ((0 - 100000 - 0) - (0 - 0 - 0) : Int) 2 < -(16 * 1000)) ∧
    (let s := { offS with regs := [(0x2B00040, BitVec.ofNat 64 0x80000010)], mgp := { ptp := { st := 2, gmRank := some 5, gm := 7 } } }
     islandRuns s = true ∧ regBit s 0x2B00040 31 = true ∧ s.mgp.ptp.gmRank = some 5 ∧ 7 = s.mgp.ptp.gm ∧
       8 ≠ s.mgp.ptp.gm ∧ 1 < s.mgp.ptp.st) := by
  decide +kernel

theorem witness_ManagementCommandsAct_requests :
    mmpFront (askS offS 1 []) 1 0 (mmpQ 1 1 [] (zeros 16)) [] ∧ mmpFront (askS offS 2 []) 2 0 (mmpQ 1 2 [] (zeros 16)) [] ∧
    mmpFront (askS offS 0x10 (zeros 8)) 0x10 8 (mmpQ 1 0x10 (zeros 8) (zeros 16)) [] ∧
    mmpFront (askS offS 0x11 (zeros 12)) 0x11 12 (mmpQ 1 0x11 (zeros 12) (zeros 16)) [] ∧
    mmpFront (askS offS 0x12 []) 0x12 0 (mmpQ 1 0x12 [] (zeros 16)) [] ∧
    mmpFront (askS offS 0x20 (zeros 16)) 0x20 16 (mmpQ 1 0x20 (zeros 16) (zeros 16)) [] ∧
    mmpFront (askS offS 0x21 (zeros 24)) 0x21 24 (mmpQ 1 0x21 (zeros 24) (zeros 16)) [] ∧
    mmpFront (askS offS 0x22 (zeros 8)) 0x22 8 (mmpQ 1 0x22 (zeros 8) (zeros 16)) [] ∧
    (let s := memS {} false
     mmpFront (askS s 0x30 []) 0x30 0 (mmpQ 1 0x30 [] (zeros 16)) [] ∧
     mmpFront (askS s 0x31 topoT) 0x31 32 (mmpQ 1 0x31 topoT (zeros 16)) [] ∧
     mmpFront (askS s 0x32 (zeros 8)) 0x32 8 (mmpQ 1 0x32 (zeros 8) (zeros 16)) [] ∧
     mmpFront (askS s 0x33 (zeros 8)) 0x33 8 (mmpQ 1 0x33 (zeros 8) (zeros 16)) [] ∧
     mmpFront (askS s 0x34 (zeros 264)) 0x34 264 (mmpQ 1 0x34 (zeros 264) (zeros 16)) [] ∧
     mmpFront (askS s 0x40 (cfgC true)) 0x40 144 (mmpQ 1 0x40 (cfgC true) (zeros 16)) []) ∧
    mmpFront (askS offS 0x50 (zeros 16)) 0x50 16 (mmpQ 1 0x50 (zeros 16) (zeros 16)) [] ∧
    mmpFront (askS offS 0x51 (zeros 8)) 0x51 8 (mmpQ 1 0x51 (zeros 8) (zeros 16)) [] ∧
    mmpFront (askS offS 0x60 (zeros 104)) 0x60 104 (mmpQ 1 0x60 (zeros 104) (zeros 16)) [] := by
  have k {s : State} {cmd n : Nat} {p : List Byte} (h : romRuns s = true ∧ cmd < 65536 ∧ n < 65536 ∧ p.length = n) :=
    ask_front (s := s) (cmd := cmd) (p := p) h.1 h.2.1 h.2.2.1 h.2.2.2
  refine ⟨k ?_, k ?_, k ?_, k ?_, k ?_, k ?_, k ?_, k ?_, ⟨k ?_, k ?_, k ?_, k ?_, k ?_, k ?_⟩, k ?_, k ?_, k ?_⟩ <;>
    decide +kernel

theorem witness_ManagementCommandsAct_registers :
    (let p : List Byte := leBytes 4 0x2A00004 ++ [1, 0, 0, 0]
     let t := takenFrom (askS offS 0x10 p) (mmpQ 1 0x10 p (zeros 16)) []
     getLe p 4 2 = 1 ∧ getLe p 0 4 % 4 = 0 ∧ getLe p 6 2 = 0 ∧ mmpShut t 0x2A00004 1 = false ∧
       (mmpReads 1 0x2A00004 t).2.isSome = true ∧ (mmpReads 1 0x2A00006 t).2 = none ∧ mmpShut t 0x1000000 1 = true) ∧
    (let p : List Byte := leBytes 4 0x2A0000C ++ [1, 0, 0, 0] ++ zeros 4
     p.length = 8 + 4 * getLe p 4 2 ∧ getLe p 4 2 = 1 ∧ getLe p 6 2 = 0) ∧
    (let p : List Byte := zeros 8 ++ [1] ++ zeros 7
     getLe p 8 2 = 1 ∧ allZero (slice p 10 6) = true) ∧
    (getLe (zeros 24) 18 2 = 0 ∧ getLe (zeros 24) 20 4 < 2 ^ 11) ∧
    (topologyOk topoT = true ∧ topologyOk (zeros 32) = false ∧ topoT.length = 16 + 16 * getLe topoT 6 1 ∧
      rowConfigOk (cfgC true) = false ∧ (cfgC true).length = 128 + 8 * getLe (cfgC true) 7 1 + 16 * getLe (cfgC true) 6 1) ∧
    (0 < siteCount (memS {} false) ∧ getLe firT 6 1 = (siteDef (memS {} false) 0).kind) ∧ firRead 3 [] = none := by
  decide +kernel

/-- A row configuration of three trays that R415 takes. -/
def rowC : List Byte :=
  putBytes (putBytes (putBytes (putBytes (putBytes (putBytes (putBytes (zeros 176) 0 (leBytes 4 0x43524E46 ++ [1, 0, 3, 0, 5]))
    16 [8, 8, 8, 8]) 20 (leBytes 4 1000000 ++ [2])) 30 (leBytes 2 250 ++ leBytes 2 250)) 64 (leBytes 2 2000 ++ leBytes 2 2500))
    68 [1]) 90 [1] |> fun c =>
  putBytes (putBytes (putBytes c 128 ([9] ++ zeros 8)) 144 ([10] ++ zeros 7 ++ [1])) 160 ([11] ++ zeros 7 ++ [2])

theorem witness_rowConfig : rowConfigOk rowC = true ∧ heldEpoch offS < getLe rowC 8 4 := by decide +kernel

theorem witness_ManagementCommandsAct_images :
    (slotBusyBoot offS 1 = false ∧ ¬8388608 < 0 + 64 ∧ slotBusyBoot offS 0 = true ∧ ¬4 ≤ 1 ∧ inRecovery offS = false ∧
      0 = Tbl.get 0 offS.boot.written 1) ∧
    (let s := { offS with boot := { offS.boot with written := [(1, 64)] } }
     64 = Tbl.get 0 s.boot.written 1 ∧ verifies s 0 (slotAt s.boot 1).bytes true false = false) ∧
    (let s := { memS {} false with tmg := { (memS {} false).tmg with sites := [(0, { result := 2 })] } }
     0 < siteCount s ∧ (siteAt s 0).result = 2 ∧ (siteAt (memS {} false) 0).result = 1) ∧
    (siteAt (siteS 1 1 0) 0).result = 0 := by
  decide +kernel

/-- A firmware image of one 64-byte block that R505 and R506 take. -/
def imgF : List Byte :=
  putBytes (zeros 320) 0 (leBytes 4 0x57464E46 ++ [1, 0, 1, 0] ++ leBytes 4 0xE1800000 ++ zeros 8 ++ leBytes 4 64)

theorem witness_verifies : verifies offS 0 imgF true false = true := by decide +kernel

/-! Errors and bring-up -/

/-- An entry of class 17 at a severity, SEQ 1, open or closed, logged at instant 0. -/
def entryE (sev : Nat) (closed : Bool) : LogEntry :=
  { uid := 1, seq := 1, dts := 0, addr := 0, status := 0, sev, cls := 17, cause := 4, owner := none, secondary := false
    injected := false, raised := false, isolating := false, merged := false, addrKind := 0, source := 0x2C, index := 0
    occurrences := 1, tag := 0, requester := none, info := 0, primary := 0, primaryUid := 0, agent := 7, agentIndex := 0
    access := 0, closed }

/-- A chip whose error unit holds the given log and class 17 in handling at a severity, its handler running. -/
def errS (l : List LogEntry) (sev : Nat) : State :=
  { offS with err := { restored := true, log := l, classes := [(17, { handling := true, sev, primary := 1, primaryUid := 1 })]
                       running := some 17 } }

theorem witness_ErrorsAreLoggedHandledAndAcknowledged_log :
    (standby offS = true ∧ standby State.reset = false ∧ romRuns offS = true ∧ romRuns State.reset = false ∧
      offS.err.restored = true ∧ State.reset.err.restored = false) ∧
    (let e : ErrEvent := { cls := 17, cause := 4, sev := 2 }
     e.secondaryTo = none ∧ merging e (errS [] 3) = false ∧ (logEntryOf e (errS [] 3)).secondary = true) ∧
    (entryE 2 true).secondary = false ∧ (2 ≤ (entryE 2 true).sev ∧ (entryE 1 true).sev < 2) ∧
    (let e : ErrEvent := { cls := 17, cause := 4, sev := 1, source := 0x2C }
     let s := { offS with dts := 5, err := { restored := true, log := [entryE 1 false] } }
     merging e s = true ∧ merging e (errS [] 0) = false ∧ s.err.log.length < 4096) ∧
    (4096 ≤ (List.replicate 4096 (entryE 1 true)).length) ∧
    (let s := errS [entryE 1 false] 0
     standby s = true ∧ s.err.log.find? (fun e => !e.closed && e.seq != 0) = some (entryE 1 false)) ∧
    ((errS [entryE 1 true] 0).err.log.all (fun e => e.closed || e.seq == 0) = true) ∧
    (let s := errS [entryE 2 true] 2
     islandRuns s = true ∧ s.err.log.filter (fun e => e.closed && decide (2 ≤ e.sev) &&
       !(s.err.flash.any (·.uid == e.uid))) ≠ [] ∧ s.err.flashFailing = false) ∧
    (let s := { errS [entryE 2 true] 2 with err := { (errS [entryE 2 true] 2).err with flashFailing := true } }
     islandRuns s = true ∧ s.err.flashFailing = true) :=
  ⟨by decide +kernel, by decide +kernel, rfl, by decide, by decide +kernel, by decide +kernel, by decide +kernel, by decide +kernel,
    by decide +kernel, by decide +kernel⟩

theorem witness_ErrorsAreLoggedHandledAndAcknowledged_handlers :
    offS.err.running = none ∧
    ((errS [] 4).err.running = some 17 ∧ (classAt (errS [] 4) 17).sev = 4 ∧ (classAt (errS [] 4) 17).handling = true ∧
      (classAt (errS [] 3) 17).sev = 3 ∧ islandRuns (errS [] 3) = true ∧ regBit (errS [] 3) (0x100104 + 17 * 0x10) 31 = false) ∧
    (let s := { errS [] 3 with regs := [(0x100214, BitVec.ofNat 64 0x80000000)] }
     regBit s (0x100104 + 17 * 0x10) 31 = true) ∧
    (let x := entryE 3 false
     classAt (errS [] 3) x.cls ≠ {}) ∧
    (∃ d, writesPlain (errS [] 3) .island 0x100020 0x100020 d (17 + 1 % 2 ^ 24 * 2 ^ 8)) ∧
    ((classAt (errS [] 3) 17).primary % 2 ^ 24 = 1 % 2 ^ 24) ∧
    (∃ d, writesPlain offS .island 0x2C00804 0x2C00804 d 1) ∧
    (let g : GaspRecord := { number := 1, kind := 1, body := zeros 512, acked := false }
     let s := { offS with err := { restored := true, records := [g], crcReadBy := [.island] } }
     (∃ d, writesPlain s .island 0x2C00804 0x2C00804 d 1) ∧ shownGasp s = some g ∧ g.kind ≠ 2 ∧
       s.err.crcReadBy.contains .island = true) ∧
    (let s := { onS with err := { restored := true, fencePending := true }, regs := [(0x100028, 1)]
                         elk := { manifest := some manifestM } }
     s.err.isolated = false ∧ s.err.fencePending = true ∧ regBit s 0x100028 0 = true ∧ linkRuns s = true ∧
       s.elk.hasId = true) :=
  ⟨rfl, by decide +kernel, by decide +kernel, by decide +kernel, plainB_spec (by decide +kernel), by decide +kernel,
    plainB_spec (by decide +kernel), ⟨plainB_spec (by decide +kernel), by decide +kernel, by decide +kernel,
    by decide +kernel⟩, by decide +kernel⟩

/-- A chip whose island has not booted yet. -/
def bootS (rec_ : Bool) (b : Boot) : State :=
  { offS with boot := b, pwr := { offS.pwr with islandUp := false, straps := { offS.pwr.straps with recovery := rec_ } } }

theorem witness_TheIslandBootsAndTheChipInitializes_boot :
    (let p : PairRec := { active := 0, trial := 1 }
     let q : PairRec := { active := 0, trial := 1, tried := true }
     let r : PairRec := { active := 1 }
     p.trial ≠ 0xFF ∧ p.tried = false ∧ q.trial ≠ 0xFF ∧ q.tried = true ∧ q.active ≠ 0xFF ∧ r.trial = 0xFF ∧ r.active = 1 ∧
       1 < 2) ∧
    (let s := bootS true {}
     standby s = true ∧ s.pwr.islandUp = false ∧ s.pwr.restarting = false ∧ s.pwr.vstby = .qualified ∧
       s.pwr.straps.test = false ∧ s.pwr.straps.recovery = true) ∧
    (let s := bootS false {}
     let f := islandFresh s
     s.pwr.straps.recovery = false ∧
       (chooseSlot 0 f.boot.fw f.boot.slots
         (fun k => verifies f 0 (slotAt f.boot k).bytes (bitOf 0 k) false)).pick = none) ∧
    (let s := bootS false { fw := { active := 1 }, slots := [(1, { st := .active, bytes := imgF })] }
     let f := islandFresh s
     (chooseSlot 0 f.boot.fw f.boot.slots
       (fun k => verifies f 0 (slotAt f.boot k).bytes (bitOf 3 k) false)).pick = some 1) ∧
    (standby State.reset = false ∧ offS.pwr.st = .off ∧ onS.pwr.st ≠ .off ∧ onS.pwr.st ≠ .lockedOut) := by
  decide +kernel

theorem witness_TheIslandBootsAndTheChipInitializes_stages :
    (∀ k ∈ [2, 3, 4, 5, 6, 7], islandRuns { offS with boot := { stage := k } } = true) ∧
    (let s := { offS with boot := { stage := 6 }, tmg := { settled := true } }
     s.boot.stage = 6 ∧ s.tmg.settled = true ∧ offS.tmg.settled = false) ∧
    ({ offS with boot := { noConfig := true } } : State).boot.noConfig = true ∧ offS.boot.fwTrial = false ∧
    (let s := { offS with boot := { fwTrial := true } }
     s.boot.fwTrial = true ∧ s.boot.cfgTrial = false) ∧
    (∃ d, writesPlain offS .island 0x2C00C08 0x2C00C08 d 1) ∧
    (∃ d, writesPlain offS .island 0x2C00C08 0x2C00C08 d (2 + b2n true * 4)) ∧
    (∃ d, writesPlain offS .island 0x2C00C08 0x2C00C08 d (2 + b2n false * 4)) ∧
    (let s := { onS with pwr := { onS.pwr with init := .started } }
     s.pwr.init = .started ∧ fclkRuns s = true ∧ islandRuns s = true ∧ initRuns s = true) ∧
    (let s := { onS with pwr := { onS.pwr with init := .keys } }
     s.pwr.init = .keys ∧ fclkRuns s = true ∧ islandRuns s = true) ∧
    (let s := { onS with pwr := { onS.pwr with init := .memory } }
     s.pwr.init = .memory ∧ chipReady s = true) ∧ (0xFF % 256 = 255 ∧ 0xFE % 256 ≠ 255) :=
  ⟨by decide +kernel, by decide, rfl, rfl, by decide, plainB_spec (by decide +kernel), plainB_spec (by decide +kernel),
    plainB_spec (by decide +kernel), by decide +kernel, by decide +kernel, by decide +kernel, by decide⟩

/-! The block -/

theorem witness_StepTakesTheFrontCommand :
    (State.reset.pending = [] ∧ standby State.reset = false) ∧
    (offS.pending = [] ∧ standby offS = true ∧ offS.trimAcc = 0 ∧ offS.mgp.ptp.slewing = false ∧ offS.mgp.ptp.trim = 0 ∧
      fclkRuns offS = false) ∧
    (let s := { offS with trimAcc := -9990000, mgp := { ptp := { slewing := true, slew := 100 } } }
     s.trimAcc = -9990000 ∧ s.mgp.ptp.slewing = true) := by
  decide +kernel

theorem witness_RestIsStill : AtRest State.reset := by
  refine ⟨rfl, rfl, rfl, rfl, ?_, ?_⟩
  · intro c _; rfl
  · decide

theorem witness_StepsKeepTheBlockSettled :
    Settled State.reset ∧ ∃ t, step { State.reset with pending := [.islandBoot 0] } = .next t := by
  refine ⟨⟨rfl, rfl, nofun, nofun⟩, ?_⟩
  exact ⟨_, rfl⟩

/-! Small steps, each with its result worked out from the manual -/

/-- A command comes to a next state of which `f` holds. -/
def after (i : Instr) (s : State) (f : State → Bool) : Bool :=
  match exec i s with
  | .next t => f t
  | _ => false

/-- The bytes written to host memory at an address. -/
def recordsAt (a : Nat) (t : State) : List (List Byte) :=
  t.out.filterMap (fun e => match e with | .hostWrite _ b d _ => if b = a then some d else none | _ => none)

/-- The model's tick: 10 ns at nominal trim. -/
theorem test_tick_adds_10_ns : (match step offS with | .next t => t.dts == 1000010 | _ => false) = true := by decide +kernel

/-- R34: POWER_UP acts from OFF and starts the ramp. -/
theorem test_powerUp_starts_ramp : after (.powerUp .island) offS (fun t => t.pwr.st == .rampUp) = true := by decide +kernel

/-- R6, R8: a register write at an offset that is no multiple of 4 is refused whole. -/
theorem test_registerWrite_misaligned :
    after (.registerWrite {} .island 0x2700012 4 300) offS (fun t => rawAt t 0x2700010 == 1500) = true := by decide +kernel

/-- R332: PGV_HOST_CAP takes the smallest legal cap. -/
theorem test_hostCap_stored :
    after (.hostCapWrite .island 250) offS (fun t => rawAt t 0x2700010 == 250) = true := by decide +kernel

/-- R332: 249 W is no legal cap, so the write is ignored as a whole (R6). -/
theorem test_hostCap_reserved :
    after (.hostCapWrite .island 249) offS (fun t => rawAt t 0x2700010 == 1500) = true := by decide +kernel

/-- R209: NOP's record carries the instant, the packet's TAG, status 0 and, on the first lap, PHASE. -/
theorem test_nop_record : after (.nop 0) (front onS 0 0x00 1 [(4, [0x34, 0x12])]) (fun t =>
    (recordsAt 0 t).map (fun b => (getLe b 0 8, getLe b 8 4, getLe b 12 2, getLe b 28 1, getLe b 31 1)) ==
      [(1000000, 0x1234, 0, 0, 0x80)]) = true := by
  decide +kernel

/-- The manual's walk-through of OWNER_CREATE: owner 5 becomes ACTIVE, its key generation one higher (R78, R79). -/
theorem test_ownerCreate : after (.ownerCreate 0)
    (let s := front onS 0 0x60 1 [(16, [5])]; { s with mem := { s.mem with owners := s.mem.owners ++ [(5, { keyGen := 3 })] } })
    (fun t => (ownerAt t 5).st == .active && (ownerAt t 5).keyGen == 4) = true := by
  decide +kernel

/-- R227: HELLO moves a port to KEYX and keeps what it carries. -/
theorem test_hello : after (.hello 0 77 1 2 true) (linkS .hello)
    (fun t => (portAt t 0).st == .keyx && (portAt t 0).peerSerial == 77 && (portAt t 0).peerId == 2) = true := by
  decide +kernel

/-- UAMO.ADD.W: 5 added to 0x0000_0003 gives 8 in memory; rd takes the old word. -/
theorem test_uamo_add : after (.uamo 0 0 0 13 10 11 false false false .ok)
    { thrS threadT with mem := { mapS.mem with cells := mapS.mem.cells ++ [(0x4800000000, 3)] } }
    (fun t => (Tbl.get none t.fab.threads 0).map (fun u => u.x.find? (·.1 == 13)) == some (some (13, 3)) &&
      Tbl.get 0 t.mem.cells 0x4800000000 == 8) = true := by
  decide +kernel

/-- R310: the first edge leaves the channel in ACQUIRE. -/
theorem test_mainsEdge_acquire :
    after (.mainsEdge 0 2000000) (phaseS 0 { st := .acquire })
      (fun t => (phaseCh t 0).lastEdge == some 2000000 && (phaseCh t 0).st == .acquire) = true := by decide +kernel

/-- The manual's ageing example: points (1,000 rpm, 300) and (2,000 rpm, 560), 1,500 rpm at duty 500, INDEX 1,190. -/
theorem test_ageing_example : baseDuty [(1000, 300), (2000, 560)] 1500 = some 430 ∧
    after (.ageingCheck 5) { offS with
      dts := 60000000000
      regs := [(0x28001B0, BitVec.ofNat 64 (300 * 65536 + 1000)), (0x28001B4, BitVec.ofNat 64 (560 * 65536 + 2000)),
        (0x2D00000, BitVec.ofNat 64 0x20)]
      tfu := { pwm := [(5, { rpm := 1500, out := 500 })] } }
      (fun t => (pwmAt t 5).index == 1190 && (pwmAt t 5).warn && !(pwmAt t 5).alarm) = true := by
  decide +kernel

/-- R365: a valve fault latches. -/
theorem test_valveFault : after (.valveFault 1) offS (fun t => (valveAt t 1).fault) = true := by decide +kernel

/-- R453: LEAK 1 triggers the leak response, LEAK 2 clears it. -/
theorem test_tsbLeak : after (.tsbLeak 1) offS (fun t => t.tfu.latch) = true ∧
    after (.tsbLeak 2) { offS with tfu := { latch := true } } (fun t => !t.tfu.latch) = true := by
  decide +kernel

/-- R426, R453: ALLOC code 100 is 750 W; with no phase known the HUDDLE source takes it at once (R336). -/
theorem test_alloc : after (.alloc 100 0) offS (fun t => t.pgv.huddle == 750) = true := by decide +kernel

/-- R446: three trays and twelve chips from offset base 0: chip 3's stagger is 3 × 65,536 / 12. -/
theorem test_stagger : staggerOf { offS with hud := { cfg := rowC } } 3 = 16384 := by decide +kernel

/-- R444: 2,200 W over four chips of floor 300 W and demand 500 W each: each takes 500 W and a quarter of the rest. -/
theorem test_chipCap : chipCap 4 300 2200 2000 500 = 550 ∧ chipCap 4 300 1600 2000 500 = 400 ∧
    chipCap 4 300 1000 2000 500 = 300 := by
  decide

/-- R469: a packet that is no MMP packet counts as MALFORMED and is not answered. -/
theorem test_mmp_malformed : after (.mmpReceive (zeros 18) (zeros 48)) offS
    (fun t => rawAt t 0x2B00010 == 1 && t.out == []) = true := by
  decide +kernel

/-- R469: without a key every packet but KEY_SET in recovery counts as an authentication failure. -/
theorem test_mmp_untagged : after (.mmpReceive (zeros 18) (mmpB 0 1 1 [] ++ zeros 16)) offS
    (fun t => rawAt t 0x2B00010 == 0x10000 && t.mgp.queue == []) = true := by
  decide +kernel

/-- R463: a present site whose memory does not answer is UNREADABLE. -/
theorem test_siteVerify_unreadable :
    after (.siteVerify 0 []) (siteS 1 1 0) (fun t => (siteAt t 0).result == 4) = true := by decide +kernel

/-- R485, R486: the first entry after a restored log takes SEQ 1 and the instant. -/
theorem test_error_logged : after (.errorDetect (.event { cls := 17, cause := 4, sev := 0 })) offS
    (fun t => t.err.log.map (fun e => (e.seq, e.dts, e.cls)) == [(1, 1000000, 17)]) = true := by
  decide +kernel

/-- R517: random self-test passed, chip initialization has its keys. -/
theorem test_chipInit : after (.chipInit true) { onS with pwr := { onS.pwr with init := .started } }
    (fun t => t.pwr.init == .keys && t.mem.rngOk) = true := by
  decide +kernel

/-- R517: seven stacks of eight trained: initialization fails. -/
theorem test_hbmTrained_fails : after (.hbmTrained 0xFE) { onS with pwr := { onS.pwr with init := .keys } }
    (fun t => t.pwr.init == .failed && t.mov.hbmFailed == 1) = true := by
  decide +kernel

/-- R479: a first Announce with PTP on selects its grandmaster. -/
theorem test_ptpAnnounce : after (.ptpAnnounce 7 3)
    { offS with regs := [(0x2B00040, BitVec.ofNat 64 0x80000010)], mgp := { ptp := { st := 1 } } }
    (fun t => t.mgp.ptp.gm == 7 && t.mgp.ptp.st == 2) = true := by
  decide +kernel

/-- R407: a takeover makes the node time master. -/
theorem test_takeover : after .takeover (busS { curOver := some overO, takeAt := some 2000000 })
    (fun t => t.fbc.master && t.dts == 2000000) = true := by
  decide +kernel

/-- R105: an acquire of a grid nobody holds takes it. -/
theorem test_ugridAcq : after (.ugridAcq 0 0) (thrS threadT) (fun t => (gridAt t 0).heldBy 1) = true := by decide +kernel

/-- TMG_PRES reads the qualified presence bits. -/
theorem test_splitRead : after (.splitRead .island 0x2A00004 4) (siteS 1 1 0)
    (fun t => t.out.any (fun e => match e with | .answer _ _ (.ok v) => v == 1 | _ => false)) = true := by
  decide +kernel

end Sys2Proof.Tests
end

section
/-! Chapter 0's scope: what every register access and every packet row has in common (R2, R4, R6, R7, R192, R197). -/

namespace Sys2Proof.Proofs

open Sys2Proof Sys2Proof.Machine Sys2Proof.Safety Sys2Proof.Laws

/-! Register values (R2, R4) -/

/-- A bit of a register as it is shown, gathered over a list of fields. -/
theorem testBit_foldl_fld (v i : Nat) (l : List Fld) (a : Nat) :
    (l.foldl (fun a f => a ||| (fld v f.hi f.lo) <<< f.lo) a).testBit i =
      (a.testBit i || l.any (fun f => decide (f.lo ≤ i) && decide (i ≤ f.hi)) && v.testBit i) := by
  induction l generalizing a with
  | nil => simp
  | cons f l ih =>
    have hf : ((fld v f.hi f.lo) <<< f.lo).testBit i =
        (decide (f.lo ≤ i) && decide (i ≤ f.hi) && v.testBit i) := by
      rw [Nat.testBit_shiftLeft, testBit_fld]
      by_cases h : f.lo ≤ i
      · have h1 : i - f.lo < f.hi + 1 - f.lo ↔ i ≤ f.hi := by omega
        simp [h, h1]
      · simp [h]
    rw [List.foldl_cons, ih, Nat.testBit_or, hf, List.any_cons, Bool.or_assoc, Bool.and_or_distrib_right]

/-- R4: a bit of a shown register is its image's where a field covers it, else 0. -/
theorem testBit_shown (d : RegDef) (v i : Nat) : (d.shown v).testBit i =
    (d.flds.any (fun f => decide (f.lo ≤ i) && decide (i ≤ f.hi)) && v.testBit i) := by
  simp [RegDef.shown, testBit_foldl_fld]

/-- A replaced field reads as the new value's low bits. -/
theorem fld_setFld_same (v hi lo x : Nat) : fld (setFld v hi lo x) hi lo = x % 2 ^ (hi + 1 - lo) := by
  apply Nat.eq_of_testBit_eq
  intro i
  rw [testBit_fld, testBit_setFld, Nat.testBit_mod_two_pow]
  by_cases h : i < hi + 1 - lo <;> simp [h]

/-- A field stored from a whole value reads as that value's field. -/
theorem fld_setFld_fld (v hi lo x : Nat) : fld (setFld v hi lo (fld x hi lo)) hi lo = fld x hi lo := by
  rw [fld_setFld_same]
  exact Nat.mod_eq_of_lt (Nat.mod_lt _ (Nat.two_pow_pos _))

/-- Replacing a field leaves every field that shares no bit with it. -/
theorem fld_setFld_disjoint (v x : Nat) {hi lo hi' lo' : Nat} (hl : lo ≤ hi) (h : hi < lo' ∨ hi' < lo) :
    fld (setFld v hi lo x) hi' lo' = fld v hi' lo' := by
  apply Nat.eq_of_testBit_eq
  intro i
  rw [testBit_fld, testBit_fld, testBit_setFld]
  by_cases hi' : i < hi' + 1 - lo'
  · rw [if_neg (by omega)]
  · simp [hi']

/-- What a write stores in a field is the register as it was or with that one field replaced. -/
theorem storeFld_cases (locked : Bool) (new acc : Nat) (f : Fld) :
    storeFld locked new acc f = acc ∨ ∃ x, storeFld locked new acc f = setFld acc f.hi f.lo x := by
  unfold storeFld
  cases f.acc with
  | rw => exact .inr ⟨_, rfl⟩
  | rwl => cases locked with
    | true => exact .inl rfl
    | false => exact .inr ⟨_, rfl⟩
  | w1c => exact .inr ⟨_, rfl⟩
  | ro | wo | w1s => exact .inl rfl

/-- A W1C field loses the bits written 1. -/
theorem testBit_storeFld_w1c (locked : Bool) (new acc : Nat) (f : Fld) (hf : f.acc = .w1c) {i : Nat}
    (h1 : f.lo ≤ i) (h2 : i ≤ f.hi) :
    (storeFld locked new acc f).testBit i = (acc.testBit i && !(new.testBit i)) := by
  have hw : i - f.lo < f.hi + 1 - f.lo := by omega
  simp only [storeFld, hf, testBit_setFld, testBit_sub_and, testBit_fld]
  rw [if_pos (by omega)]
  simp [hw, Nat.add_sub_cancel' h1]

/-- Settles O9: the field's access code picks the stored value, and only the field's own bits change. -/
theorem fieldsActByTheirCodes : Obligations.FieldsActByTheirCodes := by
  intro locked new acc f g hf hg
  refine ⟨fun h => ?rw, fun h => ?rwl, fun h i h1 h2 => testBit_storeFld_w1c locked new acc f h h1 h2, fun h => ?kept,
    fun h => ?other⟩
  case rw => simp only [storeFld, h, fld_setFld_fld]
  case rwl => cases locked <;> simp [storeFld, h, fld_setFld_fld]
  case kept => rcases h with h | h <;> simp [storeFld, h]
  case other =>
    rcases storeFld_cases locked new acc f with e | ⟨x, e⟩
    · rw [e]
    · rw [e, fld_setFld_disjoint acc x hf h]

/-! Whole register accesses (R6, R89, R182) -/

section WholeAccess

variable {s : State} {r : Requester} {off lo : Nat} {d : RegDef}
  (hp : pathOf s r = .serves) (hv : viewShut s r = false) (ha : accessOffset s r off = some lo)
  (hs : absentStride lo = false) (hf : findReg lo = some (d, lo))
include hp hv ha hs hf

/-- A read of a whole register answers what it shows. -/
theorem regRead_whole (hw : d.width = 32 ∧ off % 4 = 0 ∨ d.width = 64 ∧ off % 8 = 0) :
    regRead r off (d.width / 8) s =
      emit (.answer r off (.ok (d.shown (regImage r s lo)))) (readEffect r lo s) := by
  rcases hw with ⟨hw, ho⟩ | ⟨hw, ho⟩
  · simp [regRead, hp, servedRead, widthOk, hw, ho, hv, ha, hs, readReg, readWord, hf]
  · simp [regRead, hp, servedRead, widthOk, hw, ho, hv, ha, hs, readReg, hf]

/-- A write of a whole register is judged and stored as one value. -/
theorem regWrite_whole {cons : Cons} {n v : Nat}
    (hw : d.width = 32 ∧ off % 4 = 0 ∧ n = 4 ∨ d.width = 64 ∧ off % 8 = 0 ∧ n = 8) (hl : v < 2 ^ (8 * n)) :
    regWrite cons r off n v s = commitReg cons r off d lo v s := by
  have hm : v % 2 ^ (8 * n) = v := Nat.mod_eq_of_lt hl
  simp only [regWrite, hp, servedWrite, hm]
  rcases hw with ⟨hw, ho, rfl⟩ | ⟨hw, ho, rfl⟩
  · simp [widthOk, ho, hv, ha, hs, writeReg, writeWord, hf, hw]
  · simp [widthOk, ho, hv, ha, hs, writeReg, hf, hw]

end WholeAccess

/-- Settles O7: a whole read answers the register as R4 shows it, which is 0 outside its fields. -/
theorem reservedFieldsReadZero : Obligations.ReservedFieldsReadZero := by
  intro s r off lo d hp hv ha hs hf hw
  refine ⟨d.shown (regImage r s lo), readEffect r lo s, ?_, fun i hi => ?_⟩
  · exact congrArg done (regRead_whole hp hv ha hs hf hw)
  · have hno : d.flds.any (fun f => decide (f.lo ≤ i) && decide (i ≤ f.hi)) = false := by
      simp only [List.any_eq_false, Bool.and_eq_true, decide_eq_true_eq, not_and, Nat.not_le]
      intro f hm h
      have := hi f hm
      omega
    rw [testBit_shown, hno, Bool.false_and]

/-! Judging a write (R6, R520) -/

section Judged

variable {s : State} {cons : Cons} {r : Requester} {off lo v : Nat} {d : RegDef}

/-- R6: a register without a field to write is left alone. -/
theorem commitReg_readOnly (h : d.readOnly = true) : commitReg cons r off d lo v s = s := by
  simp [commitReg, h]

variable (hro : d.readOnly = false) (hram : lo < 0x2908000 ∨ 0x290C000 ≤ lo) (hfor : ringForeign r lo s = false)
include hro hram hfor

/-- R6: a reserved encoding drops the write and logs CFG_RESERVED. -/
theorem commitReg_reserved (h : d.reserved v = true ∨ crossReserved lo (rawAt s lo) v s = true) :
    commitReg cons r off d lo v s = logCfgAt 1 off lo r s := by
  have hn : ¬ (0x2908000 ≤ lo ∧ lo < 0x290C000) := by omega
  simp [commitReg, hro, hn, hfor, h]

/-- R520: a write without a reserved encoding stores the fields that no lock holds; CFG_LOCKED is logged where a held
field would change. -/
theorem commitReg_judged (h1 : d.reserved v = false) (h2 : crossReserved lo (rawAt s lo) v s = false) :
    commitReg cons r off d lo v s =
      writeHook cons r lo (rawAt s lo) v (lockOn lo s)
        (setRaw lo (if lo = 0x2200000 ∧ bitOf (rawAt s lo) 31 = true
            then setFld (d.flds.foldl (storeFld (lockOn lo s) v) (rawAt s lo)) 31 31 1
            else d.flds.foldl (storeFld (lockOn lo s) v) (rawAt s lo))
          (if lockOn lo s = true ∧ changesRwl d (rawAt s lo) v = true then logCfgAt 2 off lo r s else s)) := by
  have hn : ¬ (0x2908000 ≤ lo ∧ lo < 0x290C000) := by omega
  simp [commitReg, hro, hn, hfor, h1, h2]

end Judged

/-- Settles O8: a whole write is one judged value, and the judgement has R6's and R520's three ends. -/
theorem registerWritesAreJudged : Obligations.RegisterWritesAreJudged := by
  intro s cons r off lo n v d hp hv ha hs hf hw hl hfor hram
  have hexec : exec (.registerWrite cons r off n v) s = .next (settle (commitReg cons r off d lo v s)) :=
    congrArg done (regWrite_whole hp hv ha hs hf hw hl)
  rw [hexec]
  refine ⟨fun hro => ?_, fun hro hres => ?_, fun hro h1 h2 => ⟨_, rfl, ?_⟩⟩
  · rw [commitReg_readOnly hro]
  · rw [commitReg_reserved hro hram hfor hres]; rfl
  · rw [commitReg_judged hro hram hfor h1 h2]; rfl

/-! Packet rows (R7, R192, R197) -/

/-- A packet row judges the front packet of its ring and then runs a body of its own. -/
theorem exec_packetRow {c : Instr} {r : Nat} {sel : List Byte → Bool} {size : List Byte → Nat}
    {fields : List (Nat × Nat)} (h : packetRow c = some (r, sel, size, fields)) :
    ∃ body, ∀ s, exec c s = done (runPacket r sel size fields body s) := by
  cases c <;> cases h <;> exact ⟨_, fun _ => rfl⟩

section FrontPacket

variable {s : State} {r : Nat} {sel : List Byte → Bool} {size : List Byte → Nat} {fields : List (Nat × Nat)}
  {body : Inflight → State → State} {p : Packet} {rest : List Packet}

/-- Without a fetched packet nothing starts. -/
theorem runPacket_empty (h : (ringAt s r).fetched = []) : runPacket r sel size fields body s = s := by
  simp [runPacket, h]

variable (hfr : (ringAt s r).fetched = p :: rest)
include hfr

/-- A packet of another row, or one that R192 holds, does not start. -/
theorem runPacket_held (h : sel p.bytes = false ∨ canStart s r p = false) :
    runPacket r sel size fields body s = s := by
  simp only [runPacket, hfr]
  rw [if_neg (by rcases h with h | h <;> simp [h])]

variable (hsel : sel p.bytes = true) (hst : canStart s r p = true)
include hsel hst

/-- A packet of an owner that is not ACTIVE ends OWNER_GONE (R7). -/
theorem runPacket_ownerGone (h : ownerActive s (inflightOfPacket s r p).owner = false) :
    runPacket r sel size fields body s = finishPkt s.hif.nextId 0x0801 0 0 (startedBy s r p rest) := by
  have h' : ((ownerAt s (inflightOfPacket s r p).owner).st != .active) = true := by simpa [ownerActive] using h
  simp only [runPacket, hfr, hsel, hst, Bool.and_true, if_true, h']
  rfl

/-- A started packet with a wrong header ends in its violation (R197). -/
theorem runPacket_headerError {st : Nat} (ho : ownerActive s (inflightOfPacket s r p).owner = true)
    (h : headerError (inflightOfPacket s r p) p.fetched (size p.bytes) fields = some st) :
    runPacket r sel size fields body s = finishPkt s.hif.nextId st 0 0 (startedBy s r p rest) := by
  have h' : ¬ ((ownerAt s (inflightOfPacket s r p).owner).st != .active) = true := by simpa [ownerActive] using ho
  simp only [runPacket, hfr, hsel, hst, Bool.and_true, if_true, if_neg h', h]
  rfl

end FrontPacket

/-- R197: the header's checks in their order, FLAGS and RCS as bounds. -/
theorem headerError_eq (q : Inflight) (fetched size : Nat) (fields : List (Nat × Nat)) :
    headerError q fetched size fields =
      if getLe q.bytes 2 1 ≠ size then some 0x0304
      else if 8 ≤ q.flags ∨ (q.signal = true ∧ 2 ≤ getLe q.bytes 3 1) ∨ (q.signal = false ∧ getLe q.bytes 3 1 ≠ 0) then
        some 0x0302
      else if fetched + 2 ^ 36 < getLe q.bytes 8 8 then some 0x0305
      else if owner0Only q.opcode = true ∧ q.owner ≠ 0 then some 0x0328
      else if bodyClear q.bytes fields = false then some 0x0303
      else none := by
  have hflags : q.flags / 8 ≠ 0 ↔ 8 ≤ q.flags := by omega
  have hrcs : getLe q.bytes 3 1 / 2 ≠ 0 ↔ 2 ≤ getLe q.bytes 3 1 := by omega
  cases hsig : q.signal <;> simp [headerError, hsig, hflags, hrcs]

/-- R197: the body is clear when each of its bytes outside the row's fields is 0. -/
theorem bodyClear_iff (b : List Byte) (fields : List (Nat × Nat)) : bodyClear b fields = true ↔
    ∀ i, 16 ≤ i → i < 64 → (∃ f ∈ fields, f.1 ≤ i ∧ i < f.1 + f.2) ∨ getLe b i 1 = 0 := by
  have hrun : ∀ i, i ∈ run 16 48 ↔ 16 ≤ i ∧ i < 64 := by
    intro i
    simp only [run, List.mem_map, List.mem_range]
    exact ⟨fun ⟨k, hk, e⟩ => by omega, fun h => ⟨i - 16, by omega, by omega⟩⟩
  simp only [bodyClear, List.all_eq_true, hrun, Bool.or_eq_true, List.any_eq_true, Bool.and_eq_true, decide_eq_true_eq,
    beq_iff_eq, and_imp]

/-- Settles O12: every packet row is `runPacket`, whose ends before the body are R7's, R192's and R197's. -/
theorem packetsAreJudgedBeforeTheyRun : Obligations.PacketsAreJudgedBeforeTheyRun := by
  refine ⟨fun c r sel size fields hrow s => ?_, headerError_eq, bodyClear_iff⟩
  obtain ⟨body, hexec⟩ := exec_packetRow hrow
  rw [hexec s]
  refine ⟨fun h => ?empty, fun p rest hfr h => ?held, fun p rest hfr hsel hst ho => ?gone,
    fun p rest st hfr hsel hst ho he => ?wrong⟩
  case empty => rw [runPacket_empty h]; rfl
  case held => rw [runPacket_held hfr h]; rfl
  case gone => rw [runPacket_ownerGone hfr hsel hst ho]; rfl
  case wrong => rw [runPacket_headerError hfr hsel hst ho he]; rfl

end Sys2Proof.Proofs
end

section
/-! Chapter 1: the CAP block (R23). -/

namespace Sys2Proof.Proofs

open Sys2Proof Sys2Proof.Machine Sys2Proof.Safety Sys2Proof.Laws

/-! A requester that names registers by their own offsets -/

section Reaching

variable {s : State} {r : Requester} (h : reaches s r)
include h

/-- No view is shut for it (R66). -/
theorem viewShut_of_reaches : viewShut s r = false := by
  cases r with
  | fn n => simp [viewShut, h.2 n rfl]
  | island | mmp | mirror => rfl

/-- Its offset is the register's own (R59, R89). -/
theorem accessOffset_of_reaches {off : Nat} (hb : off < 0x4000000) : accessOffset s r off = some off := by
  cases r with
  | fn n => simp [accessOffset, viewOffset, h.2 n rfl, hb]
  | island | mmp | mirror => simp [accessOffset, hb]

end Reaching

/-! The block's registers -/

/-- R23: what every definition of the CAP table has in common. -/
theorem regsCap_forms : ∀ d ∈ regsCap, d.count = 1 ∧
    d.readOnly = true ∧ d.dom = .stby ∧ d.width = if d.base = 8 then 64 else 32 := by
  decide

/-- A register that is no array is found at its own base. -/
theorem at?_eq_base {d : RegDef} (hc : d.count = 1) {off lo : Nat} (h : d.at? off = some lo) : lo = d.base := by
  by_cases hb : off < d.base
  · simp [RegDef.at?, hb] at h
  · simp only [RegDef.at?, hb, if_false, hc, Nat.lt_one_iff] at h
    split at h
    case isTrue hk => simpa [hk.1] using h.symm
    case isFalse => cases h

section CapBlock

variable {s : State} {cons : Cons} {r : Requester} {off lo v : Nat} {d : RegDef} (hb : off < 0x100000)
include hb

/-- R23: a register found in the CAP block. -/
theorem findReg_cap (hf : findReg off = some (d, lo)) :
    d.readOnly = true ∧ d.dom = .stby ∧ d.width = if lo = 8 then 64 else 32 := by
  obtain ⟨d', hm, hd⟩ := List.exists_of_findSome?_eq_some hf
  simp only [blockRegs, hb, if_true] at hm
  obtain ⟨lo', hat, he⟩ := Option.map_eq_some_iff.mp hd
  cases he
  obtain ⟨hc, hform⟩ := regsCap_forms d hm
  rwa [at?_eq_base hc hat]

/-- R13: no absent instance lies in the CAP block. -/
theorem absentStride_cap : absentStride off = false := by
  simp only [absentStride, Bool.or_eq_false_iff, Bool.and_eq_false_iff, decide_eq_false_iff_not]
  omega

/-! Writes -/

/-- R23: a word written to the CAP block, listed or not, is ignored. -/
theorem writeWord_cap (used : Nat) : writeWord cons r used off v s = s := by
  unfold writeWord
  cases hf : findReg off with
  | none => simp [hb]
  | some x =>
    have hro : x.1.readOnly = true := (findReg_cap hb hf).1
    simp [hro, commitReg_readOnly hro]

/-- R23: so are 8 bytes. -/
theorem writeReg_cap {n : Nat} (hn : off % n = 0) (hw : n = 4 ∨ n = 8) : writeReg cons r off off n v s = s := by
  rcases hw with rfl | rfl
  · exact writeWord_cap hb off
  · have hb4 : off + 4 < 0x100000 := by omega
    cases hf : findReg off with
    | none => simp [writeReg, hf, writeWord_cap hb, writeWord_cap hb4]
    | some x =>
      have hro : x.1.readOnly = true := (findReg_cap hb hf).1
      simp [writeReg, hf, writeWord_cap hb, writeWord_cap hb4, commitReg_readOnly hro]

/-- R23: a write access to the CAP block leaves the state as it was; its answer is no error, so nothing leaves either. -/
theorem regWrite_cap (h : reaches s r) {n : Nat} (hn : off % n = 0) (hw : n = 4 ∨ n = 8) :
    regWrite cons r off n v s = s := by
  have hok : widthOk off n = true := by rcases hw with rfl | rfl <;> simp [widthOk, hn]
  simp [regWrite, h.1, servedWrite, hok, accessOffset_of_reaches h (by omega : off < 0x4000000), absentStride_cap hb,
    viewShut_of_reaches h, writeReg_cap hb hn hw]

/-! Reads -/

/-- A read in the CAP block has no effect of its own. -/
theorem readEffect_cap : readEffect r off s = s := by
  have h1 : off ≠ 0x2C0010C := by omega
  have h2 : off ≠ 0x2C00BF8 := by omega
  have h3 : off ≠ 0x2900004 := by omega
  simp [readEffect, h1, h2, h3]

/-- R23: the fuses give a CAP register's reset image in every state, but for CAP_SERIAL. -/
theorem regImage_cap (h8 : off ≠ 8) : regImage r s off = resetAt off := by
  simp [regImage, hb, h8]

/-- R23: an offset that is not listed reads 0. -/
theorem regRead_cap_unlisted (h : reaches s r) (ha : off % 4 = 0) (hf : findReg off = none) :
    regRead r off 4 s = emit (.answer r off (.ok 0)) s := by
  simp [regRead, h.1, servedRead, widthOk, ha, viewShut_of_reaches h,
    accessOffset_of_reaches h (by omega : off < 0x4000000), absentStride_cap hb, readReg, readWord, hf]

/-- R23: a listed register 32 bits wide reads its reset image. -/
theorem regRead_cap_listed (h : reaches s r) (ha : off % 4 = 0) (h8 : off ≠ 8)
    (hv : (findReg off).map (fun x => (x.2, x.1.shown x.1.resetVal)) = some (off, v)) :
    regRead r off 4 s = emit (.answer r off (.ok v)) s := by
  obtain ⟨⟨d, lo⟩, hf, he⟩ := Option.map_eq_some_iff.mp hv
  obtain ⟨rfl, rfl⟩ : lo = off ∧ d.shown d.resetVal = v := Prod.mk.inj he
  have hw : d.width = 32 := by simpa [h8] using (findReg_cap hb hf).2.2
  have hread := regRead_whole h.1 (viewShut_of_reaches h) (accessOffset_of_reaches h (by omega)) (absentStride_cap hb)
    hf (.inl ⟨hw, ha⟩)
  have hreset : resetAt lo = d.resetVal := by simp [resetAt, hf]
  rwa [hw, readEffect_cap hb, regImage_cap hb h8, hreset] at hread

end CapBlock

/-- Settles O10: the CAP table's forms, writes that find nothing to store, and reads of the fused reset images. -/
theorem capBlockIsReadOnly : Obligations.CapBlockIsReadOnly := by
  refine ⟨fun off lo d hb hf => findReg_cap hb hf, fun s cons r off v h hb => ⟨fun ha => ?word, fun ha => ?double⟩,
    fun s r off h hb ha hf => ?unlisted, fun s r h p hp => ?listed⟩
  case word => exact congrArg done (regWrite_cap hb h ha (.inl rfl))
  case double => exact congrArg done (regWrite_cap hb h ha (.inr rfl))
  case unlisted => exact congrArg done (regRead_cap_unlisted hb h ha hf)
  case listed =>
    have htable : p.1 < 0x100000 ∧ p.1 % 4 = 0 ∧ p.1 ≠ 8 ∧
        (findReg p.1).map (fun x => (x.2, x.1.shown x.1.resetVal)) = some (p.1, p.2) := by
      revert p
      decide +kernel
    obtain ⟨hb, ha, h8, hv⟩ := htable
    exact congrArg done (regRead_cap_listed hb h ha h8 hv)

end Sys2Proof.Proofs
end

section
/-! Chapter 2: power, clocks and resets (R36–R57, R457, R502, R515). -/

namespace Sys2Proof.Proofs

open Sys2Proof Sys2Proof.Machine Sys2Proof.Safety Sys2Proof.Laws

/-! Command registers of the island (R38, R44, R52, R56) -/

/-- ISL_PWR_CTRL's fields: AUTO_ON, the only one stored, and the command. -/
def pwrCtrl : RegDef := one "ISL_PWR_CTRL" 0x2C00100 32 .stby [rw 2 2, wo 1 0 (.rng 0 2)]

theorem findReg_pwrCtrl : findReg 0x2C00100 = some (pwrCtrl, 0x2C00100) := rfl

/-- The command and AUTO_ON come out of a power command's word as they went in. -/
theorem fld_cmdWord {cmd : Nat} (hc : cmd < 4) (s : State) :
    fld (cmdWord cmd s) 1 0 = cmd ∧ fld (cmdWord cmd s) 2 2 = b2n (regBit s 0x2C00100 2) := by
  have hcases : cmd = 0 ∨ cmd = 1 ∨ cmd = 2 ∨ cmd = 3 := by omega
  unfold cmdWord
  cases regBit s 0x2C00100 2 <;> rcases hcases with rfl | rfl | rfl | rfl <;> decide

/-- A one-bit field is the bit as a number. -/
theorem fld_bit (v i : Nat) : fld v i i = b2n (bitOf v i) := by
  have h : i + 1 - i = 1 := by omega
  rw [fld, h, bitOf, Nat.testBit, Nat.and_comm, Nat.and_one_is_mod]
  rcases Nat.mod_two_eq_zero_or_one (v >>> i) with e | e <;> simp [e, b2n]

/-- R38: a power command is judged and acts; no field of ISL_PWR_CTRL changes. -/
theorem regWrite_powerCmd {s : State} {r : Requester} (h : reaches s r) {cmd : Nat} (hc : cmd = 1 ∨ cmd = 2) :
    regWrite {} r 0x2C00100 4 (cmdWord cmd s) s = powerCmd cmd (kept 0x2C00100 s) := by
  have hlt : cmd < 4 := by omega
  obtain ⟨hcmd, hauto⟩ := fld_cmdWord hlt s
  have hjudged : cmdWord cmd s < 2 ^ 32 ∧ pwrCtrl.reserved (cmdWord cmd s) = false := by
    unfold cmdWord
    cases regBit s 0x2C00100 2 <;> rcases hc with rfl | rfl <;> decide
  rw [regWrite_plain h findReg_pwrCtrl rfl rfl rfl (by decide) hjudged.1 rfl hjudged.2 rfl rfl
    (ringForeign_out r _ s (by decide)) (by decide) (by decide)]
  have hstored : pwrCtrl.flds.foldl (storeFld false (cmdWord cmd s)) (rawAt s 0x2C00100) = rawAt s 0x2C00100 := by
    show setFld (rawAt s 0x2C00100) 2 2 (fld (cmdWord cmd s) 2 2) = _
    rw [hauto, regBit, ← fld_bit, setFld_self]
  rw [hstored]
  show powerCmd (fld (cmdWord cmd s) 1 0) _ = _
  rw [hcmd]
  rfl

/-- A 1 written to a register whose only field to write is the strobe in bit 0 stores nothing and acts. -/
theorem regWrite_strobe {s : State} {r : Requester} (h : reaches s r) {d : RegDef} {lo : Nat}
    (hf : findReg lo = some (d, lo)) (hd : d.width = 32 ∧ d.readOnly = false ∧ d.reserved 1 = false)
    (hstore : ∀ v, d.flds.foldl (storeFld false 1) v = v)
    (hlo : lo = 0x2C00110 ∨ lo = 0x2C00124 ∨ lo = 0x2C00150) :
    regWrite {} r lo 4 1 s = islHook r lo 1 (kept lo s) := by
  obtain ⟨hw, hro, hres⟩ := hd
  have hcross : crossReserved lo (rawAt s lo) 1 s = false := by rcases hlo with rfl | rfl | rfl <;> rfl
  have hlock : lockOn lo s = false := by rcases hlo with rfl | rfl | rfl <;> rfl
  have habsent : absentStride lo = false := by rcases hlo with rfl | rfl | rfl <;> rfl
  rw [regWrite_plain h hf hw (by omega) habsent (by omega) (by decide) hro hres hcross hlock
    (ringForeign_out r _ s (by omega)) (by omega) (by omega), hstore]
  have hhook : ∀ old new t, writeHook {} r lo old new false t = islHook r lo new t := by
    rcases hlo with rfl | rfl | rfl <;> intros <;> rfl
  exact hhook _ _ _

/-- R44: CLEAR of ISL_RAIL_CLEAR. -/
theorem regWrite_railClear {s : State} {r : Requester} (h : reaches s r) :
    regWrite {} r 0x2C00110 4 1 s = railClear r (kept 0x2C00110 s) :=
  regWrite_strobe h (d := one "ISL_RAIL_CLEAR" 0x2C00110 32 .stby [wo 0 0]) rfl (by decide) (fun _ => rfl) (.inl rfl)

/-- R52: CHIP_RESET of ISL_RST_CTRL. -/
theorem regWrite_chipReset {s : State} {r : Requester} (h : reaches s r) :
    regWrite {} r 0x2C00124 4 1 s = applyReset .soft (kept 0x2C00124 s) :=
  regWrite_strobe h (d := one "ISL_RST_CTRL" 0x2C00124 32 .stby [wo 0 0]) rfl (by decide) (fun _ => rfl) (.inr (.inl rfl))

/-- R56: CLEAR of ISL_THERMTRIP. -/
theorem regWrite_tripClear {s : State} {r : Requester} (h : reaches s r) :
    regWrite {} r 0x2C00150 4 1 s = tripClear (kept 0x2C00150 s) :=
  regWrite_strobe h (d := one "ISL_THERMTRIP" 0x2C00150 32 .stby [ro 31 31, ro 23 16, wo 0 0]) rfl (by decide)
    (fun _ => rfl) (.inr (.inr rfl))

/-! Folds over rails -/

/-- A change of each rail of a list. -/
theorem forEach_updRail (f : Nat → Rail → Rail) (l : List Nat) (s : State) : forEach l (fun i => updRail i (f i)) s =
    { s with pwr := { s.pwr with rails := l.foldl (fun t i => Tbl.upd {} t i (f i)) s.pwr.rails } } := by
  induction l generalizing s with
  | nil => rfl
  | cons i l ih => exact ih (updRail i (f i) s)

/-- OPERATION on to every regulator of a list. -/
theorem forEach_operationOn (l : List Nat) (s : State) : forEach l operationOn s =
    { s with
      out := s.out ++ l.flatMap (fun i => (if i = 0 then [Emit.vout 0 750] else []) ++ [.operation i true])
      pwr := { s.pwr with rails := l.foldl (fun t i =>
        Tbl.upd {} t i (fun x => { x with enabled := true, off := false })) s.pwr.rails } } := by
  induction l generalizing s with
  | nil => simp [forEach]
  | cons i l ih =>
    have hstep : forEach (i :: l) operationOn s = forEach l operationOn (operationOn i s) := rfl
    rw [hstep, ih]
    by_cases hi : i = 0 <;> simp [operationOn, hi, updRail, updPwr, emit]

/-! Power-up and power-down commands (R38, R45, R46) -/

/-- R39: what beginning a power-up leaves. -/
theorem beginPowerUp_eq (s : State) : beginPowerUp s = { s with
    out := s.out ++ [.operation 0 false, .operation 1 false, .operation 2 false, .operation 3 false,
      .operation 4 false, .operation 5 false, .operation 6 false]
    pwr := { s.pwr with st := .rampUp, step := 1, rail := 5, phase := .ack, ackWait := [0, 1, 2, 3, 4, 5, 6],
                        heldUp := false, rails := [] } } := by
  simp [beginPowerUp, forEach, mainRails, operationOff, updRail, updPwr, emit]

/-- R38: the conditions of a power-up. -/
theorem mayPowerUp_iff (s : State) : mayPowerUp s = true ↔
    s.pwr.vstby = .qualified ∧ islandRuns s = true ∧ 2 ≤ s.boot.stage ∧ s.pwr.okRef100 = true ∧
      s.pwr.fault.valid = false ∧ s.pwr.tripped = false ∧ s.pwr.straps.test = false ∧ flowOk s = true := by
  have hpath : islandRuns s = true → s.boot.path = 0 := by
    simp [islandRuns]
  simp only [mayPowerUp, Bool.and_eq_true, beq_iff_eq, decide_eq_true_eq, Bool.not_eq_true']
  constructor
  · rintro ⟨⟨⟨⟨⟨⟨⟨⟨hv, hi⟩, -⟩, hb⟩, hc⟩, hf⟩, ht⟩, hx⟩, hw⟩
    exact ⟨hv, hi, hb, hc, hf, ht, hx, hw⟩
  · rintro ⟨hv, hi, hb, hc, hf, ht, hx, hw⟩
    exact ⟨⟨⟨⟨⟨⟨⟨⟨hv, hi⟩, hpath hi⟩, hb⟩, hc⟩, hf⟩, ht⟩, hx⟩, hw⟩

/-- R38: a power-up command in OFF begins the power-up where every condition holds. -/
theorem powerUp_off {s : State} (h : s.pwr.st = .off) :
    powerUp s = if mayPowerUp s then beginPowerUp s else s := by
  simp [powerUp, h]

/-- R45: in power-down the command is held. -/
theorem powerUp_held {s : State} (h : s.pwr.st = .quiesce ∨ s.pwr.st = .rampDown) :
    powerUp s = { s with pwr := { s.pwr with heldUp := true } } := by
  rcases h with h | h <;> simp [powerUp, h, updPwr]

/-- R46: in every other state a power-up command does nothing. -/
theorem powerUp_ignored {s : State} (h : s.pwr.st = .rampUp ∨ s.pwr.st = .on ∨ s.pwr.st = .forcedOff ∨
    s.pwr.st = .lockedOut ∨ s.pwr.st = .tripped) : powerUp s = s := by
  rcases h with h | h | h | h | h <;> simp [powerUp, h]

/-- R45: a power-down command in ON or RAMP_UP begins the power-down. -/
theorem powerDown_begins {s : State} (h : s.pwr.st = .on ∨ s.pwr.st = .rampUp) : powerDown s = beginQuiesce s := by
  rcases h with h | h <;> simp [powerDown, h]

/-- R46: in every other state a power-down command does nothing. -/
theorem powerDown_ignored {s : State} (h1 : s.pwr.st ≠ .on) (h2 : s.pwr.st ≠ .rampUp) : powerDown s = s := by
  unfold powerDown
  split
  · contradiction
  · contradiction
  · rfl

/-- Flow is judged on TFU_FLOW_MIN, so a write that keeps another register's image keeps the judgement. -/
theorem flowOk_kept (lo : Nat) (s : State) : flowOk (kept lo s) = flowOk s := by
  simp only [flowOk, regBit, regFld, rawAt_kept, kept_tfu] <;> rfl

/-- R38 judges the same after ISL_PWR_CTRL has kept its image. -/
theorem mayPowerUp_kept (lo : Nat) (s : State) : mayPowerUp (kept lo s) = mayPowerUp s := by
  rw [mayPowerUp, flowOk_kept]
  rfl

/-- Settles O1: ISL_PWR_CTRL keeps its image, and the command does what the state's row of R46 says. -/
theorem powerCommandsFollowTheTable : Obligations.PowerCommandsFollowTheTable := by
  intro s r h
  have hup : exec (.powerUp r) s = .next (settle (powerUp (kept 0x2C00100 s))) :=
    congrArg done (regWrite_powerCmd h (.inl rfl))
  have hdown : exec (.powerDown r) s = .next (settle (powerDown (kept 0x2C00100 s))) :=
    congrArg done (regWrite_powerCmd h (.inr rfl))
  rw [hup, hdown]
  refine ⟨fun hst h1 h2 h3 h4 h5 h6 h7 h8 => ?starts, fun hst hno => ?refused, fun hst => ?held, fun hst => ?ignored,
    fun hst => ?begins, fun h1 h2 => ?nothing⟩
  case starts =>
    have hmay : mayPowerUp s = true := (mayPowerUp_iff s).2 ⟨h1, h2, h3, h4, h5, h6, h7, h8⟩
    rw [powerUp_off (s := kept 0x2C00100 s) hst, mayPowerUp_kept, if_pos hmay, beginPowerUp_eq]
    rfl
  case refused =>
    have hmay : ¬ mayPowerUp s = true := by
      rw [mayPowerUp_iff]
      rintro ⟨h1, h2, h3, h4, h5, h6, h7, h8⟩
      simp [h1, h2, h4, h5, h6, h7, h8, Nat.not_lt.2 h3] at hno
    rw [powerUp_off (s := kept 0x2C00100 s) hst, mayPowerUp_kept, if_neg hmay]
  case held => rw [powerUp_held (s := kept 0x2C00100 s) hst]; rfl
  case ignored => rw [powerUp_ignored (s := kept 0x2C00100 s) hst]
  case begins => rw [powerDown_begins (s := kept 0x2C00100 s) hst]
  case nothing => rw [powerDown_ignored (s := kept 0x2C00100 s) h1 h2]

end Sys2Proof.Proofs
end

section
/-! Chapter 2: the power sequences step by step (R39–R46, R515, R517). -/

namespace Sys2Proof.Proofs

open Sys2Proof Sys2Proof.Machine Sys2Proof.Safety Sys2Proof.Laws

/-! Rows of the standby domain and the island -/

/-- An event of the standby domain acts while VSTBY holds. -/
theorem whenStandby_pos {f : State → State} {s : State} (h : standby s = true) : whenStandby f s = f s := if_pos h

/-- An action of the firmware acts while the island runs it. -/
theorem whenIsland_pos {f : State → State} {s : State} (h : islandRuns s = true) : whenIsland f s = f s := if_pos h

/-! Ports that start with the chip (R516, R517) -/

/-- Nothing but the link unit differs. -/
def OnlyLink (s t : State) : Prop := t = { s with elk := t.elk }

theorem OnlyLink.trans {s t u : State} (h : OnlyLink s t) (k : OnlyLink t u) : OnlyLink s u := by
  rw [OnlyLink] at *
  rw [k, h]

/-- EN stands in ELK_PORT_CTRL and the port's reference is qualified (R49, R227). -/
def portMayStart (s : State) (p : Nat) : Prop :=
  regBit s (0x2000000 + p * 0x100) 31 = true ∧ (if p < 2 then s.pwr.okElk0 else s.pwr.okElk1) = true

theorem portStart_pos {s : State} {p : Nat} (h : portMayStart s p) :
    portStart p s = updPort p (fun x => x.idle .phy x.cause) s := by
  obtain ⟨hen, hclk⟩ := h
  unfold portStart
  exact if_pos (by rw [hen, hclk]; rfl)

theorem portStart_neg {s : State} {p : Nat} (h : ¬ portMayStart s p) : portStart p s = s := by
  unfold portStart
  exact if_neg (fun e => h (by simpa [portMayStart, Bool.and_eq_true] using e))

theorem portStart_onlyLink (p : Nat) (s : State) : OnlyLink s (portStart p s) := by
  by_cases h : portMayStart s p
  · rw [portStart_pos h]; rfl
  · rw [portStart_neg h]; rfl

theorem foldl_portStart_onlyLink (l : List Nat) (s : State) : OnlyLink s (l.foldl (fun t p => portStart p t) s) := by
  induction l generalizing s with
  | nil => rfl
  | cons p l ih => exact (portStart_onlyLink p s).trans (ih _)

/-- R517: the clocks of an initialization that starts, its ports apart. -/
def initClocked (s : State) : State :=
  updPwr (fun p => { p with init := .started, fclkStopped := !p.okRef100 }) (fclkRestart s)

/-- R517: beside them the start of initialization reaches the link alone. -/
theorem startInit_onlyLink (s : State) : OnlyLink (initClocked s) (startInit s) := foldl_portStart_onlyLink _ _

/-! The steps of power-up (R39) -/

/-- The rails of a power-up step are up. -/
def railsUp (s : State) : Tbl Rail := (upRails s.pwr.step).foldl (fun t i =>
  Tbl.upd {} t i (fun x => { x with up := true, inWindow := true, off := false })) s.pwr.rails

/-- R39: every rail of a step that is rising is up. -/
theorem stepUp_rising {s : State} (hst : s.pwr.st = .rampUp) (hph : s.pwr.phase = .rising) : stepUp s =
    if s.pwr.step = 6 then enterOn { s with pwr := { s.pwr with rails := railsUp s } }
    else { s with pwr := { s.pwr with phase := .delay, rails := railsUp s } } := by
  have h1 : (s.pwr.st != .rampUp || s.pwr.phase == .delay) = false := by simp [hst, hph]
  have h2 : (s.pwr.phase == .ack) = false := by simp [hph]
  simp only [stepUp, h1, h2, Bool.false_eq_true, if_false, forEach_updRail]
  rfl

/-- The last rail of power-up is VCORE. -/
theorem railAt_railsUp_last {s t : State} (hstep : s.pwr.step = 6) (ht : t.pwr.rails = railsUp s) :
    railAt t 0 = { railAt s 0 with up := true, inWindow := true, off := false } := by
  rw [railAt, ht, railsUp, hstep]
  exact get_set_same _ _ _ _

/-- Entering ON inside a chip reset does not start initialization (R54). -/
theorem enterOn_inReset {s : State} (h : inChipReset s = true) : enterOn s =
    { s with pwr := { s.pwr with st := .on, step := 0, rail := 0 }
             pgv := { s.pgv with energyUj := 0, vcoreSet := 750, vcoreMv := 750 } } := by
  unfold enterOn
  exact if_pos h

/-- Entering ON outside a chip reset starts initialization (R39, R517). -/
theorem enterOn_starts {s : State} (h : inChipReset s = false) : enterOn s =
    startInit { s with pwr := { s.pwr with st := .on, step := 0, rail := 0 }
                       pgv := { s.pgv with energyUj := 0, vcoreSet := 750, vcoreMv := 750 } } := by
  unfold enterOn
  exact if_neg (by simpa [inChipReset] using h)

/-- R39: the next step enables its rails after the gap. -/
theorem stepDelay_delay {s : State} (hst : s.pwr.st = .rampUp) (hph : s.pwr.phase = .delay) :
    stepDelay s = { s with
      out := s.out ++ (upRails (s.pwr.step + 1)).flatMap (fun i =>
        (if i = 0 then [Emit.vout 0 750] else []) ++ [.operation i true])
      pwr := { s.pwr with
        step := s.pwr.step + 1, rail := (upRails (s.pwr.step + 1)).getLastD 0, phase := .rising
        rails := (upRails (s.pwr.step + 1)).foldl (fun t i =>
          Tbl.upd {} t i (fun x => { x with enabled := true, off := false })) s.pwr.rails } } := by
  have h : (s.pwr.st == .rampUp && s.pwr.phase == .delay) = true := by simp [hst, hph]
  rw [stepDelay, if_pos h, enableStep]
  simp only [forEach_operationOn, setPower, updPwr, hst]

/-- R39: a regulator that does not acknowledge fails the power-up. -/
theorem ackTimeoutRail_waits {s : State} {rail : Nat} (hst : s.pwr.st = .rampUp) (hph : s.pwr.phase = .ack)
    (hw : s.pwr.ackWait.contains rail = true) : ackTimeoutRail rail s = railFault 2 3 rail 1 s :=
  if_pos (by rw [hst, hph, hw]; rfl)

/-- R42: a rail of the step that is not up fails it. -/
theorem railNoRise_down {s : State} {rail : Nat} (hst : s.pwr.st = .rampUp) (hph : s.pwr.phase = .rising)
    (hr : (upRails s.pwr.step).contains rail = true) (hup : (railAt s rail).up = false) :
    railNoRise rail s = railFault 2 3 rail s.pwr.step s :=
  if_pos (by rw [hst, hph, hr, hup]; rfl)

/-- R515: AUTO_ON's power-up where flow is seen or not asked for. -/
theorem autoOn_flow {s : State} (hi : islandRuns s = true) (hb : regBit s 0x2C00100 2 = true) (hg : 5 ≤ s.boot.stage)
    (hd : s.pwr.autoOnDone = false) (hf : flowOk s = true) :
    autoOn s = powerUp { s with pwr := { s.pwr with autoOnDone := true } } := by
  have hpath : s.boot.path = 0 := by
    simp only [islandRuns, Bool.and_eq_true, beq_iff_eq] at hi
    exact hi.2
  have h : (!(islandRuns s) || !(regBit s 0x2C00100 2) || decide (s.boot.stage < 5) || s.pwr.autoOnDone ||
      s.boot.path != 0) = false := by
    simp [hi, hb, hd, hpath, hg]
  simp only [autoOn, h, hf, Bool.false_eq_true, if_false, if_true]
  rfl

/-- Settles O2: the row of each step, with the standing of R39's table that it needs. -/
theorem powerUpRunsStepByStep : Obligations.PowerUpRunsStepByStep := by
  intro s hs
  refine ⟨fun n hst hph hn hlt => ?step, fun hst hph h6 hr => ?heldInReset, fun hst hph h6 hr => ?starts,
    fun hst hph => ?gap, fun rail hst hph hw => ?noAck, fun rail hst hph hr hup => ?noRise,
    fun hi hb hg hd hf hst hv hc hft ht hx => ?auto⟩
  case step =>
    refine congrArg done ((whenStandby_pos hs).trans ?_)
    rw [stepUp_rising hst hph, if_neg (by omega), railsUp, hn]
  case heldInReset =>
    have hexec : stepUp s = _ := (stepUp_rising hst hph).trans ((if_pos h6).trans (enterOn_inReset hr))
    refine ⟨_, congrArg done ((whenStandby_pos hs).trans hexec), rfl, rfl, rfl, rfl, rfl, rfl, rfl, rfl, rfl, rfl, ?_⟩
    exact railAt_railsUp_last h6 rfl
  case starts =>
    have hexec : stepUp s = _ := (stepUp_rising hst hph).trans ((if_pos h6).trans (enterOn_starts hr))
    have hlink := startInit_onlyLink
      { s with pwr := { s.pwr with st := .on, step := 0, rail := 0, rails := railsUp s }
               pgv := { s.pgv with energyUj := 0, vcoreSet := 750, vcoreMv := 750 } }
    refine ⟨_, congrArg done ((whenStandby_pos hs).trans (hexec.trans hlink)), rfl, rfl, rfl, rfl, rfl, rfl, rfl, rfl, rfl, ?_⟩
    exact railAt_railsUp_last h6 rfl
  case gap => exact congrArg done ((whenStandby_pos hs).trans (stepDelay_delay hst hph))
  case noAck => exact congrArg done ((whenStandby_pos hs).trans (ackTimeoutRail_waits hst hph hw))
  case noRise => exact congrArg done ((whenStandby_pos hs).trans (railNoRise_down hst hph hr hup))
  case auto =>
    refine congrArg done ((whenIsland_pos hi).trans ?_)
    have hmay : mayPowerUp { s with pwr := { s.pwr with autoOnDone := true } } = true :=
      (mayPowerUp_iff _).2 ⟨hv, hi, Nat.le_trans (by decide) hg, hc, hft, ht, hx, hf⟩
    rw [autoOn_flow hi hb hg hd hf, powerUp_off (s := { s with pwr := { s.pwr with autoOnDone := true } }) hst,
      if_pos hmay, beginPowerUp_eq]

end Sys2Proof.Proofs
end

section
/-! Chapter 2: power-down, rail faults and the end of a lock-out (R41–R44). -/

namespace Sys2Proof.Proofs

open Sys2Proof Sys2Proof.Machine Sys2Proof.Safety Sys2Proof.Laws

/-! Power-down (R41) -/

/-- R41: with nothing in flight and no self-fence under way the rings are quiesced. -/
theorem quiesceDone_idle {s : State} (hst : s.pwr.st = .quiesce) (hp : s.hif.started = []) (hf : s.elk.selfFence = false) :
    quiesceDone s = downSteps [2, 3, 4, 5, 6] (mainLost s) :=
  if_pos (by rw [hst, hp, hf]; rfl)

/-- R41: after 100 ms packets in flight are cancelled. -/
theorem quiesceTimeout_quiesce {s : State} (hst : s.pwr.st = .quiesce) :
    quiesceTimeout s = downSteps [2, 3, 4, 5, 6]
      (mainLost (s.hif.started.foldl (fun t p => finishPkt p.id 0x0501 0 0 t) s)) :=
  if_pos (by rw [hst]; rfl)

/-- R41: every rail of a power-down step is off, and the next step with an enabled rail follows. -/
theorem stepOff_rampDown {s : State} (hst : s.pwr.st = .rampDown) :
    stepOff s = downSteps ((run 2 5).filter (fun k => decide (s.pwr.step < k)))
      { s with pwr := { s.pwr with rails := (downRails s.pwr.step).foldl (fun t i =>
          Tbl.upd {} t i (fun x => { x with off := true })) s.pwr.rails } } := by
  rw [← forEach_updRail]
  exact if_pos (by rw [hst]; rfl)

/-- R41: after the last step the block is OFF. -/
theorem reachOff_unheld {s : State} (h : s.pwr.heldUp = false) : reachOff s =
    { s with pwr := { s.pwr with st := .off, step := 0, rail := 0, mainPwrEn := false, rails := [] } } := by
  unfold reachOff
  simp only [h, Bool.false_eq_true, if_false, setPower, updPwr]

/-! Rail faults (R42) -/

/-- R42: a rail of the power-down step that is not off is a fault. -/
theorem railStaysOn_on {s : State} {rail : Nat} (hst : s.pwr.st = .rampDown)
    (hr : (downRails s.pwr.step).contains rail = true) (hoff : (railAt s rail).off = false) :
    railStaysOn rail s = railFault 1 1 rail s.pwr.step s :=
  if_pos (by rw [hst, hr, hoff]; rfl)

/-- The rails are numbered 0 to 6. -/
theorem mem_mainRails {rail : Nat} (h : rail < 7) : rail ∈ mainRails := by
  have hall : ∀ i < 7, i ∈ mainRails := by decide
  exact hall rail h

theorem mainRails_contains {rail : Nat} (h : rail < 7) : mainRails.contains rail = true :=
  List.contains_iff_mem.2 (mem_mainRails h)

/-- R42: in ON a rail that leaves its window is a fault. -/
theorem railLeaves_on {s : State} {rail : Nat} (hr : rail < 7) (hst : s.pwr.st = .on) :
    railLeaves rail s = railFault 3 4 rail 0 s := by
  simp [railLeaves, hst, mainRails_contains hr, -List.contains_eq_mem]

/-- R42: in power-up, one that has come up. -/
theorem railLeaves_rampUp {s : State} {rail : Nat} (hr : rail < 7) (hst : s.pwr.st = .rampUp)
    (hup : (railAt s rail).up = true) : railLeaves rail s = railFault 2 4 rail s.pwr.step s := by
  simp [railLeaves, hst, hup, mainRails_contains hr, -List.contains_eq_mem]

/-- R42: in power-down, one that is still enabled. -/
theorem railLeaves_down {s : State} {rail : Nat} (hr : rail < 7) (hst : s.pwr.st = .quiesce ∨ s.pwr.st = .rampDown)
    (hen : (railAt s rail).enabled = true) : railLeaves rail s = railFault 1 2 rail s.pwr.step s := by
  rcases hst with hst | hst <;> simp [railLeaves, hst, hen, mainRails_contains hr, -List.contains_eq_mem]

/-! The record in flash and the clear (R43, R44, R498) -/

/-- R43, R498: the first record due is in flash, and a forced shutdown's ends in LOCKED_OUT. -/
theorem gaspWritten_eq {s : State} {g : GaspWork} {rest : List GaspWork} (hg : s.err.gasp = g :: rest)
    (hi : islandRuns s = true) : gaspWritten s = { s with
      err := { s.err with
        gasp := rest, nextRecord := s.err.nextRecord + 1
        records := s.err.records ++
          [{ number := s.err.nextRecord, kind := g.kind, body := gaspBytes s g s.err.nextRecord, acked := false }]
        crcReadBy := if (shownGasp s).isSome then s.err.crcReadBy else [] }
      pwr := { s.pwr with st := if g.kind = 2 ∧ s.pwr.st = .forcedOff then .lockedOut else s.pwr.st } } := by
  unfold gaspWritten
  rw [hg]
  by_cases h : g.kind = 2 ∧ s.pwr.st = .forcedOff
  · simp [hi, h, updErr, updPwr]
  · simp [hi, h, updErr]

/-- R44: CLEAR by a requester that has read the fault. -/
theorem railClear_read {s : State} {r : Requester} (hst : s.pwr.st = .lockedOut) (hv : s.pwr.fault.valid = true)
    (hr : s.pwr.faultReadBy.contains r = true) : railClear r s = ackRail { s with
      pwr := { s.pwr with st := .off, step := 0, rail := 0, fault := {}, faultReadBy := [] } } :=
  if_pos (by rw [hst, hv, hr]; rfl)

/-- R44: any other CLEAR does nothing. -/
theorem railClear_ignored {s : State} {r : Requester}
    (h : s.pwr.st ≠ .lockedOut ∨ s.pwr.fault.valid = false ∨ s.pwr.faultReadBy.contains r = false) :
    railClear r s = s := by
  refine if_neg (fun e => ?_)
  simp only [Bool.and_eq_true, beq_iff_eq] at e
  obtain ⟨⟨hst, hv⟩, hr⟩ := e
  rcases h with h | h | h
  · exact h hst
  · exact Bool.false_ne_true (h.symm.trans hv)
  · exact Bool.false_ne_true (h.symm.trans hr)

/-- R44: the RAIL_FAULT records are acknowledged. -/
theorem ackRail_acked (s : State) : ∀ x ∈ (ackRail s).err.records, x.kind = 2 → x.acked = true := by
  intro x hx hk
  obtain ⟨y, -, rfl⟩ := List.mem_map.1 hx
  by_cases hdue : (y.kind == 2 && !y.acked) = true
  · rw [if_pos hdue]
  · rw [if_neg hdue] at hk ⊢
    simpa [hk] using hdue

/-- Settles O3: each row of R41–R44 in the states where it acts. -/
theorem powerDownAndRailFaults : Obligations.PowerDownAndRailFaults := by
  intro s hs
  have hrow : ∀ f : State → State, done (whenStandby f s) = .next (settle (f s)) :=
    fun f => congrArg done (whenStandby_pos hs)
  refine ⟨fun hst hp hf => ?quiesced, fun hst => ?timeout, fun n hst hn h2 h5 => ?step, fun hst h6 hh => ?last,
    fun rail hst hr hoff => ?stays, fun rail hr hst => ?leavesOn, fun rail hr hst hup => ?leavesUp,
    fun rail hr hst hen => ?leavesDown, fun g rest hg hi => ?written, fun r hr hst hv hread => ?clear,
    fun r hr hno => ?ignored⟩
  case quiesced => rw [← quiesceDone_idle hst hp hf]; exact hrow quiesceDone
  case timeout => rw [← quiesceTimeout_quiesce hst]; exact hrow quiesceTimeout
  case step => subst hn; rw [← stepOff_rampDown hst]; exact hrow stepOff
  case last =>
    have hsteps : stepOff s = reachOff s := by
      rw [stepOff_rampDown hst, h6]; rfl
    rw [← reachOff_unheld hh, ← hsteps]
    exact hrow stepOff
  case stays => rw [← railStaysOn_on hst hr hoff]; exact hrow (railStaysOn rail)
  case leavesOn => rw [← railLeaves_on hr hst]; exact hrow (railLeaves rail)
  case leavesUp => rw [← railLeaves_rampUp hr hst hup]; exact hrow (railLeaves rail)
  case leavesDown => rw [← railLeaves_down hr hst hen]; exact hrow (railLeaves rail)
  case written =>
    refine ⟨gaspWritten s, hrow gaspWritten, ?_⟩
    rw [gaspWritten_eq hg hi]
    exact ⟨rfl, rfl, rfl, rfl, rfl, rfl, rfl⟩
  case clear =>
    have hexec : exec (.railClear r) s = .next (settle (railClear r (kept 0x2C00110 s))) :=
      congrArg done (regWrite_railClear hr)
    refine ⟨_, hexec.trans (congrArg done (railClear_read (s := kept 0x2C00110 s) hst hv hread)), rfl,
      ackRail_acked _, rfl, rfl, rfl⟩
  case ignored =>
    have hexec : exec (.railClear r) s = .next (settle (railClear r (kept 0x2C00110 s))) :=
      congrArg done (regWrite_railClear hr)
    rw [hexec, railClear_ignored (s := kept 0x2C00110 s) hno]

end Sys2Proof.Proofs
end

section
/-! Chapter 2: the standby rail and the reference clocks (R36, R37, R49, R50, R379). -/

namespace Sys2Proof.Proofs

open Sys2Proof Sys2Proof.Machine Sys2Proof.Safety Sys2Proof.Laws

/-! The standby rail (R36) -/

/-- R36, R37, R50: the block before its outputs start, VSTBY just qualified: what lasts, and the straps. -/
def justQualified (p : Straps) (s : State) : State :=
  updPwr (fun q => { q with vstby := .qualified, straps := { p with pos := p.pos % 4 } }) (coldReset s)

theorem vstbyQualified_rises {s : State} (h : s.pwr.vstby ≠ .qualified) (p : Straps) :
    vstbyQualified p s = ptuStart (tfuReset (justQualified p s)) := if_neg (by simpa using h)

theorem vstbyQualified_again {s : State} (h : s.pwr.vstby = .qualified) (p : Straps) : vstbyQualified p s = s :=
  if_pos (by simpa using h)

/-- R36, R498: VSTBY falling is recorded where the island still runs. -/
theorem vstbyFall_qualified {s : State} (h : s.pwr.vstby = .qualified) : vstbyFall s =
    if islandRuns s then queueGasp 1 none { s with pwr := { s.pwr with vstby := .falling } }
    else { s with pwr := { s.pwr with vstby := .falling } } := by
  have hruns : islandRuns (updPwr (fun p => { p with vstby := .falling }) s) = islandRuns s := by
    simp only [islandRuns, romRuns, standby, h]
    rfl
  unfold vstbyFall
  rw [if_neg (by simp [h])]
  dsimp only
  rw [hruns]
  rfl

theorem vstbyBrownOut_standby {s : State} (h : standby s = true) : vstbyBrownOut s = coldReset s := if_pos h

/-! Reference clocks (R49, R379) -/

/-- R49: REFCLK100 comes back. -/
theorem clockQualified_refclk100 {s : State} (hs : standby s = true) (h25 : s.pwr.okClk25 = true)
    (h : s.pwr.okRef100 = false) : clockQualified .refclk100 s = { s with pwr := { s.pwr with
      okRef100 := true, dtsOnIclk := false
      fclkStopped := if s.pwr.init = .started then false else s.pwr.fclkStopped } } := by
  have hacts : (!(standby s) || clkOk s .refclk100 || (Clk.refclk100 != .islClk25 && !s.pwr.okClk25)) = false := by
    rw [hs, h25, clkOk, h]; rfl
  unfold clockQualified
  rw [hacts]
  by_cases hinit : s.pwr.init = .started
  · simp [hinit, updPwr, setClk]
  · simp [hinit, updPwr, setClk]

/-- R379: ISL_CLK25 comes back in clock hold, which ends 1 ms later. -/
theorem clockQualified_islClk25 {s : State} (hs : standby s = true) (h : s.pwr.okClk25 = false)
    (hh : s.fbc.clkHold = true) : clockQualified .islClk25 s = { s with
      pwr := { s.pwr with okClk25 := true }
      fbc := { s.fbc with clkHoldEnd := some (s.dts + 1000000) }
      mgp := { s.mgp with phyReleased := s.mgp.phyReleased || decide (6 ≤ s.boot.stage) || s.boot.path != 0 } } := by
  have hacts : (!(standby s) || clkOk s .islClk25 || (Clk.islClk25 != .islClk25 && !s.pwr.okClk25)) = false := by
    rw [hs, clkOk, h]; rfl
  unfold clockQualified
  rw [hacts]
  simp [clk25Back, updPwr, setClk, hh, updFbc, updMgp]

/-- R49: REFCLK100 is lost; FCLK stops in ON. -/
theorem clockLost_refclk100 {s : State} (hs : standby s = true) (h : s.pwr.okRef100 = true) :
    clockLost {} .refclk100 s = logErr
      { cls := 14, cause := 1, sev := if isOn s then sevFatal else sevNotice, source := 0x2C }
      { orReg 0x2C00140 0x100 s with pwr := { s.pwr with
          okRef100 := false, dtsOnIclk := true
          fclkStopped := if isOn s then true else s.pwr.fclkStopped } } := by
  have hacts : (!(standby s) || !(clkOk s .refclk100)) = false := by rw [hs, clkOk, h]; rfl
  unfold clockLost
  rw [hacts]
  cases isOn s <;> rfl

/-- Settles O4: each edge of VSTBY and of a reference clock. -/
theorem standbyRailAndReferences : Obligations.StandbyRailAndReferences := by
  intro s
  refine ⟨fun p h => ?rises, fun p h => ?again, fun h hi => ?recorded, fun h hi => ?unrecorded, fun h => ?brownOut,
    fun hs h25 h => ?ref, fun hs h hh => ?clk25, fun hs h => ?lost, fun t hs h => ?holdExit⟩
  case rises =>
    exact ⟨justQualified p s, congrArg done (vstbyQualified_rises h p), rfl, rfl, rfl, rfl, rfl, rfl, rfl, rfl, rfl, rfl,
      rfl, rfl, rfl, rfl⟩
  case again => exact congrArg done (vstbyQualified_again h p)
  case recorded => exact congrArg done ((vstbyFall_qualified h).trans (if_pos hi))
  case unrecorded => exact congrArg done ((vstbyFall_qualified h).trans (if_neg (by rw [hi]; decide)))
  case brownOut =>
    exact ⟨coldReset s, congrArg done (vstbyBrownOut_standby h), rfl, rfl, rfl, rfl, rfl, rfl, rfl, rfl, rfl, rfl, rfl⟩
  case ref => exact congrArg done (clockQualified_refclk100 hs h25 h)
  case clk25 => exact congrArg done (clockQualified_islClk25 hs h hh)
  case lost => exact congrArg done (clockLost_refclk100 hs h)
  case holdExit =>
    refine congrArg done ((whenStandby_pos hs).trans ?_)
    simp only [h, Option.getD_some]

end Sys2Proof.Proofs
end

section
/-! Chapter 2: the chip reset (R52–R54). -/

namespace Sys2Proof.Proofs

open Sys2Proof Sys2Proof.Machine Sys2Proof.Safety Sys2Proof.Laws

/-! What a chip reset leaves of the registers (R54) -/

/-- ISL_RST_CAUSE. -/
def rstCause : RegDef := one "ISL_RST_CAUSE" 0x2C00120 32 .stby [w1c 8 0 1]

theorem findReg_rstCause : findReg 0x2C00120 = some (rstCause, 0x2C00120) := rfl

/-- R54: a chip reset returns every register of the CHIP and OWNER domains to its reset value. -/
theorem rawAt_chipReset_reached {s : State} {lo : Nat} {d : RegDef} (hf : findReg lo = some (d, lo)) (hd : d.dom ≠ .stby) :
    rawAt (chipReset s) lo = resetAt lo % 2 ^ 64 := by
  refine (rawAt_regs (s := resetRegs (fun d _ => d.dom == .chip || d.dom == .owner) s) rfl lo).trans ?_
  rw [rawAt_resetRegs, if_pos]
  have hpick : (d.dom == .chip || d.dom == .owner) = true := by
    cases hdom : d.dom with
    | stby => exact absurd hdom hd
    | chip | owner => rfl
  rw [picks, hf]
  exact hpick

/-- A register that a predicate does not pick keeps its image. -/
theorem rawAt_resetRegs_unpicked {q : RegDef → Nat → Bool} {s : State} {lo : Nat} {d : RegDef}
    (hf : findReg lo = some (d, lo)) (hq : q d lo = false) : rawAt (resetRegs q s) lo = rawAt s lo := by
  rw [rawAt_resetRegs, if_neg]
  simp [picks, hf, hq]

/-- R54: it leaves those of the standby domain. -/
theorem rawAt_chipReset_standby {s : State} {lo : Nat} {d : RegDef} (hf : findReg lo = some (d, lo)) (hd : d.dom = .stby) :
    rawAt (chipReset s) lo = rawAt s lo :=
  (rawAt_regs (s := resetRegs (fun d _ => d.dom == .chip || d.dom == .owner) s) rfl lo).trans
    (rawAt_resetRegs_unpicked hf (by rw [hd]; rfl))

/-- R52: the block after a source has applied a chip reset. -/
def resetBy (src : ResetSrc) (s : State) : State :=
  orReg 0x2C00120 src.bit (chipReset (updPwr (setReset src true) s))

theorem applyReset_standby {s : State} (h : standby s = true) (src : ResetSrc) : applyReset src s = resetBy src s :=
  if_pos h

/-- R52: the source's cause is set. -/
theorem rawAt_resetBy_cause (src : ResetSrc) (s : State) :
    rawAt (resetBy src s) 0x2C00120 = rawAt s 0x2C00120 ||| src.bit := by
  rw [resetBy, rawAt_orReg _ _ _ (by cases src <;> decide), rawAt_chipReset_standby findReg_rstCause rfl]
  rfl

theorem rawAt_resetBy_reached {s : State} {lo : Nat} {d : RegDef} (src : ResetSrc) (hf : findReg lo = some (d, lo))
    (hd : d.dom ≠ .stby) : rawAt (resetBy src s) lo = resetAt lo % 2 ^ 64 := by
  have hlo : lo ≠ 0x2C00120 := by
    rintro rfl
    rw [findReg_rstCause] at hf
    cases hf
    exact hd rfl
  rw [resetBy, orReg, rawAt_setRaw_other _ _ _ _ hlo, rawAt_chipReset_reached hf hd]

theorem rawAt_resetBy_standby {s : State} {lo : Nat} {d : RegDef} (src : ResetSrc) (hf : findReg lo = some (d, lo))
    (hd : d.dom = .stby) (hlo : lo ≠ 0x2C00120) : rawAt (resetBy src s) lo = rawAt s lo := by
  rw [resetBy, orReg, rawAt_setRaw_other _ _ _ _ hlo, rawAt_chipReset_standby hf hd]
  rfl

/-- R54: no owner stands after it. -/
theorem ownerAt_resetBy (src : ResetSrc) (s : State) (o : Nat) : (ownerAt (resetBy src s) o).st = .free ∧
    (ownerAt (resetBy src s) o).key = none ∧ (ownerAt (resetBy src s) o).parks = [] :=
  clearChip_owner (resetRegs (fun d _ => d.dom == .chip || d.dom == .owner) (updPwr (setReset src true) s)) o

/-- Each source's row applies the reset to the block, its registers read as they were. -/
theorem exec_resetSource {s : State} (hs : standby s = true) {c : Instr} {bit : Nat} {p : Power}
    (h : (c = .chipRstN ∧ bit = 2 ∧ p = { s.pwr with rstPin := true }) ∨
      (c = .pciePerstN ∧ bit = 4 ∧ p = { s.pwr with perstPin := true }) ∨
      (∃ r, reaches s r ∧ c = .chipReset r ∧ bit = 8 ∧ p = { s.pwr with rstSoft := true })) :
    ∃ (src : ResetSrc) (regs : Tbl Word), bit = src.bit ∧ p = setReset src true s.pwr ∧
      (∀ lo, rawAt { s with regs := regs } lo = rawAt s lo) ∧
      exec c s = .next (settle (resetBy src { s with regs := regs })) := by
  rcases h with ⟨rfl, rfl, rfl⟩ | ⟨rfl, rfl, rfl⟩ | ⟨r, hr, rfl, rfl, rfl⟩
  · exact ⟨.pin, s.regs, rfl, rfl, fun _ => rfl, congrArg done (applyReset_standby hs .pin)⟩
  · exact ⟨.perst, s.regs, rfl, rfl, fun _ => rfl, congrArg done (applyReset_standby hs .perst)⟩
  · refine ⟨.soft, (kept 0x2C00124 s).regs, rfl, rfl, rawAt_kept s 0x2C00124, congrArg done ?_⟩
    rw [regWrite_chipReset hr]
    exact applyReset_standby (s := kept 0x2C00124 s) hs .soft

/-- Settles O5: every source comes to `resetBy`, whose registers and units are as R54 says. -/
theorem chipResetReachesTheChipDomain : Obligations.ChipResetReachesTheChipDomain := by
  intro s hs c bit p h
  obtain ⟨src, regs, rfl, rfl, hraw, hexec⟩ := exec_resetSource hs h
  have hpwr : (resetBy src { s with regs := regs }).pwr =
      { setReset src true s.pwr with init := .idle, fclkStopped := !s.pwr.okRef100 } := by cases src <;> rfl
  refine ⟨resetBy src { s with regs := regs }, hexec, hpwr, ?cause, fun lo d hf hd => rawAt_resetBy_reached src hf hd,
    fun lo d hf hd hlo => (rawAt_resetBy_standby src hf hd hlo).trans (hraw lo), ownerAt_resetBy src _, ?units⟩
  case cause => rw [rawAt_resetBy_cause, hraw]
  case units => simp [resetBy, clearHandling]

end Sys2Proof.Proofs
end

section
/-! Chapter 2: reset release, forced shutdown, thermal trip, the island's restart and the tray lead role
(R43, R54–R56, R457, R502). -/

namespace Sys2Proof.Proofs

open Sys2Proof Sys2Proof.Machine Sys2Proof.Safety Sys2Proof.Laws

/-! Release of a chip reset (R54) -/

@[simp] theorem setReset_st (src : ResetSrc) (b : Bool) (p : Power) : (setReset src b p).st = p.st := by cases src <;> rfl
@[simp] theorem setReset_okRef100 (src : ResetSrc) (b : Bool) (p : Power) :
    (setReset src b p).okRef100 = p.okRef100 := by cases src <;> rfl
@[simp] theorem setReset_okElk0 (src : ResetSrc) (b : Bool) (p : Power) :
    (setReset src b p).okElk0 = p.okElk0 := by cases src <;> rfl
@[simp] theorem setReset_okElk1 (src : ResetSrc) (b : Bool) (p : Power) :
    (setReset src b p).okElk1 = p.okElk1 := by cases src <;> rfl

/-- R54: with another source applied, or outside ON, the source lets go and nothing starts. -/
theorem releaseReset_stays {s : State} {src : ResetSrc} (h : inChipReset s = true)
    (hno : inChipReset { s with pwr := setReset src false s.pwr } = true ∨ s.pwr.st ≠ .on) :
    releaseReset src s = { s with pwr := setReset src false s.pwr } := by
  have hwait : (inChipReset (updPwr (setReset src false) s) || (updPwr (setReset src false) s).pwr.st != .on) = true := by
    rw [Bool.or_eq_true]
    exact hno.imp id (fun e => by simpa using e)
  unfold releaseReset
  rw [h]
  exact if_pos hwait

/-- R54: the last source's release in ON starts initialization. -/
theorem releaseReset_starts {s : State} {src : ResetSrc} (h : inChipReset s = true)
    (hlast : inChipReset { s with pwr := setReset src false s.pwr } = false) (hon : s.pwr.st = .on) :
    releaseReset src s = startInit { s with pwr := setReset src false s.pwr } := by
  have hgo : (inChipReset (updPwr (setReset src false) s) || (updPwr (setReset src false) s).pwr.st != .on) = false :=
    (Bool.or_eq_false_iff).2 ⟨hlast, by simp [hon]⟩
  unfold releaseReset
  rw [h]
  exact if_neg (Bool.eq_false_iff.1 hgo)

/-! Ports that have started -/

/-- A changed entry reads as the change of what it was. -/
theorem get_upd_same {α : Type} [DecidableEq α] (d : α) (t : Tbl α) (k : Nat) (f : α → α) :
    Tbl.get d (Tbl.upd d t k f) k = f (Tbl.get d t k) := get_set_same _ _ _ _

/-- Changing one entry leaves every other as it is. -/
theorem get_upd_other {α : Type} [DecidableEq α] (d : α) (t : Tbl α) {k j : Nat} (f : α → α) (h : j ≠ k) :
    Tbl.get d (Tbl.upd d t k f) j = Tbl.get d t j := get_set_other _ _ _ _ _ h

theorem portAt_updPort_other {p q : Nat} (h : q ≠ p) (f : Port → Port) (s : State) :
    portAt (updPort p f s) q = portAt s q := get_upd_other _ _ _ h

/-- A start leaves what the other ports' starts depend on. -/
theorem portMayStart_portStart (p q : Nat) (s : State) : portMayStart (portStart q s) p ↔ portMayStart s p := by
  rw [portStart_onlyLink q s]; rfl

/-- A port that trains keeps training while ports start. -/
theorem portStart_keeps_phy {p : Nat} (q : Nat) {s : State} (h : (portAt s p).st = .phy) :
    (portAt (portStart q s) p).st = .phy := by
  by_cases hm : portMayStart s q
  · rw [portStart_pos hm]
    by_cases e : p = q
    · subst e; rw [portAt_updPort]; rfl
    · rw [portAt_updPort_other e]; exact h
  · rw [portStart_neg hm]; exact h

/-- Each port of a list that may start trains after the list's ports have started. -/
theorem foldl_portStart_phy {p : Nat} (l : List Nat) (s : State)
    (h : (portAt s p).st = .phy ∨ p ∈ l ∧ portMayStart s p) :
    (portAt (l.foldl (fun t q => portStart q t) s) p).st = .phy := by
  induction l generalizing s with
  | nil => simpa using h
  | cons q l ih =>
    refine ih (portStart q s) ?_
    rcases h with h | ⟨hmem, hm⟩
    · exact .inl (portStart_keeps_phy q h)
    · rcases List.mem_cons.1 hmem with rfl | hmem
      · left
        rw [portStart_pos hm, portAt_updPort]; rfl
      · exact .inr ⟨hmem, (portMayStart_portStart p q s).2 hm⟩

/-- The ports are numbered 0 to 3. -/
theorem mem_elkPorts {p : Nat} (h : p < 4) : p ∈ elkPorts := by
  have hall : ∀ i < 4, i ∈ elkPorts := by decide
  exact hall p h

/-- R516: initialization starts the enabled ports with a reference. -/
theorem startInit_phy {s : State} {p : Nat} (hp : p < 4) (h : portMayStart s p) :
    (portAt (startInit s) p).st = .phy :=
  foldl_portStart_phy elkPorts (initClocked s) (.inr ⟨mem_elkPorts hp, h⟩)

/-! Logging with a last-gasp record (R43, R55, R498) -/

/-- An error that is logged and recorded in flash: the entry names no owner. -/
def loggedGasp (e : ErrEvent) (kind : Nat) (s : State) : State :=
  queueGasp kind (some (logErrE e s).2) (logErrE e s).1

/-- The reset causes stand and a record is due. -/
theorem loggedGasp_cause {e : ErrEvent} (he : e.owner = none) (kind : Nat) (s : State) :
    (∀ i, bitOf (rawAt s 0x2C00120) i = true → bitOf (rawAt (loggedGasp e kind s) 0x2C00120) i = true) ∧
      ∃ x, (loggedGasp e kind s).err.gasp = s.err.gasp ++ x ∧ x ≠ [] := by
  obtain ⟨hcause, x, hx⟩ := logErrE_cause e s he
  refine ⟨hcause, x ++ [⟨kind, (logErrE e s).1.dts, some (logErrE e s).2⟩], ?_, by simp⟩
  rw [loggedGasp, queueGasp_gasp, hx, List.append_assoc]

/-- A cause just set stands after it. -/
theorem loggedGasp_orReg {e : ErrEvent} (he : e.owner = none) (kind : Nat) (s : State) {m i : Nat} (hm : m < 2 ^ 64)
    (hi : m.testBit i = true) : bitOf (rawAt (loggedGasp e kind (orReg 0x2C00120 m s)) 0x2C00120) i = true := by
  refine (loggedGasp_cause he kind _).1 i ?_
  rw [rawAt_orReg _ _ _ hm, bitOf_or, Bool.or_eq_true]
  exact .inr hi

/-! The forced shutdown (R43) -/

/-- Outputs of a list. -/
theorem forEach_emit (f : Nat → Emit) (l : List Nat) (s : State) :
    forEach l (fun i t => emit (f i) t) s = { s with out := s.out ++ l.map f } := by
  induction l generalizing s with
  | nil => simp [forEach]
  | cons i l ih =>
    refine (ih (emit (f i) s)).trans ?_
    simp [emit]

/-- A rail as a forced shutdown leaves it: not enabled, not up. -/
def deadRail (kind cause rail i : Nat) (r : Rail) : Rail :=
  { r with enabled := false, up := false, inWindow := false, off := !(keepsOutput kind cause rail i) }

/-- Each rail of a list is dead after the list's rails have died. -/
theorem get_foldl_deadRail (kind cause rail : Nat) {i : Nat} (l : List Nat) (t : Tbl Rail)
    (h : i ∈ l ∨ ((Tbl.get {} t i).enabled = false ∧ (Tbl.get {} t i).up = false)) :
    let u := l.foldl (fun t i => Tbl.upd {} t i (deadRail kind cause rail i)) t
    (Tbl.get {} u i).enabled = false ∧ (Tbl.get {} u i).up = false := by
  induction l generalizing t with
  | nil => simpa using h
  | cons j l ih =>
    refine ih _ ?_
    by_cases e : i = j
    · subst e
      right
      rw [get_upd_same]
      exact ⟨rfl, rfl⟩
    · rw [get_upd_other _ _ _ e]
      exact h.imp_left (fun hm => (List.mem_cons.1 hm).resolve_left e)

/-- R43: the power state that a forced shutdown leaves. -/
def shutPower (kind cause rail step : Nat) (s : State) : Power :=
  { s.pwr with
    rails := mainRails.foldl (fun t i => Tbl.upd {} t i (deadRail kind cause rail i)) s.pwr.rails
    mainPwrEn := false, st := .forcedOff, step, rail, fault := { valid := true, kind, step, rail, cause }
    faultReadBy := [], heldUp := false, ackWait := [] }

/-- R483: what a rail fault logs. -/
def shutEvent (kind cause rail step : Nat) : ErrEvent :=
  { cls := 13, cause := if kind = 3 then 1 else 2, sev := if kind = 3 then sevFatal else sevContained
    source := 0x2C, index := rail, info := RailFault.image { valid := true, kind, step, rail, cause } }

/-- R43: the forced shutdown as outputs, a power state, a cause, a log entry and a record. -/
theorem forcedShutdown_eq (kind cause rail step : Nat) (s : State) : forcedShutdown kind cause rail step s =
    loggedGasp (shutEvent kind cause rail step) 2 (orReg 0x2C00120 0x80 { s with
      out := s.out ++ (enabledRails s).map (fun i => .operation i false)
      pwr := shutPower kind cause rail step s }) := by
  have hrail : (fun i t => if keepsOutput kind cause rail i then
        updRail i (fun r => { r with enabled := false, up := false, inWindow := false, off := false }) t
      else railDies i t) = fun i => updRail i (deadRail kind cause rail i) := by
    funext i t
    have hdead : deadRail kind cause rail i =
        fun r => { r with enabled := false, up := false, inWindow := false, off := !(keepsOutput kind cause rail i) } := rfl
    rw [hdead]
    cases keepsOutput kind cause rail i <;> rfl
  simp only [forcedShutdown, hrail, forEach_updRail, forEach_emit]
  rfl

/-- The loss of the main rails leaves the registers of the standby domain. -/
theorem rawAt_mainLost_standby {s : State} {lo : Nat} {d : RegDef} (hf : findReg lo = some (d, lo)) (hd : d.dom = .stby) :
    rawAt (mainLost s) lo = rawAt s lo :=
  (rawAt_regs (s := resetRegs (fun d lo => (d.dom == .chip || d.dom == .owner) &&
    !(decide (0x100000 ≤ lo) && decide (lo < 0x200000))) s) rfl lo).trans
    (rawAt_resetRegs_unpicked hf (by rw [hd]; rfl))

/-- R43: the power state after a rail fault. -/
theorem railFault_pwr (kind cause rail step : Nat) (s : State) : (railFault kind cause rail step s).pwr =
    { shutPower kind cause rail step s with init := .idle, fclkStopped := false } := by
  simp [railFault, forcedShutdown_eq, loggedGasp]

/-- R43: its other parts. -/
theorem railFault_units (kind cause rail step : Nat) (s : State) : let t := railFault kind cause rail step s
    t.hif.started = [] ∧ t.mem.cells = [] ∧ t.dts = s.dts ∧ t.boot = s.boot ∧
      bitOf (rawAt t 0x2C00120) 7 = true ∧ ∃ x, t.err.gasp = s.err.gasp ++ x ∧ x ≠ [] := by
  dsimp only
  rw [railFault, rawAt_mainLost_standby findReg_rstCause rfl, forcedShutdown_eq, mainLost_err]
  refine ⟨rfl, rfl, by simp [loggedGasp], by simp [loggedGasp], ?_, ?_⟩
  · exact loggedGasp_orReg rfl 2 _ (by decide) (by decide)
  · exact (loggedGasp_cause rfl 2 _).2

/-! The thermal trip (R55, R56) -/

/-- R55: the main rails are lost and the trip is latched. -/
def tripLatched (sensor : Nat) (s : State) : State :=
  mainLost { s with pwr := { s.pwr with
    tripped := true, tripSensor := sensor % 256, tripDts := s.dts, mainPwrEn := false, st := .tripped, heldUp := false
    ackWait := [], rails := [] } }

/-- R55: the trip as a latched power state, a cause, a log entry and a record. -/
theorem thermalTrip_eq {s : State} (hs : standby s = true) (ht : s.pwr.tripped = false) (sensor : Nat) :
    thermalTrip sensor s = loggedGasp
      { cls := 15, cause := 1, sev := sevFatal, source := 0x2C, index := sensor % 256, info := sensor % 256 } 3
      (orReg 0x2C00120 0x40 (tripLatched sensor s)) :=
  if_neg (by rw [hs, ht]; decide)

/-- R55: the power state after a trip. -/
theorem thermalTrip_pwr {s : State} (hs : standby s = true) (ht : s.pwr.tripped = false) (sensor : Nat) :
    (thermalTrip sensor s).pwr = (tripLatched sensor s).pwr := by
  rw [thermalTrip_eq hs ht]; simp [loggedGasp]

/-- R55: its other parts. -/
theorem thermalTrip_units {s : State} (hs : standby s = true) (ht : s.pwr.tripped = false) (sensor : Nat) :
    let t := thermalTrip sensor s
    bitOf (rawAt t 0x2C00120) 6 = true ∧ t.hif.started = [] ∧ t.mem.cells = [] ∧ t.dts = s.dts ∧ t.tfu = s.tfu ∧
      ∃ x, t.err.gasp = s.err.gasp ++ x ∧ x ≠ [] := by
  dsimp only
  rw [thermalTrip_eq hs ht]
  refine ⟨loggedGasp_orReg rfl 3 _ (by decide) (by decide), ?_, ?_, ?_, ?_, (loggedGasp_cause rfl 3 _).2⟩
  all_goals simp [loggedGasp, tripLatched]

/-- R56: a clear after 10 s, with no rail fault in force. -/
theorem tripClear_due {s : State} (ht : s.pwr.tripped = true) (hd : s.pwr.tripDts + 10000000000 ≤ s.dts)
    (hf : s.pwr.fault.valid = false) :
    tripClear s = { s with pwr := { s.pwr with tripped := false, st := .off, step := 0, rail := 0 } } := by
  unfold tripClear
  rw [if_neg (by simp [ht, hd])]
  exact if_neg (by simp [hf])

/-- R56: any other clear does nothing. -/
theorem tripClear_ignored {s : State} (h : s.pwr.tripped = false ∨ s.dts < s.pwr.tripDts + 10000000000) :
    tripClear s = s := by
  refine if_pos ?_
  rcases h with h | h <;> simp [h]

/-! The island goes down and returns (R52, R502) -/

/-- R52: the island stops and its ROM starts again, its cause logged already. -/
theorem islandDown_logged {s : State} (h : romRuns s = true) : islandDown true s = { s with
    pwr := { s.pwr with islandUp := false, restarting := true, autoOnDone := false
                        initInterrupted := s.pwr.initInterrupted || initRuns s }
    boot := { s.boot with stage := 1 } } := by
  unfold islandDown
  rw [h]
  simp [updPwr]

/-- R52: the watchdog sets its cause and logs before the island stops. -/
def watchdogLogged (s : State) : State :=
  logErr { cls := 17, cause := 1, sev := sevContained, source := 0x2C } (orReg 0x2C00120 0x20 s)

theorem watchdogLogged_pwr (s : State) : (watchdogLogged s).pwr = s.pwr := by simp [watchdogLogged]

theorem islandWatchdog_rom {s : State} (h : romRuns s = true) : islandWatchdog s = { watchdogLogged s with
    pwr := { s.pwr with islandUp := false, restarting := true, autoOnDone := false
                        initInterrupted := s.pwr.initInterrupted || initRuns s }
    boot := { s.boot with stage := 1 } } := by
  have hrom : romRuns (watchdogLogged s) = true := by simpa [romRuns, standby, watchdogLogged_pwr] using h
  have hboot : (watchdogLogged s).boot = s.boot := by simp [watchdogLogged]
  have hdown : islandWatchdog s = islandDown true (watchdogLogged s) := if_neg (by rw [h]; decide)
  rw [hdown, islandDown_logged hrom, initRuns, watchdogLogged_pwr, hboot]
  rfl

/-- R502: the island returns, and no initialization was interrupted. -/
theorem islandReturns_plain {s : State} (hs : standby s = true) (hd : s.pwr.islandUp = false)
    (hr : s.pwr.restarting = true) (hi : s.pwr.initInterrupted = false) (sigs : Nat) :
    islandReturns sigs s = reschedule
      (((romBoot sigs s).hif.started.filter (fun p => p.wait == .island)).foldl
        (fun t p => finishPkt p.id 0x0F01 0 0 t) { romBoot sigs s with
          pwr := { (romBoot sigs s).pwr with initInterrupted := false } }) := by
  unfold islandReturns
  rw [if_neg (by rw [hs, hd, hr]; decide)]
  dsimp only
  rw [hi]
  rfl

/-! The tray lead role (R457) -/

/-- R457: no other position answers as candidate or lead, so the candidate is tray lead. -/
theorem settleRole_alone {answers : List (Nat × Nat)} {s : State} (hl : s.pwr.straps.lead = true)
    (h : ∀ a ∈ answers, a.1 = s.pwr.straps.pos ∨ bitOf a.2 2 = false) :
    settleRole answers s = roleEvent (updTmg (fun t => { t with role := 2, conflict := false }) s) := by
  have hnone : answers.any (fun a => a.1 != s.pwr.straps.pos && bitOf a.2 2) = false := by
    rw [List.any_eq_false]
    intro a ha
    rcases h a ha with e | e <;> simp [e]
  simp [settleRole, hl, hnone]

/-- R457: a candidate's 2 s are over. -/
theorem roleSettles_candidate {answers : List (Nat × Nat)} {s : State} (hi : islandRuns s = true) (hb : 2 ≤ s.boot.stage)
    (hn : s.tmg.settled = false) (hl : s.pwr.straps.lead = true) (hr : s.tmg.role = 1) :
    roleSettles answers s = settleRole answers (updTmg (fun t => { t with settled := true })
      { s with dts := max s.dts (s.boot.bootDts + 2000000000) }) := by
  have hacts : (!(islandRuns s) || decide (s.boot.stage < 2) || s.tmg.settled) = false := by
    simp [hi, hn, Nat.not_lt.2 hb]
  unfold roleSettles
  rw [if_neg (Bool.eq_false_iff.1 hacts)]
  simp [hl, hr]

/-- R457: the role is given up to another position that claims it. -/
theorem roleSeen_claimed {pos answer : Nat} {s : State} (hr : s.tmg.role = 1 ∨ isTrayLead s = true)
    (hp : pos ≠ s.pwr.straps.pos) (ha : bitOf answer 2 = true) : roleSeen pos answer s = giveUpRole s := by
  refine if_pos ?_
  rcases hr with hr | hr <;> simp [hr, hp, ha]

theorem roleSeen_unclaimed {pos answer : Nat} {s : State} (h : pos = s.pwr.straps.pos ∨ bitOf answer 2 = false) :
    roleSeen pos answer s = s := by
  refine if_neg ?_
  rcases h with h | h <;> simp [h]

/-- Settles O6: each row's equation, and what the laws of the reset and of the log leave of it. -/
theorem resetReleaseTripAndIsland : Obligations.ResetReleaseTripAndIsland := by
  intro s
  refine ⟨fun src h hno => ?stays, fun src h hlast hon => ?starts, fun kind cause rail step hr => ?fault,
    fun sensor hs ht => ?trip, fun r hr ht hd hf => ?cleared, fun r hr h => ?uncleared, fun h => ?watchdog,
    fun sigs hs hd hr hi => ?returns, fun answers hi hb hn hl hr ha => ?lead, fun pos answer hi hr hp ha => ?claimed,
    fun pos answer hi h => ?unclaimed⟩
  case stays => exact congrArg done (releaseReset_stays h hno)
  case starts =>
    refine ⟨_, congrArg done (releaseReset_starts h hlast hon), ?_⟩
    have hlink := startInit_onlyLink { s with pwr := setReset src false s.pwr }
    refine ⟨?_, ?_, ?_, ?_, fun p hp hen hclk => startInit_phy hp ⟨hen, by simpa using hclk⟩⟩
    · rw [hlink]; simp [initClocked, fclkRestart]
    all_goals (rw [hlink]; rfl)
  case fault =>
    obtain ⟨hstarted, hcells, hdts, hboot, hcause, hgasp⟩ := railFault_units kind cause rail step s
    have hpwr := railFault_pwr kind cause rail step s
    refine ⟨?_, ?_, ?_, ?_, ?_, ?_, ?_, fun i hi => ?_, hcause, hstarted, hcells, hdts, hboot, hgasp⟩
    case refine_8 =>
      rw [railAt, hpwr]
      exact get_foldl_deadRail kind cause rail mainRails s.pwr.rails (.inl (mem_mainRails hi))
    all_goals simp only [hpwr, shutPower]
  case trip =>
    obtain ⟨hcause, hstarted, hcells, hdts, htfu, hgasp⟩ := thermalTrip_units hs ht sensor
    have hpwr := thermalTrip_pwr hs ht sensor
    have hup : standby (thermalTrip sensor s) = true := by rw [standby, hpwr]; exact hs
    refine ⟨thermalTrip sensor s, rfl, ?_, ?_, ?_, ?_, ?_, ?_, ?_, hcause, hstarted, hcells, hdts, htfu, ?_, ?_, hgasp⟩
    case refine_8 => rw [thermtripLow, hup, hpwr]; rfl
    case refine_9 => rw [chipFaultLow, hup, hpwr]; rfl
    all_goals rw [hpwr]; rfl
  case cleared =>
    refine congrArg done ((regWrite_tripClear hr).trans ?_)
    exact tripClear_due (s := kept 0x2C00150 s) ht hd hf
  case uncleared =>
    refine congrArg done ((regWrite_tripClear hr).trans ?_)
    exact tripClear_ignored (s := kept 0x2C00150 s) h
  case watchdog =>
    refine ⟨_, congrArg done (islandWatchdog_rom h), rfl, rfl, ?_, ?_⟩
    · exact (logErr_cause _ _ rfl).cause 5 (by rw [rawAt_orReg _ _ _ (by decide), bitOf_or, Bool.or_eq_true]; exact .inr (by decide))
    · simp [watchdogLogged]
  case returns => exact congrArg done (islandReturns_plain hs hd hr hi sigs)
  case lead =>
    refine ⟨_, congrArg done ((whenIsland_pos hi).trans ((roleSettles_candidate hi hb hn hl hr).trans
      (settleRole_alone (s := updTmg (fun t => { t with settled := true })
        { s with dts := max s.dts (s.boot.bootDts + 2000000000) }) hl ha))), rfl, rfl, rfl, rfl⟩
  case claimed => exact congrArg done ((whenIsland_pos hi).trans (roleSeen_claimed hr hp ha))
  case unclaimed => exact congrArg done ((whenIsland_pos hi).trans (roleSeen_unclaimed h))

end Sys2Proof.Proofs
end

section
/-! Chapter 8: link ports train, greet, exchange keys and go down (R49, R216, R227, R228, R231). -/

namespace Sys2Proof.Proofs

open Sys2Proof Sys2Proof.Machine Sys2Proof.Safety Sys2Proof.Laws

/-- An event of the main domain acts while FCLK runs. -/
theorem whenClocked_pos {f : State → State} {s : State} (h : linkRuns s = true) : whenClocked f s = f s := if_pos h

/-! Enabling and disabling a port (R227) -/

/-- A port that trains on its reference: EN stands and it was DISABLED. -/
theorem portCtrlWritten_starts {s : State} {cons : Cons} {p : Nat} (hm : portMayStart s p)
    (hst : (portAt s p).st = .disabled) (hl : linkRuns s = true) :
    portCtrlWritten cons p s = updPort p (fun x => x.idle .phy x.cause) s := by
  unfold portCtrlWritten
  rw [if_pos hm.1, if_pos (by rw [hst, hl]; rfl), portStart_pos hm]

/-- EN on a port that is not DISABLED, or with the link stopped, starts nothing. -/
theorem portCtrlWritten_ignored {s : State} {cons : Cons} {p : Nat} (hen : regBit s (0x2000000 + p * 0x100) 31 = true)
    (h : (portAt s p).st ≠ .disabled ∨ linkRuns s = false) : portCtrlWritten cons p s = s := by
  unfold portCtrlWritten
  rw [if_pos hen]
  refine if_neg ?_
  rcases h with h | h <;> simp [h]

/-- EN 0 disables the port. -/
theorem portCtrlWritten_disables {s : State} {cons : Cons} {p : Nat}
    (hen : regBit s (0x2000000 + p * 0x100) 31 = false) :
    portCtrlWritten cons p s = portIdle cons p .disabled (portAt s p).cause s :=
  if_neg (Bool.eq_false_iff.1 hen)

section PortWrite

variable {s : State} {r : Requester} {p : Nat} {d : RegDef} (hp : p < 4)
include hp

/-- A plain write of ELK_PORT_CTRL stores its value and acts on the port. -/
theorem regWrite_portCtrl {v : Nat} (cons : Cons)
    (h : writesPlain s r (0x2000000 + 0x100 * p) (0x2000000 + 0x100 * p) d v) :
    regWrite cons r (0x2000000 + 0x100 * p) 4 v s =
      portCtrlWritten cons p (written s (0x2000000 + 0x100 * p) d v) := by
  rw [regWrite_written h (by omega) (by omega), port_hook cons r p _ _ _ _ hp]

/-- EN reads as the written bit 31. -/
theorem regBit_portCtrl {b : Nat} (hb : b < 2)
    (h : writesPlain s r (0x2000000 + 0x100 * p) (0x2000000 + 0x100 * p) d (b * 2 ^ 31)) :
    regBit (written s (0x2000000 + 0x100 * p) d (b * 2 ^ 31)) (0x2000000 + 0x100 * p) 31 = decide (b = 1) := by
  obtain ⟨-, -, -, -, -, hf, -⟩ := h
  exact port_en s p b d hp ⟨_, hf⟩ hb

end PortWrite

/-! Leaving UP and going DOWN (R227, R230) -/

/-- A port that is not UP leaves its state and ends nothing. -/
theorem portIdle_notUp {s : State} {p : Nat} (h : portUp s p = false) (cons : Cons) (st : PortState) (cause : Nat) :
    portIdle cons p st cause s = updPort p (fun x => x.idle st cause) s := by
  unfold portIdle
  exact if_neg (Bool.eq_false_iff.1 h)

/-- A port that is UP leaves it with its requests ended. -/
theorem portIdle_up {s : State} {p : Nat} (h : portUp s p = true) (cons : Cons) (st : PortState) (cause : Nat) :
    portIdle cons p st cause s = leftUp cons p (updPort p (fun x => x.idle st cause) s) := by
  unfold portIdle
  exact if_pos h

/-- R227: the back-off doubles up to 1,000 ms, from 10 ms after 1 s in UP. -/
theorem nextBackoff_eq (now : Nat) (x : Port) : nextBackoff now x =
    min 1000 (2 * (if x.st = .up ∧ x.upSince + 1000000000 ≤ now then 10 else x.backoff)) := by
  simp [nextBackoff]

/-! Training, greeting and keys (R216, R228, R231) -/

section Linked

variable {s : State} {cons : Cons} {p : Nat} (hl : linkRuns s = true)
include hl

/-- R216: the lanes that trained, judged in PHY. -/
theorem phyTrained_phy (hst : (portAt s p).st = .phy) (lanes : Nat) : phyTrained cons p lanes s =
    if (lanes % 256 == 255) = false ∧ (lanes / 256 % 256 == 255) = false then portDown cons p 2 s
    else emit (.linkMsg p 1 (helloBytes s p)) (updPort p (fun x => { x with
      st := .hello, x8 := !(lanes % 256 == 255 && lanes / 256 % 256 == 255) }) s) := by
  unfold phyTrained
  rw [if_neg (by simp [hl, hst])]
  dsimp only
  congr 1
  simp only [Bool.and_eq_true, Bool.not_eq_true']

/-- R231: HELLO in HELLO moves the port to key exchange. -/
theorem helloReceived_hello (hst : (portAt s p).st = .hello) (serial peerPort id : Nat) (hasId : Bool) :
    helloReceived p serial peerPort id hasId s =
      emit (.linkMsg p 2 ((List.range 192).map (Config.linkKey p s.dts))) (updPort p (fun x => { x with
        st := .keyx, peerSerial := serial, peerPort := peerPort % 4, peerId := id % 64, peerHasId := hasId }) s) := by
  unfold helloReceived
  exact if_neg (by simp [hl, hst])

/-- The manifest lists the port's peer. -/
def peerListed (s : State) (p : Nat) : Prop :=
  ∃ m e, s.elk.manifest = some m ∧ entryOf m (portAt s p).peerSerial = some e

/-- R228: a listed peer's KEY must verify. -/
theorem keyReceived_refused (hst : (portAt s p).st = .keyx) (h : peerListed s p) (key : List Byte) :
    keyReceived cons p key false s = portDown cons p 3 s := by
  obtain ⟨m, e, hm, he⟩ := h
  unfold keyReceived
  rw [if_neg (by simp [hl, hst])]
  simp [hm, he]

/-- R228: an unlisted peer's KEY, or one that verifies, is kept and answered with FINISHED. -/
theorem keyReceived_kept (hst : (portAt s p).st = .keyx) {sig : Bool} (h : ¬ peerListed s p ∨ sig = true) (key : List Byte) :
    keyReceived cons p key sig s =
      emit (.linkMsg p 3 (digestBytes s)) (updPort p (fun x => { x with peerKey := some key, keySigOk := sig }) s) := by
  unfold keyReceived
  rw [if_neg (by simp [hl, hst])]
  refine if_neg (fun e => ?_)
  rw [Bool.and_eq_true, Bool.not_eq_true'] at e
  obtain ⟨hlisted, hsig⟩ := e
  rcases h with h | h
  · refine h ?_
    cases hm : s.elk.manifest with
    | none => simp [hm] at hlisted
    | some m =>
      obtain ⟨e, he⟩ := Option.isSome_iff_exists.1 (by simpa [hm] using hlisted)
      exact ⟨m, e, hm, he⟩
  · exact Bool.false_ne_true (hsig.symm.trans h)

end Linked

/-! Limits, silence and back-off (R227) -/

theorem stateTimeout_acts {s : State} {p : Nat} (cons : Cons) (h : (portAt s p).st ∈ [PortState.phy, .hello, .keyx]) :
    stateTimeout cons p s = portDown cons p 2 s := by
  refine if_pos ?_
  simpa [or_assoc] using h

theorem stateTimeout_ignored {s : State} {p : Nat} (cons : Cons) (h : (portAt s p).st ∉ [PortState.phy, .hello, .keyx]) :
    stateTimeout cons p s = s := by
  refine if_neg (fun e => h ?_)
  simpa [or_assoc] using e

theorem trainedDown_acts {s : State} {p : Nat} (cons : Cons) (cause : Nat)
    (h : (portAt s p).st ∈ [PortState.hello, .keyx, .up, .quarantine]) :
    trainedDown cons p cause s = portDown cons p cause s := by
  refine if_pos ?_
  simpa [or_assoc] using h

theorem trainedDown_ignored {s : State} {p : Nat} (cons : Cons) (cause : Nat)
    (h : (portAt s p).st ∉ [PortState.hello, .keyx, .up, .quarantine]) : trainedDown cons p cause s = s := by
  refine if_neg (fun e => h ?_)
  simpa [or_assoc] using e

theorem backoffEnds_down {s : State} {p : Nat} (h : (portAt s p).st = .down) (hm : portMayStart s p) :
    backoffEnds p s = updPort p (fun x => x.idle .phy x.cause) s :=
  (if_pos (by rw [h]; rfl)).trans (portStart_pos hm)

theorem backoffEnds_ignored {s : State} {p : Nat} (h : (portAt s p).st ≠ .down) : backoffEnds p s = s :=
  if_neg (by simpa using h)

/-- Settles O35: a write of EN is `portCtrlWritten`; every other row acts on the port's state while the link runs. -/
theorem portsTrainAndGoDown : Obligations.PortsTrainAndGoDown := by
  refine ⟨fun s r cons p d hp h => ?enable, fun s r cons p d hp h => ?disable, fun s cons p st cause => ?idle,
    fun s cons p cause => ?down, fun s cons p lanes hl hst => ?phy, fun s p serial peerPort id hasId hl hst => ?hello,
    fun s cons p key sig hl hst => ?key, fun s cons p hl => ?limits⟩
  case enable =>
    have hen : regBit (written s (0x2000000 + 0x100 * p) d (2 ^ 31)) (0x2000000 + 0x100 * p) 31 = true :=
      regBit_portCtrl hp (b := 1) (by decide) h
    have hen' : regBit (written s (0x2000000 + 0x100 * p) d (2 ^ 31)) (0x2000000 + p * 0x100) 31 = true := by
      rw [Nat.mul_comm p]; exact hen
    have hexec := congrArg done (regWrite_portCtrl hp cons h)
    exact ⟨hen, fun hst hl hclk => hexec.trans (congrArg done (portCtrlWritten_starts ⟨hen', hclk⟩ hst hl)),
      fun hno => hexec.trans (congrArg done (portCtrlWritten_ignored hen' hno))⟩
  case disable =>
    have h0 : writesPlain s r (0x2000000 + 0x100 * p) (0x2000000 + 0x100 * p) d (0 * 2 ^ 31) := h
    have hen : regBit (written s (0x2000000 + 0x100 * p) d 0) (0x2000000 + 0x100 * p) 31 = false :=
      regBit_portCtrl hp (b := 0) (by decide) h0
    refine ⟨hen, (congrArg done (regWrite_portCtrl hp cons h)).trans (congrArg done (portCtrlWritten_disables ?_))⟩
    rw [Nat.mul_comm p]; exact hen
  case idle => exact ⟨fun h => portIdle_notUp h cons st cause, fun h => portIdle_up h cons st cause⟩
  case down =>
    rw [← nextBackoff_eq]
    rfl
  case phy =>
    have hexec : exec (.phyTrained cons p lanes) s = _ :=
      congrArg done ((whenClocked_pos hl).trans (phyTrained_phy (cons := cons) hl hst lanes))
    rw [hexec]
    refine ⟨fun hlo hhi => ?_, fun hany => ?_⟩
    · rw [if_pos ⟨hlo, hhi⟩]; rfl
    · rw [if_neg (fun hnone => ?_)]
      · rfl
      · rcases hany with h | h
        · exact Bool.false_ne_true (hnone.1.symm.trans h)
        · exact Bool.false_ne_true (hnone.2.symm.trans h)
  case hello =>
    exact ⟨_, by simp, congrArg done ((whenClocked_pos hl).trans (helloReceived_hello hl hst serial peerPort id hasId))⟩
  case key =>
    refine ⟨fun hlisted hsig => ?_, fun h => congrArg done ((whenClocked_pos hl).trans (keyReceived_kept hl hst h key))⟩
    subst hsig
    exact congrArg done ((whenClocked_pos hl).trans (keyReceived_refused hl hst hlisted key))
  case limits =>
    have hrow : ∀ f : State → State, done (whenClocked f s) = .next (settle (f s)) :=
      fun f => congrArg done (whenClocked_pos hl)
    refine ⟨fun h => ?_, fun h => ?_, fun h => ⟨?_, ?_⟩, fun h => ⟨?_, ?_⟩, fun h hen hclk => ?_, fun h => ?_⟩
    · rw [← stateTimeout_acts cons h]; exact hrow _
    · exact (hrow (stateTimeout cons p)).trans (by rw [stateTimeout_ignored cons h])
    · rw [← trainedDown_acts cons 7 h]; exact hrow _
    · rw [← trainedDown_acts cons 1 h]; exact hrow _
    · exact (hrow (trainedDown cons p 7)).trans (by rw [trainedDown_ignored cons 7 h])
    · exact (hrow (trainedDown cons p 1)).trans (by rw [trainedDown_ignored cons 1 h])
    · rw [← backoffEnds_down h ⟨hen, hclk⟩]; exact hrow _
    · exact (hrow (backoffEnds p)).trans (by rw [backoffEnds_ignored h])

end Sys2Proof.Proofs
end

section
/-! Chapter 2: the block without power (R36). -/

namespace Sys2Proof.Proofs

open Sys2Proof Sys2Proof.Machine Sys2Proof.Safety Sys2Proof.Laws

/-- A block in which nothing waits is settled: no write or strobe to act on, no event to send, no fence to end. -/
theorem settled_of_atRest {s : State} (h : AtRest s) : Settled s := by
  obtain ⟨hmirror, -, -, -, -, ⟨-, -, hover, -, -⟩, -, hevents, hfence⟩ := h
  refine ⟨hmirror, hover, fun _ _ _ e he => ?_, fun hf => ?_⟩
  · rw [hevents] at he
    exact absurd he List.not_mem_nil
  · exact absurd (hfence.symm.trans hf) Bool.false_ne_true

/-- Nothing waits in the block right after reset. -/
theorem atRest_reset : AtRest State.reset :=
  ⟨rfl, rfl, rfl, rfl, fun _ _ => rfl, ⟨rfl, rfl, rfl, rfl, rfl⟩, rfl, rfl, rfl⟩

/-- Settles O60: the block right after reset is at rest, so settled, and stands as R36 says of one without power. -/
theorem resetIsSettled : Obligations.ResetIsSettled :=
  ⟨settled_of_atRest atRest_reset, atRest_reset, rfl, rfl, rfl, rfl, rfl, rfl, rfl, rfl, rfl, rfl⟩

end Sys2Proof.Proofs
end

section
/-! Chapter 3: split accesses of registers 64 bits wide and the holding registers (R89, R90). -/

namespace Sys2Proof.Proofs

open Sys2Proof Sys2Proof.Machine Sys2Proof.Safety Sys2Proof.Laws

/-- What a read notices is none of the host port's state. -/
theorem readEffect_hif (r : Requester) (lo : Nat) (s : State) : (readEffect r lo s).hif = s.hif := by
  unfold readEffect
  repeat' split
  all_goals rfl

/-- The word a holding register gives for the register at `lo`: the held one where it is that register's, else the live
one. -/
def heldOr (lo live : Nat) : Option Hold → Nat
  | some h => if h.off = lo then h.word else live
  | none => live

section SplitAccess

variable {s : State} {r : Requester} {off lo : Nat} {d : RegDef} (hw : d.width = 64)
include hw

/-- R89: a read of the low word answers the live one and holds the high one. -/
theorem readWord_low (hf : findReg lo = some (d, lo)) :
    readWord r lo s = ({ readEffect r lo s with hif := { (readEffect r lo s).hif with
        readHold := Tbl.set none s.hif.readHold (holdKey r) (some ⟨lo, d.shown (regImage r s lo) / 2 ^ 32⟩) } },
      d.shown (regImage r s lo) % 2 ^ 32) := by
  simp only [readWord, hf, hw, if_true, updHif, readEffect_hif]

/-- R89: a read of the high word answers the held word where the holding register is this register's, else the live
one. -/
theorem readWord_high (hf : findReg (lo + 4) = some (d, lo)) :
    readWord r (lo + 4) s = (readEffect r lo s,
      heldOr lo (d.shown (regImage r s lo) / 2 ^ 32) (Tbl.get none s.hif.readHold (holdKey r))) := by
  have hne : ¬ lo + 4 = lo := by omega
  simp only [readWord, hf, hw, if_true, if_neg hne]
  cases Tbl.get none s.hif.readHold (holdKey r) with
  | none => rfl
  | some h => by_cases e : h.off = lo <;> simp [heldOr, e]

/-- R90: a write of the low word waits in the requester's write holding register. -/
theorem writeWord_low (hf : findReg lo = some (d, lo)) (hro : d.readOnly = false) (cons : Cons) (v : Nat) :
    writeWord cons r off lo v s = { s with hif := { s.hif with
      writeHold := Tbl.set none s.hif.writeHold (holdKey r) (some ⟨lo, v⟩) } } := by
  simp only [writeWord, hf, hw, hro, if_true, Bool.false_eq_true, if_false]
  rfl

/-- R90: a write of the high word commits both words, the low one as it is held or else as it stands. -/
theorem writeWord_high (hf : findReg (lo + 4) = some (d, lo)) (hro : d.readOnly = false) (cons : Cons) (v : Nat) :
    writeWord cons r (off + 4) (lo + 4) v s = commitReg cons r off d lo
      (heldOr lo (rawAt s lo % 2 ^ 32) (Tbl.get none s.hif.writeHold (holdKey r)) + v * 2 ^ 32) s := by
  have hne : ¬ lo + 4 = lo := by omega
  simp only [writeWord, hf, hw, hro, if_true, if_neg hne, Bool.false_eq_true, if_false]
  rfl

end SplitAccess

section WordAccess

variable {s : State} {r : Requester} {off lo : Nat} (hp : pathOf s r = .serves) (hv : viewShut s r = false)
  (ho : off % 4 = 0) (ha : accessOffset s r off = some lo) (hs : absentStride lo = false)
include hp hv ho ha hs

/-- A 32-bit read of a register answers its word. -/
theorem regRead_word : regRead r off 4 s = emit (.answer r off (.ok (readWord r lo s).2)) (readWord r lo s).1 := by
  simp [regRead, hp, servedRead, widthOk, ho, hv, ha, hs, readReg]

/-- A 32-bit write of a register writes its word. -/
theorem regWrite_oneWord {v : Nat} (hl : v < 2 ^ 32) (cons : Cons) :
    regWrite cons r off 4 v s = writeWord cons r off lo v s := by
  have hm : v % 4294967296 = v := Nat.mod_eq_of_lt hl
  simp [regWrite, hp, servedWrite, widthOk, ho, hv, ha, hs, writeReg, hm]

end WordAccess

/-- Settles O11: a split access is one word's, which goes through the requester's holding registers; a whole access does
not. -/
theorem splitAccessesHoldAWord : Obligations.SplitAccessesHoldAWord := by
  intro s r off lo d hp hv h8 ha ha4 hs hs4 hf hf4 hw x
  have h4 : off % 4 = 0 := by omega
  have h44 : (off + 4) % 4 = 0 := by omega
  refine ⟨congrArg done ?lowRead, congrArg done ?highRead, congrArg done ?wholeRead,
    fun cons v hro hl => congrArg done ?lowWrite, fun cons v hro hl => congrArg done ?highWrite,
    fun cons v hl => congrArg done ?wholeWrite⟩
  case lowRead => rw [regRead_word hp hv h4 ha hs, readWord_low hw hf]
  case highRead =>
    rw [regRead_word hp hv h44 ha4 hs4, readWord_high hw hf4]
    rfl
  case wholeRead =>
    have h := regRead_whole hp hv ha hs hf (.inr ⟨hw, h8⟩)
    rwa [hw] at h
  case lowWrite => rw [regWrite_oneWord hp hv h4 ha hs hl, writeWord_low hw hf hro]
  case highWrite =>
    rw [regWrite_oneWord hp hv h44 ha4 hs4 hl, writeWord_high hw hf4 hro]
    rfl
  case wholeWrite => exact regWrite_whole hp hv ha hs hf (.inr ⟨hw, h8, rfl⟩) hl

end Sys2Proof.Proofs
end

section
/-! Chapter 3: packets that the island carries out (R195). -/

namespace Sys2Proof.Proofs

open Sys2Proof Sys2Proof.Machine Sys2Proof.Safety Sys2Proof.Laws

/-- A ready packet of an island row is carried out at once while the island runs. -/
theorem islandRow_runs {s : State} {r op : Nat} {fields : List (Nat × Nat)} {p : Packet} {rest : List Packet}
    (h : frontReady s r op 1 fields p rest) (hi : islandRuns s = true) (f : Inflight → State → State) :
    runPacket r (opIs op) oneUnit fields (islandPkt f) s = f (inflightOfPacket s r p) (startedBy s r p rest) :=
  (runPacket_ready (size := oneUnit) h (opIs_of h.2.1)).trans (if_pos hi)

end Sys2Proof.Proofs
end

section
/-! Chapter 3: owners are created, destroyed and drained, and parks resumed (R76–R79, R83, R84). -/

namespace Sys2Proof.Proofs

open Sys2Proof Sys2Proof.Machine Sys2Proof.Safety Sys2Proof.Laws

/-! OWNER_CREATE (R78, R79) -/

/-- An owner starts with the next key generation and a fresh key. -/
def createdOwner (o : Nat) (s : State) : State :=
  updOwner o (fun w => { w with
      st := .active, keyGen := ((ownerAt s o).keyGen + 1) % 1024, key := some s.mem.nextKey, root := 0, parks := []
      fringProd := 0, destroyId := none, forced := 0 })
    { resetOwnerRegs o s with mem := { s.mem with nextKey := s.mem.nextKey + 1 } }

theorem ownerCreateRun_illegal {q : Inflight} {s : State} (h : q.fld 16 1 = 0 ∨ 64 ≤ q.fld 16 1) :
    ownerCreateRun q s = finishPkt q.id 0x0303 0 0 s := by
  unfold ownerCreateRun
  dsimp only
  rw [if_pos h]

section Create

variable {q : Inflight} {s : State} (h1 : 0 < q.fld 16 1) (h2 : q.fld 16 1 < 64)
include h1 h2

theorem ownerCreateRun_taken (hst : (ownerAt s (q.fld 16 1)).st ≠ .free) :
    ownerCreateRun q s = finishPkt q.id 0x0225 0 0 s := by
  unfold ownerCreateRun
  dsimp only
  rw [if_neg (by omega), if_pos (by simpa using hst)]

theorem ownerCreateRun_creates (hst : (ownerAt s (q.fld 16 1)).st = .free) (hrng : s.mem.rngOk = true) :
    ownerCreateRun q s = finishPkt q.id 0 0 (((ownerAt s (q.fld 16 1)).keyGen + 1) % 1024)
      (createdOwner (q.fld 16 1) s) := by
  unfold ownerCreateRun
  dsimp only
  rw [if_neg (by omega), if_neg (by simp [hst]), if_neg (by simp [hrng])]
  rfl

end Create

/-! OWNER_DESTROY (R83, R84, R86) -/

/-- The owner is DRAINING, and its OWNER_DESTROY waits. -/
def drainStarts (o id : Nat) (s : State) : State :=
  updOwner o (fun w => { w with st := .draining, destroyId := some id, forced := 0 })
    (updPkt id (fun q => { q with wait := .islandWork }) s)

/-- What an owner's end takes from every unit. -/
def ownerLeaves (cons : Cons) (o : Nat) (s : State) : State :=
  unbindWindow o (updOwner o (fun w => { w with parks := [] }) (sweepsGone o cons.sweeps (streamsGone o cons.streams
    (endParked o (stopOwner o 0x0801 (((List.range 1024).filter (fun k => ringOwner s k == some o)).foldl
      (fun t k => cancelFetched k 0x0801 t) s))))))

theorem ownerDestroyRun_drains {q : Inflight} {s : State} (cons : Cons) (h1 : 0 < q.fld 16 1) (h2 : q.fld 16 1 < 64)
    (ha : ownerActive s (q.fld 16 1) = true) :
    ownerDestroyRun cons q s = ownerLeaves cons (q.fld 16 1) (drainStarts (q.fld 16 1) q.id s) := by
  unfold ownerDestroyRun
  dsimp only
  rw [if_neg (by omega), if_neg (by simp [ha])]
  rfl

/-! The end of a drain (R83) -/

/-- The owner's grants, mappings, table pages, key and root are gone. -/
def withoutHoldings (o : Nat) (s : State) : State :=
  updOwner o (fun w => { w with key := none, root := 0, parks := [], fringProd := 0 })
    { s with mem := { s.mem with
        grants := s.mem.grants.filter (fun g => match g.2 with
          | some x => x.owner != o
          | none => true)
        leaves := s.mem.leaves.filter (·.owner != o)
        tables := s.mem.tables.filter (·.owner != o) } }

/-- A drain with nothing outstanding and no lease held ends at once. -/
theorem drainEnd_unleased {s : State} {o id : Nat} (hi : islandRuns s = true) (hst : (ownerAt s o).st = .draining)
    (hid : (ownerAt s o).destroyId = some id) (hkey : (ownerAt s o).key.isSome = true) (hidle : ownerBusy s o = false)
    (hl : ∀ l ∈ s.mem.leases, l.2.owner ≠ some o) :
    drainEnd o s = destroyDone o id (resetOwnerRegs o (ptuOwnerGone o (withoutHoldings o s))) := by
  have hmine : s.mem.leases.filter (fun l => l.2.owner == some o) = [] :=
    List.filter_eq_nil_iff.2 fun l h => by simp [hl l h]
  have hnone : (ownerAt s o).key.isNone = false := by rw [← Option.not_isSome, hkey]; rfl
  unfold drainEnd
  simp only [hid, hst, hi, hidle, hnone, hmine, List.map_nil, List.foldl_nil, List.isEmpty_nil, bne_self_eq_false,
    Bool.not_true, Bool.or_self, Bool.false_eq_true, if_false, if_true]
  rfl

/-- The chains of an owner, each with its channel. -/
def ownerChains (o : Nat) (s : State) : List (Nat × Chain) :=
  s.mov.chans.flatMap (fun c => (c.2.filter (·.owner == o)).map (fun x => (c.1, x)))

/-- The packets of an owner that have begun and wait for no event. -/
def ownerPackets (o : Nat) (s : State) : List Inflight :=
  s.hif.started.filter (fun q => q.owner == o && q.wait != .event)

/-- The packets, chains and remote requests of an owner have ended with DRAIN_TIMEOUT. -/
def drainForced (cons : Cons) (o : Nat) (s : State) : State :=
  (ownerPackets o s).foldl (fun t q => finishPkt q.id 0x0802 0 0 t)
    ((ownerChains o s).foldl (fun t x => match (chainsAt t x.1).find? (·.cid == x.2.cid) with
      | some c => finishChain x.1 c 0x0802 t
      | none => t) (completeAll cons (·.owner == o) 0x0802 s))

/-- A drain at its limit counts every packet it ends, and no chain or remote request twice. -/
theorem drainTimeout_forces {s : State} (cons : Cons) {o : Nat} (hi : islandRuns s = true)
    (hst : (ownerAt s o).st = .draining) :
    ∃ n, (ownerPackets o s).length ≤ n ∧
      n ≤ (ownerPackets o s).length + (ownerChains o s).length + s.elk.outstanding.length ∧
      drainTimeout cons o s = updOwner o (fun w => { w with forced := w.forced + n }) (drainForced cons o s) := by
  unfold drainTimeout
  rw [if_neg (by simp [hi, hst])]
  refine ⟨_, ?_, ?_, rfl⟩
  · exact Nat.le_trans (Nat.le_add_right _ _) (Nat.le_add_right _ _)
  · exact Nat.add_le_add (Nat.add_le_add_left (List.length_filter_le _ _) _) (List.length_filter_le _ _)

/-! RESUME (R76) -/

/-- A park that a RESUME packet names: not recorded yet, and of its token or of any. -/
def parkNamed (q : Inflight) (k : Park) : Bool :=
  k.recorded.isNone && (q.fld 16 4 == 0xFFFFFFFF || k.token == q.fld 16 4)

/-- The parks that a RESUME packet names. -/
def parksNamed (q : Inflight) (s : State) : List Park := (ownerAt s (q.fld 21 1)).parks.filter (parkNamed q)

/-- The named parks leave their owner's list and are acted on one after another. -/
def parksResumed (cons : Cons) (q : Inflight) (s : State) : State :=
  (parksNamed q s).foldl (fun t k => resumePark cons (q.fld 21 1) (q.fld 20 1 == 1) k t)
    (updOwner (q.fld 21 1) (fun w => { w with parks := w.parks.filter (fun k => !(parkNamed q k)) }) s)

section Resume

variable {q : Inflight} {s : State} (cons : Cons) (hop : q.fld 20 1 < 2) (ho : q.fld 21 1 < 64)
  (hown : q.owner = 0 ∨ q.owner = q.fld 21 1) (ha : ownerActive s (q.fld 21 1) = true)
include hop ho hown ha

theorem doResume_checked : doResume cons q s =
    if (parksNamed q s).isEmpty then finishPkt q.id 0x0020 0 0 s
    else finishPkt q.id 0 0 (parksNamed q s).length (parksResumed cons q s) := by
  unfold doResume
  dsimp only
  rw [if_neg (by omega), if_neg (by simp [ha])]
  rfl

theorem doResume_resumes (h : parksNamed q s ≠ []) :
    doResume cons q s = finishPkt q.id 0 0 (parksNamed q s).length (parksResumed cons q s) := by
  rw [doResume_checked cons hop ho hown ha, if_neg (by rwa [List.isEmpty_iff])]

theorem doResume_none (h : parksNamed q s = []) : doResume cons q s = finishPkt q.id 0x0020 0 0 s := by
  rw [doResume_checked cons hop ho hown ha, if_pos (List.isEmpty_iff.2 h)]

end Resume

/-- Settles O13: the checks of each packet and event pass one by one, and the rest is one change of the owner. -/
theorem ownersComeAndGo : Obligations.OwnersComeAndGo := by
  refine ⟨fun s r p rest hf hi => ?create, fun s cons r p rest hf hi h1 h2 ha => ?destroy,
    fun s o id hclk hi hst hid hkey hidle hl => ?drained, fun s cons o hclk hi hst => ?forced,
    fun s cons r p rest hf => ?resume⟩
  case create =>
    intro t o
    have hexec : exec (.ownerCreate r) s = done (ownerCreateRun (inflightOfPacket s r p) t) :=
      congrArg done (islandRow_runs hf hi ownerCreateRun)
    rw [hexec]
    exact ⟨fun h1 h2 hst hrng => congrArg done (ownerCreateRun_creates h1 h2 hst hrng),
      fun h1 h2 hst => congrArg done (ownerCreateRun_taken h1 h2 hst),
      fun h => congrArg done (ownerCreateRun_illegal h)⟩
  case destroy =>
    exact congrArg done ((islandRow_runs hf hi (ownerDestroyRun cons)).trans (ownerDestroyRun_drains cons h1 h2 ha))
  case drained =>
    exact congrArg done ((if_pos hclk).trans (drainEnd_unleased hi hst hid hkey hidle hl))
  case forced =>
    obtain ⟨n, hlow, hhigh, h⟩ := drainTimeout_forces cons hi hst
    exact ⟨n, hlow, hhigh, congrArg done ((if_pos hclk).trans h)⟩
  case resume =>
    intro t o named l hop ho ha hown
    have hexec : exec (.resume cons r) s = done (doResume cons (inflightOfPacket s r p) t) :=
      congrArg done (runPacket_ready (size := oneUnit) hf (opIs_of hf.2.1))
    rw [hexec]
    exact ⟨fun h => congrArg done (doResume_resumes (s := t) cons hop ho hown ha h),
      fun h => congrArg done (doResume_none (s := t) cons hop ho hown ha h)⟩

end Sys2Proof.Proofs
end

section
/-! Chapter 3: frames and clusters (R66, R67, R81, R82). -/

namespace Sys2Proof.Proofs

open Sys2Proof Sys2Proof.Machine Sys2Proof.Safety Sys2Proof.Laws

theorem mem_run {lo n i : Nat} : i ∈ run lo n ↔ lo ≤ i ∧ i < lo + n := by
  simp only [run, List.mem_map, List.mem_range]
  exact ⟨fun ⟨k, hk, e⟩ => by omega, fun h => ⟨i - lo, by omega, by omega⟩⟩

/-! FRAME_GRANT and FRAME_REVOKE (R67) -/

/-- Every frame of a run gets a grant. -/
def grantRun (first n : Nat) (g : Grant) (s : State) : State :=
  { s with mem := { s.mem with grants := (run first n).foldl (fun t f => Tbl.set none t f (some g)) s.mem.grants } }

theorem grantAt_grantRun (first n f : Nat) (g : Grant) (s : State) :
    grantAt (grantRun first n g s) f = if first ≤ f ∧ f < first + n then some g else grantAt s f := by
  simp only [grantAt, grantRun, get_foldl_set, mem_run]

/-- Every grant of a run of frames is taken away. -/
def revokeRun (first n : Nat) (s : State) : State :=
  { s with mem := { s.mem with
      grants := s.mem.grants.filter (fun g => !(decide (first ≤ g.1) && decide (g.1 < first + n))) } }

theorem grantAt_revokeRun (first n f : Nat) (s : State) :
    grantAt (revokeRun first n s) f = if first ≤ f ∧ f < first + n then none else grantAt s f := by
  refine (get_filter none (fun k => !(decide (first ≤ k) && decide (k < first + n))) s.mem.grants f).trans ?_
  by_cases h : first ≤ f ∧ f < first + n
  · simp [h]
  · rw [if_neg h, if_pos]
    · rfl
    · simp only [Bool.not_eq_true', Bool.and_eq_false_iff, decide_eq_false_iff_not]
      omega

/-- The entries that a revocation takes away are those in the run. -/
theorem revokeRun_length (first n : Nat) (s : State) :
    (s.mem.grants.filter (fun g => decide (first ≤ g.1) && decide (g.1 < first + n))).length =
      s.mem.grants.length - (revokeRun first n s).mem.grants.length := by
  have h := len_filter s.mem.grants (fun g => decide (first ≤ g.1) && decide (g.1 < first + n))
  simp only [revokeRun]
  omega

section Grant

variable {q : Inflight} {s : State} (ho : 0 < q.fld 16 1 ∧ q.fld 16 1 < 64) (ht : q.fld 17 1 < 2)
  (hn : 0 < q.fld 24 4) (hr : q.fld 20 4 + q.fld 24 4 ≤ 99328) (ha : ownerActive s (q.fld 16 1) = true)
include ho ht hn hr ha

/-- FRAME_GRANT after its checks of the fields and the owner. -/
theorem frameGrantRun_checked : frameGrantRun q s =
    if s.mem.grants.any (fun g =>
        g.2.isSome && decide (q.fld 20 4 ≤ g.1) && decide (g.1 < q.fld 20 4 + q.fld 24 4)) then
      finishPkt q.id 0x0227 0 0 s
    else finishPkt q.id 0 0 (q.fld 24 4)
      (grantRun (q.fld 20 4) (q.fld 24 4) { owner := q.fld 16 1, table := q.fld 17 1 == 1 } s) := by
  have htable : bitOf (q.fld 17 1) 0 = (q.fld 17 1 == 1) := by
    have h : q.fld 17 1 = 0 ∨ q.fld 17 1 = 1 := by omega
    rcases h with h | h <;> rw [h] <;> rfl
  unfold frameGrantRun
  dsimp only
  rw [if_neg (by omega), if_neg (by simp [ha]), htable]
  rfl

/-- A run of free frames is granted. -/
theorem frameGrantRun_free
    (h : ∀ g ∈ s.mem.grants, g.2.isSome = true → g.1 < q.fld 20 4 ∨ q.fld 20 4 + q.fld 24 4 ≤ g.1) :
    frameGrantRun q s = finishPkt q.id 0 0 (q.fld 24 4)
      (grantRun (q.fld 20 4) (q.fld 24 4) { owner := q.fld 16 1, table := q.fld 17 1 == 1 } s) := by
  rw [frameGrantRun_checked ho ht hn hr ha, if_neg]
  simp only [List.any_eq_true, Bool.and_eq_true, decide_eq_true_eq]
  rintro ⟨g, hg, ⟨hsome, h1⟩, h2⟩
  have := h g hg hsome
  omega

/-- A run with an assigned frame is refused whole. -/
theorem frameGrantRun_assigned
    (h : ∃ g ∈ s.mem.grants, g.2.isSome = true ∧ q.fld 20 4 ≤ g.1 ∧ g.1 < q.fld 20 4 + q.fld 24 4) :
    frameGrantRun q s = finishPkt q.id 0x0227 0 0 s := by
  obtain ⟨g, hg, hsome, h1, h2⟩ := h
  rw [frameGrantRun_checked ho ht hn hr ha, if_pos]
  simp only [List.any_eq_true, Bool.and_eq_true, decide_eq_true_eq]
  exact ⟨g, hg, ⟨hsome, h1⟩, h2⟩

end Grant

section Revoke

variable {q : Inflight} {s : State} (hn : 0 < q.fld 24 4) (hr : q.fld 20 4 + q.fld 24 4 ≤ 99328)
include hn hr

theorem frameRevokeRun_mapped (h : runMapped s (q.fld 20 4) (q.fld 24 4) = true) :
    frameRevokeRun q s = finishPkt q.id 0x0222 0 0 s := by
  unfold frameRevokeRun
  dsimp only
  rw [if_neg (by omega), if_pos h]

theorem frameRevokeRun_unmapped (h : runMapped s (q.fld 20 4) (q.fld 24 4) = false) :
    frameRevokeRun q s = finishPkt q.id 0 0
      (s.mem.grants.length - (revokeRun (q.fld 20 4) (q.fld 24 4) s).mem.grants.length)
      (revokeRun (q.fld 20 4) (q.fld 24 4) s) := by
  rw [← revokeRun_length]
  unfold frameRevokeRun
  dsimp only
  rw [if_neg (by omega), if_neg (by simp [h])]
  rfl

end Revoke

/-! CLUSTER_LEASE and CLUSTER_RELEASE (R81, R82) -/

section Lease

variable {q : Inflight} {s : State} (ho : 0 < q.fld 16 1 ∧ q.fld 16 1 < 64)
  (hne : clustersOf (q.fld 48 16) ≠ [])
include ho hne

theorem leaseFields_pass : ¬ (q.fld 16 1 = 0 ∨ 64 ≤ q.fld 16 1 ∨ (clustersOf (q.fld 48 16)).isEmpty = true) := by
  rw [List.isEmpty_iff]
  rintro (h | h | h)
  · omega
  · omega
  · exact hne h

variable (ha : ownerActive s (q.fld 16 1) = true)
include ha

/-- A cluster that another owner holds refuses the whole lease. -/
theorem clusterLeaseRun_foreign
    (h : ∃ c ∈ clustersOf (q.fld 48 16), ∃ x, (leaseAt s c).owner = some x ∧ x ≠ q.fld 16 1) :
    clusterLeaseRun q s = finishPkt q.id 0x0223 0 0 s := by
  obtain ⟨c, hc, x, hx, hxo⟩ := h
  unfold clusterLeaseRun
  dsimp only
  rw [if_neg (leaseFields_pass ho hne), if_neg (by simp [ha]), if_pos]
  rw [List.any_eq_true]
  exact ⟨c, hc, by simp [hx, hxo]⟩

/-- Clusters that no other owner holds: the ones not yet the owner's change hands, and what clears is waited for. -/
theorem clusterLeaseRun_gives
    (h : ∀ c ∈ clustersOf (q.fld 48 16), (leaseAt s c).owner = none ∨ (leaseAt s c).owner = some (q.fld 16 1)) :
    clusterLeaseRun q s =
      let t := ((clustersOf (q.fld 48 16)).filter (fun c => (leaseAt s c).owner != some (q.fld 16 1))).foldl
        (fun t c => changeLease (some (q.fld 16 1)) c t) s
      let w := (clustersOf (q.fld 48 16)).filter (fun c => (leaseAt t c).clearing)
      if w.isEmpty then finishPkt q.id 0 0 0 t
      else updPkt q.id (fun x => { x with wait := .islandWork })
        { t with mem := { t.mem with leaseWaits := t.mem.leaseWaits ++ [{ id := q.id, clusters := w }] } } := by
  unfold clusterLeaseRun
  dsimp only
  rw [if_neg (leaseFields_pass ho hne), if_neg (by simp [ha]), if_neg]
  rw [List.any_eq_true]
  rintro ⟨c, hc, hx⟩
  rcases h c hc with e | e <;> simp [e] at hx

/-- Clusters that are the owner's and clear already are given at once. -/
theorem clusterLeaseRun_held (h : ∀ c ∈ clustersOf (q.fld 48 16),
    (leaseAt s c).owner = some (q.fld 16 1) ∧ (leaseAt s c).clearing = false) :
    clusterLeaseRun q s = finishPkt q.id 0 0 0 s := by
  have hnew : (clustersOf (q.fld 48 16)).filter (fun c => (leaseAt s c).owner != some (q.fld 16 1)) = [] :=
    List.filter_eq_nil_iff.2 fun c hc => by simp [(h c hc).1]
  have hwait : (clustersOf (q.fld 48 16)).filter (fun c => (leaseAt s c).clearing) = [] :=
    List.filter_eq_nil_iff.2 fun c hc => by simp [(h c hc).2]
  rw [clusterLeaseRun_gives ho hne ha fun c hc => .inr (h c hc).1]
  simp only [hnew, List.foldl_nil, hwait, List.isEmpty_nil, if_true]

/-- Free clusters change hands and clear; the packet waits for all of them. -/
theorem clusterLeaseRun_free (h : ∀ c ∈ clustersOf (q.fld 48 16), (leaseAt s c).owner = none) :
    clusterLeaseRun q s =
      let t := (clustersOf (q.fld 48 16)).foldl (fun t c => changeLease (some (q.fld 16 1)) c t) s
      updPkt q.id (fun x => { x with wait := .islandWork }) { t with mem := { t.mem with
        leaseWaits := t.mem.leaseWaits ++ [{ id := q.id, clusters := clustersOf (q.fld 48 16) }] } } := by
  have hnew : (clustersOf (q.fld 48 16)).filter (fun c => (leaseAt s c).owner != some (q.fld 16 1)) =
      clustersOf (q.fld 48 16) := List.filter_eq_self.2 fun c hc => by simp [h c hc]
  have hwait : (clustersOf (q.fld 48 16)).filter (fun c => (leaseAt ((clustersOf (q.fld 48 16)).foldl
      (fun t c => changeLease (some (q.fld 16 1)) c t) s) c).clearing) = clustersOf (q.fld 48 16) :=
    List.filter_eq_self.2 fun c hc => by rw [leaseAt_fold, if_pos hc]
  rw [clusterLeaseRun_gives ho hne ha fun c hc => .inl (h c hc)]
  simp only [hnew, hwait, List.isEmpty_iff, hne, if_false]

end Lease

/-- The leased clusters among those that a packet names. -/
def heldClusters (q : Inflight) (s : State) : List Nat :=
  (clustersOf (q.fld 48 16)).filter (fun c => (leaseAt s c).owner.isSome)

/-- Leased clusters become free, and clear. -/
def releaseAll (l : List Nat) (s : State) : State := l.foldl (fun t c => changeLease none c t) s

section Release

variable {q : Inflight} {s : State} (hne : clustersOf (q.fld 48 16) ≠ [])
include hne

theorem releaseFields_pass (hf : q.fld 17 1 < 2) : ¬ ((clustersOf (q.fld 48 16)).isEmpty = true ∨ 2 ≤ q.fld 17 1) := by
  rw [List.isEmpty_iff]
  rintro (h | h)
  · exact hne h
  · omega

/-- Resident groups refuse a release without FORCE. -/
theorem clusterReleaseRun_resident (hf : q.fld 17 1 = 0) (h : ∃ c ∈ heldClusters q s, groupsIn s c ≠ 0) :
    clusterReleaseRun q s = finishPkt q.id 0x0224 0 0 s := by
  obtain ⟨c, hc, hg⟩ := h
  unfold clusterReleaseRun
  dsimp only
  rw [if_neg (releaseFields_pass hne (by omega)), if_pos]
  rw [Bool.and_eq_true, List.any_eq_true, hf]
  exact ⟨rfl, c, hc, by simpa using hg⟩

/-- Clusters without groups are released at once. -/
theorem clusterReleaseRun_empty (hf : q.fld 17 1 = 0) (h : ∀ c ∈ heldClusters q s, groupsIn s c = 0) :
    clusterReleaseRun q s = finishPkt q.id 0 0 0 (releaseAll (heldClusters q s) s) := by
  unfold clusterReleaseRun
  dsimp only
  rw [if_neg (releaseFields_pass hne (by omega)), if_neg, hf]
  · rfl
  · rw [Bool.and_eq_true, List.any_eq_true]
    rintro ⟨-, c, hc, hg⟩
    simp [h c hc] at hg

/-- FORCE stops what runs on the clusters before they are released. -/
theorem clusterReleaseRun_force (hf : q.fld 17 1 = 1) :
    clusterReleaseRun q s = finishPkt q.id 0 0 0
      (releaseAll (heldClusters q s) ((heldClusters q s).foldl (fun t c => forceCluster c t) s)) := by
  have hforce : bitOf (q.fld 17 1) 0 = true := by rw [hf]; rfl
  unfold clusterReleaseRun
  dsimp only
  rw [if_neg (releaseFields_pass hne (by omega)), if_neg (by simp [hforce]), if_pos hforce]
  rfl

end Release

/-! SCRATCH_CLEAR_DONE (R81) -/

/-- A cluster's scratch reads 0 and holds no poison. -/
def zeroScratch (c : Nat) (s : State) : State :=
  { s with mem := { s.mem with
      cells := s.mem.cells.filter (fun x => decide (x.1 < scratchDpa c) || decide (scratchDpa c + 0x400000 ≤ x.1))
      poisonScratch := s.mem.poisonScratch.filter (fun u =>
        decide (u * 16 < scratchDpa c) || decide (scratchDpa c + 0x400000 ≤ u * 16)) } }

theorem cells_zeroScratch (c a : Nat) (s : State) : Tbl.get 0 (zeroScratch c s).mem.cells a =
    if scratchDpa c ≤ a ∧ a < scratchDpa c + 0x400000 then 0 else Tbl.get 0 s.mem.cells a := by
  refine (get_filter 0 (fun k => decide (k < scratchDpa c) || decide (scratchDpa c + 0x400000 ≤ k)) s.mem.cells
    a).trans ?_
  by_cases h : scratchDpa c ≤ a ∧ a < scratchDpa c + 0x400000
  · rw [if_pos h, if_neg]
    simp only [Bool.or_eq_true, decide_eq_true_eq]
    omega
  · rw [if_neg h, if_pos]
    simp only [Bool.or_eq_true, decide_eq_true_eq]
    omega

/-- A clear that ends zeroes the scratch and completes what waited for it alone. -/
theorem scratchCleared_clears {s : State} {c : Nat} (hf : fclkRuns s = true) (hc : (leaseAt s c).clearing = true)
    (hch : ∀ ch ∈ clusterChans c, chainsAt s ch = []) :
    scratchCleared c s =
      settleLeases (updLease c (fun l => { l with clearing := false }) (clearGrid c (zeroScratch c s))) := by
  have hidle : (clusterChans c).any (fun ch => !(chainsAt s ch).isEmpty) = false :=
    List.any_eq_false.2 fun ch h => by simp [hch ch h]
  unfold scratchCleared
  rw [if_neg (by simp [hf, hc, hidle])]
  rfl

/-- Settles O14: the checks of each packet go one by one; a grant, a lease and a clear change the entries they name. -/
theorem framesAndClustersAreGivenOut : Obligations.FramesAndClustersAreGivenOut := by
  refine ⟨fun s r p rest hi => ?frames, fun s r p rest hi => ?clusters, fun s c hf hc hch => ?clear⟩
  case frames =>
    intro t first n
    refine ⟨fun hf ho1 ho2 ht hn hr ha => ?grant, fun hf hn hr => ?revoke⟩
    case grant =>
      have ha' : ownerActive t ((inflightOfPacket s r p).fld 16 1) = true := ha
      have hexec : exec (.frameGrant r) s = done (frameGrantRun (inflightOfPacket s r p) t) :=
        congrArg done (islandRow_runs hf hi frameGrantRun)
      rw [hexec]
      exact ⟨fun h => ⟨_, congrArg done (frameGrantRun_free ⟨ho1, ho2⟩ ht hn hr ha' h), rfl,
          fun f => grantAt_grantRun first n f _ t⟩,
        fun h => congrArg done (frameGrantRun_assigned ⟨ho1, ho2⟩ ht hn hr ha' h)⟩
    case revoke =>
      have hexec : exec (.frameRevoke r) s = done (frameRevokeRun (inflightOfPacket s r p) t) :=
        congrArg done (islandRow_runs hf hi frameRevokeRun)
      rw [hexec]
      exact ⟨fun h => ⟨_, congrArg done (frameRevokeRun_unmapped (s := t) hn hr h), rfl,
          fun f => grantAt_revokeRun first n f t⟩,
        fun h => congrArg done (frameRevokeRun_mapped (s := t) hn hr h)⟩
  case clusters =>
    intro t o cs held
    refine ⟨fun hf ho1 ho2 hne ha => ?lease, fun hf hne => ?release⟩
    case lease =>
      have ha' : ownerActive t ((inflightOfPacket s r p).fld 16 1) = true := ha
      have hexec : exec (.clusterLease r) s = done (clusterLeaseRun (inflightOfPacket s r p) t) :=
        congrArg done (islandRow_runs hf hi clusterLeaseRun)
      rw [hexec]
      refine ⟨fun h => congrArg done (clusterLeaseRun_held ⟨ho1, ho2⟩ hne ha' h), fun h => ?_,
        fun h => congrArg done (clusterLeaseRun_foreign ⟨ho1, ho2⟩ hne ha' h)⟩
      exact ⟨fun c hc => (leaseAt_fold (some o) cs c t).trans (if_pos hc),
        congrArg done (clusterLeaseRun_free ⟨ho1, ho2⟩ hne ha' h)⟩
    case release =>
      have hexec : exec (.clusterRelease r) s = done (clusterReleaseRun (inflightOfPacket s r p) t) :=
        congrArg done (islandRow_runs hf hi clusterReleaseRun)
      rw [hexec]
      exact ⟨fun hforce h => congrArg done (clusterReleaseRun_resident (s := t) hne hforce h),
        fun hforce h => congrArg done (clusterReleaseRun_empty (s := t) hne hforce h),
        fun hforce => congrArg done (clusterReleaseRun_force (s := t) hne hforce)⟩
  case clear =>
    exact ⟨zeroScratch c s, congrArg done ((if_pos hf).trans (scratchCleared_clears hf hc hch)), rfl,
      fun a => cells_zeroScratch c a s⟩

end Sys2Proof.Proofs
end

section
/-! Chapter 3: MAP and UNMAP (R72, R202). -/

namespace Sys2Proof.Proofs

open Sys2Proof Sys2Proof.Machine Sys2Proof.Safety Sys2Proof.Laws

/-- A packet's owner may name the owner in its byte 16 (R65). -/
def namesOwn (q : Inflight) : Prop := q.fld 16 1 < 64 ∧ (q.owner = 0 ∨ q.fld 16 1 = q.owner)

/-! MAP -/

/-- The fields of a MAP packet hold values that R202 allows. -/
def MapLegal (q : Inflight) : Prop :=
  namesOwn q ∧ q.fld 17 1 < 8 ∧ q.fld 18 1 < 4 ∧ 0 < q.fld 20 4 ∧ q.fld 20 4 ≤ 2 ^ 20 ∧ q.fld 32 8 / 2 ^ 48 < 64

/-- The pages of a MAP packet are aligned and end within both address spaces. -/
def MapAligned (q : Inflight) : Prop :=
  q.fld 24 8 % pageSize (q.fld 18 1) = 0 ∧ q.fld 32 8 % 2 ^ 48 % pageSize (q.fld 18 1) = 0 ∧
  q.fld 24 8 + q.fld 20 4 * pageSize (q.fld 18 1) ≤ 2 ^ 48 ∧
  q.fld 32 8 % 2 ^ 48 + q.fld 20 4 * pageSize (q.fld 18 1) ≤ 2 ^ 48

/-- The check of a MAP packet's target, where it lies on this chip. -/
def mapRefusal (q : Inflight) (s : State) : Option Nat :=
  if q.fld 32 8 / 2 ^ 48 = s.elk.selfId then
    mapTargetError s (q.fld 16 1) (q.fld 32 8 % 2 ^ 48) (q.fld 20 4) (q.fld 18 1)
  else none

/-- A leaf of the owner lies in the range that a MAP packet names. -/
def mapOverlaps (q : Inflight) (s : State) : Bool :=
  s.mem.leaves.any (leafMeets (q.fld 16 1) (q.fld 24 8) (q.fld 24 8 + q.fld 20 4 * pageSize (q.fld 18 1)))

/-- The leaves that a MAP packet names. -/
def mapLeaves (q : Inflight) : List Leaf :=
  (List.range (q.fld 20 4)).map (fun i =>
    { owner := q.fld 16 1, dva := q.fld 24 8 + i * pageSize (q.fld 18 1), ps := q.fld 18 1,
      chip := q.fld 32 8 / 2 ^ 48, dpa := q.fld 32 8 % 2 ^ 48 + i * pageSize (q.fld 18 1), perm := q.fld 17 1 })

section Map

variable {q : Inflight} {s : State} (hl : MapLegal q)
include hl

theorem MapLegal.passes : ¬ (64 ≤ q.fld 16 1 ∨ (q.owner ≠ 0 ∧ q.fld 16 1 ≠ q.owner) ∨ 8 ≤ q.fld 17 1 ∨
    4 ≤ q.fld 18 1 ∨ q.fld 20 4 = 0 ∨ 2 ^ 20 < q.fld 20 4 ∨ 2 ^ 54 ≤ q.fld 32 8) := by
  obtain ⟨⟨ho, hown⟩, hperm, hps, hn, hn', hchip⟩ := hl
  omega

theorem mapRun_inactive (ha : ownerActive s (q.fld 16 1) = false) : mapRun q s = finishPkt q.id 0x0225 0 0 s := by
  unfold mapRun
  dsimp only
  rw [if_neg hl.passes, if_pos (by simp [ha])]

variable (ha : ownerActive s (q.fld 16 1) = true)
include ha

theorem mapRun_misaligned (h : ¬ MapAligned q) : mapRun q s = finishPkt q.id 0x0321 0 0 s := by
  have h' : q.fld 24 8 % pageSize (q.fld 18 1) ≠ 0 ∨ q.fld 32 8 % 2 ^ 48 % pageSize (q.fld 18 1) ≠ 0 ∨
      2 ^ 48 < q.fld 24 8 + q.fld 20 4 * pageSize (q.fld 18 1) ∨
      2 ^ 48 < q.fld 32 8 % 2 ^ 48 + q.fld 20 4 * pageSize (q.fld 18 1) := by
    unfold MapAligned at h
    omega
  unfold mapRun
  dsimp only
  rw [if_neg hl.passes, if_neg (by simp [ha]), if_pos h']

variable (hal : MapAligned q)
include hal

/-- MAP after its checks of the fields, the owner and the ranges. -/
theorem mapRun_aligned : mapRun q s =
    match mapRefusal q s with
    | some e => finishPkt q.id e 0 0 s
    | none =>
      if mapOverlaps q s then finishPkt q.id 0x0220 0 0 s
      else
        match putLeaves (mapLeaves q) s with
        | none => finishPkt q.id 0x0221 0 0 s
        | some t => finishPkt q.id 0 0 (q.fld 20 4) t := by
  have h' : ¬ (q.fld 24 8 % pageSize (q.fld 18 1) ≠ 0 ∨ q.fld 32 8 % 2 ^ 48 % pageSize (q.fld 18 1) ≠ 0 ∨
      2 ^ 48 < q.fld 24 8 + q.fld 20 4 * pageSize (q.fld 18 1) ∨
      2 ^ 48 < q.fld 32 8 % 2 ^ 48 + q.fld 20 4 * pageSize (q.fld 18 1)) := by
    unfold MapAligned at hal
    omega
  unfold mapRun
  dsimp only
  rw [if_neg hl.passes, if_neg (by simp [ha]), if_neg h']
  rfl

theorem mapRun_refused {e : Nat} (h : mapRefusal q s = some e) : mapRun q s = finishPkt q.id e 0 0 s := by
  simp only [mapRun_aligned hl ha hal, h]

variable (hr : mapRefusal q s = none)
include hr

theorem mapRun_overlaps (h : mapOverlaps q s = true) : mapRun q s = finishPkt q.id 0x0220 0 0 s := by
  simp only [mapRun_aligned hl ha hal, hr, h, if_true]

variable (ho : mapOverlaps q s = false)
include ho

theorem mapRun_noTable (h : putLeaves (mapLeaves q) s = none) : mapRun q s = finishPkt q.id 0x0221 0 0 s := by
  simp only [mapRun_aligned hl ha hal, hr, ho, Bool.false_eq_true, if_false, h]

theorem mapRun_maps {t : State} (h : putLeaves (mapLeaves q) s = some t) :
    mapRun q s = finishPkt q.id 0 0 (q.fld 20 4) t := by
  simp only [mapRun_aligned hl ha hal, hr, ho, Bool.false_eq_true, if_false, h]

end Map

/-! UNMAP -/

/-- The fields of an UNMAP packet hold values that R202 allows. -/
def UnmapLegal (q : Inflight) : Prop :=
  namesOwn q ∧ q.fld 24 8 % 4096 = 0 ∧ q.fld 32 8 % 4096 = 0 ∧ q.fld 32 8 ≠ 0

/-- The leaves that an UNMAP packet's range meets. -/
def unmapHit (q : Inflight) (s : State) : List Leaf :=
  s.mem.leaves.filter (leafMeets (q.fld 16 1) (q.fld 24 8) (q.fld 24 8 + q.fld 32 8))

/-- The met leaves are taken out, and what the range leaves of them is put back. -/
def unmapCut (q : Inflight) (s : State) : Option State :=
  putLeaves ((unmapHit q s).flatMap (leafLeft (q.fld 24 8) (q.fld 24 8 + q.fld 32 8)))
    ((unmapHit q s).foldl (fun t l => dropLeaf l t) s)

/-- The 4 KiB pages that an UNMAP packet takes away. -/
def unmapGone (q : Inflight) (s : State) : Nat :=
  (unmapHit q s).foldl (fun k l =>
    k + (min (q.fld 24 8 + q.fld 32 8) (l.dva + pageSize l.ps) - max (q.fld 24 8) l.dva) / 4096) 0

/-- Table pages that no leaf of the owner needs return to its pool, from the leaves' level up. -/
def freeAllTables (o : Nat) (s : State) : State := freeTables o 0 (freeTables o 1 (freeTables o 2 (freeTables o 3 s)))

section Unmap

variable {q : Inflight} {s : State} (hl : UnmapLegal q)
include hl

theorem UnmapLegal.passes : ¬ (64 ≤ q.fld 16 1 ∨ (q.owner ≠ 0 ∧ q.fld 16 1 ≠ q.owner) ∨ q.fld 24 8 % 4096 ≠ 0 ∨
    q.fld 32 8 % 4096 ≠ 0 ∨ q.fld 32 8 = 0) := by
  obtain ⟨⟨ho, hown⟩, ha, hn, hn'⟩ := hl
  omega

theorem unmapRun_inactive (ha : ownerActive s (q.fld 16 1) = false) : unmapRun q s = finishPkt q.id 0x0225 0 0 s := by
  unfold unmapRun
  dsimp only
  rw [if_neg hl.passes, if_pos (by simp [ha])]

variable (ha : ownerActive s (q.fld 16 1) = true)
include ha

theorem unmapRun_beyond (h : 2 ^ 48 < q.fld 24 8 + q.fld 32 8) : unmapRun q s = finishPkt q.id 0x0321 0 0 s := by
  unfold unmapRun
  dsimp only
  rw [if_neg hl.passes, if_neg (by simp [ha]), if_pos h]

variable (hb : q.fld 24 8 + q.fld 32 8 ≤ 2 ^ 48)
include hb

/-- UNMAP after its checks of the fields, the owner and the range. -/
theorem unmapRun_within : unmapRun q s =
    match unmapCut q s with
    | none => finishPkt q.id 0x0221 0 0 s
    | some t => settleUnmaps (updPkt q.id (fun x => { x with wait := .islandWork, lastWord := unmapGone q s })
        (freeAllTables (q.fld 16 1) t)) := by
  unfold unmapRun
  dsimp only
  rw [if_neg hl.passes, if_neg (by simp [ha]), if_neg (Nat.not_lt.2 hb)]
  rfl

theorem unmapRun_noTable (h : unmapCut q s = none) : unmapRun q s = finishPkt q.id 0x0221 0 0 s := by
  simp only [unmapRun_within hl ha hb, h]

theorem unmapRun_unmaps {t : State} (h : unmapCut q s = some t) :
    unmapRun q s = settleUnmaps (updPkt q.id (fun x => { x with wait := .islandWork, lastWord := unmapGone q s })
      (freeAllTables (q.fld 16 1) t)) := by
  simp only [unmapRun_within hl ha hb, h]

end Unmap

/-- Settles O15: the checks of a MAP or UNMAP packet go one by one, and past the last one the leaves are written. -/
theorem mappingsAreMadeAndRemoved : Obligations.MappingsAreMadeAndRemoved := by
  intro s r p rest hi t o ps n dva dpa chip size own
  have hact : ∀ b, ownerActive s o = b → ownerActive t o = b := fun _ h => h
  refine ⟨fun hf hown hperm hps hn hn' hchip => ?map, fun hf hown => ?unmap⟩
  case map =>
    have hl : MapLegal (inflightOfPacket s r p) := ⟨⟨hown.1, hown.2⟩, hperm, hps, hn, hn', hchip⟩
    have hexec : exec (.map r) s = done (mapRun (inflightOfPacket s r p) t) :=
      congrArg done (islandRow_runs hf hi mapRun)
    rw [hexec]
    refine ⟨fun ha => congrArg done (mapRun_inactive hl (hact _ ha)), fun ha h => ?misaligned,
      fun ha h1 h2 h3 h4 => ?aligned⟩
    case misaligned =>
      have hmis : ¬ MapAligned (inflightOfPacket s r p) := fun ⟨h1, h2, h3, h4⟩ =>
        h.elim (· h1) (·.elim (· h2) (·.elim (Nat.not_lt.2 h3) (Nat.not_lt.2 h4)))
      exact congrArg done (mapRun_misaligned hl (hact _ ha) hmis)
    case aligned =>
      have hal : MapAligned (inflightOfPacket s r p) := ⟨h1, h2, h3, h4⟩
      refine ⟨fun e hc he => congrArg done (mapRun_refused hl (hact _ ha) hal ((if_pos hc).trans he)), fun hc => ?_⟩
      have hr : mapRefusal (inflightOfPacket s r p) t = none :=
        hc.elim (fun hc => if_neg hc) (fun hc => ite_eq_right_iff.2 fun _ => hc)
      refine ⟨fun ho => congrArg done (mapRun_overlaps hl (hact _ ha) hal hr ho),
        fun ho => ⟨fun h => congrArg done (mapRun_noTable hl (hact _ ha) hal hr ho h), fun u h => ?_⟩⟩
      obtain ⟨hleaves, hgrants, hleases⟩ := putLeaves_frame _ t u h
      exact ⟨hleaves, hgrants, hleases, congrArg done (mapRun_maps hl (hact _ ha) hal hr ho h)⟩
  case unmap =>
    intro a k ha hk hk'
    have hl : UnmapLegal (inflightOfPacket s r p) := ⟨⟨hown.1, hown.2⟩, ha, hk, hk'⟩
    have hexec : exec (.unmap r) s = done (unmapRun (inflightOfPacket s r p) t) :=
      congrArg done (islandRow_runs hf hi unmapRun)
    rw [hexec]
    exact ⟨fun ha => congrArg done (unmapRun_inactive hl (hact _ ha)),
      fun ha hb => congrArg done (unmapRun_beyond hl (hact _ ha) hb),
      fun ha hb => ⟨fun h => congrArg done (unmapRun_noTable hl (hact _ ha) hb h),
        fun u h => congrArg done (unmapRun_unmaps hl (hact _ ha) hb h)⟩⟩

end Sys2Proof.Proofs
end

section
/-! Chapter 3: the host window within one line (R73, R85, R162). -/

namespace Sys2Proof.Proofs

open Sys2Proof Sys2Proof.Machine Sys2Proof.Safety Sys2Proof.Laws

/-- R85: the three ranges of a physical window and the addresses beyond them. -/
theorem windowPhys_ranges (wa : Nat) : (wa < 0x30_0000_0000 → windowPhys wa = some wa) ∧
    (0x30_0000_0000 ≤ wa → wa < 0x30_8000_0000 → windowPhys wa = some (wa - 0x30_0000_0000 + 0x40_0000_0000)) ∧
    (0x30_8000_0000 ≤ wa → wa < 0x30_A000_0000 → windowPhys wa = some (wa - 0x30_8000_0000 + 0x48_0000_0000)) ∧
    (0x30_A000_0000 ≤ wa → windowPhys wa = none) := by
  unfold windowPhys
  refine ⟨fun h => ?_, fun h h' => ?_, fun h h' => ?_, fun h => ?_⟩
  · rw [if_pos h]
  · rw [if_neg (by omega), if_pos h']
  · rw [if_neg (by omega), if_neg (by omega), if_pos h']
  · rw [if_neg (by omega), if_neg (by omega), if_neg (by omega)]

@[simp] theorem readMem_length (s : State) (o a n : Nat) : (readMem s o a n).length = n := by
  simp [readMem, run]

/-! Pieces: an access within one line is one -/

theorem windowError_fails {s : State} {acc a : Nat} {bs : List Byte} {e : AccessErr}
    (h : windowTarget s a acc = .error e) : windowError s acc [(a, bs)] = some (a, e) := by
  simp [windowError, h]

theorem windowError_passes {s : State} {acc a : Nat} {bs : List Byte} {x : Target}
    (h : windowTarget s a acc = .ok x) : windowError s acc [(a, bs)] = none := by
  simp [windowError, h]

/-! Reads -/

/-- A read that the path or BAR2 turns away. -/
theorem windowRead_unsupported {s : State} {off n : Nat} (ecc : Ecc)
    (h : fnPath s 0 = .unsupported ∨ fnPath s 0 = .serves ∧ windowSize s < off + n) :
    windowRead off n ecc s = emit (.answer (.fn 0) off .unsupported) s := by
  rcases h with h | ⟨h, hs⟩
  · simp only [windowRead, h]
  · simp only [windowRead, h, if_pos hs]

section Reads

variable {s : State} {off n : Nat} (ecc : Ecc) (hpath : fnPath s 0 = .serves) (hsize : off + n ≤ windowSize s)
include hpath hsize

/-- A shut window reads all ones. -/
theorem windowRead_shut (h : windowOpen s = false) :
    windowRead off n ecc s = emit (.answer (.fn 0) off (.ok (2 ^ (8 * n) - 1))) s := by
  simp only [windowRead, hpath, if_neg (Nat.not_lt.2 hsize), h, Bool.not_false, if_true]

variable (hn : 0 < n) (hline : windowAddr s off % 64 + n ≤ 64) (hopen : windowOpen s = true)
include hn hline hopen

/-- A read whose target is a violation or a fault is aborted. -/
theorem windowRead_fails {e : AccessErr} (h : windowTarget s (windowAddr s off) 1 = .error e) :
    windowRead off n ecc s = emit (.answer (.fn 0) off .abort) (windowFails (windowAddr s off) 1 e s) := by
  have hz : (zeros n).length = n := by simp [zeros]
  simp only [windowRead, hpath, if_neg (Nat.not_lt.2 hsize), hopen, Bool.not_true, Bool.false_eq_true, if_false,
    chunks_line n _ _ hn hz hline, windowError_fails h]

variable {x : Target} (ht : windowTarget s (windowAddr s off) 1 = .ok x) (hroom : s.elk.outstanding.length < 8192)
include ht hroom

/-- A read that the link has room for is its one piece: the piece answers its bytes, or waits for another chip's. -/
theorem windowRead_piece {t : State} {d : List Byte} {q : Bool}
    (h : windowReadPiece ecc (windowAddr s off) n s = (t, d, q, none)) :
    windowRead off n ecc s =
      if d = [] then t else emit (.answer (.fn 0) off (if q = true then .poisoned (ofLe d) else .ok (ofLe d))) t := by
  have hz : (zeros n).length = n := by simp [zeros]
  have hfull : ¬ 8192 < s.elk.outstanding.length + 1 := by omega
  simp only [windowRead, hpath, if_neg (Nat.not_lt.2 hsize), hopen, Bool.not_true, Bool.false_eq_true, if_false,
    chunks_line n _ _ hn hz hline, windowError_passes ht, List.length_singleton, if_neg hfull, windowReadPieces, hz, h]
  cases d <;> cases q <;> simp

end Reads

/-! One piece -/

section Pieces

variable {s : State} {a : Nat}

/-- A piece in this chip's memory reads the bytes there. -/
theorem windowReadPiece_here {dpa : Nat} (ecc : Ecc) (n : Nat) (ht : windowTarget s a 1 = .ok (.here dpa))
    (hreg : regionOf dpa ≠ some .regs) :
    windowReadPiece ecc a n s =
      (applyEcc ecc dpa (countBytes dpa n false s),
        readMem (applyEcc ecc dpa (countBytes dpa n false s))
          (windowOwner (applyEcc ecc dpa (countBytes dpa n false s))) dpa n,
        (poisonIn (applyEcc ecc dpa (countBytes dpa n false s)) dpa n).isSome, none) := by
  simp only [windowReadPiece, ht, if_neg hreg]

/-- A piece on another chip leaves as a request. -/
theorem windowReadPiece_away {chip dpa : Nat} {t : State} (ecc : Ecc) (n : Nat)
    (ht : windowTarget s a 1 = .ok (.away chip dpa))
    (hsent : remoteIssue (.window (a - rawAt s 0x200018) n) chip dpa (windowOwner s) 1 (.read n) s = .sent t) :
    windowReadPiece ecc a n s = (t, [], false, none) := by
  simp only [windowReadPiece, ht, hsent]

/-- A piece in this chip's memory is stored there. -/
theorem windowWritePiece_here {dpa : Nat} (cons : Cons) (bs : List Byte) (ht : windowTarget s a 2 = .ok (.here dpa))
    (hreg : regionOf dpa ≠ some .regs) :
    windowWritePiece cons a bs s = deviceWrite notThread (windowOwner s) dpa bs s := by
  simp only [windowWritePiece, ht, if_neg hreg]

end Pieces

/-! Writes -/

section Writes

variable {s : State} {off : Nat} {bs : List Byte} (cons : Cons)

/-- A write that no open window takes is dropped. -/
theorem windowWrite_dropped (h : fnPath s 0 ≠ .serves ∨ windowSize s < off + bs.length ∨ windowOpen s = false) :
    windowWrite cons off bs s = s := by
  unfold windowWrite
  split
  · rename_i hpath
    rw [if_pos]
    rcases h with h | h | h
    · exact absurd hpath h
    · simp [h]
    · simp [h]
  · rfl

variable (hpath : fnPath s 0 = .serves) (hsize : off + bs.length ≤ windowSize s) (hopen : windowOpen s = true)
  (hn : 0 < bs.length) (hline : windowAddr s off % 64 + bs.length ≤ 64)
include hpath hsize hopen hn hline

/-- A write whose target is a violation or a fault is dropped whole. -/
theorem windowWrite_fails {e : AccessErr} (h : windowTarget s (windowAddr s off) 2 = .error e) :
    windowWrite cons off bs s = windowFails (windowAddr s off) 2 e s := by
  have hfits : ¬ windowSize s < off + bs.length := by omega
  simp only [windowWrite, hpath, hfits, hopen, decide_false, Bool.not_true, Bool.or_self, Bool.false_eq_true, if_false,
    chunks_line _ _ _ hn rfl hline, windowError_fails h]

/-- A write that the link has room for is its one piece. -/
theorem windowWrite_piece {x : Target} (ht : windowTarget s (windowAddr s off) 2 = .ok x)
    (hroom : s.elk.outstanding.length < 8192) :
    windowWrite cons off bs s = windowWritePiece cons (windowAddr s off) bs s := by
  have hfits : ¬ windowSize s < off + bs.length := by omega
  have hfull : ¬ 8192 < s.elk.outstanding.length + 1 := by omega
  simp only [windowWrite, hpath, hfits, hopen, decide_false, Bool.not_true, Bool.or_self, Bool.false_eq_true, if_false,
    chunks_line _ _ _ hn rfl hline, windowError_passes ht, List.length_singleton, if_neg hfull, List.foldl_cons,
    List.foldl_nil]

end Writes

/-- Settles O16: an access within one line is one piece, whose target decides between the answer, the fault, the store
and the request to another chip. -/
theorem hostWindowAccesses : Obligations.HostWindowAccesses := by
  refine ⟨windowPhys_ranges, fun s off n ecc hn hline => ?reads, fun s cons off bs hn hline => ?writes⟩
  case reads =>
    refine ⟨fun h => congrArg done ?dead, fun h => congrArg done ?abort,
      fun h => congrArg done (windowRead_unsupported ecc h), fun hpath hsize => ?served⟩
    case dead => simp only [windowRead, h]
    case abort => simp only [windowRead, h]
    case served =>
      refine ⟨fun hopen => congrArg done (windowRead_shut ecc hpath hsize hopen),
        fun e hopen he => congrArg done (windowRead_fails ecc hpath hsize hn hline hopen he),
        fun dpa hopen ht hreg hroom => congrArg done ?here, fun chip dpa t hopen ht hroom hsent => congrArg done ?away⟩
      case here =>
        rw [windowRead_piece ecc hpath hsize hn hline hopen ht hroom (windowReadPiece_here ecc n ht hreg), if_neg]
        exact fun h => absurd (congrArg List.length h) (by simp only [readMem_length, List.length_nil]; omega)
      case away =>
        rw [windowRead_piece ecc hpath hsize hn hline hopen ht hroom (windowReadPiece_away ecc n ht hsent), if_pos rfl]
  case writes =>
    refine ⟨fun h => congrArg done (windowWrite_dropped cons h), fun hpath hsize hopen =>
      ⟨fun e he => congrArg done (windowWrite_fails cons hpath hsize hopen hn hline he),
        fun dpa ht hreg hroom => congrArg done ?_⟩⟩
    rw [windowWrite_piece cons hpath hsize hopen hn hline ht hroom, windowWritePiece_here cons bs ht hreg]

end Sys2Proof.Proofs
end

section
/-! The block between commands: what settles, whatever the command was (R59, R239, R401, R475). -/

namespace Sys2Proof.Proofs

open Sys2Proof Sys2Proof.Machine Sys2Proof.Safety Sys2Proof.Laws

/-- Every command ends with what the block does by itself. -/
theorem exec_settles (c : Instr) (s : State) : ∃ t, exec c s = .next (settle t) := by
  cases c <;> exact ⟨_, rfl⟩

/-! Events (R475) -/

/-- No event that should have gone out waits. -/
def EventsSent (s : State) : Prop :=
  islandRuns s = true → s.mgp.dest.isSome = true → (eventSlot s).isSome = true →
    ∀ e ∈ s.mgp.events, eventEnabled s e.code = true → e.sent = true

/-- Whether events wait depends on the management port, power and boot alone. -/
theorem eventsSent_of_link {s t : State} (h : LinkFrame s t) (he : EventsSent s) : EventsSent t := by
  obtain ⟨-, -, hmgp, hpwr, hboot⟩ := h
  simp only [EventsSent, islandRuns, romRuns, standby, eventSlot, eventEnabled, hmgp, hpwr, hboot] at he ⊢
  exact he

/-- Sending an event leaves which classes are enabled. -/
theorem eventEnabled_of_frame {s t : State} (h : EventFrame s t) (code : Nat) :
    eventEnabled t code = eventEnabled s code := by
  simp only [eventEnabled, h.mask]

/-- Every event of an enabled class counts as sent. -/
def markSent (s : State) : State :=
  updMgp (fun m => { m with
    events := updWhere (fun e => eventEnabled s e.code) (fun e => { e with sent := true }) m.events }) s

theorem eventsSent_markSent (s : State) : EventsSent (markSent s) := by
  intro _ _ _ e he hen
  obtain ⟨x, -, rfl⟩ := List.mem_map.1 he
  by_cases hx : eventEnabled s x.code = true
  · simp [hx]
  · simp only [if_neg hx] at hen
    exact absurd hen hx

/-- Events stay where they cannot go out; else they are sent and marked. -/
theorem settleEvents_cases (s : State) :
    (settleEvents s = s ∧ ¬ (islandRuns s = true ∧ s.mgp.dest.isSome = true ∧ (eventSlot s).isSome = true)) ∨
      ∃ t, EventFrame s t ∧ settleEvents s = markSent t := by
  unfold settleEvents
  split
  · rename_i h
    refine .inl ⟨rfl, fun ⟨hi, hd, hs⟩ => ?_⟩
    rw [Option.isSome_iff_ne_none] at hd hs
    simp [hi, hd, hs] at h
  · have hframe := sendEvents_frame (s.mgp.events.filter (fun e => !e.sent && eventEnabled s e.code)) s
    refine .inr ⟨_, hframe, ?_⟩
    simp only [markSent, eventEnabled_of_frame hframe]

theorem eventsSent_settleEvents (s : State) : EventsSent (settleEvents s) := by
  rcases settleEvents_cases s with ⟨e, h⟩ | ⟨t, -, e⟩
  · rw [e]
    exact fun hi hd hs => absurd ⟨hi, hd, hs⟩ h
  · rw [e]
    exact eventsSent_markSent t

/-- Sending events keeps the mirror and the phase timebase. -/
theorem settleEvents_frame (s : State) : (settleEvents s).mirror = s.mirror ∧ (settleEvents s).ptu = s.ptu := by
  rcases settleEvents_cases s with ⟨e, -⟩ | ⟨t, h, e⟩
  · rw [e]
    exact ⟨rfl, rfl⟩
  · rw [e]
    exact ⟨h.mirror, h.ptu⟩

/-! Self-fence (R239) -/

/-- A self-fence that stays while the link runs has something outstanding. -/
theorem settleElk_fence_outstanding (s : State) (hf : (settleElk s).elk.selfFence = true)
    (hl : linkRuns (settleElk s) = true) : (settleElk s).elk.outstanding ≠ [] := by
  obtain ⟨hsame, h⟩ := settleElk_fence s hf
  rw [hsame] at hl ⊢
  exact h.resolve_right (fun hoff => Bool.false_ne_true (hoff.symm.trans hl))

/-! The whole -/

/-- Once the mirror and the strobes have gone, events and the link make the block settled. -/
theorem settled_links {s : State} (hm : s.mirror = []) (hp : s.ptu.overStarts = []) :
    Settled (settleElk (settleEvents s)) := by
  have hlink := settleElk_link (settleEvents s)
  obtain ⟨hmirror, hptu⟩ := settleEvents_frame s
  exact ⟨(hlink.mirror.trans hmirror).trans hm, by rw [hlink.ptu, hptu, hp],
    eventsSent_of_link hlink (eventsSent_settleEvents s), settleElk_fence_outstanding _⟩

/-- What the block does by itself leaves it settled, from any state. -/
theorem settled_settle (s : State) : Settled (settle s) := by
  have hstrobes : ∀ u,
      (if romRuns (settleFbc u) then settleMmp 17 (settleFbc u) else settleFbc u).ptu.overStarts = [] := by
    intro u
    split
    · rw [settleMmp_ptu]
      exact settleFbc_strobes u
    · exact settleFbc_strobes u
  exact settled_links rfl (hstrobes _)

/-- Settles O59: a command ends with `settle`, which settles any state, and so does an edge of the reference; without
VSTBY an edge changes nothing. -/
theorem stepsKeepTheBlockSettled : Obligations.StepsKeepTheBlockSettled := by
  intro s t hs hstep
  unfold step at hstep
  split at hstep
  case h_1 =>
    cases hstep
    unfold tick
    split
    · exact settled_settle _
    · exact hs
  case h_2 c rest _ =>
    obtain ⟨u, hu⟩ := exec_settles c { s with pending := rest }
    cases hu.symm.trans hstep
    exact settled_settle u

end Sys2Proof.Proofs
end

section
/-! Chapter 4: the instruction rows of threads. What an instruction needs before it acts: a thread that may issue (R93),
a group and an operand below eight (R104), the grid (R105). -/

namespace Sys2Proof.Proofs

open Sys2Proof Sys2Proof.Machine Sys2Proof.Safety Sys2Proof.Laws

/-! Issue (R93) -/

section Issue

variable {s : State} {c slot : Nat}

theorem withThread_idle (h : issuing s c slot = none) (f : Thread → State → State) : withThread c slot s f = s := by
  simp only [withThread, h]

variable {t : Thread} (h : issuing s c slot = some t)
include h

theorem withThread_issuing (f : Thread → State → State) : withThread c slot s f = f t s := by
  simp only [withThread, h]

theorem threadAt_of_issuing : threadAt s (threadKey c slot) = some t := ((issuing_iff s c slot t).1 h).1

theorem active_of_issuing : t.st = .active := ((issuing_iff s c slot t).1 h).2.1

/-- An operand below eight reaches the thread's group (R104). -/
theorem withId_legal {g : Group} {rs1 : Nat} (hg : findGroup s t.gid = some g) (hi : getX t rs1 < 8)
    (f : Thread → Group → Nat → State → State) : withId c slot rs1 s f = f t g (getX t rs1) s := by
  simp only [withId, withThread_issuing h, hg, if_neg (Nat.not_le.2 hi)]

/-- An operand of eight or more is reserved (R104). -/
theorem withId_reserved {g : Group} {rs1 : Nat} (hg : findGroup s t.gid = some g) (hi : 8 ≤ getX t rs1)
    (f : Thread → Group → Nat → State → State) : withId c slot rs1 s f = trapAt (threadKey c slot) 0x0340 s := by
  simp only [withId, withThread_issuing h, hg, if_pos hi]

theorem withGrid_held (hg : (gridAt s c).heldBy t.gid = true) (f : Thread → State → State) :
    withGrid c slot s f = f t s := by
  simp only [withGrid, withThread_issuing h, hg, if_true]

/-- A group without the grid traps GRID_NOT_HELD (R105). -/
theorem withGrid_notHeld (hg : (gridAt s c).heldBy t.gid = false) (f : Thread → State → State) :
    withGrid c slot s f = trapAt (threadKey c slot) 0x0347 s := by
  simp only [withGrid, withThread_issuing h, hg, Bool.false_eq_true, if_false]

end Issue

/-- Every instruction row acts through the thread that may issue in its slot. -/
theorem exec_threadRow {i : Instr} {c slot : Nat} (h : threadRow i = some (c, slot)) :
    ∃ f, ∀ s, exec i s = done (withThread c slot s f) := by
  cases i <;> cases h
  case utzero rs1 rs2 =>
    by_cases hr : rs1 = 0
    · exact ⟨_, fun s => congrArg done (if_pos hr)⟩
    · exact ⟨_, fun s => congrArg done (if_neg hr)⟩
  all_goals exact ⟨_, fun _ => rfl⟩

/-- Every tensor row acts through the grid that its group holds. -/
theorem exec_tensorRow {i : Instr} {c slot : Nat} (h : threadRow i = some (c, slot)) (ht : tensorRow i = true) :
    ∃ f, ∀ s, exec i s = done (withGrid c slot s f) := by
  cases i <;> cases ht <;> cases h
  case utzero rs1 rs2 =>
    by_cases hr : rs1 = 0
    · exact ⟨_, fun s => congrArg done (if_pos hr)⟩
    · exact ⟨_, fun s => congrArg done (if_neg hr)⟩
  all_goals exact ⟨_, fun _ => rfl⟩

/-! Changes of one thread -/

section OneThread

variable {s : State} {k : Nat} {t : Thread} (h : threadAt s k = some t)
include h

theorem threadAt_updThread_same (f : Thread → Thread) : threadAt (updThread k f s) k = some (f t) := by
  rw [threadAt_upd, if_pos rfl, h]; rfl

theorem threadAt_retire_same (len : Nat) (f : Thread → Thread) :
    threadAt (retire k len f s) k = some { f t with pc := ((f t).pc + len) % 2 ^ 64 } :=
  threadAt_updThread_same h _

/-- What a change makes of the live thread is all that matters. -/
theorem updThread_congr {f g : Thread → Thread} (hfg : f t = g t) : updThread k f s = updThread k g s := by
  have h' : Tbl.get none s.fab.threads k = some t := h
  simp only [updThread, Tbl.upd, h', Option.map_some, hfg]

end OneThread

theorem threadAt_updThread_other {s : State} {j k : Nat} (hjk : j ≠ k) (f : Thread → Thread) :
    threadAt (updThread k f s) j = threadAt s j := by
  rw [threadAt_upd, if_neg hjk]

/-- Settles O18: every row runs through the thread that may issue, a tensor row through the grid besides. -/
theorem threadsIssueOnlyWhenReady : Obligations.ThreadsIssueOnlyWhenReady := by
  refine ⟨fun i c slot hrow s => ⟨fun hidle => ?idle, fun t hi htensor hgrid => ?notHeld⟩, issuing_iff,
    fun k len f s t ht => ⟨threadAt_retire_same ht len f, fun j hjk => threadAt_updThread_other hjk _, rfl⟩⟩
  case idle =>
    obtain ⟨f, hexec⟩ := exec_threadRow hrow
    rw [hexec, withThread_idle hidle]
    rfl
  case notHeld =>
    obtain ⟨f, hexec⟩ := exec_tensorRow hrow htensor
    rw [hexec, withGrid_notHeld hi hgrid]
    rfl

end Sys2Proof.Proofs
end

section
/-! Chapter 4: loads, stores and fetches of this chip's memory within one line, and x0 (R95, R112–R117). -/

namespace Sys2Proof.Proofs

open Sys2Proof Sys2Proof.Machine Sys2Proof.Safety Sys2Proof.Laws

/-! An access within one line is one part (R116) -/

theorem resolveParts_fails {s : State} {o acc a : Nat} {e : AccessErr} (h : resolve s o a acc = .error e)
    (bs : List Byte) : resolveParts s o acc [(a, bs)] = .error (a, e) := by
  simp only [resolveParts, h]

theorem resolveParts_one {s : State} {o acc a : Nat} {x : Target} (h : resolve s o a acc = .ok x) (bs : List Byte) :
    resolveParts s o acc [(a, bs)] = .ok [(a, bs, x)] := by
  simp only [resolveParts, h]

/-- Accesses of this chip need no room on the link. -/
theorem linkRoom_here {s : State} (h : s.elk.outstanding.length ≤ 8192) (a dpa : Nat) (bs : List Byte) :
    linkRoom s ([(a, bs, Target.here dpa)].filter isAway).length = true := by
  simpa [linkRoom, isAway] using h

/-! Loads (R113) -/

/-- What ECC finds as a load reads: the bytes are counted and the class is charged first (R156, R160, R174). -/
def loadSees (ecc : Ecc) (dpa size : Nat) (t : Thread) (s : State) : State :=
  applyEcc ecc dpa (countBytes dpa size false (chargeTc0 dpa t.utc s))

/-- A thread whose load has come back with a register image. -/
def loaded (rd w : Nat) (fp : Bool) (len : Nat) (t : Thread) : Thread :=
  let u : Thread := { t with st := .active, rbuf := [], rpoison := false, fin := {} }
  (if fp then setF rd w u else setX rd w u).next len

theorem threadAt_loadSees (ecc : Ecc) (dpa size k : Nat) (t : Thread) (s : State) :
    threadAt (loadSees ecc dpa size t s) k = threadAt s k :=
  threadAt_fab (by simp only [loadSees, applyEcc_fab, countBytes_fab, chargeTc0_fab]) k

theorem readParts_poisoned {rr : RegReader} {o tc a dpa u : Nat} {ecc : Ecc} {bs : List Byte} {s : State}
    (hreg : regionOf dpa ≠ some .regs)
    (hp : poisonIn (applyEcc ecc dpa (countBytes dpa bs.length false (chargeTc0 dpa tc s))) dpa bs.length = some u) :
    readParts rr o tc ecc [(a, bs, .here dpa)] s =
      (applyEcc ecc dpa (countBytes dpa bs.length false (chargeTc0 dpa tc s)), bs, some (a, dpa, u)) := by
  simp only [readParts, if_neg hreg, hp]

theorem readParts_clean {rr : RegReader} {o tc a dpa : Nat} {ecc : Ecc} {bs : List Byte} {s : State}
    (hreg : regionOf dpa ≠ some .regs)
    (hp : poisonIn (applyEcc ecc dpa (countBytes dpa bs.length false (chargeTc0 dpa tc s))) dpa bs.length = none) :
    readParts rr o tc ecc [(a, bs, .here dpa)] s =
      (applyEcc ecc dpa (countBytes dpa bs.length false (chargeTc0 dpa tc s)),
        readMem (applyEcc ecc dpa (countBytes dpa bs.length false (chargeTc0 dpa tc s))) o dpa bs.length, none) := by
  simp only [readParts, if_neg hreg, hp, List.append_nil]

/-- The value that a load waits for reaches its register. -/
theorem finishLoad_live {s : State} {k : Nat} {t : Thread} (h : threadAt s k = some t) :
    finishLoad k s = updThread k (fun _ =>
      loaded t.fin.rd (loadValue t.fin.size t.fin.signed t.fin.fp (getLe t.rbuf 0 t.fin.size))
        t.fin.fp t.fin.len t) s := by
  simp only [finishLoad, h, loaded]

section Load

variable {s : State} {c slot : Nat} {t : Thread} (hi : issuing s c slot = some t) {rs1 size : Nat} {imm : Int}
  (hn : 0 < size) (hline : addrOf t rs1 imm % 64 + size ≤ 64) (rr : RegReader) (rd len : Nat) (sg fp : Bool) (ecc : Ecc)
include hi hn hline

theorem threadLoad_fails {e : AccessErr} (he : resolve s (threadOwner s t) (addrOf t rs1 imm) 1 = .error e) :
    threadLoad rr c slot rd rs1 imm size sg fp len ecc s = threadFails (threadKey c slot) 1 (addrOf t rs1 imm) e s := by
  simp only [threadLoad, withThread_issuing hi, chunks_line size _ _ hn List.length_replicate hline, zeros,
    resolveParts_fails he]

variable {dpa : Nat} (hr : resolve s (threadOwner s t) (addrOf t rs1 imm) 1 = .ok (.here dpa))
  (hreg : regionOf dpa ≠ some .regs) (hroom : s.elk.outstanding.length ≤ 8192)
include hr hreg hroom

/-- A load that meets poison traps at the poisoned unit (R162). -/
theorem threadLoad_poisoned {a : Nat} (hp : poisonIn (loadSees ecc dpa size t s) dpa size = some a) :
    threadLoad rr c slot rd rs1 imm size sg fp len ecc s =
      threadPoison (threadKey c slot) 1 (addrOf t rs1 imm) dpa a (loadSees ecc dpa size t s) := by
  have hz : (zeros size).length = size := List.length_replicate
  have hread := readParts_poisoned (rr := rr) (o := threadOwner s t) (a := addrOf t rs1 imm) (bs := zeros size) hreg
    (by rw [hz]; exact hp)
  simp only [threadLoad, withThread_issuing hi, chunks_line size _ _ hn hz hline, resolveParts_one hr,
    linkRoom_here hroom, Bool.not_true, Bool.false_eq_true, if_false, hread, hz, loadSees]

/-- A load without poison leaves its bytes in the register. -/
theorem threadLoad_clean (hp : poisonIn (loadSees ecc dpa size t s) dpa size = none) :
    threadLoad rr c slot rd rs1 imm size sg fp len ecc s =
      updThread (threadKey c slot) (fun _ => loaded rd (loadValue size sg fp
        (getLe (readMem (loadSees ecc dpa size t s) (threadOwner s t) dpa size) 0 size)) fp len t)
        (loadSees ecc dpa size t s) := by
  have hz : (zeros size).length = size := List.length_replicate
  have hread := readParts_clean (rr := rr) (o := threadOwner s t) (a := addrOf t rs1 imm) (bs := zeros size) hreg
    (by rw [hz]; exact hp)
  have ht : threadAt (loadSees ecc dpa size t s) (threadKey c slot) = some t :=
    (threadAt_loadSees ..).trans (threadAt_of_issuing hi)
  have hlocal : ∀ bs, [(addrOf t rs1 imm, bs, Target.here dpa)].any isAway = false := fun _ => rfl
  simp only [threadLoad, withThread_issuing hi, chunks_line size _ _ hn hz hline, resolveParts_one hr,
    linkRoom_here hroom, hlocal, Bool.not_true, Bool.false_eq_true, if_false, hread, hz]
  exact (finishLoad_live (threadAt_updThread_same ht _)).trans (updThread_twice _ _ _ _ t ht)

end Load

/-! The thread after a load -/

section Loaded

variable (rd w len : Nat) (t : Thread)

theorem loaded_rest (fp : Bool) : (loaded rd w fp len t).pc = (t.pc + len) % 2 ^ 64 ∧
    (loaded rd w fp len t).st = .active ∧ (loaded rd w fp len t).fcsr = t.fcsr := by
  cases fp
  · simp only [loaded, Bool.false_eq_true, if_false, setX]
    split <;> exact ⟨rfl, rfl, rfl⟩
  · exact ⟨rfl, rfl, rfl⟩

theorem loaded_int : (loaded rd w false len t).f = t.f ∧
    ∀ j, getX (loaded rd w false len t) j = getX (setX rd w t) j := by
  simp only [loaded, Bool.false_eq_true, if_false, setX]
  split <;> exact ⟨rfl, fun _ => rfl⟩

theorem loaded_fp : (loaded rd w true len t).x = t.x ∧
    ∀ j, getF (loaded rd w true len t) j = if j = rd then w % 2 ^ 64 else getF t j := by
  refine ⟨rfl, fun j => ?_⟩
  show (Tbl.get 0 (Tbl.set 0 t.f rd (BitVec.ofNat 64 w)) j).toNat = _
  split
  · rename_i e
    rw [e, get_set_same, BitVec.toNat_ofNat]
  · rename_i e
    rw [get_set_other _ _ _ _ _ e]
    rfl

end Loaded

/-! Stores (R112) -/

section Store

variable {s : State} {c slot : Nat} {t : Thread} (hi : issuing s c slot = some t) {rs1 size : Nat} {imm : Int}
  (hn : 0 < size) (hline : addrOf t rs1 imm % 64 + size ≤ 64) (rs2 len : Nat) (fp : Bool)
include hi hn hline

theorem threadStore_fails {e : AccessErr} (he : resolve s (threadOwner s t) (addrOf t rs1 imm) 2 = .error e)
    (hst : e.status / 256 ≠ 7) : threadStore c slot rs2 rs1 imm size fp len s =
      threadFails (threadKey c slot) 2 (addrOf t rs1 imm) e s := by
  simp only [threadStore, withThread_issuing hi, chunks_line size _ _ hn (leBytes_length ..) hline,
    resolveParts_fails he, postedError, if_neg hst]

theorem threadStore_here {dpa : Nat} (hr : resolve s (threadOwner s t) (addrOf t rs1 imm) 2 = .ok (.here dpa))
    (hroom : s.elk.outstanding.length ≤ 8192) : threadStore c slot rs2 rs1 imm size fp len s =
      retire (threadKey c slot) len id (deviceWrite (threadKey c slot) (threadOwner s t) dpa
        (leBytes size (if fp then getF t rs2 else getX t rs2)) (chargeTc0 dpa t.utc s)) := by
  have hlocal : ∀ bs, [(addrOf t rs1 imm, bs, Target.here dpa)].any isAway = false := fun _ => rfl
  simp only [threadStore, withThread_issuing hi, chunks_line size _ _ hn (leBytes_length ..) hline,
    resolveParts_one hr, linkRoom_here hroom, hlocal, Bool.not_true, Bool.false_and, Bool.or_self, Bool.false_eq_true,
    if_false, storeParts]

end Store

/-! Fetches (R117) -/

/-- A core's cache takes in the line that holds `dpa`. -/
def icFill (core o dpa : Nat) (s : State) : State :=
  updFab (fun b => { b with icache := b.icache.filter (fun l => !(l.core == core && l.line == dpa / 64)) ++
    [{ core, line := dpa / 64, bytes := readMem s o (dpa / 64 * 64) 64 }] }) s

/-- The line taken in is the one found: an older copy is gone. -/
theorem icLine_icFill (core o dpa : Nat) (s : State) : icLine (icFill core o dpa s) core dpa =
    some { core, line := dpa / 64, bytes := readMem s o (dpa / 64 * 64) 64 } := by
  have hgone : (s.fab.icache.filter (fun l => !(l.core == core && l.line == dpa / 64))).find?
      (fun l => l.core == core && l.line == dpa / 64) = none :=
    List.find?_eq_none.2 fun l hl => by simpa only [Bool.not_eq_true, Bool.not_eq_true'] using (List.mem_filter.1 hl).2
  simp only [icLine, icFill, updFab_fab, List.find?_append, hgone, Option.none_or]
  simp

section Fetch

variable {s : State} {c slot : Nat} {t : Thread} (hi : issuing s c slot = some t) (ecc : Ecc)
include hi

/-- Instructions of another chip's memory trap (R117). -/
theorem fetchInsn_away {chip dpa : Nat} (hr : resolve s (threadOwner s t) t.pc 4 = .ok (.away chip dpa)) :
    fetchInsn c slot false ecc s = trapAt (threadKey c slot) 0x0349 s := by
  simp only [fetchInsn, withThread_issuing hi, fetchPart, hr]

/-- A 2-byte instruction that the cache does not hold comes from memory, with its line. -/
theorem fetchInsn_short {dpa : Nat} (hr : resolve s (threadOwner s t) t.pc 4 = .ok (.here dpa))
    (hreg : regionOf dpa ≠ some .regs) (hp : poisonIn (applyEcc ecc dpa s) (dpa / 64 * 64) 64 = none)
    (hshort : getLe (readMem (applyEcc ecc dpa s) (threadOwner s t) (dpa / 64 * 64) 64) (dpa % 64) 2 % 4 ≠ 3) :
    fetchInsn c slot false ecc s = updThread (threadKey c slot) (fun x => { x with
        ir := getLe (readMem (applyEcc ecc dpa s) (threadOwner s t) (dpa / 64 * 64) 64) (dpa % 64) 2 })
      (icFill (c * 16 + slot / 8) (threadOwner s t) dpa (applyEcc ecc dpa s)) := by
  simp only [fetchInsn, withThread_issuing hi, fetchPart, hr, if_neg hreg, hp, fetchHalf, Bool.false_and,
    Bool.false_eq_true, if_false, if_pos hshort]
  rfl

end Fetch

/-- Settles O19: an access within one line is one part, which is read, stored or refused whole. -/
theorem threadsReachMemory : Obligations.ThreadsReachMemory := by
  refine ⟨fun t r v j => ?registers, fun s c slot rd rs1 imm size sg fp len ecc t hi hn hline => ?load,
    fun s c slot rs2 rs1 imm size fp len t hi hn hline => ?store, fun s c slot ecc t hi => ?fetch⟩
  case registers =>
    exact ⟨rfl, rfl, fun hr => by rw [getX_setX, if_pos ⟨rfl, hr⟩],
      fun hj => by rw [getX_setX, if_neg (fun h => hj h.1)]⟩
  case load =>
    refine ⟨fun e he => congrArg done (threadLoad_fails hi hn hline _ rd len sg fp ecc he),
      fun dpa hr hreg hroom => ⟨fun a hp =>
        congrArg done (threadLoad_poisoned hi hn hline _ rd len sg fp ecc hr hreg hroom hp), fun hp =>
        ⟨_, congrArg done (threadLoad_clean hi hn hline _ rd len sg fp ecc hr hreg hroom hp), ?_⟩⟩⟩
    obtain ⟨hpc, hst, hfcsr⟩ := loaded_rest rd (loadValue size sg fp
      (getLe (readMem (loadSees ecc dpa size t s) (threadOwner s t) dpa size) 0 size)) len t fp
    refine ⟨hpc, hst, hfcsr, fun h => ?int, fun h => ?float⟩
    case int =>
      subst h
      exact loaded_int ..
    case float =>
      subst h
      exact loaded_fp ..
  case store =>
    exact ⟨fun e he hst => congrArg done (threadStore_fails hi hn hline rs2 len fp he hst),
      fun dpa hr hroom => congrArg done (threadStore_here hi hn hline rs2 len fp hr hroom)⟩
  case fetch =>
    exact ⟨fun chip dpa hr => congrArg done (fetchInsn_away hi ecc hr),
      fun dpa hr hreg hp hshort => ⟨_, congrArg done (fetchInsn_short hi ecc hr hreg hp hshort), rfl,
        icLine_icFill ..⟩, congrArg done (withThread_issuing hi _)⟩

end Sys2Proof.Proofs
end

section
/-! Chapter 4: fences, traps, CSRs, and the ends and pauses of threads (R93, R95, R96, R101–R103, R109, R112, R114). -/

namespace Sys2Proof.Proofs

open Sys2Proof Sys2Proof.Machine Sys2Proof.Safety Sys2Proof.Laws

/-! Waits (R101, R114) -/

section Waits

variable {s : State} {k : Nat} {t : Thread} (h : threadAt s k = some t)
include h

/-- A thread at UFENCE.G stays while an access of it is outstanding. -/
theorem settleWait_fence_stays (hst : t.st = .waitFence) (ha : threadAwaits s k = true) : settleWait k s = s := by
  simp only [settleWait, h, hst, ha, if_true]

/-- With every access performed and no trap deferred it goes on. -/
theorem settleWait_fence_goes (hst : t.st = .waitFence) (ha : threadAwaits s k = false) (hd : t.deferred = none) :
    settleWait k s = updThread k (fun x => ({ x with st := .active } : Thread).next 4) s := by
  simp only [settleWait, h, hst, ha, Bool.false_eq_true, if_false, takeDeferred, hd]

/-- A thread at UEND stays until it may end. -/
theorem settleWait_ending_stays (hst : t.st = .ending) (ha : mayEnd s k = false) : settleWait k s = s := by
  simp only [settleWait, h, hst, ha, Bool.false_eq_true, if_false]

theorem settleWait_ending_ends (hst : t.st = .ending) (ha : mayEnd s k = true) (hd : t.deferred = none) :
    settleWait k s = deadlockCheck t.gid (updThread k (fun x => { x with st := .ended, reserve := none }) s) := by
  simp only [settleWait, h, hst, ha, if_true, takeDeferred, hd, endThread]

end Waits

/-! UFENCE.G and UEND -/

section Ends

variable {s : State} {c slot : Nat} {t : Thread} (hi : issuing s c slot = some t)
include hi

theorem ufenceG_waits (ha : threadAwaits s (threadKey c slot) = true) :
    ufenceG c slot s = updThread (threadKey c slot) (fun x => { x with st := .waitFence }) s :=
  (withThread_issuing hi _).trans (settleWait_fence_stays (threadAt_updThread_same (threadAt_of_issuing hi) _) rfl ha)

/-- With nothing outstanding UFENCE.G retires at once. -/
theorem ufenceG_retires (ha : threadAwaits s (threadKey c slot) = false) (hd : t.deferred = none) :
    ufenceG c slot s = retire (threadKey c slot) 4 id s := by
  have ht := threadAt_of_issuing hi
  have hst := active_of_issuing hi
  have hwait := settleWait_fence_goes (threadAt_updThread_same ht (fun x => { x with st := .waitFence })) rfl ha hd
  refine (withThread_issuing hi _).trans (hwait.trans ((updThread_twice _ _ _ _ t ht).trans ?_))
  exact updThread_congr ht (by simp only [Thread.next, id_eq, ← hst])

theorem uend_waits (ha : mayEnd s (threadKey c slot) = false) :
    uend c slot s = updThread (threadKey c slot) (fun x => { x with st := .ending }) s :=
  (withThread_issuing hi _).trans (settleWait_ending_stays (threadAt_updThread_same (threadAt_of_issuing hi) _) rfl ha)

/-- A thread that may end has ended, and its group is looked at for a deadlock. -/
theorem uend_ends (ha : mayEnd s (threadKey c slot) = true) (hd : t.deferred = none) :
    uend c slot s = deadlockCheck t.gid
      (updThread (threadKey c slot) (fun x => { x with st := .ended, reserve := none }) s) := by
  have ht := threadAt_of_issuing hi
  have hend := settleWait_ending_ends (threadAt_updThread_same ht (fun x => { x with st := .ending })) rfl ha hd
  exact (withThread_issuing hi _).trans (hend.trans (congrArg (deadlockCheck t.gid) (updThread_twice _ _ _ _ t ht)))

/-! FENCE -/

theorem threadFence_deferred {a kind st : Nat} (hd : t.deferred = some (a, kind, st)) :
    threadFence c slot s = trapThread (threadKey c slot) 2 (if kind = 2 then some a else none)
      { status := st, addr := a, kind := kind } s := by
  simp only [threadFence, withThread_issuing hi, takeDeferred, hd]

theorem threadFence_retires (hd : t.deferred = none) : threadFence c slot s = retire (threadKey c slot) 4 id s := by
  simp only [threadFence, withThread_issuing hi, takeDeferred, hd]

/-! CSRs (R96) -/

variable {f3 csr rd rs1 : Nat}

theorem csrAccess_absent (h : csrRead s c slot t csr = none) :
    csrAccess c slot f3 csr rd rs1 s = trapAt (threadKey c slot) 0x0340 s := by
  simp only [csrAccess, withThread_issuing hi, h]

/-- A write of a read-only CSR is illegal. -/
theorem csrAccess_readOnly {old : Nat} (h : csrRead s c slot t csr = some old) (hw : f3 % 4 = 1 ∨ rs1 ≠ 0)
    (hro : csr / 0x400 = 3) : csrAccess c slot f3 csr rd rs1 s = trapAt (threadKey c slot) 0x0340 s := by
  have hw' : (f3 % 4 == 1 || rs1 != 0) = true := by simpa using hw
  simp only [csrAccess, withThread_issuing hi, h, hw', hro, beq_self_eq_true, Bool.and_self, if_true]

/-- A set or clear with a source register or immediate 0 only reads. -/
theorem csrAccess_reads {old : Nat} (h : csrRead s c slot t csr = some old) (hf : f3 % 4 ≠ 1) :
    csrAccess c slot f3 csr rd 0 s = retire (threadKey c slot) 4 (setX rd old) s := by
  have hw : (f3 % 4 == 1 || (0 : Nat) != 0) = false := by simpa using hf
  simp only [csrAccess, withThread_issuing hi, h, hw, Bool.false_and, Bool.false_eq_true, if_false]

/-- A write of a writable CSR leaves the old value in rd. -/
theorem csrAccess_writes {old : Nat} (h : csrRead s c slot t csr = some old) (hf : f3 % 4 = 1) (hrw : csr / 0x400 ≠ 3) :
    csrAccess c slot f3 csr rd rs1 s = retire (threadKey c slot) 4
      (fun x => setX rd old (csrWrite csr (if 4 ≤ f3 then rs1 else getX t rs1) x)) s := by
  have hro : (csr / 0x400 == 3) = false := by simpa using hrw
  simp only [csrAccess, withThread_issuing hi, h, hf, hro, beq_self_eq_true, Bool.true_or, Bool.and_false,
    Bool.false_eq_true, if_false, if_true]

end Ends

/-- Settles O20: each row acts through its issuing thread; UFENCE.G and UEND wait and settle in one change. -/
theorem fencesTrapsAndCsrs : Obligations.FencesTrapsAndCsrs := by
  intro s c slot t hi k
  have ht := threadAt_of_issuing hi
  refine ⟨fun a kind st hd => congrArg done (threadFence_deferred hi hd),
    fun hd => congrArg done (threadFence_retires hi hd), congrArg done (withThread_issuing hi _),
    congrArg done (withThread_issuing hi _), congrArg done (withThread_issuing hi _),
    congrArg done (withThread_issuing hi _), congrArg done (withThread_issuing hi _),
    congrArg done (withThread_issuing hi _), fun ha => congrArg done (ufenceG_waits hi ha), fun ha hd => ?fence,
    fun ha => congrArg done (uend_waits hi ha), fun ha hd => ?ends,
    fun f3 csr rd rs1 h => congrArg done (csrAccess_absent hi h),
    fun f3 csr rd rs1 old h hw hro => congrArg done (csrAccess_readOnly hi h hw hro),
    fun f3 csr rd old h hf => congrArg done (csrAccess_reads hi h hf),
    fun rd v _ _ => congrArg done (csrAccess_writes hi rfl rfl (by decide)),
    fun rd rs1 => congrArg done (csrAccess_writes hi rfl rfl (by decide))⟩
  case fence =>
    exact ⟨_, congrArg done (ufenceG_retires hi ha hd), threadAt_retire_same ht 4 id,
      fun j hjk => threadAt_updThread_other hjk _, rfl⟩
  case ends =>
    exact ⟨_, congrArg done (uend_ends hi ha hd), threadAt_updThread_same ht _,
      fun j hjk => threadAt_updThread_other hjk _, rfl⟩

end Sys2Proof.Proofs
end

section
/-! Chapter 4: the barriers, copy counters and copies of a group (R104, R106–R108). -/

namespace Sys2Proof.Proofs

open Sys2Proof Sys2Proof.Machine Sys2Proof.Safety Sys2Proof.Laws

/-- A group that was found is the one its number finds. -/
theorem findGroup_gid {s : State} {gid : Nat} {g : Group} (h : findGroup s gid = some g) : g.gid = gid := by
  simpa using List.find?_some h

/-! Barriers (R106) -/

/-- An arrival that others still follow. -/
theorem arrive_counts {g : Group} {i : Nat} (s : State) (h : (barrierAt g i).arrived + 1 ≠ (barrierAt g i).expected) :
    arrive g i s = (setBarrier g.gid i { barrierAt g i with arrived := (barrierAt g i).arrived + 1 } s,
      (barrierAt g i).phase) := by
  simp only [arrive, if_neg h]

/-- The last arrival opens the next phase and lets the waits of the old one return. -/
theorem arrive_opens {g : Group} {i : Nat} (s : State) (h : (barrierAt g i).arrived + 1 = (barrierAt g i).expected) :
    arrive g i s = (releaseBarrier g.gid i (((barrierAt g i).phase + 1) % 2 ^ 32) (setBarrier g.gid i
      { barrierAt g i with phase := ((barrierAt g i).phase + 1) % 2 ^ 32, arrived := 0 } s),
      (barrierAt g i).phase) := by
  simp only [arrive, if_pos h, add32]

theorem arrive_phase (g : Group) (i : Nat) (s : State) : (arrive g i s).2 = (barrierAt g i).phase := by
  by_cases h : (barrierAt g i).arrived + 1 = (barrierAt g i).expected
  · rw [arrive_opens s h]
  · rw [arrive_counts s h]

section Wait

variable {s : State} {c slot i ph : Nat} {g : Group} (hg : findGroup s g.gid = some g)
include hg

theorem barWait_passes (h : (barrierAt g i).phase ≠ ph) :
    barWait c slot i ph g s = retire (threadKey c slot) 4 id s := by
  simp only [barWait, hg, Option.getD_some, if_pos h]

theorem barWait_waits (h : (barrierAt g i).phase = ph) : barWait c slot i ph g s = deadlockCheck g.gid
    (updThread (threadKey c slot) (fun x => { x with st := .waitBar, waitId := i, waitVal := ph }) s) := by
  simp only [barWait, hg, Option.getD_some, h, ne_eq, not_true_eq_false, if_false]

end Wait

section Barrier

variable {s : State} {c slot : Nat} {t : Thread} {g : Group} (hi : issuing s c slot = some t)
  (hg : findGroup s t.gid = some g) {rs1 : Nat} (hid : getX t rs1 < 8)
include hi hg hid

/-- UBAR.INIT while threads have arrived, or for more threads than the group has, traps. -/
theorem ubarInit_refused {rs2 : Nat}
    (h : (barrierAt g (getX t rs1)).arrived ≠ 0 ∨ g.slots.length < getX t rs2) :
    ubarInit c slot rs1 rs2 s = trapAt (threadKey c slot) 0x0345 s :=
  (withId_legal hi hg hid _).trans (if_pos h)

theorem ubarInit_sets {rs2 : Nat} (ha : (barrierAt g (getX t rs1)).arrived = 0) (hn : getX t rs2 ≤ g.slots.length) :
    ubarInit c slot rs1 rs2 s = retire (threadKey c slot) 4 id (setBarrier g.gid (getX t rs1)
      { barrierAt g (getX t rs1) with expected := if getX t rs2 = 0 then g.slots.length else getX t rs2 } s) :=
  (withId_legal hi hg hid _).trans (if_neg (by omega))

/-- UBAR.ARRIVE returns the phase it arrived in. -/
theorem ubarArrive_eq (rd : Nat) : ubarArrive c slot rd rs1 s = retire (threadKey c slot) 4
    (setX rd (barrierAt g (getX t rs1)).phase) (arrive g (getX t rs1) s).1 :=
  (withId_legal hi hg hid _).trans (by simp only [arrive_phase])

theorem ubarWait_eq (rs2 : Nat) :
    ubarWait c slot rs1 rs2 s = barWait c slot (getX t rs1) (getX t rs2 % 2 ^ 32) g s :=
  withId_legal hi hg hid _

theorem ubarSync_eq : ubarSync c slot rs1 s =
    barWait c slot (getX t rs1) (barrierAt g (getX t rs1)).phase g (arrive g (getX t rs1) s).1 :=
  (withId_legal hi hg hid _).trans (by simp only [arrive_phase])

/-! Copy counters (R108) -/

/-- UCWAIT returns the counter at once where it has reached its target. -/
theorem ucwait_reached {rs2 : Nat} (rd : Nat)
    (h : copyReached (g.copyCtr.getD (getX t rs1) 0) (getX t rs2 % 2 ^ 31) = true) :
    ucwait c slot rd rs1 rs2 s =
      retire (threadKey c slot) 4 (setX rd (g.copyCtr.getD (getX t rs1) 0)) s :=
  (withId_legal hi hg hid _).trans (if_pos h)

theorem ucwait_waits {rs2 : Nat} (rd : Nat)
    (h : copyReached (g.copyCtr.getD (getX t rs1) 0) (getX t rs2 % 2 ^ 31) = false) :
    ucwait c slot rd rs1 rs2 s = updThread (threadKey c slot) (fun x => { x with
      st := .waitCopy, waitId := getX t rs1, waitVal := getX t rs2 % 2 ^ 31, waitRd := rd }) s :=
  (withId_legal hi hg hid _).trans (if_neg (by rw [h]; exact Bool.false_ne_true))

end Barrier

/-! Copies (R108) -/

section Copy

variable {s : State} {c slot : Nat} {t : Thread} (hi : issuing s c slot = some t) {rs1 rs2 : Nat}
include hi

theorem ucopy_reserved (h : 32 ≤ getX t rs2) : ucopy c slot rs1 rs2 s = trapAt (threadKey c slot) 0x0340 s :=
  (withThread_issuing hi _).trans (if_pos h)

variable (h : getX t rs2 < 32)
include h

/-- A full channel holds the thread at its UCOPY. -/
theorem ucopy_stalls (hfull : 16 ≤ (chainsAt s (c * 4 + getX t rs2 % 4)).length) : ucopy c slot rs1 rs2 s = s :=
  (withThread_issuing hi _).trans ((if_neg (Nat.not_le.2 h)).trans (if_pos hfull))

/-- A chain whose first descriptor translates enters the channel and counts for the group. -/
theorem ucopy_enters (hroom : (chainsAt s (c * 4 + getX t rs2 % 4)).length < 16) {x : Target}
    (hx : resolve s (threadOwner s t) (getX t rs1) 1 = .ok x) :
    ucopy c slot rs1 rs2 s = retire (threadKey c slot) 4 id
      (updGroup t.gid (fun y => { y with copies := y.copies + 1 }) (addChain (c * 4 + getX t rs2 % 4)
        (fun n => { cid := n, owner := threadOwner s t, origin := .counter t.gid (getX t rs2 / 4), dva := getX t rs1
                    ownDesc := false, tc0 := t.utc }) s)) := by
  simp only [ucopy, withThread_issuing hi, if_neg (Nat.not_le.2 h), if_neg (Nat.not_le.2 hroom), hx]

end Copy

/-- Settles O21: a legal operand reaches the group's barrier or counter, whose cases are the statement's. -/
theorem barriersAndCopies : Obligations.BarriersAndCopies := by
  intro s c slot t g hi hg k
  have hself : findGroup s g.gid = some g := by rw [findGroup_gid hg]; exact hg
  refine ⟨fun rd rs1 rs2 h => ?reserved, fun rd rs1 rs2 hid => ?legal,
    fun rs1 rs2 h => congrArg done (ucopy_reserved hi h),
    fun rs1 rs2 h hfull => congrArg done (ucopy_stalls hi h hfull),
    fun rs1 rs2 x h hroom hx => congrArg done (ucopy_enters hi h hroom hx)⟩
  case reserved =>
    exact ⟨congrArg done (withId_reserved hi hg h _), congrArg done (withId_reserved hi hg h _),
      congrArg done (withId_reserved hi hg h _), congrArg done (withId_reserved hi hg h _),
      congrArg done (withId_reserved hi hg h _), congrArg done (withId_reserved hi hg h _),
      congrArg done (withId_reserved hi hg h _)⟩
  case legal =>
    refine ⟨fun h => congrArg done (ubarInit_refused hi hg hid h),
      fun ha hn => congrArg done (ubarInit_sets hi hg hid ha hn),
      fun h => congrArg done ?counts, fun h => congrArg done ?opens,
      fun h => congrArg done ((ubarWait_eq hi hg hid rs2).trans (barWait_passes hself h)),
      fun h => congrArg done ?waits, congrArg done (ubarSync_eq hi hg hid),
      fun h => congrArg done (ucwait_reached hi hg hid rd h), fun h => congrArg done (ucwait_waits hi hg hid rd h),
      congrArg done (withId_legal hi hg hid _), congrArg done (withId_legal hi hg hid _)⟩
    case counts =>
      rw [ubarArrive_eq hi hg hid, arrive_counts s h]
    case opens =>
      rw [ubarArrive_eq hi hg hid, arrive_opens s h]
    case waits =>
      rw [ubarWait_eq hi hg hid, barWait_waits hself h, h]

end Sys2Proof.Proofs
end

section
/-! Chapter 4: dormant threads and reservations on this chip (R110, R114, R115). -/

namespace Sys2Proof.Proofs

open Sys2Proof Sys2Proof.Machine Sys2Proof.Safety Sys2Proof.Laws

/-! UPARK (R110) -/

/-- A word of this chip's memory as a watcher sees it. -/
theorem wordAt_memory {dpa : Nat} (hreg : regionOf dpa ≠ some .regs) (rr : RegReader) (o : Nat) (s : State) :
    wordAt rr o dpa s = (s, getLe (readMem s o dpa 8) 0 8) := by
  simp only [wordAt, if_neg hreg]

section Park

variable {s : State} {c slot : Nat} {t : Thread} (hi : issuing s c slot = some t) {rs1 : Nat} (rr : RegReader)
  (rd rs2 : Nat) (ecc : Ecc)
include hi

theorem upark_misaligned (h : getX t rs1 % 8 ≠ 0) :
    upark rr c slot rd rs1 rs2 ecc s = trapAt (threadKey c slot) 0x0343 s :=
  (withThread_issuing hi _).trans (if_pos h)

/-- An aligned word of this chip without poison: it has changed, a wake is pending, or the thread becomes dormant. -/
theorem upark_reads {dpa : Nat} (ha : getX t rs1 % 8 = 0)
    (hr : resolve s (threadOwner s t) (getX t rs1) 1 = .ok (.here dpa)) (hreg : regionOf dpa ≠ some .regs)
    (hp : poisonIn (applyEcc ecc dpa s) dpa 8 = none) : upark rr c slot rd rs1 rs2 ecc s =
      if getLe (readMem (applyEcc ecc dpa s) (threadOwner s t) dpa 8) 0 8 ≠ getX t rs2 then
        retire (threadKey c slot) 4 (setX rd 0) (applyEcc ecc dpa s)
      else if t.wakePending then
        retire (threadKey c slot) 4 (fun x => setX rd 1 { x with wakePending := false }) (applyEcc ecc dpa s)
      else updThread (threadKey c slot) (fun x => { x with
        st := .dormant, waitAddr := getX t rs1, waitDpa := dpa, waitVal := getX t rs2, waitRd := rd
        timeoutAt := if x.uptmo = 0 then 0 else s.dts + x.uptmo }) (applyEcc ecc dpa s) := by
  simp only [upark, withThread_issuing hi, ha, ne_eq, not_true_eq_false, if_false, hr, if_neg hreg, hp,
    wordAt_memory hreg]

end Park

/-- The instant of a dormant thread's timeout: it goes on with result 2. -/
theorem uparkTimeout_wakes {s : State} {c slot : Nat} {t : Thread} (ht : threadAt s (threadKey c slot) = some t)
    (hst : t.st = .dormant) (hat : t.timeoutAt ≠ 0) : uparkTimeout c slot s =
      retire (threadKey c slot) 4 (fun x => setX x.waitRd 2 { x with st := .active, timeoutAt := 0 })
        { s with dts := max s.dts t.timeoutAt } := by
  have ht' : threadAt { s with dts := max s.dts t.timeoutAt } (threadKey c slot) = some t := ht
  have hdue : (t.st == .dormant && t.timeoutAt != 0) = true := by simp [hst, hat]
  simp only [uparkTimeout, ht, hdue, if_true, wake, retire]
  exact updThread_congr ht' (if_pos (by simp [hst]))

/-- A thread that is not dormant, or has no limit, takes no timeout. -/
theorem uparkTimeout_idle {s : State} {c slot : Nat} {t : Thread} (ht : threadAt s (threadKey c slot) = some t)
    (h : t.st ≠ .dormant ∨ t.timeoutAt = 0) : uparkTimeout c slot s = s := by
  have hdue : (t.st == .dormant && t.timeoutAt != 0) = false := by
    rcases h with h | h <;> simp [h]
  simp only [uparkTimeout, ht, hdue, Bool.false_eq_true, if_false]

/-! UWAKE (R110) -/

/-- UWAKE of every thread of the group, of a thread that it does not have, and of one that it has. -/
theorem uwake_eq {s : State} {c slot : Nat} {t : Thread} {g : Group} (hi : issuing s c slot = some t)
    (hg : findGroup s t.gid = some g) (rs1 : Nat) : uwake c slot rs1 s =
    if getX t rs1 = 2 ^ 64 - 1 then
      retire (threadKey c slot) 4 id ((groupKeys g).foldl (fun u k => wakeOne k u) s)
    else if g.slots.length ≤ getX t rs1 then trapAt (threadKey c slot) 0x0340 s
    else retire (threadKey c slot) 4 id (wakeOne ((groupKeys g).getD (getX t rs1) 0) s) := by
  simp only [uwake, withThread_issuing hi, hg]

/-! LR and SC (R115) -/

section Reserve

variable {s : State} {c slot : Nat} {t : Thread} {acc bytes a : Nat}

theorem lrscTarget_misaligned (h : a % bytes ≠ 0) :
    lrscTarget s c slot acc bytes a t = .error (trapAt (threadKey c slot) 0x0343 s) := by
  simp only [lrscTarget, if_pos h]

theorem lrscTarget_scratch {dpa cl : Nat} (ha : a % bytes = 0)
    (hr : resolve s (threadOwner s t) a acc = .ok (.here dpa)) (hreg : regionOf dpa = some (.scratch cl)) :
    lrscTarget s c slot acc bytes a t = .ok dpa := by
  simp only [lrscTarget, ha, ne_eq, not_true_eq_false, if_false, hr, hreg]

variable (hi : issuing s c slot = some t) {rs1 : Nat} (rd rs2 : Nat) (dword aq : Bool)
include hi

theorem loadReserved_misaligned (ecc : Ecc) (h : getX t rs1 % (if dword then 8 else 4) ≠ 0) :
    loadReserved c slot rd rs1 dword aq false ecc s = trapAt (threadKey c slot) 0x0343 s := by
  simp only [loadReserved, withThread_issuing hi, Bool.false_and, Bool.false_eq_true, if_false, lrscTarget_misaligned h]

theorem storeConditional_misaligned (h : getX t rs1 % (if dword then 8 else 4) ≠ 0) :
    storeConditional c slot rd rs1 rs2 dword aq false s = trapAt (threadKey c slot) 0x0343 s := by
  simp only [storeConditional, withThread_issuing hi, Bool.false_and, Bool.false_eq_true, if_false,
    lrscTarget_misaligned h]

/-- LR of scratch without poison reads the word and reserves its line. -/
theorem loadReserved_scratch {dpa cl : Nat} (ecc : Ecc) (ha : getX t rs1 % (if dword then 8 else 4) = 0)
    (hr : resolve s (threadOwner s t) (getX t rs1) 1 = .ok (.here dpa)) (hreg : regionOf dpa = some (.scratch cl))
    (hp : poisonIn (applyEcc ecc dpa s) dpa (if dword then 8 else 4) = none) :
    loadReserved c slot rd rs1 dword aq false ecc s = retire (threadKey c slot) 4 (fun x =>
      setX rd (ofInt 64 (toInt (8 * (if dword then 8 else 4)) (getLe (readMem (applyEcc ecc dpa s) (threadOwner s t)
        dpa (if dword then 8 else 4)) 0 (if dword then 8 else 4)))) { x with reserve := some (dpa / 64) })
      (applyEcc ecc dpa s) := by
  simp only [loadReserved, withThread_issuing hi, Bool.false_and, Bool.false_eq_true, if_false,
    lrscTarget_scratch ha hr hreg, hp, loadValue, if_true]

/-- SC of scratch stores under its own line's reservation, and fails with 1 without it. -/
theorem storeConditional_scratch {dpa cl : Nat} (ha : getX t rs1 % (if dword then 8 else 4) = 0)
    (hr : resolve s (threadOwner s t) (getX t rs1) 2 = .ok (.here dpa)) (hreg : regionOf dpa = some (.scratch cl)) :
    storeConditional c slot rd rs1 rs2 dword aq false s =
      if t.reserve = some (dpa / 64) then retire (threadKey c slot) 4 (fun x => setX rd 0 { x with reserve := none })
        (deviceWrite (threadKey c slot) (threadOwner s t) dpa (leBytes (if dword then 8 else 4) (getX t rs2)) s)
      else retire (threadKey c slot) 4 (fun x => setX rd 1 { x with reserve := none }) s := by
  simp only [storeConditional, withThread_issuing hi, Bool.false_and, Bool.false_eq_true, if_false,
    lrscTarget_scratch ha hr hreg]

end Reserve

/-- Settles O22: what a row finds at its word, its thread or its reservation picks the one case of it that acts. -/
theorem dormancyAndReservations : Obligations.DormancyAndReservations := by
  refine ⟨fun s c slot t hi => ⟨fun rd rs1 rs2 ecc h => congrArg done (upark_misaligned hi _ rd rs2 ecc h),
    fun rd rs1 rs2 ecc dpa ha hr hreg hp => ?park, fun g rs1 hg => ?wake, fun rd rs1 rs2 dword aq ecc h =>
      ⟨congrArg done (loadReserved_misaligned hi rd dword aq ecc h),
        congrArg done (storeConditional_misaligned hi rd rs2 dword aq h)⟩,
    fun rd rs1 dword aq ecc dpa cl ha hr hreg hp =>
      congrArg done (loadReserved_scratch hi rd dword aq ecc ha hr hreg hp),
    fun rd rs1 rs2 dword aq dpa cl ha hr hreg => ?store⟩, fun s c slot t hclk ht => ?events⟩
  case park =>
    have hread := upark_reads hi mirrorRead rd rs2 ecc ha hr hreg hp
    exact ⟨fun hw => congrArg done (hread.trans (if_pos hw)),
      fun hw hpend => congrArg done (hread.trans ((if_neg (Decidable.not_not.2 hw)).trans (if_pos hpend))),
      fun hw hpend => congrArg done (hread.trans
        ((if_neg (Decidable.not_not.2 hw)).trans (if_neg (by simp [hpend]))))⟩
  case wake =>
    have heq := uwake_eq hi hg rs1
    exact ⟨fun hall => congrArg done (heq.trans (if_pos hall)),
      fun hone hbad => congrArg done (heq.trans ((if_neg hone).trans (if_pos hbad))),
      fun hone hin => congrArg done (heq.trans ((if_neg hone).trans (if_neg (Nat.not_le.2 hin))))⟩
  case store =>
    have heq := storeConditional_scratch hi rd rs2 dword aq ha hr hreg
    exact ⟨fun hres => congrArg done (heq.trans (if_pos hres)), fun hres => congrArg done (heq.trans (if_neg hres))⟩
  case events =>
    exact ⟨fun hst hat => congrArg done ((whenClocked_pos hclk).trans (uparkTimeout_wakes ht hst hat)),
      fun h => congrArg done ((whenClocked_pos hclk).trans (uparkTimeout_idle ht h)),
      congrArg done (whenClocked_pos hclk)⟩

end Sys2Proof.Proofs
end

section
/-! Chapter 4: far atomics on this chip's memory (R111, R112). -/

namespace Sys2Proof.Proofs

open Sys2Proof Sys2Proof.Machine Sys2Proof.Safety Sys2Proof.Laws

/-! The operations (R111) -/

/-- The signed minimum, whichever way round a tie is taken. -/
theorem amoNew_min (bytes old v : Nat) : amoNew 5 bytes old v =
    some (if toInt (8 * bytes) (old % 2 ^ (8 * bytes)) ≤ toInt (8 * bytes) (v % 2 ^ (8 * bytes)) then
      old % 2 ^ (8 * bytes) else v % 2 ^ (8 * bytes)) := by
  simp only [amoNew, ← Int.not_lt, ite_not]

theorem amoNew_max (bytes old v : Nat) : amoNew 6 bytes old v =
    some (if toInt (8 * bytes) (v % 2 ^ (8 * bytes)) ≤ toInt (8 * bytes) (old % 2 ^ (8 * bytes)) then
      old % 2 ^ (8 * bytes) else v % 2 ^ (8 * bytes)) := by
  simp only [amoNew, ← Int.not_lt, ite_not]

theorem amoNew_unlisted (bytes old v : Nat) {op : Nat} (h : 10 ≤ op) : amoNew op bytes old v = none := by
  obtain ⟨k, rfl⟩ := Nat.exists_eq_add_of_le' h
  rfl

/-- An atomic's old value is sign-extended where it is a word. -/
theorem loadValue_atomic (n v : Nat) :
    loadValue n (n == 4) false v = if n = 4 then ofInt 64 (toInt 32 v) else v := by
  by_cases h : n = 4
  · subst h
    rfl
  · have h' : (n == 4) = false := by simpa using h
    simp only [loadValue, h', h, Bool.false_eq_true, if_false]

/-! The access (R112) -/

section FarAtomic

variable {s : State} {c slot rd rs1 bytes mod : Nat} {t : Thread} (rr : RegReader) (aq : Bool) (unit : List Byte)
  (ecc : Ecc) (f : Nat → Nat)

theorem farAtomic_misaligned (h : getX t rs1 % bytes ≠ 0) :
    farAtomic rr c slot rd rs1 bytes aq false mod unit ecc f t s = trapAt (threadKey c slot) 0x0343 s := by
  simp only [farAtomic, Bool.false_eq_true, if_false, if_pos h]

/-- An aligned atomic on this chip's memory without poison: the old value goes to rd, the new one to memory. -/
theorem farAtomic_here {dpa : Nat} (ha : getX t rs1 % bytes = 0)
    (hr : resolve s (threadOwner s t) (getX t rs1) 8 = .ok (.here dpa)) (hreg : regionOf dpa ≠ some .regs)
    (hp : poisonIn (applyEcc ecc dpa (chargeTc0 dpa t.utc s)) dpa bytes = none) :
    farAtomic rr c slot rd rs1 bytes aq false mod unit ecc f t s =
      let u := applyEcc ecc dpa (chargeTc0 dpa t.utc s)
      let old := getLe (readMem u (threadOwner s t) dpa bytes) 0 bytes
      retire (threadKey c slot) 4 (setX rd (if bytes = 4 then ofInt 64 (toInt 32 old) else old))
        (deviceWrite (threadKey c slot) (threadOwner s t) dpa (leBytes bytes (f old)) u) := by
  simp only [farAtomic, ha, ne_eq, not_true_eq_false, Bool.false_and, Bool.false_eq_true, if_false, hr, if_neg hreg, hp,
    loadValue_atomic]

end FarAtomic

section Uamo

variable {s : State} {c slot op rs2 : Nat} {t : Thread} (hi : issuing s c slot = some t) (rr : RegReader) (rd rs1 : Nat)
  {dword : Bool} (aq : Bool) (ecc : Ecc)
include hi

/-- An operation that R111 does not list is reserved. -/
theorem uamo_reserved (h : amoNew op (if dword then 8 else 4) 0 (getX t rs2) = none) :
    uamo rr c slot op rd rs1 rs2 dword aq false ecc s = trapAt (threadKey c slot) 0x0340 s :=
  (withThread_issuing hi _).trans (if_pos (by rw [h]; rfl))

theorem uamo_listed (h : amoNew op (if dword then 8 else 4) 0 (getX t rs2) ≠ none) :
    uamo rr c slot op rd rs1 rs2 dword aq false ecc s =
      farAtomic rr c slot rd rs1 (if dword then 8 else 4) aq false (op + (if dword then 32 else 0))
        (units16 (leBytes (if dword then 8 else 4) (getX t rs2))) ecc
        (fun old => (amoNew op (if dword then 8 else 4) old (getX t rs2)).getD 0) t s :=
  (withThread_issuing hi _).trans (if_neg (by rwa [Option.isNone_iff_eq_none]))

end Uamo

/-- Settles O23: UAMO of a listed operation and UCAS are one access, whose new value is the operation's. -/
theorem farAtomics : Obligations.FarAtomics := by
  refine ⟨fun bytes old v _ => ?operations, fun s c slot op rd rs1 rs2 dword aq ecc t hi => ?uamo,
    fun s c slot rd rs1 rs2 rs3 dword aq ecc t hi => ?ucas⟩
  case operations =>
    exact ⟨rfl, rfl, rfl, rfl, rfl, amoNew_min .., amoNew_max .., rfl, rfl, rfl, fun op h => amoNew_unlisted _ _ _ h⟩
  case uamo =>
    exact ⟨fun h => congrArg done (uamo_reserved hi _ rd rs1 aq ecc h),
      fun h ha => congrArg done ((uamo_listed hi _ rd rs1 aq ecc h).trans (farAtomic_misaligned _ aq _ ecc _ ha)),
      fun dpa h ha hr hreg hp => congrArg done
        ((uamo_listed hi _ rd rs1 aq ecc h).trans (farAtomic_here _ aq _ ecc _ ha hr hreg hp))⟩
  case ucas =>
    exact ⟨fun ha => congrArg done ((withThread_issuing hi _).trans (farAtomic_misaligned _ aq _ ecc _ ha)),
      fun dpa ha hr hreg hp => congrArg done
        ((withThread_issuing hi _).trans (farAtomic_here _ aq _ ecc _ ha hr hreg hp))⟩

end Sys2Proof.Proofs
end

section
/-! Chapters 4 and 5: how the Tensor Grid is asked for, held, released and read (R105, R139–R141, R145, R147). -/

namespace Sys2Proof.Proofs

open Sys2Proof Sys2Proof.Machine Sys2Proof.Safety Sys2Proof.Laws

/-- A grid after it was changed. -/
theorem gridAt_updGrid_same (c : Nat) (f : Grid → Grid) (s : State) : gridAt (updGrid c f s) c = f (gridAt s c) :=
  get_set_same ..

/-! Asking (R105) -/

/-- A grid that is held or has a line is not granted. -/
theorem grid_not_free {g : Grid} (hbusy : g.holder ≠ none ∨ g.waiters ≠ []) :
    ¬ (g.holder.isNone && g.waiters.isEmpty) = true := by
  rw [Bool.and_eq_true, Option.isNone_iff_eq_none, List.isEmpty_iff]
  rintro ⟨hholder, hwaiters⟩
  exact hbusy.elim (absurd hholder) (absurd hwaiters)

section Ask

variable {s : State} {c slot : Nat} {t : Thread} (hi : issuing s c slot = some t)
include hi

theorem ugridAcq_held (hg : (gridAt s c).heldBy t.gid = true) :
    ugridAcq c slot s = retire (threadKey c slot) 4 id s :=
  (withThread_issuing hi _).trans (if_pos hg)

theorem ugridTry_held (rd : Nat) (hg : (gridAt s c).heldBy t.gid = true) :
    ugridTry c slot rd s = retire (threadKey c slot) 4 (setX rd 1) s :=
  (withThread_issuing hi _).trans (if_pos hg)

theorem ugridRel_notHeld (hg : (gridAt s c).heldBy t.gid = false) :
    ugridRel c slot s = trapAt (threadKey c slot) 0x0347 s :=
  (withThread_issuing hi _).trans (if_neg (ne_true_of_eq_false hg))

/-- A release by the holding group is marked, and looked at again. -/
theorem ugridRel_held (hg : (gridAt s c).heldBy t.gid = true) : ugridRel c slot s =
    settleRelease c (updGrid c (fun g => { g with releasing := true }) (retire (threadKey c slot) 4 id s)) :=
  (withThread_issuing hi _).trans (if_pos hg)

variable (hg : (gridAt s c).heldBy t.gid = false)
include hg

section Free

variable (hfree : (gridAt s c).holder = none) (hline : (gridAt s c).waiters = [])
include hfree hline

/-- A free grid without a line is granted at once. -/
theorem ugridAcq_free : ugridAcq c slot s = retire (threadKey c slot) 4 id (updGrid c (Grid.grant t.gid) s) :=
  (withThread_issuing hi _).trans ((if_neg (ne_true_of_eq_false hg)).trans (if_pos (by simp [hfree, hline])))

theorem ugridTry_free (rd : Nat) :
    ugridTry c slot rd s = retire (threadKey c slot) 4 (setX rd 1) (updGrid c (Grid.grant t.gid) s) :=
  (withThread_issuing hi _).trans ((if_neg (ne_true_of_eq_false hg)).trans (if_pos (by simp [hfree, hline])))

end Free

variable (hbusy : (gridAt s c).holder ≠ none ∨ (gridAt s c).waiters ≠ [])
include hbusy

/-- UGRID.ACQ of a grid that is held or has a line waits in it. -/
theorem ugridAcq_waits : ugridAcq c slot s =
    updGrid c (fun x => if x.waiters.contains t.gid then x else { x with waiters := x.waiters ++ [t.gid] })
      (updThread (threadKey c slot) (fun x => { x with st := .waitGrid }) s) :=
  (withThread_issuing hi _).trans ((if_neg (ne_true_of_eq_false hg)).trans (if_neg (grid_not_free hbusy)))

theorem ugridTry_refused (rd : Nat) : ugridTry c slot rd s = retire (threadKey c slot) 4 (setX rd 0) s :=
  (withThread_issuing hi _).trans ((if_neg (ne_true_of_eq_false hg)).trans (if_neg (grid_not_free hbusy)))

end Ask

/-! Release (R105) -/

/-- A marked release takes effect where nothing is queued. -/
theorem settleRelease_empty {s : State} {c : Nat} (hrel : (gridAt s c).releasing = true)
    (hq : (gridAt s c).queue = []) : settleRelease c s = grantNext c s := by
  simp only [settleRelease, hrel, hq, List.isEmpty_nil, Bool.and_self, if_true]

/-- It waits for what is queued. -/
theorem settleRelease_queued {s : State} {c : Nat} (hq : (gridAt s c).queue ≠ []) : settleRelease c s = s := by
  have hq' : (gridAt s c).queue.isEmpty = false := by rwa [List.isEmpty_eq_false_iff]
  simp only [settleRelease, hq', Bool.and_false, Bool.false_eq_true, if_false]

/-- The grid as a release marks it. -/
theorem gridAt_marked (s : State) (c k : Nat) :
    gridAt (updGrid c (fun g => { g with releasing := true }) (retire k 4 id s)) c =
      { gridAt s c with releasing := true } :=
  gridAt_updGrid_same ..

/-! Reading (R139, R140, R145) -/

/-- A key of a slot below 96 names its cluster. -/
theorem threadKey_cluster {c slot : Nat} (hslot : slot < 96) : threadKey c slot / 96 = c := by
  show (c * 96 + slot) / 96 = c
  omega

section Held

variable {s : State} {c slot : Nat} {t : Thread} (hi : issuing s c slot = some t)
  (hg : (gridAt s c).heldBy t.gid = true)
include hi hg

theorem utget_reserved {rs1 : Nat} (rd : Nat) (h : 8 ≤ getX t rs1) :
    utget c slot rd rs1 s = trapAt (threadKey c slot) 0x0340 s :=
  (withGrid_held hi hg _).trans (if_pos h)

theorem utget_reads {rs1 : Nat} (rd : Nat) (h : getX t rs1 < 8) : utget c slot rd rs1 s =
    retire (threadKey c slot) 4 (setX rd ((cfgAfter (gridAt s c)).getD (getX t rs1) 0)) s :=
  (withGrid_held hi hg _).trans (if_neg (Nat.not_le.2 h))

variable (hslot : slot < 96)
include hslot

/-- UTWAIT holds the thread while the grid has entries. -/
theorem utwait_waits (hq : (gridAt s c).queue ≠ []) :
    utwait c slot s = updThread (threadKey c slot) (fun x => { x with st := .waitTensor }) s := by
  have ht := threadAt_updThread_same (threadAt_of_issuing hi) (fun x => { x with st := .waitTensor })
  have hq' :
      (gridAt (updThread (threadKey c slot) (fun x => { x with st := .waitTensor }) s) c).queue.isEmpty = false :=
    List.isEmpty_eq_false_iff.2 hq
  refine (withGrid_held hi hg _).trans ?_
  simp only [settleWait, ht, threadKey_cluster hslot, hq', Bool.false_eq_true, if_false]

/-- With no entry left UTWAIT retires at once. -/
theorem utwait_retires (hq : (gridAt s c).queue = []) : utwait c slot s = retire (threadKey c slot) 4 id s := by
  have hlive := threadAt_of_issuing hi
  have ht := threadAt_updThread_same hlive (fun x => { x with st := .waitTensor })
  have hq' : (gridAt (updThread (threadKey c slot) (fun x => { x with st := .waitTensor }) s) c).queue.isEmpty = true :=
    List.isEmpty_iff.2 hq
  refine (withGrid_held hi hg _).trans ?_
  simp only [settleWait, ht, threadKey_cluster hslot, hq', if_true]
  exact (updThread_twice _ _ _ _ t hlive).trans
    (updThread_congr hlive (by simp only [Thread.next, id_eq, ← active_of_issuing hi]))

end Held

/-- Settles O26: whether the group holds the grid, the grid is free, or it is busy picks the case. -/
theorem theGridIsHeldByOneGroup : Obligations.TheGridIsHeldByOneGroup := by
  intro s c slot t hi k g
  have ht := threadAt_of_issuing hi
  refine ⟨fun hg => congrArg done (ugridAcq_held hi hg),
    fun hg hfree hline => congrArg done (ugridAcq_free hi hg hfree hline),
    fun hg hbusy => congrArg done (ugridAcq_waits hi hg hbusy),
    fun rd hg => congrArg done (ugridTry_held hi rd hg),
    fun rd hg hfree hline => congrArg done (ugridTry_free hi hg hfree hline rd),
    fun rd hg hbusy => congrArg done (ugridTry_refused hi hg hbusy rd),
    fun hg => congrArg done (ugridRel_notHeld hi hg),
    fun hg hq => congrArg done ((ugridRel_held hi hg).trans (settleRelease_queued ?queued)),
    fun hg hq => congrArg done ((ugridRel_held hi hg).trans (settleRelease_empty ?marked ?empty)),
    fun rd rs1 hg h => congrArg done (utget_reserved hi hg rd h),
    fun rd rs1 hg h => congrArg done (utget_reads hi hg rd h),
    fun rd hg => congrArg done (withGrid_held hi hg _),
    fun hslot hg hq => congrArg done (utwait_waits hi hg hslot hq),
    fun hslot hg hq => ⟨_, congrArg done (utwait_retires hi hg hslot hq), threadAt_retire_same ht 4 id,
      fun j hjk => threadAt_updThread_other hjk _, rfl⟩⟩
  case queued => rwa [gridAt_marked]
  case marked => rw [gridAt_marked]
  case empty => rwa [gridAt_marked]

end Sys2Proof.Proofs
end

section
/-! Chapter 4: launches are accepted, their groups placed and ended (R97–R101). -/

namespace Sys2Proof.Proofs

open Sys2Proof Sys2Proof.Machine Sys2Proof.Safety Sys2Proof.Laws

/-! LAUNCH (R97, R98) -/

/-- R97: the body carries a reserved value. -/
theorem launchReserved_iff (b : List Byte) : launchReserved b = true ↔
    getLe b 40 4 = 0 ∨ getLe b 44 1 = 0 ∨ 96 < getLe b 44 1 ∨ (getLe b 16 8).testBit 0 = true ∨
      getLe b 32 8 % 0x400000 ≠ 0 ∨ 1024 < getLe b 46 2 ∨ getLe b 45 1 / 8 ≠ 0 := by
  simp only [launchReserved, bitOf, Bool.or_eq_true, beq_iff_eq, bne_iff_ne, decide_eq_true_eq, or_assoc, ne_eq]

/-- The leased clusters among those that a LAUNCH names (R98). -/
def launchClusters (q : Inflight) (s : State) : List Nat :=
  (if q.fld 48 16 = 0 then List.range 128 else clusterBits (q.fld 48 16)).filter (fun c => leasedTo s c q.owner)

/-- The launch that a packet asks for. -/
def launchOfPacket (q : Inflight) (cl : List Nat) : Launch :=
  { id := q.id, owner := q.owner, tag := q.tag, ring := q.ring, entry := q.fld 16 8, arg := q.fld 24 8
    scrBase := q.fld 32 8, groups := q.fld 40 4, threads := q.fld 44 1, utc := q.fld 45 1 % 4
    pack := bitOf (q.fld 45 1) 2, scrPg := q.fld 46 2, clusters := cl }

/-- The launch is live, and the cores of its clusters have empty instruction caches. -/
def acceptLaunch (l : Launch) (s : State) : State :=
  updFab (fun b => { b with
    launches := b.launches ++ [l], icache := b.icache.filter (fun x => !(l.clusters.contains (x.core / 16))) }) s

section Accept

variable {q : Inflight} {s : State}

theorem doLaunch_reserved (h : launchReserved q.bytes = true) : doLaunch q s = finishPkt q.id 0x0303 0 0 s :=
  if_pos h

variable (h : ¬ launchReserved q.bytes = true)
include h

/-- An owner's live tag refuses a second launch. -/
theorem doLaunch_tagged (ht : launchByTag s q.owner q.tag ≠ none) : doLaunch q s = finishPkt q.id 0x0245 0 0 s :=
  (if_neg h).trans (if_pos (Option.isSome_iff_ne_none.2 ht))

variable (ht : launchByTag s q.owner q.tag = none)
include ht

/-- LAUNCH after its fields and its tag. -/
theorem doLaunch_checked : doLaunch q s =
    if (launchClusters q s).isEmpty then finishPkt q.id 0x0241 0 0 s
    else if (launchClusters q s).all (fun c => decide (scrLimit s c < q.fld 46 2)) then finishPkt q.id 0x0240 0 0 s
    else updPkt q.id (fun x => { x with wait := .launch, pendD := true })
      (acceptLaunch (launchOfPacket q (launchClusters q s)) s) :=
  (if_neg h).trans (if_neg (by rw [ht]; exact Bool.false_ne_true))

theorem doLaunch_unleased (hcl : launchClusters q s = []) : doLaunch q s = finishPkt q.id 0x0241 0 0 s := by
  rw [doLaunch_checked h ht, if_pos (List.isEmpty_iff.2 hcl)]

/-- No named cluster has room for a group's scratch. -/
theorem doLaunch_tooLarge (hcl : launchClusters q s ≠ [])
    (hall : ∀ c ∈ launchClusters q s, scrLimit s c < q.fld 46 2) : doLaunch q s = finishPkt q.id 0x0240 0 0 s := by
  rw [doLaunch_checked h ht, if_neg (by rwa [List.isEmpty_iff]), if_pos]
  simpa only [List.all_eq_true, decide_eq_true_eq] using hall

theorem doLaunch_accepted (hone : ∃ c ∈ launchClusters q s, q.fld 46 2 ≤ scrLimit s c) : doLaunch q s =
    updPkt q.id (fun x => { x with wait := .launch, pendD := true })
      (acceptLaunch (launchOfPacket q (launchClusters q s)) s) := by
  obtain ⟨c, hc, hlimit⟩ := hone
  rw [doLaunch_checked h ht, if_neg (by rw [List.isEmpty_iff]; exact List.ne_nil_of_mem hc), if_neg]
  simp only [List.all_eq_true, decide_eq_true_eq]
  exact fun hall => absurd (hall c hc) (Nat.not_lt.2 hlimit)

end Accept

/-! Placement (R99, R100) -/

theorem placeGroup_none {s : State} {o : Nat} (h : placingLaunch s o = none) : placeGroup o s = s := by
  simp only [placeGroup, h]

section Place

variable {s : State} {o : Nat} {l : Launch} (hl : placingLaunch s o = some l)
include hl

/-- A launch that no cluster of its search has room for waits. -/
theorem placeGroup_full (h : ∀ c ∈ searchOrder l, roomFor s l c = none) : placeGroup o s = s := by
  have hsearch : (searchOrder l).findSome? (fun c => (roomFor s l c).map (fun p => (c, p))) = none :=
    List.findSome?_eq_none_iff.2 fun c hc => by rw [h c hc, Option.map_none]
  simp only [placeGroup, hl, hsearch]

/-- The first cluster of its search with room takes the group. -/
theorem placeGroup_first {pre post : List Nat} {c pg : Nat} (horder : searchOrder l = pre ++ c :: post)
    (hpre : ∀ x ∈ pre, roomFor s l x = none) (hroom : roomFor s l c = some pg) :
    placeGroup o s = placeOn l c pg s := by
  have hskip : pre.findSome? (fun c => (roomFor s l c).map (fun p => (c, p))) = none :=
    List.findSome?_eq_none_iff.2 fun x hx => by rw [hpre x hx, Option.map_none]
  have hsearch : (searchOrder l).findSome? (fun c => (roomFor s l c).map (fun p => (c, p))) = some (c, pg) := by
    rw [horder, List.findSome?_append, hskip, List.findSome?_cons, hroom]
    rfl
  simp only [placeGroup, hl, hsearch]

end Place

/-- What a write of an x register leaves of the rest of a thread. -/
theorem setX_rest (r v : Nat) (t : Thread) : (setX r v t).pc = t.pc ∧ (setX r v t).st = t.st ∧
    (setX r v t).utc = t.utc ∧ (setX r v t).gid = t.gid := by
  unfold setX
  split <;> exact ⟨rfl, rfl, rfl, rfl⟩

/-- R100: where a fresh thread starts. -/
theorem freshThread_rest (l : Launch) (g : Group) (i : Nat) : (freshThread l g i).pc = l.entry ∧
    (freshThread l g i).st = .active ∧ (freshThread l g i).utc = l.utc ∧ (freshThread l g i).gid = g.gid := by
  simp only [freshThread, setX_rest, and_self]

/-- R100: the four x registers that a fresh thread finds set; every other reads 0. -/
theorem getX_freshThread (l : Launch) (g : Group) (i r : Nat) : getX (freshThread l g i) r =
    if r = 10 then l.arg % 2 ^ 64 else if r = 11 then g.index % 2 ^ 64 else if r = 12 then i % 2 ^ 64
    else if r = 2 then (if l.scrPg = 0 then 0 else (ulocal l g + l.scrPg * 4096) % 2 ^ 64) % 2 ^ 64 else 0 := by
  have hblank : getX { gid := g.gid, index := i, pc := l.entry, utc := l.utc } r = 0 := by
    unfold getX
    split <;> rfl
  simp only [freshThread, getX_setX, hblank, ne_eq, Nat.reduceEqDiff, not_false_eq_true, and_true]

/-! The end of a group (R101) -/

section End

variable {s : State} {gid : Nat} {g : Group} (hg : findGroup s gid = some g)
include hg

theorem endGroup_waits (h : groupOver s g = false) : endGroup gid s = s := by
  simp only [endGroup, hg, h, Bool.false_eq_true, if_false]

theorem endGroup_ends (h : groupOver s g = true) : endGroup gid s = maybeLaunchDone g.launch
    (updLaunch g.launch (fun l => { l with groupsEnded := l.groupsEnded + 1 })
      (unseat g (leaveGrid g.cluster gid s))) := by
  simp only [endGroup, hg, h, if_true]

end End

/-- Settles O24: LAUNCH's checks pass one by one; the search stops at the first cluster with room; a group that is over
leaves its grid and its slots. -/
theorem launchesArePlacedAndEnd : Obligations.LaunchesArePlacedAndEnd := by
  refine ⟨fun s r p rest hf => ?launch, fun s o hclk => ?place, fun l g i => ?fresh, fun s gid g hclk hg => ?ends⟩
  case launch =>
    intro t q b bad named cl
    have hexec : exec (.launch r) s = done (doLaunch q t) :=
      congrArg done (runPacket_ready (size := oneUnit) hf (opIs_of hf.2.1))
    have hbad : launchReserved q.bytes = true ↔ bad := launchReserved_iff b
    rw [hexec]
    exact ⟨fun h => congrArg done (doLaunch_reserved (hbad.2 h)),
      fun h ht => congrArg done (doLaunch_tagged (s := t) (mt hbad.1 h) ht),
      fun h ht hcl => congrArg done (doLaunch_unleased (s := t) (mt hbad.1 h) ht hcl),
      fun h ht hcl hall => congrArg done (doLaunch_tooLarge (s := t) (mt hbad.1 h) ht hcl hall),
      fun h ht hone => congrArg done (doLaunch_accepted (s := t) (mt hbad.1 h) ht hone)⟩
  case place =>
    exact ⟨fun h => congrArg done ((whenClocked_pos hclk).trans (placeGroup_none h)), fun l hl =>
      ⟨fun h => congrArg done ((whenClocked_pos hclk).trans (placeGroup_full hl h)),
        fun pre c pg post horder hpre hroom =>
          congrArg done ((whenClocked_pos hclk).trans (placeGroup_first hl horder hpre hroom))⟩⟩
  case fresh =>
    obtain ⟨hpc, hst, hutc, hgid⟩ := freshThread_rest l g i
    refine ⟨hpc, hst, hutc, hgid, getX_freshThread .., getX_freshThread .., getX_freshThread .., ?_, ?_⟩
    · rw [getX_freshThread]
      by_cases h : l.scrPg = 0 <;> simp [h]
    · intro r h2 h10 h11 h12
      rw [getX_freshThread, if_neg h10, if_neg h11, if_neg h12, if_neg h2]
  case ends =>
    exact ⟨fun h => congrArg done ((whenClocked_pos hclk).trans (endGroup_waits hg h)),
      fun h => congrArg done ((whenClocked_pos hclk).trans (endGroup_ends hg h))⟩

end Sys2Proof.Proofs
end

section
/-! Chapter 6: mover chains fetch, run and end their descriptors (R108, R164–R168). -/

namespace Sys2Proof.Proofs

open Sys2Proof Sys2Proof.Machine Sys2Proof.Safety Sys2Proof.Laws

/-! The next descriptor (R165, R166) -/

/-- A chain fetches: what its last descriptor has done is counted. -/
def chainFetching (ch : Nat) (c : Chain) (s : State) : State := updChain ch c.cid (fun x => { x with done := 0 }) s

/-- One descriptor more has been fetched. -/
def chainFetched (ch : Nat) (c : Chain) (s : State) : State :=
  updChain ch c.cid (fun x => { x with count := x.count + 1 }) s

section Start

variable {s : State} {ch : Nat} {c : Chain}
  (hc : pickChain s ch (fun x => x.phase == .fetch && x.parked.isNone) = some c)
include hc

/-- The 4,097th descriptor fails unfetched. -/
theorem startDesc_tooMany (h : c.count = 4096) : startDesc ch s = descOver ch c.cid 0x0362
    (updChain ch c.cid (fun x => { x with desc := none, done := 0 }) (logDesc ch c 0x0362 s)) := by
  simp only [startDesc, hc, if_pos h]

/-- A descriptor in this chip's memory without poison is read, and taken up. -/
theorem startDesc_takes {dpa : Nat} (h : c.count ≠ 4096)
    (hr : resolve (chainFetching ch c s) c.owner c.dva 1 = .ok (.here dpa))
    (hp : poisonIn (chainFetching ch c s) dpa 64 = none) :
    startDesc ch s = takeDesc ch { c with done := 0 } (readMem (chainFetching ch c s) c.owner dpa 64)
      (chainFetched ch c (countBytes dpa 64 false (chainFetching ch c s))) := by
  simp only [chainFetching] at hr hp
  simp only [startDesc, hc, if_neg h, hr, hp, chainFetching, chainFetched]

end Start

theorem takeDesc_refused {b : List Byte} {ch st : Nat} (c : Chain) (s : State)
    (h : descError (decide (512 ≤ ch)) b = some st) : takeDesc ch c b s = descOver ch c.cid st (logDesc ch c st s) := by
  simp only [takeDesc, h]

theorem takeDesc_taken {b : List Byte} {ch : Nat} (c : Chain) (s : State)
    (h : descError (decide (512 ≤ ch)) b = none) : takeDesc ch c b s = updChain ch c.cid (fun x => { x with
      desc := some (parseDesc b), phase := .steps, row := 0, off := 0, done := 0 }) s := by
  simp only [takeDesc, h]

/-! Steps (R166–R168) -/

/-- A step whose destination is this chip's memory stores its bytes and moves on. -/
theorem stepWrite_here {s : State} {ch dst dpa : Nat} {c : Chain} {d : Desc} (bs : List Byte) (hdev : d.dstHost = false)
    (hr : resolve s c.owner dst 2 = .ok (.here dpa)) :
    stepWrite ch c d dst bs [] s =
      stepDone ch c.cid bs.length (deviceWrite notThread c.owner dpa bs (chargeTc0 dpa d.tc s)) := by
  simp only [stepWrite, hdev, Bool.false_eq_true, if_false, hr, List.foldl_nil]

/-- What leaves the block does not matter to translation. -/
theorem resolve_emit (e : Emit) (s : State) (o dva acc : Nat) : resolve (emit e s) o dva acc =
    resolve s o dva acc := rfl

section Read

variable {s : State} {ch src dst dpa : Nat} {c : Chain} {d : Desc} {x : Target}
  (hr : resolve s c.owner src 1 = .ok (.here dpa)) (hreg : regionOf dpa ≠ some .regs) (hdev : d.dstHost = false)
  (hw : resolve s c.owner dst 2 = .ok x) (rr : RegReader) (n : Nat) (ecc : Ecc)
include hr hreg hdev hw

/-- A step that meets poison and may not pass it on ends its descriptor (R162). -/
theorem stepRead_poisoned {a : Nat}
    (hp : poisonIn (applyEcc ecc dpa (countBytes dpa n false (chargeTc0 dpa d.tc s))) dpa n = some a)
    (hpass : d.poisonPass = false) : stepRead rr ch c d src dst n ecc s =
      let u := applyEcc ecc dpa (countBytes dpa n false (chargeTc0 dpa d.tc s))
      descOver ch c.cid 0x0460 (markChain c (reportPoison (chainWho u ch c) 1 (src + (a - dpa)) a u)) := by
  simp only [stepRead, hr, hdev, Bool.false_eq_true, if_false, hw, if_neg hreg, hp, hpass]

/-- A step without poison writes what it has read. -/
theorem stepRead_clean
    (hp : poisonIn (applyEcc ecc dpa (countBytes dpa n false (chargeTc0 dpa d.tc s))) dpa n = none) :
    stepRead rr ch c d src dst n ecc s =
      let u := applyEcc ecc dpa (countBytes dpa n false (chargeTc0 dpa d.tc s))
      stepWrite ch c d dst (readMem u c.owner dpa n) ((List.range n).filter (fun o => poisonedAt u (dpa + o))) u := by
  simp only [stepRead, hr, hdev, Bool.false_eq_true, if_false, hw, if_neg hreg, hp]

end Read

/-- The bytes that a fill's step writes: its pattern from the step's offset on (R165). -/
def fillBytes (d : Desc) (c : Chain) : List Byte :=
  (List.range (stepOf d c).2.2).map (fun i => BitVec.ofNat 8 (d.src / 2 ^ (8 * ((c.off + i) % 8))))

section Step

variable {s : State} {ch : Nat} {c : Chain} {d : Desc} (hclk : fclkRuns s = true) (hc : stepChain s ch = some c)
  (hd : c.desc = some d) (rr : RegReader) (ecc : Ecc) (host : Option (List Byte))
include hclk hc hd

theorem moverStep_fill (hf : d.fill = true) :
    moverStepOps rr ch ecc host s = stepWrite ch c d (stepOf d c).2.1 (fillBytes d c) [] s := by
  simp only [moverStepOps, hclk, Bool.not_true, Bool.false_eq_true, if_false, hc, hd, hf, if_true, fillBytes]

variable (hf : d.fill = false)
include hf

/-- A step between this chip's memories reads its source. -/
theorem moverStep_device (hsrc : d.srcHost = false) :
    moverStepOps rr ch ecc host s = stepRead rr ch c d (stepOf d c).1 (stepOf d c).2.1 (stepOf d c).2.2 ecc s := by
  simp only [moverStepOps, hclk, Bool.not_true, Bool.false_eq_true, if_false, hc, hd, hf, hsrc]

variable (hsrc : d.srcHost = true)
include hsrc

/-- A step from the host writes the bytes that the host answers. -/
theorem moverStep_host {x : Target} (hdev : d.dstHost = false)
    (hw : resolve s c.owner (stepOf d c).2.1 2 = .ok x) (bs : List Byte) :
    moverStepOps rr ch ecc (some bs) s = stepWrite ch c d (stepOf d c).2.1 (slice bs 0 (stepOf d c).2.2) []
      (emit (.hostRead c.owner (stepOf d c).1 (stepOf d c).2.2) s) := by
  simp only [moverStepOps, hclk, Bool.not_true, Bool.false_eq_true, if_false, hc, hd, hf, hsrc, hdev, hw, if_true]

/-- A host read that fails is a host error of the chain (R187). -/
theorem moverStep_hostFails (hdst : d.dstHost = true) :
    moverStepOps rr ch ecc none s = chainHostError ch c (stepOf d c).1
      (emit (.hostRead c.owner (stepOf d c).1 (stepOf d c).2.2) s) := by
  simp only [moverStepOps, hclk, Bool.not_true, Bool.false_eq_true, if_false, hc, hd, hf, hsrc, hdst, if_true]

end Step

/-! The end of descriptors and chains (R108, R168) -/

theorem isOver_iff (c : Chain) : isOver c = true ↔ ∃ st, c.phase = .curOver st := by
  unfold isOver
  split
  · rename_i st h
    exact ⟨fun _ => ⟨st, h⟩, fun _ => rfl⟩
  · rename_i h
    exact ⟨fun e => absurd e Bool.false_ne_true, fun ⟨st, e⟩ => absurd e (h st)⟩

theorem isFinished_iff (c : Chain) : isFinished c = true ↔ ∃ st, c.phase = .finished st := by
  unfold isFinished
  split
  · rename_i st h
    exact ⟨fun _ => ⟨st, h⟩, fun _ => rfl⟩
  · rename_i h
    exact ⟨fun e => absurd e Bool.false_ne_true, fun ⟨st, e⟩ => absurd e (h st)⟩

/-- A packet's own descriptor and a chain without one have no NEXT. -/
theorem nextDva_eq (c : Chain) : nextDva c = if c.ownDesc = true then 0 else (c.desc.map (·.next)).getD 0 := by
  unfold nextDva
  cases c.desc with
  | none => exact (ite_self 0).symm
  | some d => rfl

/-- A failed or cancelled chain and one without NEXT finish; any other fetches. -/
theorem phaseAfter_eq (st next : Nat) (cancel : Option Nat) : phaseAfter st next cancel =
    if st ≠ 0 then .finished st
    else if cancel.isSome = true then .finished (cancel.getD 0)
    else if next = 0 then .finished 0 else .fetch := by
  cases cancel <;> rfl

theorem endDesc_over {s : State} {ch st : Nat} {c : Chain} (hc : pickChain s ch isOver = some c)
    (hst : c.phase = .curOver st) : endDesc ch s = updChain ch c.cid (fun x => { x with
      total := x.total + x.done
      done := 0
      phase := phaseAfter st (nextDva c) x.cancel
      dva := if st = 0 ∧ nextDva c ≠ 0 then nextDva c else x.dva
      desc := none, tc0 := x.tc }) (writeResult ch c st c.done true s) := by
  simp only [endDesc, hc, hst]

/-- A finished chain waits for its RESULT writes, then leaves. -/
theorem completeChain_eq {s : State} {ch st : Nat} {c : Chain} (hc : pickChain s ch isFinished = some c)
    (hst : c.phase = .finished st) : completeChain ch s =
      if awaits s (· == .moverResult c.cid) then s else finishChain ch c st s := by
  simp only [completeChain, hc, hst]

/-- Settles O29: each row picks its chain, and the chain's phase and its addresses pick the case. -/
theorem moverChainsRunDescriptors : Obligations.MoverChainsRunDescriptors := by
  refine ⟨fun s ch c hclk hc => ?start, fun s ch ecc host c d dst hclk hc hd => ?step,
    fun c => ⟨isOver_iff c, isFinished_iff c⟩, fun s ch c st hclk hc hst => ?ends, fun s ch c st hc hst => ?complete⟩
  case start =>
    refine ⟨fun h => congrArg done ((whenClocked_pos hclk).trans (startDesc_tooMany hc h)), fun dpa h hr => ?_⟩
    intro t hp u b
    have htakes := (whenClocked_pos hclk).trans (startDesc_takes hc h hr hp)
    exact ⟨fun st he => congrArg done (htakes.trans (takeDesc_refused _ _ he)),
      fun he => congrArg done (htakes.trans (takeDesc_taken _ _ he))⟩
  case step =>
    intro n
    refine ⟨fun hw hdev hf => congrArg done ((whenClocked_pos hclk).trans ?fill), fun bs hw hdev hf hsrc hhost => ?host,
      fun hf hsrc hdst hhost => congrArg done ((whenClocked_pos hclk).trans ?hostFails),
      fun src hr hreg hdev hw hf hsrc => ?device⟩
    case fill =>
      have hlen : (fillBytes d c).length = n := by simp [fillBytes, n]
      rw [moverStep_fill hclk hc hd _ _ _ hf, stepWrite_here _ hdev hw, hlen]
      rfl
    case host =>
      subst hhost
      exact ⟨_, congrArg done ((whenClocked_pos hclk).trans ((moverStep_host hclk hc hd _ _ hf hsrc hdev hw bs).trans
        (stepWrite_here _ hdev ((resolve_emit ..).trans hw)))), rfl⟩
    case hostFails =>
      subst hhost
      exact moverStep_hostFails hclk hc hd _ _ hf hsrc hdst
    case device =>
      have hread := (whenClocked_pos hclk).trans (moverStep_device hclk hc hd mirrorRead ecc host hf hsrc)
      exact ⟨fun a hp hpass => congrArg done (hread.trans (stepRead_poisoned hr hreg hdev hw _ n ecc hp hpass)),
        fun hp => congrArg done (hread.trans (stepRead_clean hr hreg hdev hw _ n ecc hp))⟩
  case ends =>
    intro next
    have hend := endDesc_over hc hst
    simp only [phaseAfter_eq, nextDva_eq] at hend
    exact congrArg done ((whenClocked_pos hclk).trans hend)
  case complete =>
    have heq := completeChain_eq hc hst
    exact ⟨fun h => congrArg done (heq.trans (if_pos h)),
      fun h => congrArg done (heq.trans (if_neg (ne_true_of_eq_false h)))⟩

end Sys2Proof.Proofs
end

section
/-! Chapter 4: SUSPEND, its save, CONTINUE and the saved groups' return (R119–R122). -/

namespace Sys2Proof.Proofs

open Sys2Proof Sys2Proof.Machine Sys2Proof.Safety Sys2Proof.Laws

/-! The owner that a packet names -/

section Named

variable {q : Inflight} (ho : q.fld 21 1 < 64) (hown : q.owner = 0 ∨ q.fld 21 1 = q.owner)
  (hdva : q.fld 24 8 % 4096 = 0)
include ho hown hdva

theorem launchNamed_suspend (hop : q.fld 20 1 < 2) : launchNamed q true = some (q.fld 21 1) := by
  refine if_neg ?_
  simp only [if_true]
  omega

theorem launchNamed_continue (hop : q.fld 20 1 = 0) : launchNamed q false = some (q.fld 21 1) := by
  refine if_neg ?_
  simp only [Bool.false_eq_true, if_false]
  omega

end Named

/-- An owner is judged by whether it is ACTIVE. -/
theorem notActive_eq (s : State) (o : Nat) : ((ownerAt s o).st != .active) = !(ownerActive s o) := rfl

/-! SUSPEND (R119, R120) -/

section Suspend

variable {q : Inflight} {s : State} {o : Nat} (hn : launchNamed q true = some o)
include hn

theorem doSuspend_gone (ha : ownerActive s o = false) : doSuspend q s = finishPkt q.id 0x0225 0 0 s := by
  simp only [doSuspend, hn, notActive_eq, ha, Bool.not_false, if_true]

variable (ha : ownerActive s o = true)
include ha

theorem doSuspend_unknown (hl : launchByTag s o (q.fld 16 4) = none) :
    doSuspend q s = finishPkt q.id 0x0242 0 0 s := by
  simp only [doSuspend, hn, notActive_eq, ha, Bool.not_true, Bool.false_eq_true, if_false, hl]

variable {l : Launch} (hl : launchByTag s o (q.fld 16 4) = some l)
include hl

/-- A launch that does not run, or that was stopped, is not suspended. -/
theorem doSuspend_notRunning (h : l.st ≠ .running ∨ l.stopped ≠ none) :
    doSuspend q s = finishPkt q.id 0x0242 0 0 s := by
  have hstop : (l.st != .running || l.stopped.isSome) = true := by
    simpa only [Bool.or_eq_true, bne_iff_ne, Option.isSome_iff_ne_none] using h
  simp only [doSuspend, hn, notActive_eq, ha, Bool.not_true, Bool.false_eq_true, if_false, hl, hstop, if_true]

variable (hst : l.st = .running) (hstop : l.stopped = none)
include hst hstop

theorem doSuspend_short (h : q.fld 32 8 < saveSize s l.id) : doSuspend q s = finishPkt q.id 0x0244 0 0 s := by
  simp only [doSuspend, hn, notActive_eq, ha, Bool.not_true, Bool.false_eq_true, if_false, hl, hst, hstop,
    bne_self_eq_false, Option.isSome_none, Bool.or_self, if_pos h]

/-- A running launch with room for its save stops, and the packet waits for it. -/
theorem doSuspend_stops (h : saveSize s l.id ≤ q.fld 32 8) (hforce : q.fld 20 1 = 0) : doSuspend q s =
    updPkt q.id (fun x => { x with wait := .launch, pendD := true }) (updLaunch l.id (fun x => { x with
      st := .suspending
      job := some { id := q.id, dva := q.fld 24 8, bytes := q.fld 32 8, force := false } }) s) := by
  have hbit : bitOf 0 0 = false := rfl
  simp only [doSuspend, hn, notActive_eq, ha, Bool.not_true, Bool.false_eq_true, if_false, hl, hst, hstop,
    bne_self_eq_false, Option.isSome_none, Bool.or_self, if_neg (Nat.not_lt.2 h), hforce, hbit]

end Suspend

/-! The save (R120, R121) -/

/-- The grids that a launch's groups hold have reached their pre-emption points. -/
def preemptedBy (l : Launch) (s : State) : State :=
  (groupsByIndex s l.id).foldl (fun t g => if holdsGrid t g then preempt g.cluster t else t) s

/-- The group records of a launch. -/
def saveBody (l : Launch) (s : State) : List Byte :=
  ((groupsByIndex s l.id).map (groupRecord (preemptedBy l s) l)).flatten

/-- The lines of a save area, launch header first. -/
def saveArea (l : Launch) (j : SuspendJob) (s : State) : List (Nat × List Byte) :=
  chunks 64 (4096 + (saveBody l s).length) j.dva
    (launchHeader (preemptedBy l s) l (4096 + (saveBody l s).length) (groupsByIndex s l.id).length ++ saveBody l s)

/-- Saved groups leave their slots and their grids. -/
def groupsLeave (gs : List Group) (s : State) : State :=
  gs.foldl (fun t g => unseat g (leaveGrid g.cluster g.gid
    (if holdsGrid t g then updGrid g.cluster (fun x => { x with queue := [] }) t else t))) s

section Save

variable {s : State} {o tag : Nat} {l : Launch} {j : SuspendJob} (hl : launchByTag s o tag = some l)
  (hst : l.st = .suspending) (hj : l.job = some j) (hforce : j.force = false)
include hl hst hj hforce

theorem suspendDone_waits (h : cleanPoint s l.id = false) : suspendDone o tag s = s := by
  simp only [suspendDone, hl, hst, hj, hforce, Bool.false_eq_true, if_false, h, Bool.not_false, if_true]

variable (h : cleanPoint s l.id = true)
include h

/-- A line that cannot be written ends the SUSPEND, and the launch runs on. -/
theorem suspendDone_fails {v : State} {dva : Nat} {e : AccessErr}
    (hsave : saveLines o (saveArea l j s) (preemptedBy l s) = (v, some (dva, e))) :
    suspendDone o tag s = finishPkt j.id (endStatus s o e) 0 0
      (markLogged j.id (updLaunch l.id (fun x => { x with st := .running, job := none })
        (reportErr { owner := o, agent := 7, index := 0, source := 0x04 } 2 dva e v))) := by
  simp only [saveArea, saveBody, preemptedBy] at hsave
  simp only [suspendDone, hl, hst, hj, hforce, Bool.false_eq_true, if_false, h, Bool.not_true, hsave]

/-- With the area written the groups leave, and the launch is suspended. -/
theorem suspendDone_saves {v : State} (hsave : saveLines o (saveArea l j s) (preemptedBy l s) = (v, none)) :
    suspendDone o tag s = finishPkt j.id 0 0 0 (updLaunch l.id (fun x => { x with
        st := .suspended, job := none, saved := (groupsByIndex s l.id).map (savedOf (preemptedBy l s) l) })
      (groupsLeave (groupsByIndex s l.id) (updOwner o (fun w => { w with
        parks := w.parks.map (fun k => { k with agent := savePark l.id (groupsByIndex s l.id) k.agent }) }) v))) := by
  simp only [saveArea, saveBody, preemptedBy] at hsave
  simp only [suspendDone, hl, hst, hj, hforce, Bool.false_eq_true, if_false, h, Bool.not_true, hsave, groupsLeave,
    preemptedBy]

end Save

/-! CONTINUE (R122) -/

/-- The size of a suspended launch's save area. -/
def savedSize (l : Launch) : Nat :=
  4096 + l.saved.foldl (fun n g => n + recBytes g.group.slots.length g.group.scrPg g.gridHeld) 0

section Continue

variable {q : Inflight} {s : State} {o : Nat} (hn : launchNamed q false = some o) (ha : ownerActive s o = true)
  {l : Launch} (hl : launchByTag s o (q.fld 16 4) = some l)
include hn ha hl

theorem doContinue_notSuspended (hst : l.st ≠ .suspended) : doContinue q s = finishPkt q.id 0x0242 0 0 s := by
  simp only [doContinue, hn, notActive_eq, ha, Bool.not_true, Bool.false_eq_true, if_false, hl,
    if_pos (bne_iff_ne.2 hst)]

variable (hst : l.st = .suspended) {b : List Byte}
  (hb : readArea s o (chunks 64 (savedSize l) (q.fld 24 8) (zeros (savedSize l))) = .ok b)
include hst hb

/-- An area that does not match its suspension restores nothing. -/
theorem doContinue_mismatch (hr : readSave l b = none) : doContinue q s = finishPkt q.id 0x034A 0 0 s := by
  simp only [savedSize] at hb
  simp only [doContinue, hn, notActive_eq, ha, Bool.not_true, Bool.false_eq_true, if_false, hl, hst,
    bne_self_eq_false, hb, hr]

/-- CONTINUE with a matching area: the leases of its clusters decide. -/
theorem doContinue_matches {saved : List SavedGroup} (hr : readSave l b = some saved) : doContinue q s =
    if saved.any (fun g => (leaseAt s g.group.cluster).owner != some o) then finishPkt q.id 0x0243 0 0 s
    else updPkt q.id (fun x => { x with wait := .launch }) (updLaunch l.id (fun x => { x with
      st := .restoring, saved := saved
      job := some { id := q.id, dva := q.fld 24 8, bytes := 0, force := false } }) s) := by
  simp only [savedSize] at hb
  simp only [doContinue, hn, notActive_eq, ha, Bool.not_true, Bool.false_eq_true, if_false, hl, hst,
    bne_self_eq_false, hb, hr]

theorem doContinue_unleased {saved : List SavedGroup} (hr : readSave l b = some saved)
    (h : ∃ g ∈ saved, (leaseAt s g.group.cluster).owner ≠ some o) : doContinue q s = finishPkt q.id 0x0243 0 0 s :=
  (doContinue_matches hn ha hl hst hb hr).trans
    (if_pos (by simpa only [List.any_eq_true, bne_iff_ne] using h))

theorem doContinue_restores {saved : List SavedGroup} (hr : readSave l b = some saved)
    (h : ∀ g ∈ saved, (leaseAt s g.group.cluster).owner = some o) : doContinue q s =
      updPkt q.id (fun x => { x with wait := .launch }) (updLaunch l.id (fun x => { x with
        st := .restoring, saved := saved
        job := some { id := q.id, dva := q.fld 24 8, bytes := 0, force := false } }) s) := by
  refine (doContinue_matches hn ha hl hst hb hr).trans (if_neg ?_)
  simp only [List.any_eq_true, bne_iff_ne]
  exact fun ⟨g, hg, hne⟩ => hne (h g hg)

end Continue

/-! The groups' return (R122) -/

section Return

variable {s : State} {o tag : Nat} {l : Launch} (hl : launchByTag s o tag = some l)
include hl

theorem continuePlace_idle (hst : l.st ≠ .restoring) : continuePlace o tag s = s := by
  simp only [continuePlace, hl, if_pos (bne_iff_ne.2 hst)]

variable (hst : l.st = .restoring)
include hst

/-- With every group back the launch runs again. -/
theorem continuePlace_restarts (hfind : findLaunch s l.id = some l) (hall : l.saved.all (·.placed) = true) :
    continuePlace o tag s = restartLaunch l s := by
  have hnone : l.saved.find? (fun g => !g.placed && canSeat s o g) = none :=
    List.find?_eq_none.2 fun g hg => by simp [List.all_eq_true.1 hall g hg]
  simp only [continuePlace, hl, hst, bne_self_eq_false, Bool.false_eq_true, if_false, hnone, hfind, hall, if_true]

/-- The first saved group that fits goes back, and the last one starts the launch. -/
theorem continuePlace_seats {g : SavedGroup} {m : Launch}
    (hg : l.saved.find? (fun g => !g.placed && canSeat s o g) = some g)
    (hm : findLaunch (seatSaved l g s) l.id = some m) : continuePlace o tag s =
      if m.saved.all (·.placed) = true then restartLaunch m (seatSaved l g s) else seatSaved l g s := by
  simp only [continuePlace, hl, hst, bne_self_eq_false, Bool.false_eq_true, if_false, hg, hm]

end Return

/-- Settles O25: each packet's checks pass one by one; the save and the return go by what the launch's state shows. -/
theorem launchesSuspendAndContinue : Obligations.LaunchesSuspendAndContinue := by
  refine ⟨fun s r p rest hf => ?suspend, fun s o tag l j hclk hl hst hj hforce => ?save,
    fun s r p rest hf => ?continues, fun s o tag l hclk hl => ?places⟩
  case suspend =>
    intro t o ho hown hdva hop
    have hexec : exec (.suspend r) s = done (doSuspend (inflightOfPacket s r p) t) :=
      congrArg done (runPacket_ready (size := oneUnit) hf (opIs_of hf.2.1))
    have hn : launchNamed (inflightOfPacket s r p) true = some o := launchNamed_suspend ho hown hdva hop
    rw [hexec]
    exact ⟨fun ha => congrArg done (doSuspend_gone (s := t) hn ha),
      fun ha hl => congrArg done (doSuspend_unknown (s := t) hn ha hl), fun l ha hl =>
      ⟨fun h => congrArg done (doSuspend_notRunning (s := t) hn ha hl h),
        fun hst hstop h => congrArg done (doSuspend_short (s := t) hn ha hl hst hstop h),
        fun hst hstop h hforce => congrArg done (doSuspend_stops (s := t) hn ha hl hst hstop h hforce)⟩⟩
  case save =>
    exact ⟨fun h => congrArg done ((whenClocked_pos hclk).trans (suspendDone_waits hl hst hj hforce h)), fun h =>
      ⟨fun v dva e hsave => congrArg done ((whenClocked_pos hclk).trans (suspendDone_fails hl hst hj hforce h hsave)),
        fun v hsave => congrArg done ((whenClocked_pos hclk).trans (suspendDone_saves hl hst hj hforce h hsave))⟩⟩
  case continues =>
    intro t o ho hown hdva hop ha
    have hexec : exec (.contin r) s = done (doContinue (inflightOfPacket s r p) t) :=
      congrArg done (runPacket_ready (size := oneUnit) hf (opIs_of hf.2.1))
    have hn : launchNamed (inflightOfPacket s r p) false = some o := launchNamed_continue ho hown hdva hop
    rw [hexec]
    exact ⟨fun l hl hst => congrArg done (doContinue_notSuspended (s := t) hn ha hl hst), fun l b hl hst hb =>
      ⟨fun hr => congrArg done (doContinue_mismatch (s := t) hn ha hl hst hb hr), fun saved hr =>
        ⟨fun h => congrArg done (doContinue_unleased (s := t) hn ha hl hst hb hr h),
          fun h => congrArg done (doContinue_restores (s := t) hn ha hl hst hb hr h)⟩⟩⟩
  case places =>
    exact ⟨fun hst => congrArg done ((whenClocked_pos hclk).trans (continuePlace_idle hl hst)),
      fun hst hfind hall => congrArg done ((whenClocked_pos hclk).trans (continuePlace_restarts hl hst hfind hall)),
      fun g m hst hg hm => congrArg done ((whenClocked_pos hclk).trans (continuePlace_seats hl hst hg hm))⟩

end Sys2Proof.Proofs
end

section
/-! Chapter 5: what is queued for the Tensor Grid, and how an entry starts and lands (R140, R142, R143, R145). -/

namespace Sys2Proof.Proofs

open Sys2Proof Sys2Proof.Machine Sys2Proof.Safety Sys2Proof.Laws

/-! Issue (R140, R142) -/

/-- UTZERO has no address and no format to check, so only the reserved bits of its rs2 trap. -/
theorem entryTrap_utzero (g : Grid) {e : TEntry} (hop : e.op = .utzero) :
    entryTrap g e = if e.rs2 &&& 0x300 = e.rs2 then none else some 0x0340 := by
  have hreads : e.reads (cfgAfter g) = [] := by simp only [TEntry.reads, hop]
  have hwrites : e.writes (cfgAfter g) = [] := by simp only [TEntry.writes, hop]
  by_cases h : e.rs2 &&& 0x300 = e.rs2
  · simp [entryTrap, hop, rs2Mask, hreads, hwrites, h]
  · simp [entryTrap, hop, rs2Mask, h]

/-- What a tensor instruction of a thread would queue. -/
abbrev issuedEntry (t : Thread) (op : TOp) (word rs1 rs2 slot : Nat) : TEntry :=
  { op := op, insn := word, rs1 := getX t rs1, rs2 := getX t rs2, slot := slot }

section Queue

variable {s : State} {c slot rs1 rs2 : Nat} {t : Thread} {op : TOp} {word : Nat} (hi : issuing s c slot = some t)
  (hg : (gridAt s c).heldBy t.gid = true)
include hi hg

theorem issueTensor_traps {st : Nat}
    (htrap : entryTrap (gridAt s c) (issuedEntry t op word rs1 rs2 slot) = some st) :
    issueTensor c slot op word rs1 rs2 s = trapAt (threadKey c slot) st s := by
  simp only [issueTensor, withGrid_held hi hg, htrap]

variable (hok : entryTrap (gridAt s c) (issuedEntry t op word rs1 rs2 slot) = none)
include hok

/-- A full queue stalls the thread (R143). -/
theorem issueTensor_stalls (hfull : 16 ≤ (gridAt s c).queue.length) : issueTensor c slot op word rs1 rs2 s = s := by
  simp only [issueTensor, withGrid_held hi hg, hok, if_pos hfull]

theorem issueTensor_queues (hroom : (gridAt s c).queue.length < 16) : issueTensor c slot op word rs1 rs2 s =
    retire (threadKey c slot) 4 id
      (updGrid c (fun g => { g with queue := g.queue ++ [issuedEntry t op word rs1 rs2 slot] }) s) := by
  simp only [issueTensor, withGrid_held hi hg, hok, if_neg (Nat.not_le.2 hroom)]

end Queue

section Zero

variable {s : State} {c slot rs1 rs2 : Nat} {t : Thread} (hi : issuing s c slot = some t)
  (hg : (gridAt s c).heldBy t.gid = true)
include hi hg

theorem utzero_field (hr : rs1 ≠ 0) : utzero c slot rs1 rs2 s = trapAt (threadKey c slot) 0x0340 s :=
  (if_neg hr).trans (withGrid_held hi hg _)

theorem utzero_reserved (hmask : getX t rs2 &&& 0x300 ≠ getX t rs2) :
    utzero c slot 0 rs2 s = trapAt (threadKey c slot) 0x0340 s :=
  (if_pos rfl).trans (issueTensor_traps hi hg ((entryTrap_utzero _ rfl).trans (if_neg hmask)))

theorem utzero_queues (hmask : getX t rs2 &&& 0x300 = getX t rs2) (hroom : (gridAt s c).queue.length < 16) :
    utzero c slot 0 rs2 s = retire (threadKey c slot) 4 id (updGrid c (fun g => { g with
      queue := g.queue ++ [issuedEntry t .utzero (tensorWord 2 3 rs2 0) 0 rs2 slot] }) s) :=
  (if_pos rfl).trans (issueTensor_queues hi hg ((entryTrap_utzero _ rfl).trans (if_pos hmask)) hroom)

end Zero

/-! Start (R143, R145) -/

section Start

variable {g : Grid} {e : TEntry} {before after : List TEntry} (hq : g.queue = before ++ e :: after)
  (hbefore : ∀ x ∈ before, x.started = true) (he : e.started = false)
include hq hbefore he

/-- The entry that starts next is the first that has not started. -/
theorem queue_from_waiting : g.queue.dropWhile (·.started) = e :: after := by
  rw [hq, List.dropWhile_append_of_pos hbefore, List.dropWhile_cons_of_neg (ne_true_of_eq_false he)]

theorem queue_before_waiting : g.queue.takeWhile (·.started) = before := by
  rw [hq, List.takeWhile_append_of_pos hbefore, List.takeWhile_cons_of_neg (ne_true_of_eq_false he), List.append_nil]

theorem start_heldBack (h : ∃ x ∈ before, holdsBack e g.cfg x = true) : g.start = g := by
  simp only [Grid.start, queue_from_waiting hq hbefore he, queue_before_waiting hq hbefore he,
    List.any_eq_true.2 h, if_true]

/-- An entry that none holds back starts under the present configuration; UTSET changes it (R140). -/
theorem start_starts (h : ∀ x ∈ before, holdsBack e g.cfg x = false) : g.start = { g with
    queue := before ++ { e with started := true, cfg := g.cfg } :: after
    cfg := if e.op = .utset then g.cfg.set e.rs1 e.rs2 else g.cfg } := by
  have hfree : ¬ before.any (holdsBack e g.cfg) = true := by
    simpa only [List.any_eq_true, not_exists, not_and, Bool.not_eq_true] using h
  simp only [Grid.start, queue_from_waiting hq hbefore he, queue_before_waiting hq hbefore he, if_neg hfree,
    beq_iff_eq]

end Start

/-- A start with no access of the issuing thread outstanding is the grid's own (R145). -/
theorem tensorStart_performed {s : State} {c : Nat} {e : TEntry} {after : List TEntry} (hclk : fclkRuns s = true)
    (hnext : (gridAt s c).queue.dropWhile (·.started) = e :: after)
    (hawaits : threadAwaits s (threadKey c e.slot) = false) : tensorStart c s = updGrid c Grid.start s := by
  simp only [tensorStart, hclk, Bool.not_true, Bool.false_eq_true, if_false, hnext, hawaits, Bool.false_and]

/-! Landing (R143) -/

section Land

variable {s : State} {c pos : Nat} {e : TEntry} (hpos : (gridAt s c).queue[pos]? = some e)
include hpos

theorem tensorComplete_waiting (ecc : Ecc) (he : e.started = false) : tensorComplete c pos ecc s = s := by
  simp only [tensorComplete, hpos, he, Bool.false_and, Bool.false_eq_true, if_false]

/-- UTST reads its bank before it stores, so what ECC finds comes first there; elsewhere it comes after. -/
theorem tensorComplete_lands (ecc : Ecc) (hclk : fclkRuns s = true) (he : e.started = true) :
    tensorComplete c pos ecc s = settleRelease c (updGrid c (fun g => { g with queue := g.queue.eraseIdx pos })
      (if e.op = .utst then entryEffect c e (tensorEcc c e ecc s) else tensorEcc c e ecc (entryEffect c e s))) := by
  simp only [tensorComplete, hpos, he, hclk, Bool.and_self, if_true]
  cases e.op <;> rfl

end Land

/-- Settles O27: the check at issue and the queue's room pick what a row does; UTZERO's check is its mask; the first
entry not started is the one that starts; an entry lands once it has started. -/
theorem tensorEntriesQueueStartAndLand : Obligations.TensorEntriesQueueStartAndLand := by
  refine ⟨fun s c slot rs1 rs2 t hi hg => ⟨fun row op word hrow => ?rows,
      fun hr => congrArg done (utzero_field hi hg hr),
      fun hmask hroom => congrArg done (utzero_queues hi hg hmask hroom),
      fun hmask => congrArg done (utzero_reserved hi hg hmask)⟩,
    fun s c e before after hclk hq hbefore he hawaits => ?start,
    fun s c pos ecc e hclk hpos => ?land⟩
  case rows =>
    have hexec : exec row s = done (issueTensor c slot op word rs1 rs2 s) := by
      simp only [List.mem_cons, Prod.mk.injEq, List.not_mem_nil, or_false] at hrow
      rcases hrow with ⟨rfl, rfl, rfl⟩ | ⟨rfl, rfl, rfl⟩ | ⟨rfl, rfl, rfl⟩ | ⟨rfl, rfl, rfl⟩ | ⟨rfl, rfl, rfl⟩ |
        ⟨rfl, rfl, rfl⟩ <;> rfl
    rw [hexec]
    exact ⟨fun st h => congrArg done (issueTensor_traps hi hg h),
      fun h hfull => congrArg done (issueTensor_stalls hi hg h hfull),
      fun h hroom => congrArg done (issueTensor_queues hi hg h hroom)⟩
  case start =>
    have hexec : exec (.tensorEntryStart c) s = done (updGrid c Grid.start s) :=
      congrArg done (tensorStart_performed hclk (queue_from_waiting hq hbefore he) hawaits)
    exact ⟨fun h => ⟨hexec, start_heldBack hq hbefore he h⟩, fun h => ⟨hexec, start_starts hq hbefore he h⟩⟩
  case land =>
    exact ⟨fun he => congrArg done (tensorComplete_waiting hpos ecc he),
      fun he => congrArg done (tensorComplete_lands hpos ecc hclk he)⟩

end Sys2Proof.Proofs
end

section
/-! Chapter 5: the words that a row of an integer class leaves in its bank (R138, R142). -/

namespace Sys2Proof.Proofs

open Sys2Proof Sys2Proof.Machine Sys2Proof.Safety Sys2Proof.Laws

/-! One word (R138) -/

/-- The exact value of a column: its products' sum and, with ACC, the word already there. -/
def exactColumn (cfg : List Nat) (k : Cls) (acc : Bool) (old : Nat) (a b : List Byte) (col : Nat) : Int :=
  ((List.range k.k).map (fun i =>
    decodeInt (afmt cfg) (getElem (fmtWidth (afmt cfg)) a i) *
    decodeInt (bfmt cfg) (getElem (fmtWidth (bfmt cfg)) (b.drop (i * runBytes (bfmt cfg) 128)) col))).sum +
  (if acc then toInt 32 old else 0)

/-- Two's complement reads back a value within its range. -/
theorem toInt_ofInt_word {x : Int} (hlo : -2147483648 ≤ x) (hhi : x ≤ 2147483647) : toInt 32 (ofInt 32 x) = x := by
  have hmod : (x % 2 ^ 32).toNat % 2 ^ 32 = (x % 2 ^ 32).toNat := Nat.mod_eq_of_lt (by omega)
  rw [toInt, ofInt, hmod]
  by_cases h : (x % 2 ^ 32).toNat < 2 ^ (32 - 1)
  · rw [if_pos h]; omega
  · rw [if_neg h]; omega

theorem intSum_eq (cfg : List Nat) (k : Nat) (a b : List Byte) (col : Nat) : intSum cfg k a b col =
    ((List.range k).map (fun i =>
      decodeInt (afmt cfg) (getElem (fmtWidth (afmt cfg)) a i) *
      decodeInt (bfmt cfg) (getElem (fmtWidth (bfmt cfg)) (b.drop (i * runBytes (bfmt cfg) 128)) col))).sum := by
  rw [List.sum_eq_foldl, List.foldl_map]
  rfl

section Word

variable {cfg : List Nat} {k : Cls} {acc : Bool} {old : Nat} {a asc b bsc : List Byte} {col : Nat}
  (hk : k.float = false)
include hk

/-- An integer class clamps the exact value and flags the clamp. -/
theorem mmaWord_int : mmaWord cfg k acc old a asc b bsc col =
    (ofInt 32 (clampInt (-2147483648) 2147483647 (exactColumn cfg k acc old a b col)).1,
      if (clampInt (-2147483648) 2147483647 (exactColumn cfg k acc old a b col)).2 then flOF else 0) := by
  rw [mmaWord, if_neg (ne_true_of_eq_false hk), exactColumn, ← intSum_eq]

theorem mmaWord_below (h : exactColumn cfg k acc old a b col < -2147483648) :
    mmaWord cfg k acc old a asc b bsc col = (0x80000000, 2) := by
  rw [mmaWord_int hk, clampInt, if_pos h]
  rfl

theorem mmaWord_above (h : 2147483647 < exactColumn cfg k acc old a b col) :
    mmaWord cfg k acc old a asc b bsc col = (0x7FFFFFFF, 2) := by
  rw [mmaWord_int hk, clampInt, if_neg (by omega), if_pos h]
  rfl

theorem mmaWord_within (hlo : -2147483648 ≤ exactColumn cfg k acc old a b col)
    (hhi : exactColumn cfg k acc old a b col ≤ 2147483647) :
    mmaWord cfg k acc old a asc b bsc col = (ofInt 32 (exactColumn cfg k acc old a b col), 0) := by
  rw [mmaWord_int hk, clampInt, if_neg (Int.not_lt.2 hlo), if_neg (Int.not_lt.2 hhi)]
  rfl

end Word

/-! One bank row (R142) -/

/-- Words laid from a key on leave every other key alone. -/
theorem get_foldl_zipIdx_other {base x : Nat} (ws : List Nat) (n : Nat) (t : Tbl Nat)
    (h : x < base + n ∨ base + n + ws.length ≤ x) :
    Tbl.get 0 ((ws.zipIdx n).foldl (fun t w => Tbl.set 0 t (base + w.2) (w.1 % 2 ^ 32)) t) x = Tbl.get 0 t x := by
  induction ws generalizing n t with
  | nil => rfl
  | cons w ws ih =>
    rw [List.length_cons] at h
    rw [List.zipIdx_cons, List.foldl_cons, ih _ _ (by omega), get_set_other _ _ _ _ _ (by omega)]

/-- Each of them is read back at its own key. -/
theorem get_foldl_zipIdx_same {base : Nat} (ws : List Nat) (n : Nat) (t : Tbl Nat) (j : Nat) (hj : j < ws.length) :
    Tbl.get 0 ((ws.zipIdx n).foldl (fun t w => Tbl.set 0 t (base + w.2) (w.1 % 2 ^ 32)) t) (base + n + j) =
      ws[j] % 2 ^ 32 := by
  induction ws generalizing n t j with
  | nil => exact absurd hj (Nat.not_lt_zero j)
  | cons w ws ih =>
    rw [List.zipIdx_cons, List.foldl_cons]
    cases j with
    | zero => rw [get_foldl_zipIdx_other _ _ _ (by omega), Nat.add_zero, get_set_same, List.getElem_cons_zero]
    | succ j =>
      rw [← Nat.add_assoc, Nat.add_right_comm, Nat.add_assoc base, ih _ _ _ (Nat.lt_of_succ_lt_succ hj),
        List.getElem_cons_succ]

theorem word_putRow_same (g : Grid) (b r : Nat) {ws : List Nat} (poison : Bool) {col : Nat} (h : col < ws.length) :
    (g.putRow b r ws poison).word b r col = ws[col] % 2 ^ 32 := by
  have hget := get_foldl_zipIdx_same (base := b * 16384 + r * 128) ws 0 g.banks col h
  rwa [Nat.add_zero] at hget

/-- A row of 128 words stays within its row. -/
theorem word_putRow_other (g : Grid) {b r b' r' d : Nat} {ws : List Nat} (poison : Bool) (hws : ws.length = 128)
    (hd : d < 128) (hr : r < 128) (hr' : r' < 128) (hne : (b', r') ≠ (b, r)) :
    (g.putRow b r ws poison).word b' r' d = g.word b' r' d := by
  have hne' : ¬ (b' = b ∧ r' = r) := fun h => hne (Prod.ext h.1 h.2)
  exact get_foldl_zipIdx_other (base := b * 16384 + r * 128) ws 0 g.banks (by omega)

/-! A row's words and flags (R138, R139) -/

/-- Flags gather what was set and what each word sets. -/
theorem testBit_foldl_flags (ws : List (Nat × Nat)) (f j : Nat) :
    (ws.foldl (fun f w => f ||| w.2) f).testBit j = (f.testBit j || ws.any (·.2.testBit j)) := by
  induction ws generalizing f with
  | nil => rw [List.foldl_nil, List.any_nil, Bool.or_false]
  | cons w ws ih => rw [List.foldl_cons, ih, Nat.testBit_or, List.any_cons, Bool.or_assoc]

/-- The words and flags that one A row makes, without scales. -/
def rowWords (s : State) (c : Nat) (e : TEntry) (k : Cls) (i : Nat) (g : Grid) : List (Nat × Nat) :=
  (List.range 128).map (fun col => mmaWord e.cfg k e.acc (g.word e.bank (e.row0 + i) col)
    (scratchBytes s c (e.rs1 + i * cfgAt e.cfg 1) (runBytes (afmt e.cfg) k.k)) []
    (g.planeOf e.plane).bytes (g.planeOf e.plane).scales col)

theorem length_rowWords (s : State) (c : Nat) (e : TEntry) (k : Cls) (i : Nat) (g : Grid) :
    ((rowWords s c e k i g).map (·.1)).length = 128 := by
  rw [List.length_map, rowWords, List.length_map, List.length_range]

section Row

variable {s : State} {c : Nat} {e : TEntry} {k : Cls} {i : Nat} {g : Grid} (hsc : scaleOn e.cfg = false)
include hsc

/-- A row puts its words in the bank, whatever its poison mark. -/
theorem word_mmaRow (b r d : Nat) : (mmaRow s c e k i g).word b r d =
    (g.putRow e.bank (e.row0 + i) ((rowWords s c e k i g).map (·.1)) false).word b r d := by
  simp only [mmaRow, hsc, Bool.false_eq_true, if_false]
  rfl

theorem mmaRow_flags : (mmaRow s c e k i g).flags = (rowWords s c e k i g).foldl (fun f w => f ||| w.2) g.flags := by
  simp only [mmaRow, hsc, Bool.false_eq_true, if_false]
  rfl

end Row

/-- Settles O28: the clamp of the exact value gives the word; the row's keys give its place in the bank. -/
theorem integerMatrixWordsSaturate : Obligations.IntegerMatrixWordsSaturate := by
  refine ⟨fun cfg k acc old a asc b bsc col hk => ⟨mmaWord_below hk, mmaWord_above hk, fun hlo hhi => ?within⟩,
    fun s c e k i g col hcol hsc => ⟨?word, fun b r d hd hne hr hrow => ?frame, fun j hj => ?flags⟩⟩
  case within =>
    rw [mmaWord_within hk hlo hhi]
    exact ⟨toInt_ofInt_word hlo hhi, rfl⟩
  case word =>
    rw [word_mmaRow hsc, word_putRow_same g _ _ false (by rwa [length_rowWords])]
    simp only [rowWords, List.getElem_map, List.getElem_range]
  case frame =>
    rw [word_mmaRow hsc, word_putRow_other g false (length_rowWords ..) hd hrow hr hne]
  case flags =>
    rw [mmaRow_flags hsc, testBit_foldl_flags, Bool.or_eq_true, List.any_eq_true]
    exact hj.symm.imp_right fun h => ⟨_, List.mem_map.2 ⟨col, List.mem_range.2 hcol, rfl⟩, h⟩

end Sys2Proof.Proofs
end

section
/-! Chapter 8: remote requests at their target, their answers and their timeouts (R162, R223, R232, R234–R236). -/

namespace Sys2Proof.Proofs

open Sys2Proof Sys2Proof.Machine Sys2Proof.Safety Sys2Proof.Laws

/-! The target (R235) -/

/-- R235: the fence, the owner, the address and the owner's access, in this order. -/
theorem targetError_eq (s : State) (m : Msg) : targetError s m =
    if (routeAt s m.src).fenced = true then some 0x0780
    else if ownerActive s m.owner = false then some 0x0803
    else if regionOf m.addr = none then some 0x0320
    else if regionOf m.addr = some .regs then some 0x0325
    else (localCheck s m.owner m.addr (m.mtype != 0x01)).map (·.status) := by
  simp only [targetError, Bool.not_eq_true']
  rcases hr : regionOf m.addr with _ | (_ | _ | _ | _) <;> simp

theorem serveRequest_refused {s : State} {m : Msg} {st : Nat} (h : targetError s m = some st) (p : Nat) (ecc : Ecc) :
    serveRequest p m ecc s = targetRefuses p m st s := by
  simp only [serveRequest, h]

theorem serveRequest_served {s : State} {m : Msg} (h : targetError s m = none) (p : Nat) (ecc : Ecc) :
    serveRequest p m ecc s = if m.mtype = 0x01 then targetRead p m ecc s
      else if m.mtype = 0x02 then targetWrite p m s
      else targetAtomic p m ecc s := by
  simp only [serveRequest, h]

/-! Answers (R234, R236) -/

section Answer

variable {s : State} {m : Msg} (cons : Cons) (p : Nat)

/-- An answer that nothing waits for, or of a fenced source, is late. -/
theorem takeAnswer_late (h : s.elk.outstanding.find? (·.tag == m.tag) = none ∨ (routeAt s m.src).fenced = true) :
    takeAnswer cons p m s = linkLog 11 3 sevNotice p m.src s := by
  unfold takeAnswer
  rcases h with h | h
  · rw [h]; rfl
  · split
    · rfl
    · rw [if_pos h]; rfl

/-- The request that waits for an answer leaves the outstanding ones and ends with what the answer says: a NACK's status
stands in its address field (R223). -/
theorem takeAnswer_awaited {o : Outstanding} (ho : s.elk.outstanding.find? (·.tag == m.tag) = some o)
    (hf : (routeAt s m.src).fenced = false) : takeAnswer cons p m s = completeRemote cons o
      (if m.mtype = 0x8F then m.addr else 0)
      (if m.mtype = 0x8F then [] else if m.mtype = 0x81 then slice m.data 0 (m.size + 1) else slice m.data 0 8)
      (m.mtype == 0x81 && m.mod.testBit 6)
      { s with elk := { s.elk with outstanding := s.elk.outstanding.filter (fun x => x.tag != o.tag) } } := by
  simp only [takeAnswer, ho, hf, Bool.false_eq_true, if_false]
  by_cases h : m.mtype = 0x8F
  · have hread : (m.mtype == 0x81) = false := by rw [h]; rfl
    simp only [if_pos h, hread, Bool.false_and]
    rfl
  · simp only [if_neg h]
    rfl

end Answer

/-! Judging what arrives (R223, R232) -/

theorem not_domain_of_isRequest {t : Nat} (h : isRequest t = true) : (t != 0xC0) = true := by
  refine bne_iff_ne.2 ?_
  rintro rfl
  exact absurd h (by decide)

theorem not_request_of_isResponse {t : Nat} (h : isResponse t = true) : isRequest t = false := by
  simp only [isResponse, Bool.or_eq_true, beq_iff_eq] at h
  rcases h with ((rfl | rfl) | rfl) | rfl <;> rfl

section Receive

variable {s : State} {m : Msg} {p : Nat} {cons : Cons} {ecc : Ecc} {sig : Bool}

/-- A request with a reserved value is logged and refused. -/
theorem receiveMsg_reserved (hreq : isRequest m.mtype = true) (hh : headerLegal m = false) :
    receiveMsg cons p ecc sig m s = nack p m 0x0303 (logMsg p 0x0303 m s) := by
  simp only [receiveMsg, hh, Bool.not_false, if_true, hreq]

variable (hh : headerLegal m = true)
include hh

/-- A port in QUARANTINE serves no request. -/
theorem receiveMsg_quarantined (hreq : isRequest m.mtype = true) (hst : (portAt s p).st = .quarantine) :
    receiveMsg cons p ecc sig m s = nack p m 0x0380 s := by
  have hheld : ((portAt s p).st == .quarantine && m.mtype != 0xC0) = true := by
    rw [hst, not_domain_of_isRequest hreq]; rfl
  simp only [receiveMsg, hh, Bool.not_true, Bool.false_eq_true, if_false, hheld, if_true, hreq]

variable (hst : (portAt s p).st = .up) (hme : forMe s m = true)
include hst hme

theorem receiveMsg_request (hreq : isRequest m.mtype = true) :
    receiveMsg cons p ecc sig m s = serveRequest p m ecc s := by
  have hup : ((portAt s p).st == .quarantine) = false := by rw [hst]; rfl
  simp only [receiveMsg, hh, Bool.not_true, Bool.false_eq_true, if_false, hup, Bool.false_and, hme, if_true, hreq]

theorem receiveMsg_response (hresp : isResponse m.mtype = true) :
    receiveMsg cons p ecc sig m s = takeAnswer cons p m s := by
  have hup : ((portAt s p).st == .quarantine) = false := by rw [hst]; rfl
  simp only [receiveMsg, hh, Bool.not_true, Bool.false_eq_true, if_false, hup, Bool.false_and, hme, if_true,
    not_request_of_isResponse hresp, hresp]

end Receive

/-- A whole message of the row's kind is received on a port in UP or QUARANTINE. -/
theorem messageArrives_received {s : State} {p : Nat} {bytes : List Byte} {want : Nat → Bool} (hl : linkRuns s = true)
    (hlen : bytes.length = 16 * (1 + dataUnits (parseMsg bytes).mtype (parseMsg bytes).size))
    (hst : (portAt s p).st = .up ∨ (portAt s p).st = .quarantine) (hw : want (parseMsg bytes).mtype = true)
    (cons : Cons) (ecc : Ecc) (sig : Bool) :
    messageArrives cons p ecc sig want bytes s = receiveMsg cons p ecc sig (parseMsg bytes) s := by
  have hport : ((portAt s p).st == .up || (portAt s p).st == .quarantine) = true := by
    rcases hst with h | h <;> rw [h] <;> rfl
  exact if_pos (by rw [hl, hport, hw, decide_eq_true hlen]; rfl)

/-! Timeouts (R236) -/

theorem requestTimeout_none {s : State} {tag : Nat} (h : s.elk.outstanding.find? (·.tag == tag) = none) (cons : Cons) :
    requestTimeout cons tag s = s := by
  simp only [requestTimeout, h]

/-- A request that waited too long fails, its tag rests for two timeouts, and its target comes under suspicion. -/
theorem requestTimeout_some {s : State} {tag : Nat} {o : Outstanding}
    (h : s.elk.outstanding.find? (·.tag == tag) = some o) (hl : linkRuns s = true) (cons : Cons) :
    requestTimeout cons tag s = suspect o.chip
      (completeAll cons (·.tag == tag) 0x0781 { s with elk := { s.elk with
        retired := s.elk.retired.filter (fun r => decide (s.dts < r.2)) ++
          [(tag, s.dts + 2 * regFld s 0x2008030 15 0 * 100000)] } }) := by
  simp only [requestTimeout, h, hl, Bool.not_true, Bool.false_eq_true, if_false]
  rfl

/-- Settles O17: a whole message is received; its kind, the port's state and the target's judgement pick the case. -/
theorem remoteRequestsAreServed : Obligations.RemoteRequestsAreServed := by
  refine ⟨targetError_eq, fun s cons p ecc bytes hl => ?arrival, fun s cons tag hclk hl => ?timeout⟩
  case arrival =>
    intro m hlen
    have hask : ∀ {t}, (portAt s p).st = .up ∨ (portAt s p).st = .quarantine → isRequest m.mtype = true →
        receiveMsg cons p ecc false m s = t → exec (.remoteRequest cons p ecc bytes) s = .next (settle t) :=
      fun hst hreq e => congrArg done ((messageArrives_received hl hlen hst hreq cons ecc false).trans e)
    have hanswer : ∀ {t}, (portAt s p).st = .up → isResponse m.mtype = true → headerLegal m = true →
        forMe s m = true → takeAnswer cons p m s = t → exec (.remoteAnswer cons p bytes) s = .next (settle t) :=
      fun hst hresp hh hme e => congrArg done ((messageArrives_received hl hlen (.inl hst) hresp cons .ok false).trans
        ((receiveMsg_response hh hst hme hresp).trans e))
    exact ⟨fun st hst hreq hh hme he =>
        hask (.inl hst) hreq ((receiveMsg_request hh hst hme hreq).trans (serveRequest_refused he p ecc)),
      fun hst hreq hh hme he =>
        hask (.inl hst) hreq ((receiveMsg_request hh hst hme hreq).trans (serveRequest_served he p ecc)),
      fun hst hreq hh => hask hst hreq (receiveMsg_reserved hreq hh),
      fun hst hreq hh => hask (.inr hst) hreq (receiveMsg_quarantined hh hreq hst),
      fun hst hresp hh hme => ⟨fun h => hanswer hst hresp hh hme (takeAnswer_late cons p h),
        fun o ho hf => hanswer hst hresp hh hme (takeAnswer_awaited cons p ho hf)⟩⟩
  case timeout =>
    exact ⟨fun h => congrArg done ((whenClocked_pos hclk).trans (requestTimeout_none h cons)),
      fun o h => congrArg done ((whenClocked_pos hclk).trans (requestTimeout_some h hl cons))⟩

end Sys2Proof.Proofs
end

section
/-! Chapter 6: write-backs, patrols, HBM stacks, telemetry and the flash's erasure (R155, R156, R160, R171–R174). -/

namespace Sys2Proof.Proofs

open Sys2Proof Sys2Proof.Machine Sys2Proof.Safety Sys2Proof.Laws

/-! Patrols (R171, R172) -/

/-- Outside ON, before memory is ready or with the tier's patrol off, no line is read. -/
theorem patrolRead_off {s : State} {tier : Bool}
    (h : isOn s = false ∨ chipReady s = false ∨ scrubOn s tier = false)
    (ecc : Ecc) : patrolRead tier ecc s = s := by
  refine if_pos ?_
  rcases h with h | h | h <;> simp [backgroundRuns, h]

theorem patrolRead_reads {s : State} {tier : Bool} (hon : isOn s = true) (hready : chipReady s = true)
    (hscrub : scrubOn s tier = true) (ecc : Ecc) : patrolRead tier ecc s = patrolMoves tier (patrolNext s tier)
      (if stackFailed s (patrolNext s tier) = true then s else applyEcc ecc (patrolNext s tier) s) :=
  if_neg (by rw [backgroundRuns, hon, hready, hscrub]; decide)

/-- A pass of the Tier that outlasts its period raises its status once. -/
theorem patrolLate_tier {s : State} (hon : isOn s = true) (hready : chipReady s = true) (hscrub : scrubOn s true = true)
    (hl : s.mov.tierLate = false) : patrolLate true s =
      { orReg 0x2D00024 2 { s with
          dts := max s.dts (s.mov.tierFrom - s.mov.tierTime + regFld s 0x2D00008 10 0 * 60000000000 + 1) } with
        mov := { s.mov with tierLate := true } } :=
  if_neg (by rw [backgroundRuns, hon, hready, hscrub, if_pos rfl, hl]; decide)

/-- Short of HBM's end a patrol of HBM goes on to the next line. -/
theorem patrolMoves_hbm {a : Nat} (h : a ≠ 0x30_0000_0000 - 64) (s : State) :
    patrolMoves false a s = { s with mov := { s.mov with hbmNext := a + 64 } } := by
  have hend : (a + 64 == (tierSpan false).2) = false := by
    simp only [tierSpan, Bool.false_eq_true, if_false, beq_eq_false_iff_ne]
    omega
  simp only [patrolMoves, hend, Bool.false_eq_true, if_false]
  rfl

/-! HBM stacks (R155) -/

theorem stackFails_trained {s : State} {k : Nat} (hk : k < 8) (hclk : fclkRuns s = true)
    (ht : s.mov.hbmTrained.testBit k = true) : stackFails k s =
      logErr { cls := 6, cause := 2, sev := sevFatal, source := 0x18, index := k }
        { s with mov := { s.mov with hbmTrained := s.mov.hbmTrained - 2 ^ k
                                     hbmFailed := s.mov.hbmFailed ||| 2 ^ k } } :=
  if_neg (by rw [hclk, ht, decide_eq_false (Nat.not_le.2 hk)]; decide)

theorem refreshRate_sets {s : State} {k : Nat} (hk : k < 8) (hclk : fclkRuns s = true) (twice : Bool) :
    refreshRate k twice s =
      { s with mov := { s.mov with refresh2x := setFld s.mov.refresh2x k k (if twice then 1 else 0) } } :=
  if_neg (by rw [hclk, decide_eq_false (Nat.not_le.2 hk)]; decide)

/-! Telemetry (R174) -/

/-- A page is written with outputs alone. -/
theorem genWrite_mov (o addr gen : Nat) (body : List Byte) (s : State) : (genWrite o addr gen body s).mov = s.mov :=
  (hostWrite_frame (hostWrite_frame (hostWrite_frame (.refl s)))).mov

theorem teleSample_off {s : State} (h : isOn s = false) : teleSample s = s :=
  if_pos (by rw [h]; rfl)

/-- A published sample counts itself and its generation, and the millisecond's counts start again. -/
theorem teleSample_published {s : State} (hon : isOn s = true) (hen : regBit s 0x2D00000 3 = true)
    (hup : hostUp s = true) : (teleSample s).mov =
      { s.mov with samples := s.mov.samples + 1, generation := add32 s.mov.generation 1, hbmRd := 0, hbmWr := 0
                   tierRd := 0, tierWr := 0, ceWindow := 0, ueWindow := 0 } := by
  simp only [teleSample, hon, hen, hup, Bool.not_true, Bool.false_eq_true, if_false, if_true, updMov_mov, genWrite_mov]

/-! The flash's erasure (R173) -/

theorem eraseEarly_iff (s : State) :
    eraseEarly s = true ↔ ∃ t, s.err.lastErase = some t ∧ s.dts < t + 10000000000 := by
  unfold eraseEarly
  cases s.err.lastErase with
  | none => simp
  | some t => simp

/-- With two erased blocks left, or within 10 s of the last erasure, nothing is erased. -/
theorem flashErase_undue {s : State} (h : 2 ≤ erasedBlocks s ∨ eraseEarly s = true) (ok : Bool) :
    flashErase ok s = s := by
  refine if_pos ?_
  rcases h with h | h <;> simp [h]

theorem flashErase_due {s : State} (hi : islandRuns s = true) (hb : erasedBlocks s < 2) (hlate : eraseEarly s = false)
    (ok : Bool) : flashErase ok s = if ok = true then
      { s with err := { s.err with flashFailing := false, flash := s.err.flash.drop 1024, lastErase := some s.dts } }
    else flashFails { s with err := { s.err with lastErase := some s.dts } } :=
  if_neg (by rw [hi, hlate, decide_eq_false (Nat.not_le.2 hb)]; decide)

/-- An event of the main domain does nothing that its body would not do. -/
theorem whenClocked_same {f : State → State} {s : State} (h : f s = s) : whenClocked f s = s := by
  rw [whenClocked, h, ite_self]

/-- Settles O30: each row's guard goes first, and what is left is one change of the movers, the log or the flash. -/
theorem backgroundWorkRuns : Obligations.BackgroundWorkRuns := by
  intro s
  refine ⟨fun line hclk => congrArg done (whenClocked_pos hclk), fun r hclk => congrArg done (whenClocked_pos hclk),
    fun tier ecc hclk hon hready hscrub =>
      congrArg done ((whenClocked_pos hclk).trans (patrolRead_reads hon hready hscrub ecc)),
    fun tier ecc h => congrArg done (whenClocked_same (patrolRead_off h ecc)),
    fun a ha => patrolMoves_hbm ha s, rfl, fun hclk hon hready hscrub hl => ?late,
    fun k hk hclk ht => congrArg done (stackFails_trained hk hclk ht),
    fun k twice hk hclk => congrArg done (refreshRate_sets hk hclk twice),
    fun h => congrArg done (teleSample_off h), fun hon hen hup => ⟨_, rfl, teleSample_published hon hen hup⟩,
    fun hi hb hlate => ?erased, fun ok h => congrArg done ?kept⟩
  case late =>
    exact congrArg done ((whenClocked_pos hclk).trans (patrolLate_tier hon hready hscrub hl))
  case erased =>
    have hdue : eraseEarly s = false := by
      refine Bool.eq_false_iff.2 fun h => ?_
      obtain ⟨t, ht, hlt⟩ := (eraseEarly_iff s).1 h
      exact absurd (hlate t ht) (Nat.not_le.2 hlt)
    exact ⟨congrArg done ((whenIsland_pos hi).trans (flashErase_due hi hb hdue true)),
      congrArg done ((whenIsland_pos hi).trans (flashErase_due hi hb hdue false))⟩
  case kept =>
    rcases h with hi | h
    · exact if_neg (Bool.eq_false_iff.1 hi)
    · rw [whenIsland, flashErase_undue (h.imp_right (eraseEarly_iff s).2), ite_self]

end Sys2Proof.Proofs
end

section
/-! Chapter 7: command rings are enabled, rung, fetched, answered and closed (R190–R194, R210). -/

namespace Sys2Proof.Proofs

open Sys2Proof Sys2Proof.Machine Sys2Proof.Safety Sys2Proof.Laws

/-! CMD_RING_CTRL (R190, R194) -/

section Enable

variable {s : State} {q : Nat}

/-- EN 1 enables a ring that is DISABLED. -/
theorem ringCtrlWritten_enables (hen : regBit s (ringReg q 8) 31 = true) (hst : (ringAt s q).st = .disabled) :
    ringCtrlWritten q s = ringEnable q s := by
  simp only [ringCtrlWritten, hst, hen, if_true]

/-- EN 1 does nothing to a ring that is not DISABLED. -/
theorem ringCtrlWritten_enabled (hen : regBit s (ringReg q 8) 31 = true) (hst : (ringAt s q).st ≠ .disabled) :
    ringCtrlWritten q s = s := by
  cases h : (ringAt s q).st with
  | disabled => exact absurd h hst
  | running | stopped => simp only [ringCtrlWritten, h, hen, if_true]

/-- EN 0 does nothing to a ring that is DISABLED or closing. -/
theorem ringCtrlWritten_closed (hen : regBit s (ringReg q 8) 31 = false)
    (h : (ringAt s q).st = .disabled ∨ (ringAt s q).closing = true) : ringCtrlWritten q s = s := by
  cases hst : (ringAt s q).st with
  | disabled => simp [ringCtrlWritten, hst, hen]
  | running | stopped => simp [ringCtrlWritten, hst, hen, h.resolve_left (by simp [hst])]

/-- EN 0 closes any other ring. -/
theorem ringCtrlWritten_closes (hen : regBit s (ringReg q 8) 31 = false) (hst : (ringAt s q).st ≠ .disabled)
    (hc : (ringAt s q).closing = false) : ringCtrlWritten q s = ringDisable q s := by
  cases h : (ringAt s q).st with
  | disabled => exact absurd h hst
  | running | stopped => simp [ringCtrlWritten, h, hen, hc]

/-- A closing ring without a packet in flight or a held record is DISABLED. -/
theorem maybeDisabled_disables (hc : (ringAt s q).closing = true) (hp : inflightOf s q = [])
    (hh : (ringAt s q).held = []) : maybeDisabled q s =
      updRing q (fun g => { g with st := .disabled, cause := 0, closing := false, fetched := [], fetching := 0 })
        s := by
  simp [maybeDisabled, hc, hp, hh]

/-- The oldest held record is written while a slot is free (R210). -/
theorem drainCq_held {c : Record} {rest : List Record} (h : (ringAt s q).held = c :: rest) (n : Nat) :
    drainCq q (n + 1) s = if cqFree s q = true then
      drainCq q n (writeRecord q ((ringOwner s q).getD 0) c (updRing q (fun g => { g with held := rest }) s))
    else s := by
  rw [drainCq, h]

end Enable

/-! CMD_RING_TAIL (R191) -/

/-- A write of one register leaves the images of the others. -/
theorem rawAt_written_other {s : State} {lo lo' v : Nat} {d : RegDef} (h : lo' ≠ lo) :
    rawAt (written s lo d v) lo' = rawAt s lo' := rawAt_setRaw_other _ _ _ _ h

section Doorbell

variable {s : State} {q tail : Nat} {d : RegDef}

/-- The written TAIL reads back. -/
theorem rawAt_tail {r : Requester} {off : Nat} (hq : q < 1024) (h : writesPlain s r off (ringReg q 0x10) d tail) :
    rawAt (written s (ringReg q 0x10) d tail) (ringReg q 0x10) % 2 ^ 32 = tail := by
  obtain ⟨-, -, -, -, -, hf, -, hv, -⟩ := h
  have himg : d.flds.foldl (storeFld false tail) (rawAt s (ringReg q 0x10)) =
      setFld (rawAt s (ringReg q 0x10)) 31 0 (fld tail 31 0) := by
    rw [tail_flds hq hf]
    rfl
  have hlow : ∀ v, fld v 31 0 = v % 2 ^ 32 := fun v => by rw [fld_div]; simp
  rw [rawAt_written (by rw [himg]; exact setFld_lt 64 (rawAt_lt _ _) (by decide) (by decide)), himg, ← hlow,
    fld_setFld_fld, hlow, Nat.mod_eq_of_lt hv]

/-- A 32-bit difference takes its first operand modulo 2^32. -/
theorem sub32_mod (a b : Nat) : sub32 (a % 2 ^ 32) b = sub32 a b := by
  unfold sub32
  omega

theorem ringUnits_tail : ringUnits (written s (ringReg q 0x10) d tail) q = ringUnits s q := by
  simp only [ringUnits, regFld, rawAt_written_other (lo := ringReg q 0x10) (lo' := ringReg q 8) (by simp [ringReg])]

/-- A write of TAIL leaves every binding. -/
theorem rawAt_bind_tail (hq : q < 1024) : rawAt (written s (ringReg q 0x10) d tail) (bindReg q) = rawAt s (bindReg q) :=
  rawAt_written_other (by unfold bindReg ringReg; omega)

theorem ringNumber_tail (hq : q < 1024) : ringNumber (written s (ringReg q 0x10) d tail) q = ringNumber s q := by
  unfold ringNumber regFld
  rw [rawAt_bind_tail hq]

theorem ringOwner_tail (hq : q < 1024) : ringOwner (written s (ringReg q 0x10) d tail) q = ringOwner s q := by
  unfold ringOwner regBit regFld
  rw [rawAt_bind_tail hq]

/-- A doorbell that announces no more than the ring holds, or of a ring that is not RUNNING, only stores TAIL. -/
theorem doorbell_announces (h : (ringAt s q).st ≠ .running ∨
    sub32 (rawAt s (ringReg q 0x10)) (ringAt s q).head ≤ ringUnits s q) : doorbell q s = s := by
  unfold doorbell
  refine if_neg ?_
  rw [Bool.and_eq_true, decide_eq_true_eq, beq_iff_eq]
  rintro ⟨hst, hlt⟩
  exact h.elim (fun h => h hst) (fun h => Nat.not_le.2 hlt h)

/-- A doorbell beyond the ring's units stops a ring that is RUNNING. -/
theorem doorbell_stops (hst : (ringAt s q).st = .running)
    (hlt : ringUnits s q < sub32 (rawAt s (ringReg q 0x10)) (ringAt s q).head) :
    doorbell q s = logErr
      { cls := 1, cause := 3, sev := sevNotice, status := 0x0306, addr := ringNumber s q, addrKind := 7
        owner := ringOwner s q, source := 4, index := q }
      (updRing q (fun g => { g with st := .stopped, cause := 1 }) s) := by
  unfold doorbell
  refine if_pos ?_
  rw [Bool.and_eq_true, decide_eq_true_eq, beq_iff_eq]
  exact ⟨hst, hlt⟩

end Doorbell

/-! Fetches (R193, R194) -/

/-- What goes round a list stays in it. -/
theorem mem_of_nextAfter {last x : Nat} {l : List Nat} (h : nextAfter last l = some x) : x ∈ l := by
  unfold nextAfter at h
  split at h
  next y hfind => exact Option.some.inj h ▸ List.mem_of_find?_eq_some hfind
  next => exact List.mem_of_head? h

section Fetch

variable {s : State}

/-- The ring whose turn it is may fetch, is its owner's and of the level named. -/
theorem nextFetch_some {level o q : Nat} (h : nextFetch s = some (level, o, q)) :
    mayFetch s q = true ∧ ringOwner s q = some o ∧ level = b2n (ringUrgent s q) := by
  simp only [nextFetch] at h
  split at h
  · cases h
  · next hnext =>
    obtain ⟨x, hx, heq⟩ := Option.map_eq_some_iff.1 h
    cases heq
    obtain ⟨hlevel, howner⟩ := List.mem_filter.1 (mem_of_nextAfter hx)
    obtain ⟨hready, hurgent⟩ := List.mem_filter.1 hlevel
    exact ⟨(List.mem_filter.1 hready).2, beq_iff_eq.1 howner, (beq_iff_eq.1 hurgent).symm⟩

/-- Outputs one after another are one list of outputs. -/
theorem foldl_emit (l : List Emit) (s : State) : l.foldl (fun t e => emit e t) s = { s with out := s.out ++ l } := by
  induction l generalizing s with
  | nil => simp
  | cons e l ih =>
    refine (ih (emit e s)).trans ?_
    simp [emit]

section Up

variable (hon : isOn s = true) (hup : hostUp s = true)
include hon hup

theorem ringFetch_idle (h : nextFetch s = none) : ringFetch s = s := by
  simp [ringFetch, hon, hup, h]

theorem ringFetch_reads {level o q : Nat} (h : nextFetch s = some (level, o, q)) : ringFetch s = { s with
    hif := { s.hif with
      rings := Tbl.upd {} s.hif.rings q (fun g => { g with fetching := min (unfetched s q) 64 })
      lastOwner := Tbl.set 63 s.hif.lastOwner level o
      lastRing := Tbl.set 1023 s.hif.lastRing (level * 64 + o) q }
    out := s.out ++ fetchReads s q o (min (unfetched s q) 64) } := by
  unfold ringFetch
  rw [if_neg (by simp [hon, hup]), h]
  exact foldl_emit _ _

end Up

section Answer

variable {q : Nat} (bs : List Byte) (hup : hostUp s = true) (hf : (ringAt s q).fetching ≠ 0)
  (hst : (ringAt s q).st = .running)
include hup hf hst

/-- The fetched units of a RUNNING ring are cut into packets. -/
theorem fetchDone_units (hon : isOn s = true) : fetchDone q .ok bs s =
    updRing q (fun g => { g with
      head := add32 g.head ((cutPackets (ringAt s q).fetching (ringAt s q).fetching bs).foldl
        (fun t p => t + p.length / 64) 0)
      fetched := g.fetched ++ (cutPackets (ringAt s q).fetching (ringAt s q).fetching bs).map
        (fun b => { bytes := b, fetched := s.dts }) })
      (updRing q (fun g => { g with fetching := 0 }) s) := by
  unfold fetchDone
  dsimp only
  rw [if_neg (by simp [hf, hup]), if_neg (by simp [hst]), if_pos]
  exact hon

/-- A failed fetch stops a RUNNING ring. -/
theorem fetchDone_stops {o : Nat} (ho : ringOwner s q = some o) : fetchDone q .error bs s = hostError 2 o
    (regFld s (ringReg q 0) 63 12 * 4096 + (ringAt s q).head % ringUnits s q * 64) 7 0
    (updRing q (fun g => { g with st := .stopped, cause := 2 }) (updRing q (fun g => { g with fetching := 0 }) s)) := by
  unfold fetchDone
  dsimp only
  rw [if_neg (by simp [hf, hup]), if_pos (by simp [hst]), ho]
  rfl

end Answer

/-! NOT_BEFORE (R192) -/

section NotBefore

variable {q : Nat} {p : Packet} {rest : List Packet} (hfr : (ringAt s q).fetched = p :: rest)
include hfr

theorem notBeforeReached_waits (h : getLe p.bytes 8 8 ≤ p.fetched + 2 ^ 36) :
    notBeforeReached q s = { s with dts := max s.dts (getLe p.bytes 8 8) } := by
  simp only [notBeforeReached, hfr]
  exact if_neg (Nat.not_lt.2 h)

theorem notBeforeReached_tooFar (h : p.fetched + 2 ^ 36 < getLe p.bytes 8 8) : notBeforeReached q s = s := by
  simp only [notBeforeReached, hfr]
  exact if_pos h

end NotBefore

end Fetch

/-- Settles O31: each ring register's write and each event goes by the ring's state. -/
theorem ringsAreEnabledFetchedAndClosed : Obligations.RingsAreEnabledFetchedAndClosed := by
  refine ⟨fun s r k q v d hq h => ?enable, fun s r k q v d hq h => ?disable, fun t q => maybeDisabled_disables,
    fun s r k q tail d hq h => ?doorbell, fun s r k q v d hq h => congrArg done (regWrite_ring hq (by decide) h),
    fun s q n c rest h => drainCq_held h n, fun s hon hup => ⟨fun h => congrArg done (ringFetch_idle hon hup h),
      fun level o q h => ?fetch⟩,
    fun s q bs hup hf hst hon => congrArg done (fetchDone_units bs hup hf hst hon),
    fun s q o bs hup hf hst ho => congrArg done (fetchDone_stops bs hup hf hst ho),
    fun s q p rest hfr => ⟨fun h => congrArg done (notBeforeReached_waits hfr h),
      fun h => congrArg done (notBeforeReached_tooFar hfr h)⟩⟩
  case enable =>
    intro t
    have hexec : exec (.ringEnable r k v) s = done (ringCtrlWritten q t) :=
      congrArg done (regWrite_ring hq (by decide) h)
    obtain ⟨-, -, -, -, -, hfind, -⟩ := h
    have hen : regBit t (ringReg q 8) 31 = true := en_bit s q v d 1 hq ⟨_, hfind⟩ (by decide)
    rw [hexec]
    exact ⟨hen, fun hst => congrArg done (ringCtrlWritten_enables hen hst),
      fun hst => congrArg done (ringCtrlWritten_enabled hen hst)⟩
  case disable =>
    intro t
    have hexec : exec (.ringDisable r k v) s = done (ringCtrlWritten q t) :=
      congrArg done (regWrite_ring hq (by decide) h)
    obtain ⟨-, -, -, -, -, hfind, -⟩ := h
    have hen : regBit t (ringReg q 8) 31 = false := en_bit s q v d 0 hq ⟨_, hfind⟩ (by decide)
    rw [hexec]
    exact ⟨hen, fun hst => congrArg done (ringCtrlWritten_closed hen hst),
      fun hst hc => congrArg done (ringCtrlWritten_closes hen hst hc)⟩
  case doorbell =>
    intro t
    have hexec : exec (.doorbell r k tail) s = done (doorbell q t) := congrArg done (regWrite_ring hq (by decide) h)
    have htail : rawAt t (ringReg q 0x10) % 2 ^ 32 = tail := rawAt_tail hq h
    have hsub : ∀ b, sub32 (rawAt t (ringReg q 0x10)) b = sub32 tail b := fun b => by rw [← sub32_mod, htail]
    have hunits : ringUnits t q = ringUnits s q := ringUnits_tail
    rw [hexec, ← ringNumber_tail (d := d) (tail := tail) hq, ← ringOwner_tail (d := d) (tail := tail) hq]
    refine ⟨htail, fun hle => congrArg done (doorbell_announces ?_),
      fun hst hlt => congrArg done (doorbell_stops (s := t) hst ?_)⟩
    · rw [hsub, hunits]; exact hle
    · rw [hsub, hunits]; exact hlt
  case fetch =>
    obtain ⟨hmay, howner, hlevel⟩ := nextFetch_some h
    exact ⟨hmay, howner, hlevel, congrArg done (ringFetch_reads hon hup h)⟩

end Sys2Proof.Proofs
end

section
/-! Chapter 7: the packets that the front end runs itself, and the flush read at their end (R187–R189, R196–R201, R206,
R207). -/

namespace Sys2Proof.Proofs

open Sys2Proof Sys2Proof.Machine Sys2Proof.Safety Sys2Proof.Laws

/-- A ready packet of a front-end row runs the row's body. -/
theorem frontRow_runs {s : State} {r op : Nat} {size : List Byte → Nat} {fields : List (Nat × Nat)} {p : Packet}
    {rest : List Packet} (h : frontReady s r op (size p.bytes) fields p rest) (body : Inflight → State → State) :
    runPacket r (opIs op) size fields body s = body (inflightOfPacket s r p) (startedBy s r p rest) := by
  have ⟨_, hop, _⟩ := h
  exact runPacket_ready h (opIs_of hop)

/-! NOP and the opcodes that nothing allots (R197–R199) -/

section Nop

variable {s : State} {r : Nat} {p : Packet} {rest : List Packet}

theorem startNop_runs (h : frontReady s r 0 1 [] p rest) :
    startNop r s = endPkt s.hif.nextId 0 0 0 (startedBy s r p rest) := by
  have ⟨hfr, hop, _⟩ := h
  unfold startNop
  rw [if_pos (by simp [hfr, opIs_of hop])]
  exact frontRow_runs (size := oneUnit) h _

/-- A reserved opcode of the owner-0 range ends in the violation of a foreign owner, any other as reserved. -/
theorem startNop_unlisted (hfr : (ringAt s r).fetched = p :: rest) (hop : opListed (getLe p.bytes 0 1) = false)
    (hst : canStart s r p = true) (ho : ownerActive s (inflightOfPacket s r p).owner = true) :
    startNop r s = finishPkt s.hif.nextId
      (if 0x60 ≤ getLe p.bytes 0 1 ∧ getLe p.bytes 0 1 < 0x80 ∧ (inflightOfPacket s r p).owner ≠ 0 then 0x0328
        else 0x0301) 0 0 (startedBy s r p rest) := by
  have hnop : opIs 0 p.bytes = false := by
    refine Bool.eq_false_iff.2 fun h => ?_
    rw [beq_iff_eq.1 h] at hop
    cases hop
  unfold startNop
  rw [if_neg (by simp [hfr, hnop]), startUnlisted_ready hfr hop hst ho]
  simp only [Bool.and_eq_true, decide_eq_true_eq, bne_iff_ne, and_assoc]

end Nop

/-! The end of a packet (R188) -/

section End

variable {s : State} {id : Nat} {q : Inflight} (hq : findPkt s id = some q) (status r0 r1 : Nat)
include hq

/-- A packet that wrote nothing to the host completes at once. -/
theorem endPkt_unflushed (hl : q.lastHost = none) : endPkt id status r0 r1 s = finishPkt id status r0 r1 s := by
  simp only [endPkt, hq, hl]

/-- A packet that wrote to the host first reads nothing from where it wrote last. -/
theorem endPkt_flushes {a : Nat} (hl : q.lastHost = some a) (hm : q.muted = false) : endPkt id status r0 r1 s =
    updPkt id (fun x => { x with wait := .flush status r0 r1, pendD := false, pendH := false })
      (emit (.hostRead q.owner a 0) s) := by
  simp [endPkt, hq, hl, hm]

end End

section Flush

variable {s : State} {id st r0 r1 : Nat} {q : Inflight} (hq : findPkt s id = some q) (hw : q.wait = .flush st r0 r1)
include hq hw

theorem flushDone_ok : flushDone id .ok s = finishPkt id st r0 r1 s := by
  simp only [flushDone, hq, hw]

/-- A failed flush read is the error of a packet that had none. -/
theorem flushDone_fails (hst : st = 0) : flushDone id .error s = packetHostError q (q.lastHost.getD 0) r0 r1 s := by
  simp only [flushDone, hq, hw]
  exact if_pos hst

end Flush

/-! Device writes (R201) -/

/-- Bit 0 of a FLAGS byte with no more than one of its two bits set. -/
theorem bitOf_zero_lt_three {n : Nat} (h : n < 3) : bitOf n 0 = (n == 1) := by
  have hn : n = 0 ∨ n = 1 ∨ n = 2 := by omega
  rcases hn with rfl | rfl | rfl <;> rfl

section Device

variable {q : Inflight} {s : State} {dva dpa : Nat}

/-- A device write of this chip is performed at once. -/
theorem frontWrite_here (hr : resolve s q.owner dva 2 = .ok (.here dpa)) (bs : List Byte) (done : Nat) :
    frontWrite q dva bs done s = .done (deviceWrite notThread q.owner dpa bs (chargeTc0 dpa q.tc s)) := by
  rw [frontWrite, hr]

/-- An addition on this chip is performed at once on a clean word. -/
theorem frontAdd_here (hr : resolve s q.owner dva 8 = .ok (.here dpa)) (hp : poisonIn s dpa 8 = none) (v : Nat) :
    frontAdd q dva v s =
      .done (deviceWrite notThread q.owner dpa (leBytes 8 (getLe (readMem s q.owner dpa 8) 0 8 + v)) s) := by
  simp only [frontAdd, hr, hp]

/-- Inline pages all written, with no remote write outstanding, end the packet. -/
theorem inlinePages_ends (haw : awaits s (· == .packet q.id) = false) (a fuel done : Nat) :
    inlinePages q a (fuel + 1) done [] s = endPkt q.id 0 done 0 s := by
  rw [inlinePages, haw]
  rfl

/-- An inline page of this chip is written, and the next follows. -/
theorem inlinePages_here (hr : resolve s q.owner dva 2 = .ok (.here dpa)) (a fuel done : Nat) (bs : List Byte)
    (l : List (Nat × List Byte)) : inlinePages q a (fuel + 1) done ((dva, bs) :: l) s =
      inlinePages q a fuel (done + bs.length) l (deviceWrite notThread q.owner dpa bs s) := by
  rw [inlinePages, hr]

end Device

/-! SIGNAL (R199, R207) -/

section Signal

variable {q : Inflight} {s : State}

theorem doSignal_malformed (h : q.fld 16 8 % 8 ≠ 0 ∨ 3 ≤ q.fld 32 1) : doSignal q s = finishPkt q.id 0x0303 0 0 s :=
  if_pos h

variable (ha : q.fld 16 8 % 8 = 0)
include ha

/-- SIGNAL after the check of its body. -/
theorem doSignal_legal (hfl : q.fld 32 1 < 3) : doSignal q s =
    if flagHeld s q (q.fld 32 1 == 1) then waitFlag q s
    else if q.fld 32 1 == 1 then endPkt q.id 0 0 0 (pktHostWrite q (q.fld 16 8) (leBytes 8 (q.fld 24 8)) true s)
    else if bitOf (q.fld 32 1) 1 then afterFront q.id 0 (frontAdd q (q.fld 16 8) (q.fld 24 8) s)
    else afterFront q.id 0 (frontWrite q (q.fld 16 8) (leBytes 8 (q.fld 24 8)) 0 s) := by
  unfold doSignal
  dsimp only
  rw [if_neg (by omega), bitOf_zero_lt_three hfl]

theorem doSignal_waits (hfl : q.fld 32 1 < 3) (hh : flagHeld s q (q.fld 32 1 == 1) = true) :
    doSignal q s = waitFlag q s := by
  rw [doSignal_legal ha hfl, if_pos hh]

theorem doSignal_host (hfl : q.fld 32 1 = 1) (hh : flagHeld s q true = false) :
    doSignal q s = endPkt q.id 0 0 0 (pktHostWrite q (q.fld 16 8) (leBytes 8 (q.fld 24 8)) true s) := by
  rw [doSignal_legal ha (by omega), hfl, if_neg (by simp [hh])]
  rfl

theorem doSignal_stores {dpa : Nat} (hfl : q.fld 32 1 = 0) (hh : flagHeld s q false = false)
    (hr : resolve s q.owner (q.fld 16 8) 2 = .ok (.here dpa)) : doSignal q s = endPkt q.id 0 0 0
      (deviceWrite notThread q.owner dpa (leBytes 8 (q.fld 24 8)) (chargeTc0 dpa q.tc s)) := by
  rw [doSignal_legal ha (by omega), hfl, if_neg (by simp [hh]), if_neg (by decide), if_neg (by decide),
    frontWrite_here hr]
  rfl

theorem doSignal_adds {dpa : Nat} (hfl : q.fld 32 1 = 2) (hh : flagHeld s q false = false)
    (hr : resolve s q.owner (q.fld 16 8) 8 = .ok (.here dpa)) (hp : poisonIn s dpa 8 = none) :
    doSignal q s = endPkt q.id 0 0 0 (deviceWrite notThread q.owner dpa
      (leBytes 8 (getLe (readMem s q.owner dpa 8) 0 8 + q.fld 24 8)) s) := by
  rw [doSignal_legal ha (by omega), hfl, if_neg (by simp [hh]), if_neg (by decide), if_pos (by decide),
    frontAdd_here hr hp]
  rfl

end Signal

/-! TIMESTAMP (R199) -/

section Timestamp

variable {q : Inflight} {s : State}

theorem doTimestamp_result (ha : q.fld 16 8 = 0) (hfl : q.fld 24 1 < 2) :
    doTimestamp q s = endPkt q.id 0 q.started 0 s := by
  unfold doTimestamp
  dsimp only
  rw [if_neg (by omega), if_pos ha]

variable (h0 : q.fld 16 8 ≠ 0) (ha : q.fld 16 8 % 8 = 0)
include h0 ha

theorem doTimestamp_host (hfl : q.fld 24 1 = 1) (hh : flagHeld s q true = false) : doTimestamp q s =
    endPkt q.id 0 q.started 0 (pktHostWrite q (q.fld 16 8) (leBytes 8 q.started) true s) := by
  unfold doTimestamp
  dsimp only
  rw [if_neg (by omega), if_neg h0, hfl, if_neg (by simp [bitOf, hh])]
  rfl

theorem doTimestamp_stores {dpa : Nat} (hfl : q.fld 24 1 = 0) (hh : flagHeld s q false = false)
    (hr : resolve s q.owner (q.fld 16 8) 2 = .ok (.here dpa)) : doTimestamp q s = endPkt q.id 0 q.started 0
      (deviceWrite notThread q.owner dpa (leBytes 8 q.started) (chargeTc0 dpa q.tc s)) := by
  unfold doTimestamp
  dsimp only
  rw [if_neg (by omega), if_neg h0, hfl, if_neg (by simp [bitOf, hh]), frontWrite_here hr]
  rfl

end Timestamp

/-! INLINE_WRITE (R201, R207) -/

section Inline

variable {q : Inflight} {s : State}

theorem doInline_malformed (h : q.fld 24 2 = 0 ∨ 192 < q.fld 24 2 ∨ 2 ≤ q.fld 26 1) (done : Nat) :
    doInline q done s = finishPkt q.id 0x0303 0 0 s := if_pos h

variable (h0 : 0 < q.fld 24 2) (hn : q.fld 24 2 ≤ 192)
include h0 hn

theorem doInline_host (hfl : q.fld 26 1 = 1) (hh : bitOf (q.fld 3 1) 0 = false ∨ flagHeld s q true = false)
    (done : Nat) : doInline q done s = endPkt q.id 0 (q.fld 24 2) 0
      (pktHostWrite q (q.fld 16 8) (slice q.bytes 64 (q.fld 24 2)) (q.signal && bitOf (q.fld 3 1) 0) s) := by
  have hgo : ¬ (bitOf (q.fld 3 1) 0 && flagHeld s q true) = true := by rcases hh with h | h <;> simp [h]
  unfold doInline
  dsimp only
  rw [if_neg (by omega), hfl]
  exact (if_neg hgo).trans (if_pos rfl)

theorem doInline_pages (hfl : q.fld 26 1 = 0) (hh : bitOf (q.fld 3 1) 0 = false ∨ flagHeld s q false = false) :
    doInline q 0 s = inlinePages q (q.fld 16 8) 8 0
      (chunks 4096 (q.fld 24 2) (q.fld 16 8) (slice q.bytes 64 (q.fld 24 2))) s := by
  have hgo : ¬ (bitOf (q.fld 3 1) 0 && flagHeld s q false) = true := by rcases hh with h | h <;> simp [h]
  unfold doInline
  dsimp only
  rw [if_neg (by omega), hfl]
  exact (if_neg hgo).trans (if_neg (by decide))

end Inline

/-! WAIT (R200) -/

/-- COND compares the masked word with VALUE. -/
theorem waitMet_iff (q : Inflight) (w : Nat) :
    (q.fld 44 1 = 0 → (waitMet q w = true ↔ w &&& q.fld 32 8 = q.fld 24 8)) ∧
    (q.fld 44 1 = 1 → (waitMet q w = true ↔ w &&& q.fld 32 8 ≠ q.fld 24 8)) ∧
    (q.fld 44 1 = 2 → (waitMet q w = true ↔ q.fld 24 8 ≤ w &&& q.fld 32 8)) ∧
    (q.fld 44 1 = 3 → (waitMet q w = true ↔ w &&& q.fld 32 8 < q.fld 24 8)) := by
  refine ⟨fun h => ?_, fun h => ?_, fun h => ?_, fun h => ?_⟩ <;> simp [waitMet, h]

section Wait

variable {q : Inflight} {s : State} (ha : q.fld 16 8 % 8 = 0) (hc : q.fld 44 1 ≤ 3)
include ha hc

/-- A host word is read by the host port. -/
theorem doWait_host (hfl : q.fld 45 1 = 1) : doWait q s =
    updPkt q.id (fun x => { x with wait := .host }) (emit (.hostRead q.owner (q.fld 16 8) 8) s) := by
  unfold doWait
  dsimp only
  rw [if_neg (by omega), hfl]
  exact if_pos rfl

/-- A word of this chip is read at once. -/
theorem doWait_here {dpa : Nat} (hfl : q.fld 45 1 = 0) (hr : resolve s q.owner (q.fld 16 8) 1 = .ok (.here dpa)) :
    doWait q s = waitRead q dpa s := by
  unfold doWait
  dsimp only
  rw [if_neg (by omega), hfl, hr]
  exact if_neg (by decide)

end Wait

section Read

variable {q : Inflight} {s : State} {dpa : Nat} (hp : poisonIn s dpa 8 = none)
include hp

theorem waitRead_met (h : waitMet q (getLe (readMem s q.owner dpa 8) 0 8) = true) :
    waitRead q dpa s = finishPkt q.id 0 (getLe (readMem s q.owner dpa 8) 0 8) 0 s := by
  rw [waitRead, hp]
  exact if_pos h

theorem waitRead_unmet (h : waitMet q (getLe (readMem s q.owner dpa 8) 0 8) = false) : waitRead q dpa s =
    updPkt q.id (fun x => { x with wait := .word dpa, lastWord := getLe (readMem s q.owner dpa 8) 0 8 }) s := by
  rw [waitRead, hp]
  exact if_neg (Bool.eq_false_iff.1 h)

end Read

section Poll

variable {q : Inflight} {s : State} {r v : Nat} (hq : waitOf s r = some q)
include hq

section Host

variable (hw : q.wait = .host) (hup : hostUp s = true)
include hw hup

theorem waitPoll_fails : waitPoll r .error v s = packetHostError q (q.fld 16 8) q.lastWord 0 s := by
  simp [waitPoll, hq, hw, hup]

variable (hv : v < 2 ^ 64)
include hv

theorem waitPoll_met (h : waitMet q v = true) : waitPoll r .ok v s = finishPkt q.id 0 v 0 s := by
  have hw64 : v % 18446744073709551616 = v := Nat.mod_eq_of_lt hv
  simp [waitPoll, hq, hw, hup, hw64, h]

theorem waitPoll_unmet (h : waitMet q v = false) : waitPoll r .ok v s =
    emit (.hostRead q.owner (q.fld 16 8) 8) (updPkt q.id (fun x => { x with lastWord := v }) s) := by
  have hw64 : v % 18446744073709551616 = v := Nat.mod_eq_of_lt hv
  simp [waitPoll, hq, hw, hup, hw64, h]

end Host

theorem waitTimeout_unlimited (h : q.fld 40 4 = 0) : waitTimeout r s = s := by
  simp [waitTimeout, hq, h]

/-- A WAIT that still waits for its word ends at its limit. -/
theorem waitTimeout_ends (hclk : fclkRuns s = true) (h : q.fld 40 4 ≠ 0)
    (hw : q.wait = .host ∨ ∃ dpa, q.wait = .word dpa) : waitTimeout r s = finishPkt q.id 0x0502 q.lastWord 0
      { s with dts := max s.dts (q.started + q.fld 40 4 * 1000) } := by
  rcases hw with hw | ⟨dpa, hw⟩ <;> simp [waitTimeout, hq, h, hclk, hw]

end Poll

/-- Settles O32: a ready packet runs its row's body, whose checks pass one by one. -/
theorem frontEndPacketsRun : Obligations.FrontEndPacketsRun := by
  refine ⟨fun s r p rest h => congrArg done (startNop_runs h),
    fun s r p rest hfr hop hst ho => congrArg done (startNop_unlisted hfr hop hst ho),
    fun s id status r0 r1 q hq => ⟨endPkt_unflushed hq status r0 r1, fun a => endPkt_flushes hq status r0 r1⟩,
    fun s r p rest h => ?fence, fun s r p rest h => ?signal, fun s r p rest h => ?timestamp,
    fun s r p rest h => ?inline,
    fun s q a fuel done dva dpa bs l => ⟨fun haw => inlinePages_ends haw a fuel done,
      fun hr => inlinePages_here hr a fuel done bs l⟩,
    fun s r p rest h => ?wait, waitMet_iff,
    fun s r v q hq hw hup hv => ⟨fun h => congrArg done (waitPoll_met hq hw hup hv h),
      fun h => congrArg done (waitPoll_unmet hq hw hup hv h), congrArg done (waitPoll_fails hq hw hup)⟩,
    fun s r q hq hclk => ⟨fun h => congrArg done (waitTimeout_unlimited hq h),
      fun h hw => congrArg done (waitTimeout_ends hq hclk h hw)⟩,
    fun s id st r0 r1 q hq hw => ⟨congrArg done (flushDone_ok hq hw), fun h => congrArg done (flushDone_fails hq hw h)⟩⟩
  case fence =>
    intro t
    have hexec : exec (.fence r) s = done (doFence (inflightOfPacket s r p) t) :=
      congrArg done (frontRow_runs h (size := oneUnit) doFence)
    rw [hexec]
    exact ⟨fun ho => congrArg done (if_pos ho), fun ho => congrArg done (if_neg (Bool.eq_false_iff.1 ho))⟩
  case signal =>
    intro t q a v fl
    have hexec : exec (.signal r) s = done (doSignal q t) :=
      congrArg done (frontRow_runs h (size := oneUnit) doSignal)
    rw [hexec]
    exact ⟨fun hbad => congrArg done (doSignal_malformed (q := q) hbad),
      fun ha hfl hh => congrArg done (doSignal_waits (q := q) ha hfl hh),
      fun ha hfl hh => congrArg done (doSignal_host (q := q) ha hfl hh),
      fun dpa ha hfl hh hr => congrArg done (doSignal_stores (q := q) ha hfl hh hr),
      fun dpa ha hfl hh hr hp => congrArg done (doSignal_adds (q := q) ha hfl hh hr hp)⟩
  case timestamp =>
    intro t q a fl
    have hexec : exec (.timestamp r) s = done (doTimestamp q t) :=
      congrArg done (frontRow_runs h (size := oneUnit) doTimestamp)
    rw [hexec]
    exact ⟨fun ha hfl => congrArg done (doTimestamp_result (q := q) ha hfl),
      fun h0 ha hfl hh => congrArg done (doTimestamp_host (q := q) h0 ha hfl hh),
      fun dpa h0 ha hfl hh hr => congrArg done (doTimestamp_stores (q := q) h0 ha hfl hh hr)⟩
  case inline =>
    intro t q a n fl bs flag
    have hexec : exec (.inlineWrite r) s = done (doInline q 0 t) :=
      congrArg done (frontRow_runs h (size := inlineUnits) (doInline · 0))
    rw [hexec]
    exact ⟨fun hbad => congrArg done (doInline_malformed (q := q) hbad 0),
      fun h0 hn hfl hh => congrArg done (doInline_host (q := q) h0 hn hfl hh 0),
      fun h0 hn hfl hh => congrArg done (doInline_pages (q := q) h0 hn hfl hh)⟩
  case wait =>
    intro t q a ha hc
    have hexec : exec (.wait r) s = done (doWait q t) := congrArg done (frontRow_runs h (size := oneUnit) doWait)
    rw [hexec]
    refine ⟨fun hfl => congrArg done (doWait_host (q := q) ha hc hfl), fun dpa hfl hr hp => ?_⟩
    intro w
    rw [doWait_here (q := q) (s := t) ha hc hfl hr]
    exact ⟨fun hm => congrArg done (waitRead_met hp hm), fun hm => congrArg done (waitRead_unmet hp hm)⟩

end Sys2Proof.Proofs
end

section
/-! Chapters 7 and 17: COPY and FILL, LOG_COPY and ERR_INJECT (R201, R204, R503). -/

namespace Sys2Proof.Proofs

open Sys2Proof Sys2Proof.Machine Sys2Proof.Safety Sys2Proof.Laws

/-! COPY and FILL (R201) -/

section Body

variable {q : Inflight}

theorem isChainCopy_copy (hop : q.opcode = 0x10) (hc : bitOf (q.fld 49 1) 3 = true) : isChainCopy q = true := by
  simp [isChainCopy, hop, hc]

theorem isChainCopy_single (h : q.opcode = 0x11 ∨ bitOf (q.fld 49 1) 3 = false) : isChainCopy q = false := by
  rcases h with h | h <;> simp [isChainCopy, h]

/-- FILL: its flags, and a length of 1 to 2^40 − 1 bytes. -/
theorem copyBad_fill (hop : q.opcode = 0x11) : copyBad q = true ↔
    q.fld 49 1 &&& 0xCD ≠ 0 ∨ q.fld 24 8 = 0 ∨ 2 ^ 40 ≤ q.fld 24 8 := by
  simp [copyBad, hop, or_assoc]

/-- COPY with CHAIN: the chain's address is all that its body names. -/
theorem copyBad_chain (hop : q.opcode = 0x10) (hc : bitOf (q.fld 49 1) 3 = true) : copyBad q = true ↔
    q.fld 49 1 &&& 0xF7 ≠ 0 ∨ q.fld 16 8 ≠ 0 ∨ q.fld 24 8 ≠ 0 ∨ q.fld 32 8 ≠ 0 ∨ q.fld 40 8 % 64 ≠ 0 := by
  simp [copyBad, isChainCopy_copy hop hc, hop, or_assoc]

/-- COPY without CHAIN: its flags, a length of 1 to 2^40 − 1 bytes, and no chain address. -/
theorem copyBad_single (hop : q.opcode = 0x10) (hc : bitOf (q.fld 49 1) 3 = false) : copyBad q = true ↔
    q.fld 49 1 &&& 0xC0 ≠ 0 ∨ q.fld 32 8 = 0 ∨ 2 ^ 40 ≤ q.fld 32 8 ∨ q.fld 40 8 ≠ 0 := by
  simp [copyBad, isChainCopy_single (.inr hc), hop, or_assoc]

end Body

section Copy

variable {q : Inflight} {s : State}

/-- A malformed body or a mover that does not exist ends the packet. -/
theorem doCopy_refused (h : copyBad q = true ∨ 16 ≤ q.fld 48 1 ∧ q.fld 48 1 ≠ 0xFF) :
    doCopy q s = finishPkt q.id 0x0303 0 0 s := by
  unfold doCopy
  dsimp only
  by_cases hb : copyBad q = true
  · exact if_pos hb
  · exact (if_neg hb).trans (if_pos (h.resolve_left hb))

variable (hb : copyBad q = false) (hm : q.fld 48 1 < 16 ∨ q.fld 48 1 = 0xFF)
include hb hm

/-- COPY or FILL after the checks of its body. -/
theorem doCopy_legal : doCopy q s =
    if isChainCopy q then queueCopy q (bulkChan (pickMover s (q.fld 48 1))) s
    else takeInline q (bulkChan (pickMover s (q.fld 48 1))) s.mov.nextCid
      (queueCopy q (bulkChan (pickMover s (q.fld 48 1))) s) := by
  unfold doCopy
  dsimp only
  rw [if_neg (Bool.eq_false_iff.1 hb), if_neg (by omega)]

/-- The host's own chain goes on its mover. -/
theorem doCopy_chain (hc : isChainCopy q = true) :
    doCopy q s = queueCopy q (bulkChan (pickMover s (q.fld 48 1))) s := by
  rw [doCopy_legal hb hm, if_pos hc]

/-- A chain of the packet's one descriptor goes on its mover, which holds the descriptor already. -/
theorem doCopy_single (hc : isChainCopy q = false) (hd : inlineError (inlineDesc q) = none) :
    doCopy q s = updChain (bulkChan (pickMover s (q.fld 48 1))) s.mov.nextCid
      (fun x => { x with desc := some (inlineDesc q), phase := .steps, count := 1 })
      (queueCopy q (bulkChan (pickMover s (q.fld 48 1))) s) := by
  rw [doCopy_legal hb hm, if_neg (Bool.eq_false_iff.1 hc), takeInline, hd]

end Copy

/-- The row of FILL and the row of COPY run one body. -/
theorem exec_copyRow {s : State} {r : Nat} {p : Packet} {rest : List Packet} {fill : Bool}
    (h : frontReady s r (if fill then 0x11 else 0x10) 1 (if fill then [(16, 24), (48, 2)] else [(16, 34)]) p rest) :
    exec (if fill then .fill r else .copy r) s = done (doCopy (inflightOfPacket s r p) (startedBy s r p rest)) := by
  cases fill with
  | true => exact congrArg done (frontRow_runs (size := oneUnit) h doCopy)
  | false => exact congrArg done (frontRow_runs (size := oneUnit) h doCopy)

/-! LOG_COPY (R204) -/

/-- The closed entries that a LOG_COPY packet asks for. -/
def entriesAsked (q : Inflight) (s : State) : List LogEntry :=
  ((readableLog s).filter (fun e => decide (q.fld 24 8 ≤ e.seq))).take (q.fld 32 4)

theorem logCopyRun_none {q : Inflight} {s : State} (h : entriesAsked q s = []) :
    logCopyRun q s = finishPkt q.id 0 0 0 s := if_pos (List.isEmpty_iff.2 h)

theorem logCopyRun_copies {q : Inflight} {s : State} {e : LogEntry} (h : (entriesAsked q s).getLast? = some e) :
    logCopyRun q s = endPkt q.id 0 e.seq (entriesAsked q s).length
      (pktHostWrite q (q.fld 16 8) ((entriesAsked q s).flatMap entryBytes) false s) := by
  have hne : ¬ (entriesAsked q s).isEmpty = true := by
    rw [List.isEmpty_iff]
    intro hnil
    rw [hnil] at h
    cases h
  refine (if_neg hne).trans ?_
  change endPkt q.id 0 (((entriesAsked q s).getLast?.map (·.seq)).getD 0) _ _ = _
  rw [h]
  rfl

/-- An island row's packet waits for the island's restart while the island is down. -/
theorem islandRow_waits {s : State} {r op : Nat} {fields : List (Nat × Nat)} {p : Packet} {rest : List Packet}
    (h : frontReady s r op 1 fields p rest) (hi : islandRuns s = false) (f : Inflight → State → State) :
    runPacket r (opIs op) oneUnit fields (islandPkt f) s =
      updPkt s.hif.nextId (fun q => { q with wait := .island }) (startedBy s r p rest) :=
  (frontRow_runs (size := oneUnit) h _).trans (if_neg (Bool.eq_false_iff.1 hi))

/-- Settles O33: the body's checks choose the chain; the island's rows are carried out, or wait for it. -/
theorem copiesLogCopiesAndInjections : Obligations.CopiesLogCopiesAndInjections := by
  refine ⟨fun s r p rest fill h => ?copy, fun q => ⟨copyBad_fill, copyBad_chain, copyBad_single⟩, fun q ch t => rfl,
    fun s r p rest h hi => ?logCopy, fun s r p rest h => ⟨fun hi => ?inject,
      fun hi => congrArg done (islandRow_waits h hi _)⟩⟩
  case copy =>
    intro row q fl m t
    have hexec : exec row s = done (doCopy q t) := exec_copyRow h
    have ⟨_, hop, _⟩ := h
    rw [hexec]
    refine ⟨fun hbad => congrArg done (doCopy_refused (q := q) hbad), fun hb hm => ?_⟩
    intro ch
    refine ⟨fun hfill hc => congrArg done (doCopy_chain (q := q) hb hm (isChainCopy_copy ?_ hc)),
      fun hc hd => congrArg done (doCopy_single (q := q) (s := t) hb hm (isChainCopy_single (hc.imp_left ?_)) hd)⟩
    · rwa [hfill] at hop
    · intro hfill
      rwa [hfill] at hop
  case logCopy =>
    intro t l
    have hexec : exec (.logCopy r) s = done (logCopyRun (inflightOfPacket s r p) t) :=
      congrArg done (islandRow_runs h hi logCopyRun)
    rw [hexec]
    exact ⟨fun hl => congrArg done (logCopyRun_none (s := t) hl),
      fun e hl => congrArg done (logCopyRun_copies (s := t) hl)⟩
  case inject =>
    exact congrArg done (islandRow_runs h hi injectRun)

end Sys2Proof.Proofs
end

section
/-! Chapter 7: the host link, function resets and power states, BAR2, vectors and ATS (R177–R187). -/

namespace Sys2Proof.Proofs

open Sys2Proof Sys2Proof.Machine Sys2Proof.Safety Sys2Proof.Laws

/-! The link (R177) -/

/-- The link in L0 at a rate and a width. -/
def linkTrained (rate width : Nat) (s : State) : State :=
  { s with hif := { s.hif with
      up := true, widthFail := false, rate := rate, width := width, flit := rate == 6, rateLow := decide (rate < 4) } }

theorem bestWidth_zero {lanes : Nat} (h : lanes < 4) : bestWidth lanes = 0 := by
  simp only [bestWidth, if_neg (by omega : ¬ 16 ≤ lanes), if_neg (by omega : ¬ 8 ≤ lanes), if_neg (Nat.not_le.2 h)]

theorem bestWidth_formed {lanes : Nat} (h : 4 ≤ lanes) :
    bestWidth lanes = if 16 ≤ lanes then 16 else if 8 ≤ lanes then 8 else 4 := by
  rw [bestWidth, if_pos h]

section LinkUp

variable {s : State} {rates lanes : Nat}

theorem hostLinkUp_unpowered (h : hostPhy s = false) : hostLinkUp rates lanes s = s := by
  simp [hostLinkUp, h]

variable (h : hostPhy s = true)
include h

/-- Fewer than four lanes form no link. -/
theorem hostLinkUp_tooNarrow (hl : lanes < 4) : hostLinkUp rates lanes s = { s with hif := { s.hif with
    up := false, widthFail := true, rate := 0, width := 0, flit := false, rateLow := false } } := by
  unfold hostLinkUp
  rw [if_neg (by simp [h])]
  exact if_pos (bestWidth_zero hl)

/-- Four lanes or more train; a rate below 16.0 GT/s is logged. -/
theorem hostLinkUp_trains (hl : 4 ≤ lanes) : hostLinkUp rates lanes s =
    if bestRate rates < 4 then
      logErr { cls := 9, cause := 4, sev := sevNotice, source := 8, info := bestRate rates }
        (linkTrained (bestRate rates) (if 16 ≤ lanes then 16 else if 8 ≤ lanes then 8 else 4) s)
    else linkTrained (bestRate rates) (if 16 ≤ lanes then 16 else if 8 ≤ lanes then 8 else 4) s := by
  have hw : bestWidth lanes ≠ 0 := by
    rw [bestWidth_formed hl]
    split
    · decide
    · split <;> decide
  unfold hostLinkUp
  rw [if_neg (by simp [h]), ← bestWidth_formed hl]
  exact if_neg hw

theorem hostLinkUp_fast (hl : 4 ≤ lanes) (hr : 4 ≤ bestRate rates) :
    hostLinkUp rates lanes s = { s with hif := { s.hif with
    up := true, widthFail := false, rate := bestRate rates
    width := if 16 ≤ lanes then 16 else if 8 ≤ lanes then 8 else 4
    flit := bestRate rates == 6, rateLow := false } } := by
  rw [hostLinkUp_trains h hl, if_neg (Nat.not_lt.2 hr), linkTrained, decide_eq_false (Nat.not_lt.2 hr)]

theorem hostLinkUp_slow (hl : 4 ≤ lanes) (hr : bestRate rates < 4) : hostLinkUp rates lanes s = logErr
    { cls := 9, cause := 4, sev := sevNotice, source := 8, info := bestRate rates } { s with hif := { s.hif with
      up := true, widthFail := false, rate := bestRate rates
      width := if 16 ≤ lanes then 16 else if 8 ≤ lanes then 8 else 4
      flit := false, rateLow := true } } := by
  have hflit : (bestRate rates == 6) = false := beq_eq_false_iff_ne.2 (by omega)
  rw [hostLinkUp_trains h hl, if_pos hr, linkTrained, decide_eq_true hr, hflit]

end LinkUp

theorem hostLinkDown_down {s : State} (h : s.hif.up = false) : hostLinkDown s = s := by
  simp [hostLinkDown, h]

/-- A link lost in ON outside a chip reset is contained (R483). -/
theorem hostLinkDown_lost {s : State} (h : s.hif.up = true) (hon : isOn s = true) (hr : inChipReset s = false) :
    hostLinkDown s = logErr { cls := 9, cause := 3, sev := sevContained, source := 8 }
      { s with hif := { s.hif with up := false, rate := 0, width := 0, flit := false, rateLow := false } } := by
  unfold hostLinkDown
  rw [if_neg (by simp [h])]
  exact if_pos (by simp [hon, hr])

/-! FLR (R179) -/

/-- The function's packets in flight are muted, and its state, pending bits and holding registers are cleared. -/
def functionCleared (n : Nat) (s : State) : State :=
  { s with hif := { s.hif with
      started := updWhere (fun p => (ringsOf s n).contains p.ring) (fun p => { p with muted := true }) s.hif.started
      fns := Tbl.set {} s.hif.fns n {}
      pba := s.hif.pba.filter (fun p => p.1 / 2048 != n)
      readHold := Tbl.set none s.hif.readHold n none
      writeHold := Tbl.set none s.hif.writeHold n none } }

/-- The function's registers, rings and vectors are at reset besides. -/
def functionReset (n : Nat) (s : State) : State :=
  resetRegs (fun _ lo => isVecReg n lo)
    (updOwner n (fun w => { w with fringProd := 0 }) (resetOwnerRegs n (functionCleared n s)))

theorem flr_virtual {s : State} {n : Nat} (hr : configReach s = true) (h0 : 0 < n) (hn : n < 64) : flr n s = logErr
    { cls := 2, cause := 3, sev := sevNotice, owner := some n, source := 8, index := n, requester := some n }
    (functionReset n s) := by
  unfold flr
  rw [if_neg (by simp [hr, hn])]
  dsimp only
  rw [if_neg (by omega)]
  rfl

theorem mem_ringsOf {s : State} {n r : Nat} : r ∈ ringsOf s n ↔ r < 1024 ∧ ringOwner s r = some n := by
  rw [ringsOf, List.mem_filter, List.mem_range, beq_iff_eq]

section FunctionReset

variable {s : State} {n : Nat}

theorem fnAt_functionReset : fnAt (functionReset n s) n = {} :=
  get_set_same (α := Fn) {} s.hif.fns n {}

/-- The rings of the function's owner are DISABLED. -/
theorem ringAt_functionReset {r : Nat} (hr : r < 1024) (ho : ringOwner s r = some n) :
    ringAt (functionReset n s) r = {} := by
  refine (get_filter {} (fun k => !((ringsOf s n).contains k)) s.hif.rings r).trans (if_neg ?_)
  simpa using mem_ringsOf.2 ⟨hr, ho⟩

/-- The packets in flight of the function's rings write no record. -/
theorem muted_functionReset {q : Inflight} (hq : q ∈ (functionReset n s).hif.started) (hr : q.ring < 1024)
    (ho : ringOwner s q.ring = some n) : q.muted = true := by
  obtain ⟨p, -, rfl⟩ := List.mem_map.1 hq
  by_cases h : (ringsOf s n).contains p.ring = true
  · rw [if_pos h]
  · rw [if_neg h] at hr ho
    exact absurd (List.contains_iff_mem.2 (mem_ringsOf.2 ⟨hr, ho⟩)) h

/-- The function's MSI-X table is at reset. -/
theorem rawAt_functionReset {lo : Nat} {d : RegDef} (hf : findReg lo = some (d, lo)) (hv : isVecReg n lo = true) :
    rawAt (functionReset n s) lo = resetAt lo % 2 ^ 64 := by
  rw [functionReset, rawAt_resetRegs, if_pos]
  rw [picks, hf]
  exact hv

end FunctionReset

/-! Power states, ATS and BAR2 (R180, R184, R187) -/

section Config

variable {s : State} {n : Nat} (hr : configReach s = true)
include hr

section Function

variable (hn : n < 64)
include hn

theorem d3Enter_enters : d3Enter n s = updFn n (fun f => { f with d3hot := true }) s := if_pos (by simp [hr, hn])

theorem atsInvalidate_answers : atsInvalidate n s = { s with out := s.out ++ [.config n (.ok 0)] } :=
  if_pos (by simp [hr, hn])

end Function

/-- A return to D0 with no vector pending sends no message. -/
theorem d0Return_quiet (hd : (fnAt s n).d3hot = true) (hp : ∀ x ∈ s.hif.pba, x.2 = true → x.1 / 2048 ≠ n) :
    d0Return n s = updFn n (fun f => { f with d3hot := false }) s := by
  have hnone : pendingVecs (updFn n (fun f => { f with d3hot := false }) s) n = [] := by
    refine List.map_eq_nil_iff.2 (List.filter_eq_nil_iff.2 fun x hx => ?_)
    rw [Bool.and_eq_true, beq_iff_eq]
    exact fun h => hp x hx h.1 h.2
  unfold d0Return
  rw [if_pos (by simp [hr, hd])]
  dsimp only
  rw [hnone]
  rfl

theorem bar2Resize_legal {code : Nat} (hc : code ≤ 8) : bar2Resize code s =
    if s.hif.bar2Log2 = 30 + code then s else
      setRaw 0x200018 0 { s with hif := { s.hif with bar2Log2 := 30 + code } } := if_pos (by simp [hr, hc])

end Config

theorem d0Return_awake {s : State} {n : Nat} (hd : (fnAt s n).d3hot = false) : d0Return n s = s :=
  if_neg (by simp [hd])

theorem bar2Resize_refused {s : State} {code : Nat} (h : configReach s = false ∨ 8 < code) : bar2Resize code s = s := by
  refine if_neg ?_
  rw [Bool.and_eq_true, decide_eq_true_eq]
  rintro ⟨hr, hc⟩
  exact h.elim (fun h => Bool.eq_false_iff.1 h hr) (fun h => Nat.not_le.2 h hc)

/-! Vectors (R186) -/

section Vector

variable {s : State} {n vec : Nat}

/-- A pending vector that nothing holds sends its message. -/
theorem unmasked_sends (hp : Tbl.get false s.hif.pba (n * 2048 + vec) = true) (hh : vecHeld s n vec = false) :
    unmasked n vec s = sendVec n vec (setPending n vec false s) := if_pos (by simp [hp, hh])

theorem unmasked_idle (hp : Tbl.get false s.hif.pba (n * 2048 + vec) = false) : unmasked n vec s = s :=
  if_neg (by simp [hp])

/-- A write of a vector control word of the physical function unmasks that vector. -/
theorem writeHook_physicalVector (hv : vec < 2048) (cons : Cons) (r : Requester) (old new : Nat) (l : Bool) :
    writeHook cons r (0x88000C + 16 * vec) old new l s = unmasked 0 vec s := by
  have hring : isRingReg (0x88000C + 16 * vec) = false := by
    simp only [isRingReg, Bool.and_eq_false_iff, decide_eq_false_iff_not]
    omega
  have hvec : (0x88000C + 16 * vec - 0x880000) / 16 = vec := by omega
  rw [writeHook, if_pos (by omega), hostHook, if_neg (by omega), hring, if_neg (by decide), if_pos (by omega), hvec]

/-- A write of a vector control word of a virtual function unmasks that vector. -/
theorem writeHook_virtualVector (h0 : 0 < n) (hv : vec < 64) (cons : Cons) (r : Requester) (old new : Nat)
    (l : Bool) :
    writeHook cons r (0x1_0000_0000 + (n - 1) * 0x400 + 16 * vec + 0xC) old new l s = unmasked n vec s := by
  have hring : isRingReg (0x1_0000_0000 + (n - 1) * 0x400 + 16 * vec + 0xC) = false := by
    simp only [isRingReg, Bool.and_eq_false_iff, decide_eq_false_iff_not]
    omega
  have hfn : (0x1_0000_0000 + (n - 1) * 0x400 + 16 * vec + 0xC - 0x1_0000_0000) / 0x400 + 1 = n := by omega
  have hvec : (0x1_0000_0000 + (n - 1) * 0x400 + 16 * vec + 0xC - 0x1_0000_0000) % 0x400 / 16 = vec := by omega
  rw [writeHook, if_pos (by omega), hostHook, if_neg (by omega), hring, if_neg (by decide), if_neg (by omega),
    if_pos (by omega), hfn, hvec]

end Vector

theorem vectorCtl_virtual {n : Nat} (h0 : 0 < n) (vec : Nat) : vectorCtl n vec = 0x800C + 16 * vec :=
  if_neg (Nat.ne_of_gt h0)

/-- Settles O34: each event goes by the standing of the link and the function; a vector's control word by its pending
bit. -/
theorem hostPortEvents : Obligations.HostPortEvents := by
  refine ⟨fun s rates lanes => ⟨fun h => congrArg done (hostLinkUp_unpowered h),
      fun h hl => congrArg done (hostLinkUp_tooNarrow h hl), fun h hl hr => congrArg done (hostLinkUp_fast h hl hr),
      fun h hl hr => congrArg done (hostLinkUp_slow h hl hr)⟩,
    fun s h hon hr => congrArg done (hostLinkDown_lost h hon hr), fun s h => congrArg done (hostLinkDown_down h),
    fun s n hr h0 hn => ⟨functionReset n s, congrArg done (flr_virtual hr h0 hn), fnAt_functionReset, rfl,
      fun r => ringAt_functionReset, fun q => muted_functionReset, fun lo d => rawAt_functionReset⟩,
    fun s n hr hn => ⟨congrArg done (d3Enter_enters hr hn), congrArg done (atsInvalidate_answers hr hn),
      fun hd hp => congrArg done (d0Return_quiet hr hd hp), fun hd => congrArg done (d0Return_awake hd)⟩,
    fun s code hr hc => congrArg done (bar2Resize_legal hr hc), fun s code h => congrArg done (bar2Resize_refused h),
    fun s vec d hv h => ?physical, fun s n vec d h0 hn hv h => ?virtual⟩
  case physical =>
    intro t
    have hexec : exec (.vectorUnmask 0 vec) s = done (unmasked 0 vec t) :=
      congrArg done ((regWrite_written h (by omega) (by omega)).trans (writeHook_physicalVector hv _ _ _ _ _))
    have hkey : 0 * 2048 + vec = vec := by omega
    rw [hexec]
    exact ⟨fun hp hh => congrArg done (unmasked_sends (by rwa [hkey]) hh),
      fun hp => congrArg done (unmasked_idle (by rwa [hkey]))⟩
  case virtual =>
    intro t
    have hwrite : regWrite {} (.fn n) (vectorCtl n vec) 4 0 s = unmasked n vec t := by
      rw [vectorCtl_virtual h0, regWrite_written h (by omega) (by omega), writeHook_virtualVector h0 hv]
    have hexec : exec (.vectorUnmask n vec) s = done (unmasked n vec t) := congrArg done hwrite
    rw [hexec]
    exact ⟨fun hp hh => congrArg done (unmasked_sends hp hh), fun hp => congrArg done (unmasked_idle hp)⟩

end Sys2Proof.Proofs
end

section
/-! Chapter 8: a peer is judged UP, QUARANTINE or DOWN (R228, R230). -/

namespace Sys2Proof.Proofs

open Sys2Proof Sys2Proof.Machine Sys2Proof.Safety Sys2Proof.Laws

/-! The peer's digest arrives -/

section Digest

variable {s : State} {cons : Cons} {p : Nat} (hl : linkRuns s = true)
include hl

/-- FINISHED is heard in key exchange, once the peer's KEY is kept. -/
theorem finishedReceived_keyx (hst : (portAt s p).st = .keyx) (hk : (portAt s p).peerKey.isSome = true)
    (digest : Nat) (tagOk : Bool) : finishedReceived cons p digest tagOk s =
      if tagOk = true then
        judgePort cons p (portAt s p).keySigOk (updPort p (fun y => { y with peerDigest := some digest }) s)
      else portDown cons p 3 s := by
  have hkey : (portAt s p).peerKey.isNone = false := Option.isNone_eq_false_iff.2 hk
  unfold finishedReceived
  refine (if_neg (by simp [hl, hst, hkey])).trans ?_
  cases tagOk <;> rfl

/-- REDIGEST is heard in UP and QUARANTINE. -/
theorem redigestReceived_trained (hst : (portAt s p).st = .up ∨ (portAt s p).st = .quarantine)
    (digest : Nat) (sig : Bool) : redigestReceived cons p digest sig s =
      judgePort cons p sig (updPort p (fun y => { y with peerDigest := some digest, keySigOk := sig }) s) := by
  unfold redigestReceived
  refine if_neg ?_
  rcases hst with hst | hst <;> simp [hl, hst]

omit hl in
theorem redigestReceived_ignored (hup : (portAt s p).st ≠ .up) (hq : (portAt s p).st ≠ .quarantine)
    (digest : Nat) (sig : Bool) : redigestReceived cons p digest sig s = s := by
  unfold redigestReceived
  exact if_pos (by simp [hup, hq])

end Digest

/-! The judgement (R228, R230) -/

section Judge

variable {s : State} (cons : Cons) (p : Nat) (sig : Bool)

theorem judgePort_noManifest (hm : s.elk.manifest = none) : judgePort cons p sig s = portQuarantine cons p 5 s := by
  simp only [judgePort, hm]

variable {m : Manifest} (hm : s.elk.manifest = some m)
include hm

theorem judgePort_unlisted (he : entryOf m (portAt s p).peerSerial = none) :
    judgePort cons p sig s = portQuarantine cons p 5 s := by
  simp only [judgePort, hm, he]

/-- A listed peer is judged by its signature, then by the link entries, then by its digest. -/
theorem judgePort_listed {i : Nat} {e : ChipEntry} (he : entryOf m (portAt s p).peerSerial = some (i, e)) :
    judgePort cons p sig s =
      if sig = false then portDown cons p 3 s
      else if linkJoined m p i (portAt s p).peerPort = false then portQuarantine cons p 5 s
      else if (portAt s p).peerDigest ≠ some m.digest then portQuarantine cons p 4 s
      else if (portAt s p).st = .up then s
      else portGoesUp p s := by
  simp only [judgePort, hm, he, Bool.not_eq_true', bne_iff_ne, portUp, beq_iff_eq]

end Judge

/-! The states it leads to -/

/-- A port that was not UP has no requests to end when it enters QUARANTINE. -/
theorem portQuarantine_notUp {s : State} {p : Nat} (h : portUp s p = false) (cons : Cons) (cause : Nat) :
    portQuarantine cons p cause s = logErr
      { cls := 10, cause := 4, sev := sevNotice, source := 0x20, index := p, info := 0 } (updPort p (fun x => { x with
        st := .quarantine, cause, queues := x.queues.filter (fun q => q.1 == 8 || q.1 == 9) }) s) := by
  unfold portQuarantine
  exact if_neg (Bool.eq_false_iff.1 h)

/-- The port stands in UP. -/
def enteredUp (p : Nat) (s : State) : State := updPort p (fun x => { x with st := .up, upSince := s.dts }) s

theorem portUp_enteredUp (p : Nat) (s : State) : portUp (enteredUp p s) p = true := by
  rw [portUp, enteredUp, portAt_updPort]
  rfl

theorem portGoesUp_noPeer {s : State} {p : Nat} (h : peerOf (enteredUp p s) p = none) :
    portGoesUp p s = enteredUp p s := by
  rw [enteredUp] at h ⊢
  simp only [portGoesUp, h]

/-- A port in UP ends its peer's suspicion (R237). -/
theorem portGoesUp_peer {s : State} {p id : Nat} (h : peerOf (enteredUp p s) p = some id) :
    portGoesUp p s = cleared id (enteredUp p s) := by
  rw [enteredUp] at h ⊢
  simp only [portGoesUp, h]

/-- Settles O36: the digest leads to `judgePort`, whose checks of a listed peer go in one order, each to its state. -/
theorem peersAreJudged : Obligations.PeersAreJudged := by
  refine ⟨fun s cons p digest tagOk hl hst hk => ?finished, fun s cons p digest sig hl => ?redigest,
    fun s cons p sig => ⟨judgePort_noManifest cons p sig, fun m hm => ⟨judgePort_unlisted cons p sig hm,
      fun i e he => ?listed⟩⟩,
    fun s cons p cause h => portQuarantine_notUp h cons cause,
    fun s p => ⟨portUp_enteredUp p s, portGoesUp_noPeer, fun id h => portGoesUp_peer h⟩⟩
  case finished =>
    have hrow : exec (.finished cons p digest tagOk) s = _ :=
      congrArg done ((whenClocked_pos hl).trans (finishedReceived_keyx (cons := cons) hl hst hk digest tagOk))
    rw [hrow]
    exact ⟨fun h => congrArg done (if_neg (ne_true_of_eq_false h)), fun h => congrArg done (if_pos h)⟩
  case redigest =>
    exact ⟨fun hst => congrArg done ((whenClocked_pos hl).trans (redigestReceived_trained hl hst digest sig)),
      fun hup hq => congrArg done ((whenClocked_pos hl).trans (redigestReceived_ignored hup hq digest sig))⟩
  case listed =>
    rw [judgePort_listed cons p sig hm he]
    refine ⟨fun hsig => if_pos hsig, fun hsig hjoin => ?_, fun hsig hjoin hsame => ?_, fun hsig hjoin hsame => ?_⟩
    all_goals rw [if_neg (ne_false_of_eq_true hsig)]
    · exact if_pos hjoin
    · rw [if_neg (ne_false_of_eq_true hjoin), if_pos hsame]
    · rw [if_neg (ne_false_of_eq_true hjoin), if_neg (not_not_intro hsame)]

end Sys2Proof.Proofs
end

section
/-! Chapter 8: flits leave, arrive, are acknowledged and are replayed (R218–R222). -/

namespace Sys2Proof.Proofs

open Sys2Proof Sys2Proof.Machine Sys2Proof.Safety Sys2Proof.Laws

/-- A port carries flits in UP and QUARANTINE. -/
def portCarries (x : Port) : Prop := x.st = .up ∨ x.st = .quarantine

theorem portCarries_beq {x : Port} (h : portCarries x) : (x.st == .up || x.st == .quarantine) = true := by
  rcases h with h | h <;> rw [h] <;> rfl

/-! A new flit (R218, R219, R222) -/

/-- Header of the next IDLE flit: the last SEQ sent, the last one received, and the credits owed. -/
def idleHead (x : Port) : Nat :=
  flitHead 0 (b2n x.kep) (b2n x.nak) (x.txSeq + 4095) (x.rxSeq + 4095) ((owedHalf x).1 / 2) ((owedHalf x).1 % 2)
    (owedHalf x).2

/-- Header of the next DATA flit: its own SEQ, the last one received, and the credits owed. -/
def dataHead (x : Port) : Nat :=
  flitHead 1 (b2n x.kep) (b2n x.nak) x.txSeq (x.rxSeq + 4095) ((owedHalf x).1 / 2) ((owedHalf x).1 % 2) (owedHalf x).2

/-- Any flit counts as sealed, acknowledges what came and returns the credits its header names. -/
def sentFlit (x : Port) : Port :=
  { x with sealed := x.sealed + 1, nak := false, ackOwed := 0
           owed := Tbl.upd 0 x.owed (owedHalf x).1 (· - (owedHalf x).2) }

/-- A DATA flit takes its SEQ and waits in the retry buffer besides. -/
def sentData (f : List Byte) (x : Port) : Port :=
  { sentFlit x with txSeq := (x.txSeq + 1) % 4096, unacked := x.unacked ++ [(x.txSeq, f)] }

/-- No key turn is due: R219 turns after every 2^30 flits sealed. -/
def keepsKey (x : Port) : Prop := x.sealed % 2 ^ 30 ≠ 0 ∨ x.sealed = 0

theorem keepsKey_decide {x : Port} (h : keepsKey x) : decide (0 < x.sealed ∧ x.sealed % 2 ^ 30 = 0) = false := by
  refine decide_eq_false fun hturn => ?_
  rcases h with h | h <;> omega

/-- A payload stays empty where no half can send. -/
theorem fillFlit_none {s : State} {p left : Nat} (h : nextHalf s p left = none) (fuel : Nat) (acc : List Byte) :
    fillFlit p fuel left acc s = (s, acc) := by
  cases fuel with
  | zero => rfl
  | succ fuel => rw [fillFlit, h]

theorem newFlit_idle {s : State} {p : Nat} (hn : nextHalf s p 15 = none) (hk : keepsKey (portAt s p)) :
    newFlit p s = emit (.flit p (sealFlit (portAt s p) (idleHead (portAt s p)) (zeros 240))) (updPort p sentFlit s) := by
  unfold newFlit
  simp only [fillFlit_none hn, ite_self, keepsKey_decide hk, List.isEmpty_nil, Bool.not_true, Bool.false_eq_true, if_false]
  rfl

theorem newFlit_data {s t : State} {p : Nat} {m : List Byte} (hroom : (portAt s p).unacked.length < 512)
    (hfill : fillFlit p 15 15 [] s = (t, m)) (hm : m ≠ []) (hk : keepsKey (portAt t p)) :
    newFlit p s = emit (.flit p (sealFlit (portAt t p) (dataHead (portAt t p)) (slice m 0 240)))
      (updPort p (sentData (sealFlit (portAt t p) (dataHead (portAt t p)) (slice m 0 240))) t) := by
  have hdata : m.isEmpty = false := List.isEmpty_eq_false_iff.2 hm
  unfold newFlit
  simp only [decide_eq_true hroom, if_true, hfill, keepsKey_decide hk, hdata, Bool.not_false, Bool.false_eq_true, if_false]
  rfl

/-- A stored flit is resent first. -/
theorem flitTransmit_stored {s : State} {p : Nat} {f : List Byte} {rest : List (List Byte)} (hl : linkRuns s = true)
    (hst : portCarries (portAt s p)) (h : (portAt s p).resend = f :: rest) : flitTransmit p s = emit (.flit p f)
      (updPort p (fun y => { y with resend := rest, replay := satInc 0xFFFFFFFF y.replay }) s) := by
  rw [flitTransmit_ready hl hst, h]

theorem flitTransmit_new {s : State} {p : Nat} (hl : linkRuns s = true) (hst : portCarries (portAt s p))
    (h : (portAt s p).resend = []) : flitTransmit p s = newFlit p s := by
  rw [flitTransmit_ready hl hst, h]

/-! A flit that arrives (R218, R220) -/

/-- R220: a discarded flit asks for a replay, and a failed tag is counted. -/
def discarded (tagFail : Bool) (y : Port) : Port :=
  { y with nak := true, tagFail := if tagFail then satInc 0xFFFF y.tagFail else y.tagFail
           tagRun := if tagFail then y.tagRun + 1 else y.tagRun }

theorem discarded_tagRun (tagFail : Bool) (y : Port) : (discarded tagFail y).tagRun = y.tagRun + b2n tagFail := by
  cases tagFail <;> rfl

theorem discardFlit_eq (cons : Cons) (p : Nat) (tagFail : Bool) (s : State) : discardFlit cons p tagFail s =
    if 16 ≤ (portAt s p).tagRun + b2n tagFail then portDown cons p 6 (updPort p (discarded tagFail) s)
    else updPort p (discarded tagFail) s := by
  have hrun : (portAt (updPort p (discarded tagFail) s) p).tagRun = (portAt s p).tagRun + b2n tagFail := by
    rw [portAt_updPort, discarded_tagRun]
  rw [← hrun]
  rfl

/-- A header with a sound tag acknowledges, returns credits and tells the key in use. -/
def heard (head : Nat) (y : Port) : Port :=
  { takeAck (fld head 47 36) y with
    tagRun := 0
    used := Tbl.upd 0 (takeAck (fld head 47 36) y).used (fld head 35 33 * 2 + fld head 32 32) (· - fld head 31 24)
    rxRekey := if bitOf head 61 != (takeAck (fld head 47 36) y).rxKep then (takeAck (fld head 47 36) y).rxRekey + 1
      else (takeAck (fld head 47 36) y).rxRekey
    rxKep := bitOf head 61 }

theorem heard_st (head : Nat) (y : Port) : (heard head y).st = y.st := by
  simp only [heard, takeAck, apply_ite Port.st, ite_self]

theorem heard_rxSeq (head : Nat) (y : Port) : (heard head y).rxSeq = y.rxSeq := by
  simp only [heard, takeAck, apply_ite Port.rxSeq, ite_self]

/-- A DATA flit in its order is taken: the next SEQ is awaited and an acknowledgement is owed. -/
def taken (y : Port) : Port := { y with rxSeq := (y.rxSeq + 1) % 4096, nak := false, ackOwed := y.ackOwed + 1 }

/-- The messages of a DATA flit are taken, and at 32 flits owed the acknowledgement leaves at once. -/
def takenData (cons : Cons) (p : Nat) (payload : List Byte) (ecc : Ecc) (sig : Bool) (t : State) : State :=
  let u := acceptMsgs cons p ecc sig (slice payload 0 240) (updPort p taken t)
  if 32 ≤ (portAt u p).ackOwed then flitTransmit p u else u

/-- What follows a header that has been heard: its NAK may have ended the link, and an IDLE flit brings no more. -/
def bodyTaken (cons : Cons) (p head : Nat) (payload : List Byte) (ecc : Ecc) (sig : Bool) (t : State) : State :=
  if fld head 63 62 = 0 ∨ (portAt t p).st = .down then t
  else if fld head 59 48 ≠ (portAt t p).rxSeq then discardFlit cons p false t
  else takenData cons p payload ecc sig t

/-- R218: what a header may not hold. -/
def headReserved (head : Nat) : Prop := 2 ≤ fld head 63 62 ∨ 5 ≤ fld head 35 33 ∨ fld head 23 0 ≠ 0

section Receive

variable {s : State} {p : Nat} (hl : linkRuns s = true) (hst : portCarries (portAt s p)) (cons : Cons) {head : Nat}
  (payload : List Byte) (ecc : Ecc) (sig : Bool)
include hl hst

/-- An uncorrectable codeword discards the flit, whatever it holds. -/
theorem flitReceive_uncorrectable {uncorr : Nat} (h : uncorr ≠ 0) (tagOk : Bool) :
    flitReceive cons p head payload tagOk uncorr ecc sig s =
      discardFlit cons p false (updPort p (fun y => { y with uncorr := min 0xFFFF (y.uncorr + uncorr) }) s) := by
  unfold flitReceive
  rw [if_neg (by rw [hl, portCarries_beq hst]; decide), if_pos h]

theorem flitReceive_badTag : flitReceive cons p head payload false 0 ecc sig s = discardFlit cons p true s := by
  unfold flitReceive
  rw [if_neg (by rw [hl, portCarries_beq hst]; decide)]
  rfl

theorem flitReceive_reserved (h : headReserved head) :
    flitReceive cons p head payload true 0 ecc sig s = discardFlit cons p false s := by
  unfold flitReceive
  rw [if_neg (by rw [hl, portCarries_beq hst]; decide), if_neg (not_not_intro rfl), if_neg (by decide)]
  exact if_pos h

/-- A sound header is heard, its NAK starts a replay, and its body follows. -/
theorem flitReceive_sound (h : ¬ headReserved head) : flitReceive cons p head payload true 0 ecc sig s =
    bodyTaken cons p head payload ecc sig
      (if bitOf head 60 = true then startReplay cons p (updPort p (heard head) s) else updPort p (heard head) s) := by
  unfold flitReceive
  rw [if_neg (by rw [hl, portCarries_beq hst]; decide), if_neg (not_not_intro rfl), if_neg (by decide)]
  exact if_neg h

omit hl in
/-- A DATA flit on a port that carries is taken when its SEQ is the awaited one. -/
theorem bodyTaken_data (htype : fld head 63 62 = 1) : bodyTaken cons p head payload ecc sig (updPort p (heard head) s) =
    if fld head 59 48 ≠ (portAt s p).rxSeq then discardFlit cons p false (updPort p (heard head) s)
    else takenData cons p payload ecc sig (updPort p (heard head) s) := by
  have hup : (portAt s p).st ≠ .down := by
    rcases hst with h | h <;> rw [h] <;> decide
  have hon : ¬ (fld head 63 62 = 0 ∨ (portAt (updPort p (heard head) s) p).st = .down) := by
    rw [portAt_updPort, heard_st, htype]
    exact not_or_intro (by decide) hup
  rw [bodyTaken, if_neg hon, portAt_updPort, heard_rxSeq]

end Receive

/-! Replays and acknowledgements (R220) -/

section Replay

variable {s : State} {p : Nat} (cons : Cons)

theorem replayTimeout_starts (hl : linkRuns s = true) (hst : portCarries (portAt s p)) :
    replayTimeout cons p s = startReplay cons p s := by
  unfold replayTimeout
  exact if_pos (by rw [hl, portCarries_beq hst]; rfl)

theorem startReplay_none (h : (portAt s p).unacked = []) : startReplay cons p s = s := by
  unfold startReplay
  exact if_pos (by rw [h]; rfl)

/-- The eighth replay without progress ends the link. -/
theorem startReplay_spent (h : (portAt s p).unacked ≠ []) (hn : 7 ≤ (portAt s p).noProgress) :
    startReplay cons p s = portDown cons p 6 s := by
  unfold startReplay
  rw [if_neg (by simpa using h), if_pos (by omega)]

theorem startReplay_begins (h : (portAt s p).unacked ≠ []) (hn : (portAt s p).noProgress < 7) :
    startReplay cons p s = logErr { cls := 10, cause := 1, sev := sevCorrected, source := 0x20, index := p, info := 0 }
      (updPort p (fun y => { y with resend := y.unacked.map (·.2), noProgress := y.noProgress + 1 }) s) := by
  unfold startReplay
  rw [if_neg (by simpa using h), if_neg (by omega)]
  rfl

end Replay

/-- Settles O37: what waits on the port decides what leaves; a flit's checks pass one by one; a replay goes by the
progress made. -/
theorem flitsAreSentAckedAndReplayed : Obligations.FlitsAreSentAckedAndReplayed := by
  refine ⟨fun s p hl hst => ⟨fun f rest h => ?stored, fun h hn hk => ?idle, fun t m h hroom hfill hm hk => ?data⟩,
    fun s cons p head payload tagOk uncorr ecc sig hl hst => ⟨fun h => ?uncorrectable, fun hu ht => ?badTag,
      fun hu ht h => ?reserved, fun hu ht htype hcvc hzero hnak => ?sound⟩,
    fun s cons p tagFail => ⟨fun h => ?short, fun h => ?long⟩,
    fun s cons p hl hst => ?replay,
    fun s p hl => ⟨fun h => ?quiet, fun h => ?owed⟩⟩
  case stored => exact congrArg done ((whenClocked_pos hl).trans (flitTransmit_stored hl hst h))
  case idle =>
    exact congrArg done ((whenClocked_pos hl).trans ((flitTransmit_new hl hst h).trans (newFlit_idle hn hk)))
  case data =>
    exact ⟨sentData (sealFlit (portAt t p) (dataHead (portAt t p)) (slice m 0 240)) (portAt t p), dataHead (portAt t p),
      congrArg done ((whenClocked_pos hl).trans ((flitTransmit_new hl hst h).trans (newFlit_data hroom hfill hm hk))),
      rfl, rfl, rfl, rfl⟩
  case uncorrectable =>
    exact congrArg done ((whenClocked_pos hl).trans (flitReceive_uncorrectable hl hst cons payload ecc sig h tagOk))
  case badTag =>
    subst hu ht
    exact congrArg done ((whenClocked_pos hl).trans (flitReceive_badTag hl hst cons payload ecc sig))
  case reserved =>
    subst hu ht
    exact congrArg done ((whenClocked_pos hl).trans (flitReceive_reserved hl hst cons payload ecc sig h))
  case sound =>
    subst hu ht
    have hsound : ¬ headReserved head := by
      rintro (h | h | h)
      · exact absurd htype (Nat.not_lt.2 h)
      · exact absurd hcvc (Nat.not_lt.2 h)
      · exact h hzero
    have hrow : exec (.flitReceive cons p head payload true 0 ecc sig) s =
        .next (settle (bodyTaken cons p head payload ecc sig (updPort p (heard head) s))) := by
      refine congrArg done ((whenClocked_pos hl).trans ((flitReceive_sound hl hst cons payload ecc sig hsound).trans ?_))
      rw [if_neg (ne_true_of_eq_false hnak)]
    rw [hrow]
    refine ⟨fun h => congrArg done (if_pos (.inl h)), fun h hseq => congrArg done ?_, fun h hseq => congrArg done ?_⟩
    · exact (bodyTaken_data hst cons payload ecc sig h).trans (if_pos hseq)
    · exact (bodyTaken_data hst cons payload ecc sig h).trans (if_neg (not_not_intro hseq))
  case short => exact (discardFlit_eq cons p tagFail s).trans (if_neg (Nat.not_le.2 h))
  case long => exact (discardFlit_eq cons p tagFail s).trans (if_pos h)
  case replay =>
    have hrow := (whenClocked_pos (f := replayTimeout cons p) hl).trans (replayTimeout_starts cons hl hst)
    exact ⟨fun h => congrArg done (hrow.trans (startReplay_none cons h)),
      fun h hn => congrArg done (hrow.trans (startReplay_spent cons h hn)),
      fun h hn => congrArg done (hrow.trans (startReplay_begins cons h hn))⟩
  case quiet => exact congrArg done ((whenClocked_pos hl).trans (if_neg (Nat.not_lt.2 (Nat.le_of_eq h))))
  case owed => exact congrArg done ((whenClocked_pos hl).trans (if_pos h))

end Sys2Proof.Proofs
end

section
/-! Chapter 8: probes, lost chips, manifests, routes and fences (R224–R226, R229, R231, R237–R240). -/

namespace Sys2Proof.Proofs

open Sys2Proof Sys2Proof.Machine Sys2Proof.Safety Sys2Proof.Laws

/-! DOMAIN messages (R229, R231, R237, R238) -/

section Domain

variable {s : State} {m : Msg} {p : Nat} (cons : Cons)

/-- A row of one DOMAIN type takes a whole message of that type on a port in UP. -/
theorem domainArrives_received {mod : Nat} {bytes : List Byte} (hl : linkRuns s = true) (hst : (portAt s p).st = .up)
    (ht : (parseMsg bytes).mtype = 0xC0) (hmod : (parseMsg bytes).mod = mod)
    (hlen : bytes.length = 16 * (1 + dataUnits (parseMsg bytes).mtype (parseMsg bytes).size)) (sig : Bool) :
    domainArrives cons p mod sig bytes s = receiveMsg cons p .ok sig (parseMsg bytes) s :=
  (if_pos hmod).trans (messageArrives_received hl hlen (.inl hst) (by rw [ht]; rfl) cons .ok sig)

/-- FENCE and the messages of key exchange are for whoever hears them. -/
theorem forMe_fence (ht : m.mtype = 0xC0) (hmod : m.mod = 0x20) : forMe s m = true := by
  rw [forMe, ht, hmod]
  rfl

section Up

variable (hst : (portAt s p).st = .up)
include hst

/-- A legal DOMAIN message for this chip is neither a request nor an answer. -/
theorem receiveMsg_domain (ht : m.mtype = 0xC0) (hh : headerLegal m = true) (hme : forMe s m = true)
    (ecc : Ecc) (sig : Bool) : receiveMsg cons p ecc sig m s = takeDomain cons p m sig s := by
  have hup : ((portAt s p).st == .quarantine) = false := by rw [hst]; rfl
  have hreq : isRequest m.mtype = false := by rw [ht]; rfl
  have hresp : isResponse m.mtype = false := by rw [ht]; rfl
  simp only [receiveMsg, hh, hup, hme, hreq, hresp, Bool.not_true, Bool.false_and, Bool.false_eq_true, if_false, if_true]

theorem takeDomain_probe (hmod : m.mod = 0x10) (sig : Bool) : takeDomain cons p m sig s =
    replyTo p m.src 9 (msgHead 0xC0 m.src m.tc s.elk.selfId 0 0 m.tag 0 0x11 m.addr) s := by
  simp [takeDomain, hmod, portUp, hst]

theorem takeDomain_probeRsp (hmod : m.mod = 0x11) (sig : Bool) : takeDomain cons p m sig s = probeAnswered m.src s := by
  simp [takeDomain, hmod, portUp, hst]

theorem takeDomain_fence (hmod : m.mod = 0x20) (sig : Bool) :
    takeDomain cons p m sig s = fenceReceived cons p (m.addr % 64) (m.addr / 2 ^ 32) s := by
  simp [takeDomain, hmod, portUp, hst]

variable (hl : linkRuns s = true)
include hl

/-- A FENCE of this epoch for an ID not yet fenced is acted on. -/
theorem fenceReceived_acts {id epoch : Nat} (hf : (routeAt s id).fenced = false)
    (he : s.elk.manifest.map (·.epoch) = some epoch) : fenceReceived cons p id epoch s = declareLost cons id s := by
  simp [fenceReceived, hl, portUp, hst, hf, he]

/-- Any other is discarded and logged. -/
theorem fenceReceived_discarded {id epoch : Nat}
    (h : (routeAt s id).fenced = true ∨ s.elk.manifest.map (·.epoch) ≠ some epoch) :
    fenceReceived cons p id epoch s = linkLog 11 2 sevNotice p id s := by
  unfold fenceReceived
  rw [if_neg (by simp [hl, portUp, hst]), if_pos (by simpa using h)]

end Up

theorem probeAnswered_clears (hl : linkRuns s = true) (id : Nat) : probeAnswered id s = cleared id s := if_pos hl

end Domain

/-! Suspicion and loss (R237, R238) -/

theorem lossHoldExpiry_suspect {s : State} (cons : Cons) {id : Nat} (hl : linkRuns s = true) (h : id ∈ s.elk.suspects) :
    lossHoldExpiry cons id s = declareLost cons id s :=
  if_pos (by rw [hl, List.contains_iff_mem.2 h]; rfl)

theorem lossHoldExpiry_ignored {s : State} (cons : Cons) {id : Nat} (h : id ∉ s.elk.suspects) :
    lossHoldExpiry cons id s = s :=
  if_neg (by simp [h])

theorem declareLost_fenced {s : State} (cons : Cons) {id : Nat} (h : (routeAt s id).fenced = true) :
    declareLost cons id s = s := if_pos h

/-- A loss ends the requests to the ID, is logged, and is told to the other peers. -/
theorem declareLost_acts {s : State} (cons : Cons) {id : Nat} (h : (routeAt s id).fenced = false) :
    declareLost cons id s = elkPorts.foldl
      (fun t p => if portUp t p && peerOf t p != some id then sendFence id p t else t)
      (logErr { cls := 11, cause := 1, sev := sevContained, source := 0x20, index := 0, info := id }
        (completeAll cons (·.chip == id) 0x0780 (updRoute id (fun r => { r with fenced := true }) (cleared id s)))) := by
  unfold declareLost
  exact if_neg (ne_true_of_eq_false h)

/-! STAGE (R225, R226) -/

/-- STAGE has asked the host for its bytes. -/
def stageAsked (s : State) : State :=
  { s with out := s.out ++ [.hostRead 0 (rawAt s 0x2008010) (rawAt s 0x2008018)]
           elk := { s.elk with busy := true, staging := true } }

/-- The host's bytes are no longer awaited. -/
def stageHeard (s : State) : State := { s with elk := { s.elk with staging := false } }

theorem elkCmd_stage (cons : Cons) (s : State) : elkCmd cons 1 s = stageAsked s := rfl

section Stage

variable {s : State} (hs : s.elk.staging = true)
include hs

theorem stageAnswer_failed :
    stageAnswer none s = elkDone 0x0461 (hostError 1 0 (rawAt s 0x2008010) 7 0 (stageHeard s)) := by
  unfold stageAnswer
  exact if_neg (by rw [hs]; decide)

theorem stageAnswer_bytes (b : List Byte) : stageAnswer (some b) s =
    match parseManifest (slice b 0 (rawAt s 0x2008018)) (s.elk.manifest.map (·.epoch)) with
    | some m => elkDone 0 { s with elk := { s.elk with staging := false, staged := some m } }
    | none => elkDone 0x0303 (stageHeard s) := by
  unfold stageAnswer
  refine (if_neg (by rw [hs]; decide)).trans ?_
  rfl

end Stage

/-- STAGE with no host read awaited is a command, then its answer. -/
theorem stage_starts {s : State} {r : Requester} {d : RegDef} (hs : s.elk.staging = false)
    (h : writesPlain s r 0x2008028 0x2008028 d 1) (cons : Cons) (host : Option (List Byte)) :
    stage cons r host s = stageAnswer host (stageAsked (written s 0x2008028 d 1)) := by
  rw [stage, if_neg (ne_true_of_eq_false hs), regWrite_elk h, elkCmd_stage]

/-! COMMIT (R226, R230) -/

section Commit

variable {s : State} {cons : Cons} {sigs : List Bool}

theorem commitDue_none (h : s.elk.commitAt = none) : commitDue cons sigs s = s := by
  simp only [commitDue, h]

theorem commitDue_waits {a : Nat} (h : s.elk.commitAt = some a) (hd : s.dts < a) : commitDue cons sigs s = s := by
  simp only [commitDue, h, if_neg (Nat.not_le.2 hd)]

theorem commitDue_due {a : Nat} (h : s.elk.commitAt = some a) (hd : a ≤ s.dts) :
    commitDue cons sigs s = commitNow cons sigs s := by
  simp only [commitDue, h, if_pos hd]

/-- The staged manifest is to take force at `at_`. -/
def commitSet (at_ : Nat) (s : State) : State :=
  { s with elk := { s.elk with busy := true, commitAt := some at_ } }

theorem elkCmd_commitNone (h : s.elk.staged = none) : elkCmd cons 2 s = elkDone 0x0280 s := by
  unfold elkCmd
  rw [if_neg (by decide), if_pos (by decide), h]

section Staged

variable {m : Manifest} (h : s.elk.staged = some m)
include h

/-- A staged manifest takes force at COMMIT_DTS, at the earliest now, unless that is too far or R226 refuses it. -/
theorem elkCmd_commit : elkCmd cons 2 s =
    if s.dts + 2 ^ 36 < rawAt s 0x2008020 then elkDone 0x0305 s
    else if commitRefused s m = true then elkDone 0x0225 s
    else commitSet (max (rawAt s 0x2008020) s.dts) s := by
  unfold elkCmd
  rw [if_neg (by decide), if_pos (by decide), h]
  rfl

theorem elkCmd_commitFar (hfar : s.dts + 2 ^ 36 < rawAt s 0x2008020) : elkCmd cons 2 s = elkDone 0x0305 s := by
  rw [elkCmd_commit h, if_pos hfar]

theorem elkCmd_commitRefused (hnear : rawAt s 0x2008020 ≤ s.dts + 2 ^ 36) (href : commitRefused s m = true) :
    elkCmd cons 2 s = elkDone 0x0225 s := by
  rw [elkCmd_commit h, if_neg (Nat.not_lt.2 hnear), if_pos href]

theorem elkCmd_commitLater (hlater : s.dts < rawAt s 0x2008020) (hnear : rawAt s 0x2008020 ≤ s.dts + 2 ^ 36)
    (hok : commitRefused s m = false) : elkCmd cons 2 s = commitSet (rawAt s 0x2008020) s := by
  rw [elkCmd_commit h, if_neg (Nat.not_lt.2 hnear), if_neg (ne_true_of_eq_false hok),
    Nat.max_eq_left (Nat.le_of_lt hlater)]

theorem elkCmd_commitNow (hdue : rawAt s 0x2008020 ≤ s.dts) (hok : commitRefused s m = false) :
    elkCmd cons 2 s = commitSet s.dts s := by
  rw [elkCmd_commit h, if_neg (Nat.not_lt.2 (Nat.le_add_right_of_le hdue)), if_neg (ne_true_of_eq_false hok),
    Nat.max_eq_right hdue]

end Staged

end Commit

/-! ROUTE_SET, ELK_FENCE and UNFENCE (R239, R240) -/

/-- An ID is this chip's own. -/
def ownId (s : State) (id : Nat) : Prop := s.elk.hasId = true ∧ s.elk.selfId = id

theorem not_ownId {s : State} {id : Nat} (h : s.elk.hasId = false ∨ s.elk.selfId ≠ id) : ¬ ownId s id := by
  rintro ⟨hid, hself⟩
  rcases h with h | h
  · exact absurd hid (ne_true_of_eq_false h)
  · exact h hself

theorem ownId_iff (s : State) (id : Nat) : (s.elk.hasId && s.elk.selfId == id) = true ↔ ownId s id := by
  rw [Bool.and_eq_true, beq_iff_eq, ownId]

section Command

variable {s : State} {v id : Nat} (cons : Cons) (hid : fld v 13 8 = id)
include hid

section RouteSet

variable (hop : fld v 3 0 = 3)
include hop

theorem elkCmd_routeOwn (ho : ownId s id) : elkCmd cons v s = elkDone 0x0303 s := by
  simp only [elkCmd, hop, hid, (ownId_iff s id).2 ho, reduceIte, Nat.reduceEqDiff]

/-- The route to an ID that is valid and not fenced stays. -/
theorem elkCmd_routeHeld (ho : ¬ ownId s id) (hv : (routeAt s id).valid = true) (hf : (routeAt s id).fenced = false) :
    elkCmd cons v s = elkDone 0x0281 s := by
  rw [← ownId_iff] at ho
  simp only [elkCmd, hop, hid, if_neg ho, hv, hf, reduceIte, Nat.reduceEqDiff, Bool.not_false, Bool.and_self]

theorem elkCmd_routeSet (ho : ¬ ownId s id) (h : (routeAt s id).valid = false ∨ (routeAt s id).fenced = true) :
    elkCmd cons v s = elkDone 0 (updRoute id (fun x => { x with
      valid := true, fenced := false, altEn := bitOf v 20, alt := fld v 19 18, primary := fld v 17 16
      usingAlt := false }) s) := by
  rw [← ownId_iff] at ho
  have hfree : ¬ ((routeAt s id).valid && !(routeAt s id).fenced) = true := by
    rcases h with h | h <;> simp [h]
  simp only [elkCmd, hop, hid, if_neg ho, if_neg hfree, reduceIte, Nat.reduceEqDiff]

end RouteSet

section Fence

variable (hop : fld v 3 0 = 4)
include hop

/-- R239: the chip's own ID starts a self-fence. -/
theorem elkCmd_fenceOwn (ho : ownId s id) :
    elkCmd cons v s = { s with elk := { s.elk with busy := true, selfFence := true } } := by
  simp only [elkCmd, hop, hid, (ownId_iff s id).2 ho, reduceIte, Nat.reduceEqDiff]
  rfl

theorem elkCmd_fenceOther (ho : ¬ ownId s id) : elkCmd cons v s = elkDone 0 (declareLost cons id s) := by
  rw [← ownId_iff] at ho
  simp only [elkCmd, hop, hid, if_neg ho, reduceIte, Nat.reduceEqDiff]

end Fence

section Unfence

variable (hop : fld v 3 0 = 5)
include hop

theorem elkCmd_unfenceOwn (ho : ownId s id) : elkCmd cons v s = elkDone 0x0303 s := by
  simp only [elkCmd, hop, hid, (ownId_iff s id).2 ho, reduceIte, Nat.reduceEqDiff]

theorem elkCmd_unfenceOpen (ho : ¬ ownId s id) (hf : (routeAt s id).fenced = false) :
    elkCmd cons v s = elkDone 0x0281 s := by
  rw [← ownId_iff] at ho
  simp only [elkCmd, hop, hid, if_neg ho, hf, reduceIte, Nat.reduceEqDiff, Bool.not_false]

theorem elkCmd_unfenceFenced (ho : ¬ ownId s id) (hf : (routeAt s id).fenced = true) :
    elkCmd cons v s = elkDone 0 (updRoute id (fun x => { x with fenced := false }) s) := by
  rw [← ownId_iff] at ho
  simp only [elkCmd, hop, hid, if_neg ho, hf, reduceIte, Nat.reduceEqDiff, Bool.not_true, Bool.false_eq_true]

end Unfence

end Command

/-! The command words -/

/-- The operation of a command word without route fields, and the ID it names. -/
theorem fld_idWord {op id : Nat} (hop : op < 16) (hid : id < 64) :
    fld (op + id * 2 ^ 8) 3 0 = op ∧ fld (op + id * 2 ^ 8) 13 8 = id := by
  rw [fld_div, fld_div]
  omega

/-- ROUTE_SET's word gives its fields back (R240). -/
theorem fld_routeWord {id primary alt : Nat} (hid : id < 64) (hp : primary < 4) (ha : alt < 4) (altEn : Bool) {v : Nat}
    (hv : v = 3 + id * 2 ^ 8 + primary * 2 ^ 16 + alt * 2 ^ 18 + b2n altEn * 2 ^ 20) :
    fld v 3 0 = 3 ∧ fld v 13 8 = id ∧ fld v 17 16 = primary ∧ fld v 19 18 = alt ∧ bitOf v 20 = altEn := by
  subst hv
  simp only [fld_div, bitOf, Nat.testBit_eq_decide_div_mod_eq]
  cases altEn
  all_goals
    simp only [b2n, Bool.false_eq_true, if_true, if_false, decide_eq_true_eq, decide_eq_false_iff_not]
    omega

/-- Settles O38: a DOMAIN message goes by its type; each command of ELK_CMD by its operation, the ID it names and what
stands there. -/
theorem domainsAreManaged : Obligations.DomainsAreManaged := by
  refine ⟨fun s cons p bytes hl hst => ?domain,
    fun s cons id hl => ⟨congrArg done ((whenClocked_pos hl).trans (if_pos hl)),
      fun h => congrArg done ((whenClocked_pos hl).trans (lossHoldExpiry_suspect cons hl h)),
      fun h => congrArg done ((whenClocked_pos hl).trans (lossHoldExpiry_ignored cons h))⟩,
    fun s cons id => ⟨declareLost_fenced cons, declareLost_acts cons⟩,
    fun s r cons d host hs hw => ?stage, fun s r cons d sigs hw hc => ?commit,
    fun s cons sigs hclk => ⟨fun a ha => ?reached, fun hc => ?unset⟩,
    fun s r cons d id primary alt altEn hid hp ha => ?route, fun s r cons d id hid => ⟨?fence, ?unfence⟩⟩
  case domain =>
    intro m ht hlen hh
    have hrow : ∀ {mod}, m.mod = mod → forMe s m = true →
        domainArrives cons p mod false bytes s = takeDomain cons p m false s := fun hmod hme =>
      (domainArrives_received cons hl hst ht hmod hlen false).trans (receiveMsg_domain cons hst ht hh hme .ok false)
    exact ⟨fun hmod hme => congrArg done ((hrow hmod hme).trans (takeDomain_probe cons hst hmod false)),
      fun hmod hme => congrArg done ((hrow hmod hme).trans
        ((takeDomain_probeRsp cons hst hmod false).trans (probeAnswered_clears hl m.src))),
      fun hmod hf he => congrArg done ((hrow hmod (forMe_fence ht hmod)).trans
        ((takeDomain_fence cons hst hmod false).trans (fenceReceived_acts cons hst hl hf he))),
      fun hmod h => congrArg done ((hrow hmod (forMe_fence ht hmod)).trans
        ((takeDomain_fence cons hst hmod false).trans (fenceReceived_discarded cons hst hl h)))⟩
  case stage =>
    refine ⟨fun h => congrArg done ?_, fun b h => congrArg done ?_⟩
    · rw [h, stage_starts hs hw, stageAnswer_failed rfl]
      rfl
    · rw [h, stage_starts hs hw, stageAnswer_bytes rfl]
      rfl
  case commit =>
    intro t at_
    have hrow : ∀ {u w}, elkCmd cons 2 t = u → commitDue cons sigs u = w →
        exec (.commit r cons sigs) s = .next (settle w) := fun hcmd hdue =>
      congrArg done ((congrArg (commitDue cons sigs) ((regWrite_elk hw).trans hcmd)).trans hdue)
    exact ⟨fun h => hrow (elkCmd_commitNone h) (commitDue_none hc), fun m hm =>
      ⟨fun hfar => hrow (elkCmd_commitFar hm hfar) (commitDue_none hc),
        fun hnear href => hrow (elkCmd_commitRefused hm hnear href) (commitDue_none hc),
        fun hlater hnear hok => hrow (elkCmd_commitLater hm hlater hnear hok) (commitDue_waits rfl hlater),
        fun hdue hok => hrow (elkCmd_commitNow hm hdue hok) (commitDue_due rfl (Nat.le_refl _))⟩⟩
  case reached =>
    refine congrArg done ((whenClocked_pos hclk).trans ?_)
    rw [ha]
    exact commitDue_due ha (Nat.le_max_right s.dts a)
  case unset =>
    have hdts : max s.dts (s.elk.commitAt.getD 0) = s.dts := by rw [hc]; exact Nat.max_zero _
    refine congrArg done ((whenClocked_pos hclk).trans ?_)
    rw [hdts]
    exact commitDue_none hc
  case route =>
    intro v hw t own
    obtain ⟨hop, hfid, hfp, hfa, hfe⟩ := fld_routeWord hid hp ha altEn (v := v) rfl
    have hrow : ∀ {u}, elkCmd cons v t = u → exec (.routeSet r cons id primary alt altEn) s = .next (settle u) :=
      fun e => congrArg done ((regWrite_elk hw).trans e)
    refine ⟨fun ho => hrow (elkCmd_routeOwn (s := t) cons hfid hop ho),
      fun ho hv hf => hrow (elkCmd_routeHeld (s := t) cons hfid hop ho hv hf),
      fun ho h => hrow ((elkCmd_routeSet (s := t) cons hfid hop ho h).trans ?_)⟩
    rw [hfp, hfa, hfe]
  case fence =>
    intro hw t
    obtain ⟨hop, hfid⟩ := fld_idWord (op := 4) (by decide) hid
    exact ⟨fun h hself => congrArg done ((regWrite_elk hw).trans (elkCmd_fenceOwn cons hfid hop ⟨h, hself⟩)),
      fun h => congrArg done ((regWrite_elk hw).trans (elkCmd_fenceOther cons hfid hop (not_ownId h)))⟩
  case unfence =>
    intro hw t
    obtain ⟨hop, hfid⟩ := fld_idWord (op := 5) (by decide) hid
    exact ⟨fun h hself => congrArg done ((regWrite_elk hw).trans (elkCmd_unfenceOwn cons hfid hop ⟨h, hself⟩)),
      fun h => ⟨fun hf => congrArg done ((regWrite_elk hw).trans (elkCmd_unfenceOpen cons hfid hop (not_ownId h) hf)),
        fun hf => congrArg done ((regWrite_elk hw).trans (elkCmd_unfenceFenced cons hfid hop (not_ownId h) hf))⟩⟩

end Sys2Proof.Proofs
end

section
/-! Chapter 9: what the sequence engine's packets do (R245–R253, R262–R268, R276). -/

namespace Sys2Proof.Proofs

open Sys2Proof Sys2Proof.Machine Sys2Proof.Safety Sys2Proof.Laws

/-- A packet goes on with the bytes that its read gives. -/
theorem pktRead_ok {q : Inflight} {s u : State} {dva n : Nat} {b : List Byte}
    (h : engRead (.packetRead q.id) q.who q.far dva n s = .ok b u) (k : List Byte → State → State) :
    pktRead q dva n s k = k b u := by
  rw [pktRead, h]

/-! STEP_PROGRAM_REG (R253) -/

section Program

variable {q : Inflight} {s : State} (hn : q.fld 16 2 ≤ 255)
include hn

theorem doStepProgram_removes (hfl : q.fld 20 1 = 1) (hb : programBusy s q.owner (q.fld 16 2) = false) :
    doStepProgram q s = finishPkt q.id 0 0 0
      { s with sqe := { s.sqe with programs := Tbl.set none s.sqe.programs (q.fld 16 2) none } } := by
  unfold doStepProgram
  dsimp only
  rw [if_neg (by omega), if_pos hfl, if_neg (by simp [hb])]
  rfl

variable {b : List Byte} {u : State} (hfl : q.fld 20 1 = 0) (h0 : 0 < q.fld 18 2) (hc : q.fld 18 2 ≤ 256)
  (ha : q.fld 24 8 % 64 = 0) (hr : engRead (.packetRead q.id) q.who q.far (q.fld 24 8) (64 * q.fld 18 2) s = .ok b u)
include hfl h0 hc ha hr

/-- A chain that was read is refused by its cause. -/
theorem doStepProgram_refused (h : programCause u q.owner (q.fld 16 2) (chainPackets b) ≠ 0) :
    doStepProgram q s =
      finishPkt q.id 0x0390 0 (programCause u q.owner (q.fld 16 2) (chainPackets b)) u := by
  unfold doStepProgram
  dsimp only
  rw [if_neg (by omega), if_neg (by omega), if_neg (by omega), pktRead_ok hr, if_pos h]

theorem doStepProgram_stores (h : programCause u q.owner (q.fld 16 2) (chainPackets b) = 0) :
    doStepProgram q s = finishPkt q.id 0 0 0 { u with sqe := { u.sqe with
      programs := Tbl.set none u.sqe.programs (q.fld 16 2) (some
        { owner := q.owner, packets := chainPackets b, eStep := q.fld 32 4, eToken := q.fld 36 4, eSlot := q.fld 40 4
          reg := u.sqe.nextReg })
      nextReg := u.sqe.nextReg + 1 } } := by
  unfold doStepProgram
  dsimp only
  rw [if_neg (by omega), if_neg (by omega), if_neg (by omega), pktRead_ok hr, if_neg (fun hne => hne h)]
  rfl

end Program

/-! SEQ_SUBMIT (R263, R267) -/

section Submit

variable {q : Inflight} {s : State} {pend : Nat} {img : Option (List Byte)}

theorem doSeqSubmit_reserved (h : submitReserved q s = true) (hdr : Option (List Byte)) :
    doSeqSubmit hdr pend img q s = finishPkt q.id 0x0303 0 0 s := if_pos h

variable {d : StreamDesc} (hres : submitReserved q s = false)
  (hd : (strm s ((seqChan s (q.fld 16 1)).stream.getD 0)).desc = some d)
  (hblk : pagesFor d.tpp (q.fld 20 4 + q.fld 36 4 + q.fld 19 1) ≤ d.maxBlocks)
include hres hd hblk

/-- A journal that the host does not give is the packet's host error. -/
theorem doSeqSubmit_hostError : doSeqSubmit none pend img q s = finishPkt q.id 0x0461 0 0
    (markLogged q.id (hostError 1 q.owner (q.fld 24 8) 4 q.tag (emit (.hostRead q.owner (q.fld 24 8) 64) s))) := by
  simp only [doSeqSubmit, hres, hd, Bool.false_eq_true, if_false, if_neg (Nat.not_lt.2 hblk)]

variable {h : List Byte}

theorem doSeqSubmit_mismatch (hm : promptMatches (fld (q.fld 18 1) 2 1) (q.fld 20 4) h = false) :
    doSeqSubmit (some h) pend img q s =
      finishPkt q.id 0x0303 0 0 (emit (.hostRead q.owner (q.fld 24 8) 64) s) := by
  simp only [doSeqSubmit, hres, hd, hm, Bool.false_eq_true, if_false, if_neg (Nat.not_lt.2 hblk), Bool.not_false, if_true]

/-- A submission that restores nothing goes to admission with its journal's header alone. -/
theorem doSeqSubmit_fresh (hm : promptMatches (fld (q.fld 18 1) 2 1) (q.fld 20 4) h = true)
    (hnew : fld (q.fld 18 1) 2 1 = 0) :
    doSeqSubmit (some h) pend img q s =
      takeIn q ((seqChan s (q.fld 16 1)).stream.getD 0)
        (if q.fld 17 1 = 0xFF then (seqChan s (q.fld 16 1)).defClass else q.fld 17 1) d
        (newSeq q (emit (.hostRead q.owner (q.fld 24 8) 64) s) ((seqChan s (q.fld 16 1)).stream.getD 0)
          (if q.fld 17 1 = 0xFF then (seqChan s (q.fld 16 1)).defClass else q.fld 17 1) h pend 0)
        (emit (.hostRead q.owner (q.fld 24 8) 64) s) := by
  rw [hnew] at hm
  simp only [doSeqSubmit, hres, hd, hnew, hm, Bool.false_eq_true, if_false, if_neg (Nat.not_lt.2 hblk), Bool.not_true,
    if_true]
  rfl

end Submit

/-! Admission (R263) -/

section Admission

variable {q : Inflight} {s : State} {i cls : Nat} {d : StreamDesc} {x : Seq}
  (hst : (strm s i).st = .paused ∨ (strm s i).st = .running) (hen : (seqClass s i cls).enabled = true)
  (hown : (s.sqe.seqs.filter (fun y => (strm s y.stream).owner == (strm s i).owner)).length <
    regFld s (0x2200100 + 4 * (strm s i).owner) 16 0)
  (hlen : s.sqe.seqs.length ≠ 65536)
  (hneed : firstNeed d.tpp x ≤
    (strm s i).pageCount - sumOf (fun k => (seqClass s i k).res) (List.range cls))
include hst hen hown hlen hneed

/-- A sequence within every limit starts at once where nothing waits before it, else it queues where there is room. -/
theorem takeIn_admitted : takeIn q i cls d x s =
    (if queuedIn s i cls = 0 then canStartSeq i cls (firstNeed d.tpp x) s else none).elim
      (if (seqClass s i cls).qmax ≤ queuedIn s i cls then finishPkt q.id 0x0291 0 0 s
        else finishPkt q.id 0x0190 x.id (queuedIn s i cls + 1) (takeSlot x s))
      (fun u => finishPkt q.id 0 x.id 0 (startSeq x.slot (firstNeed d.tpp x) (takeSlot x u))) := by
  have hopen : ¬ ((strm s i).st != .paused && (strm s i).st != .running) = true := by
    rcases hst with h | h <;> simp [h]
  unfold takeIn
  dsimp only
  rw [if_neg hopen, if_neg (by simp [hen]), if_neg (Nat.not_le.2 hown), if_neg hlen, if_neg (Nat.not_lt.2 hneed)]
  cases (if queuedIn s i cls = 0 then canStartSeq i cls (firstNeed d.tpp x) s else none) <;> rfl

theorem takeIn_starts {u : State} (hq : queuedIn s i cls = 0)
    (hcan : canStartSeq i cls (firstNeed d.tpp x) s = some u) :
    takeIn q i cls d x s = finishPkt q.id 0 x.id 0 (startSeq x.slot (firstNeed d.tpp x) (takeSlot x u)) := by
  rw [takeIn_admitted hst hen hown hlen hneed, if_pos hq, hcan]
  rfl

variable (hwait : 0 < queuedIn s i cls ∨ canStartSeq i cls (firstNeed d.tpp x) s = none)
include hwait

theorem takeIn_waits : takeIn q i cls d x s =
    if (seqClass s i cls).qmax ≤ queuedIn s i cls then finishPkt q.id 0x0291 0 0 s
    else finishPkt q.id 0x0190 x.id (queuedIn s i cls + 1) (takeSlot x s) := by
  have hno : (if queuedIn s i cls = 0 then canStartSeq i cls (firstNeed d.tpp x) s else none) = none :=
    ite_eq_right_iff.2 fun hq => hwait.resolve_left (by omega)
  rw [takeIn_admitted hst hen hown hlen hneed, hno]
  rfl

end Admission

/-! SEQ_CANCEL and SEQ_QUERY (R262, R276) -/

/-- A sequence's place in its class's queue, from 1 on. -/
def queuePlace (s : State) (x : Seq) : Nat :=
  if x.st == .queued then
    (((walkOrder s x.stream).filter (fun y => y.st == .queued && y.cls == x.cls)).map (·.slot)).idxOf x.slot + 1
  else 0

/-- A sequence that is not QUEUED has no place in a queue. -/
theorem queuePlace_started (s : State) {x : Seq} (h : x.st ≠ .queued) : queuePlace s x = 0 :=
  if_neg (mt beq_iff_eq.1 h)

section Cancel

variable {q : Inflight} {s : State} {ec : Nat}

theorem doSeqCancel_unknown (h : findSeq s (q.fld 16 4) = none) :
    doSeqCancel ec q s = finishPkt q.id 0x0296 0 0 s := by
  simp only [doSeqCancel, h]

variable {x : Seq} (hx : findSeq s (q.fld 16 4) = some x) (hmay : mayControl s q.owner x.stream = true)
include hx hmay

theorem doSeqCancel_queued (hst : x.st = .queued) : doSeqCancel ec q s = finishPkt q.id 0 0 1
    (flushBoundary x.stream ec (endSeq x (if (seqChan s x.channel).reclaim then 0x0591 else 0x0590) 0 s)) := by
  simp only [doSeqCancel, hx, hmay, hst, Bool.not_true, Bool.false_eq_true, if_false]
  rfl

/-- Without RECLAIM a running sequence drains. -/
theorem doSeqCancel_drains (hst : x.st = .running) (hrec : (seqChan s x.channel).reclaim = false) :
    doSeqCancel ec q s = finishPkt q.id 0 (actingStep (strm s x.stream)) 2
      (updSeq x.slot (fun y => { y with st := .draining }) s) := by
  simp only [doSeqCancel, hx, hmay, hst, hrec, Bool.not_true, Bool.not_false, Bool.false_eq_true, if_false, if_true]
  rfl

/-- With RECLAIM a sequence of a step that runs or is built ends at that step's boundary. -/
theorem doSeqCancel_reclaims (hst : x.st = .running) (hrec : (seqChan s x.channel).reclaim = true)
    (hn : actingStep (strm s x.stream) ≠ 0) :
    doSeqCancel ec q s = finishPkt q.id 0 (actingStep (strm s x.stream)) 2
      (updSeq x.slot (fun y => { y with reclaim := true }) s) := by
  simp only [doSeqCancel, hx, hmay, hst, hrec, hn, Bool.not_true, Bool.false_eq_true, if_false]
  rfl

theorem doSeqCancel_draining (hst : x.st = .draining) : doSeqCancel ec q s = finishPkt q.id 0 0 4 s := by
  simp only [doSeqCancel, hx, hmay, hst, Bool.not_true, Bool.false_eq_true, if_false]
  rfl

theorem doSeqQuery_live : doSeqQuery q s = finishPkt q.id 0
    (x.tokens + x.st.code * 2 ^ 32 + x.cls * 2 ^ 40 + queuePlace s x % 65536 * 2 ^ 48) x.pages.length s := by
  unfold doSeqQuery
  rw [hx]
  exact if_neg (by simp [hmay])

theorem doSeqQuery_started (hst : x.st ≠ .queued) : doSeqQuery q s =
    finishPkt q.id 0 (x.tokens + x.st.code * 2 ^ 32 + x.cls * 2 ^ 40) x.pages.length s := by
  rw [doSeqQuery_live hx hmay, queuePlace_started s hst, Nat.zero_mod, Nat.zero_mul, Nat.add_zero]

end Cancel

/-! STREAM_BIND and STREAM_CONFIG (R246, R247) -/

section Bind

variable {q : Inflight} {s : State} {ec : Nat} (hi : q.fld 16 1 < 8)
include hi

theorem doStreamBind_unbinds (hfl : q.fld 18 1 = 1) (hst : (strm s (q.fld 16 1)).st ≠ .running) :
    doStreamBind ec q s = finishPkt q.id 0 0 0 (unbindStream (q.fld 16 1) 0x0591 ec s) := by
  unfold doStreamBind
  dsimp only
  rw [if_neg (by omega), if_pos hfl, if_neg (by simp [hst])]

variable (hfl : q.fld 18 1 = 0) (h0 : 0 < q.fld 17 1) (ho : q.fld 17 1 ≤ 63) (hcnt : q.fld 24 4 ≠ 0)
  (hcl : q.fld 48 16 ≠ 0) (hpool : q.fld 20 4 + q.fld 24 4 ≤ 2 ^ 22) (hst : (strm s (q.fld 16 1)).st = .unbound)
  (hen : regBit s 0x2200000 31 = true)
  (hfree : ∀ j < 8, (strm s j).st ≠ .unbound →
    runsOverlap (q.fld 20 4) (q.fld 24 4) (strm s j).pageFirst (strm s j).pageCount = false)
include hfl h0 ho hcnt hcl hpool hst hen hfree

/-- A legal binding turns on the owner alone. -/
theorem doStreamBind_legal : doStreamBind ec q s =
    if ownerActive s (q.fld 17 1) = true then finishPkt q.id 0 0 0 (updStrm (q.fld 16 1) (fun _ =>
      { st := .paused, owner := q.fld 17 1, clusters := q.fld 48 16, pageFirst := q.fld 20 4
        pageCount := q.fld 24 4 }) s)
    else finishPkt q.id 0x0225 0 0 s := by
  have hany : (List.range 8).any (fun j => (strm s j).st != .unbound &&
      runsOverlap (q.fld 20 4) (q.fld 24 4) (strm s j).pageFirst (strm s j).pageCount) = false := by
    simpa [List.any_eq_false] using hfree
  unfold doStreamBind
  dsimp only
  rw [if_neg (by omega), if_neg (by omega), hany, hst, hen, if_neg]
  · cases ownerActive s (q.fld 17 1) <;> rfl
  · simp only [bne_self_eq_false, Bool.not_true, Bool.false_eq_true, or_false]
    omega

end Bind

section Config

variable {q : Inflight} {s u : State} {b : List Byte} (hi : q.fld 16 1 < 8) (ha : q.fld 24 8 % 64 = 0)
  (hst : (strm s (q.fld 16 1)).st ≠ .unbound) (ho : (strm s (q.fld 16 1)).owner = q.owner)
  (hr : engRead (.packetRead q.id) q.who q.far (q.fld 24 8) 128 s = .ok b u)
include hi ha hst ho hr

/-- A descriptor that was read is judged by itself, and against the one it replaces. -/
theorem doStreamConfig_reads : doStreamConfig q s =
    if descOk u (q.fld 16 1) b (parseStream b) && (strm u (q.fld 16 1)).desc.all (fun e =>
        (seqsOf u (q.fld 16 1)).isEmpty || descFixed (parseStream b) e) then
      finishPkt q.id 0 0 0 (updStrm (q.fld 16 1) (fun x => { x with desc := some (parseStream b) }) u)
    else finishPkt q.id 0x0303 0 0 u := by
  unfold doStreamConfig
  dsimp only
  rw [if_neg (by omega), if_neg (by simp [hst, ho]), pktRead_ok hr]
  cases (strm u (q.fld 16 1)).desc <;> rfl

theorem doStreamConfig_refused (h : descOk u (q.fld 16 1) b (parseStream b) = false) :
    doStreamConfig q s = finishPkt q.id 0x0303 0 0 u := by
  rw [doStreamConfig_reads hi ha hst ho hr, h]
  rfl

theorem doStreamConfig_takes (h : descOk u (q.fld 16 1) b (parseStream b) = true)
    (hfix : ∀ e, (strm u (q.fld 16 1)).desc = some e →
      seqsOf u (q.fld 16 1) = [] ∨ descFixed (parseStream b) e = true) :
    doStreamConfig q s =
      finishPkt q.id 0 0 0 (updStrm (q.fld 16 1) (fun x => { x with desc := some (parseStream b) }) u) := by
  rw [doStreamConfig_reads hi ha hst ho hr, h, Bool.true_and, if_pos]
  simpa only [Option.all_eq_true, Bool.or_eq_true, List.isEmpty_iff] using hfix

end Config

/-! STREAM_CTRL (R245, R272) -/

section Control

variable {q : Inflight} {s : State} (hi : q.fld 16 1 < 8) (hmay : mayControl s q.owner (q.fld 16 1) = true)
  (hst : (strm s (q.fld 16 1)).st ≠ .unbound)
include hi hmay hst

theorem doStreamStart_starts (hd : (strm s (q.fld 16 1)).desc.isSome = true) : doStreamStart q s =
    finishPkt q.id 0 (strm s (q.fld 16 1)).step 0 (if (strm s (q.fld 16 1)).st = .running then s
      else updStrm (q.fld 16 1) (fun y => { y with st := .running }) s) := by
  have hs : ¬ ((strm s (q.fld 16 1)).st == .unbound || (strm s (q.fld 16 1)).desc.isNone) = true := by
    simp [hst, Option.isSome_iff_ne_none.1 hd]
  unfold doStreamStart
  dsimp only
  rw [if_neg (by simp [hmay, hi]), if_neg hs]
  simp only [beq_iff_eq]

variable (dest : StreamState)

/-- While a step or its walk runs, PAUSE and STOP wait for the boundary. -/
theorem doStreamHalt_waits (h : (strm s (q.fld 16 1)).stepping = true ∨ (strm s (q.fld 16 1)).jobs ≠ []) :
    doStreamHalt dest q s = updStrm (q.fld 16 1) (fun y => { y with ctl := y.ctl ++ [(q.id, dest)] }) s := by
  unfold doStreamHalt
  dsimp only
  rw [if_neg (by simp [hmay, hi]), if_neg (by simp [hst]), if_pos (by simpa using h)]

theorem doStreamHalt_acts (hs : (strm s (q.fld 16 1)).stepping = false) (hj : (strm s (q.fld 16 1)).jobs = [])
    (hf : (strm s (q.fld 16 1)).st ≠ .failed) : doStreamHalt dest q s =
      finishPkt q.id 0 (strm s (q.fld 16 1)).step 0 (updStrm (q.fld 16 1) (fun y => { y with st := dest }) s) := by
  unfold doStreamHalt
  dsimp only
  rw [if_neg (by simp [hmay, hi]), if_neg (by simp [hst]), if_neg (by simp [hs, hj]), if_neg (by simp [hf])]

end Control

section ControlRow

variable {s : State} {r : Nat} {p : Packet} {rest : List Packet} (h : frontReady s r 0x35 1 [(16, 2)] p rest)
include h

theorem exec_streamStart (hop : getLe p.bytes 17 1 = 1) :
    exec (.streamStart r) s = done (doStreamStart (inflightOfPacket s r p) (startedBy s r p rest)) :=
  congrArg done (runPacket_ready (size := oneUnit) h (by simp [opIs_of h.2.1, hop]))

theorem exec_streamPause (hop : getLe p.bytes 17 1 = 2) :
    exec (.streamPause r) s = done (doStreamHalt .paused (inflightOfPacket s r p) (startedBy s r p rest)) :=
  congrArg done (runPacket_ready (size := oneUnit) h (by simp [opIs_of h.2.1, hop]))

theorem exec_streamStop (hop : getLe p.bytes 17 1 = 3) :
    exec (.streamStop r) s = done (doStreamHalt .stopped (inflightOfPacket s r p) (startedBy s r p rest)) :=
  congrArg done (runPacket_ready (size := oneUnit) h (by simp [opIs_of h.2.1, hop]))

end ControlRow

/-! CHANNEL_CONFIG and CLASS_CONFIG (R250, R251) -/

/-- Owner 0 sets any channel whose values are legal. -/
theorem doChannelConfig_sets {q : Inflight} {s : State} (ho : q.owner = 0)
    (hi : q.fld 17 1 < 8 ∨ q.fld 17 1 = 0xFF) (hfl : q.fld 18 1 < 16) (hcls : q.fld 19 1 < 8)
    (hstop : q.fld 36 1 ≤ 4) : doChannelConfig q s = finishPkt q.id 0 0 0 { s with sqe := { s.sqe with
      channels := Tbl.set {} s.sqe.channels (q.fld 16 1)
        { stream := if q.fld 17 1 = 0xFF then none else some (q.fld 17 1), enable := bitOf (q.fld 18 1) 0
          reclaim := bitOf (q.fld 18 1) 1, evictable := bitOf (q.fld 18 1) 2, drop := bitOf (q.fld 18 1) 3
          defClass := q.fld 19 1, stops := (List.range (q.fld 36 1)).map (fun j => q.fld (20 + 4 * j) 4) } } } := by
  unfold doChannelConfig
  dsimp only
  rw [if_neg (by omega)]
  rfl

section Class

variable {q : Inflight} {s : State}

/-- The reservations of a stream's classes, with the new one, fit in its pages. -/
theorem doClassConfig_overfull (h : (strm s (q.fld 16 1)).pageCount <
    sumOf (fun k => if k = q.fld 17 1 then q.fld 24 4 else (seqClass s (q.fld 16 1) k).res) (List.range 8)) :
    doClassConfig q s = finishPkt q.id 0x0303 0 0 s := by
  unfold doClassConfig
  dsimp only
  rw [if_pos (by simp [h])]

theorem doClassConfig_sets (hi : q.fld 16 1 < 8) (hc : q.fld 17 1 < 8) (hen : q.fld 18 1 < 2)
    (hq : q.fld 20 4 ≤ 65536) (hst : (strm s (q.fld 16 1)).st ≠ .unbound)
    (ho : (strm s (q.fld 16 1)).owner = q.owner)
    (h : sumOf (fun k => if k = q.fld 17 1 then q.fld 24 4 else (seqClass s (q.fld 16 1) k).res) (List.range 8) ≤
      (strm s (q.fld 16 1)).pageCount) :
    doClassConfig q s = finishPkt q.id 0 0 0 (updStrm (q.fld 16 1) (fun x => { x with
      classes := Tbl.set {} x.classes (q.fld 17 1)
        { enabled := q.fld 18 1 == 1, qmax := q.fld 20 4, res := q.fld 24 4 } }) s) := by
  have hbound : ((strm s (q.fld 16 1)).st == .unbound) = false := beq_eq_false_iff_ne.2 hst
  unfold doClassConfig
  dsimp only
  rw [if_neg (by simp only [hbound, Bool.false_eq_true, false_or]; omega)]

end Class

/-- Settles O39: a ready packet runs its row's body, and the body by the packet's fields and the engine's state. -/
theorem sequencesAreConfiguredAndAdmitted : Obligations.SequencesAreConfiguredAndAdmitted := by
  refine ⟨fun s r p rest h => ?program, fun s r pend hd img p rest h => ?submit, fun s q i cls d x => ?admission,
    fun s r ec p rest h => ?cancel, fun s r p rest h => ?query, fun s r ec p rest h => ?bind,
    fun s r p rest h => ?config, fun s r p rest h => ?control, fun s r p rest h ho => ?channel,
    fun s r p rest h => ?cls⟩
  case program =>
    intro t q n cnt fl
    have hexec : exec (.stepProgramReg r) s = done (doStepProgram q t) :=
      congrArg done (frontRow_runs (size := oneUnit) h doStepProgram)
    rw [hexec]
    refine ⟨fun hn hfl hb => congrArg done (doStepProgram_removes (q := q) hn hfl hb),
      fun b u hn hfl h0 hc ha hr => ⟨fun c e hne => ?_,
        fun h0' => congrArg done (doStepProgram_stores (q := q) hn hfl h0 hc ha hr h0')⟩⟩
    subst e
    exact congrArg done (doStepProgram_refused (q := q) hn hfl h0 hc ha hr hne)
  case submit =>
    intro t q ch i restore cls u
    have hexec : ∀ j, exec (.seqSubmit r j pend img) s = done (doSeqSubmit j pend img q t) := fun j =>
      congrArg done (frontRow_runs (size := oneUnit) h _)
    simp only [hexec]
    exact ⟨fun hres => congrArg done (doSeqSubmit_reserved hres _), fun d hres hdesc hblk =>
      ⟨fun hm => congrArg done (doSeqSubmit_mismatch hres hdesc hblk hm),
        fun hm hnew => congrArg done (doSeqSubmit_fresh hres hdesc hblk hm hnew),
        congrArg done (doSeqSubmit_hostError hres hdesc hblk)⟩⟩
  case admission =>
    intro c need hst hen hown hlen hneed
    refine ⟨fun u hq hcan => takeIn_starts hst hen hown hlen hneed hq hcan, fun hwait => ?_⟩
    rw [takeIn_waits hst hen hown hlen hneed hwait]
    exact ⟨fun hfull => if_pos hfull, fun hroom => if_neg (Nat.not_le.2 hroom)⟩
  case cancel =>
    intro t o
    have hexec : exec (.seqCancel r ec) s = done (doSeqCancel ec (inflightOfPacket s r p) t) :=
      congrArg done (frontRow_runs (size := oneUnit) h _)
    rw [hexec]
    exact ⟨fun hx => congrArg done (doSeqCancel_unknown hx), fun x hx hmay =>
      ⟨fun hst => congrArg done (doSeqCancel_queued hx hmay hst),
        fun hst hrec => congrArg done (doSeqCancel_drains hx hmay hst hrec),
        fun hst hrec hn => congrArg done (doSeqCancel_reclaims hx hmay hst hrec hn),
        fun hst => congrArg done (doSeqCancel_draining hx hmay hst)⟩⟩
  case query =>
    intro t x hx hmay hst
    exact congrArg done ((frontRow_runs (size := oneUnit) h _).trans (doSeqQuery_started hx hmay hst))
  case bind =>
    intro t i o first cnt
    have hexec : exec (.streamBind r ec) s = done (doStreamBind ec (inflightOfPacket s r p) t) :=
      congrArg done (frontRow_runs (size := oneUnit) h _)
    rw [hexec]
    refine ⟨fun hi hfl hst => congrArg done (doStreamBind_unbinds (q := inflightOfPacket s r p) hi hfl hst),
      fun hi hfl h0 ho hcnt hcl hpool hst hen hfree => ?_⟩
    rw [doStreamBind_legal (q := inflightOfPacket s r p) hi hfl h0 ho hcnt hcl hpool hst hen hfree]
    exact ⟨fun hact => congrArg done (if_neg (Bool.eq_false_iff.1 hact)), fun hact => congrArg done (if_pos hact)⟩
  case config =>
    intro t q i b u hi ha hst ho hr
    have hexec : exec (.streamConfig r) s = done (doStreamConfig q t) :=
      congrArg done (frontRow_runs (size := oneUnit) h _)
    rw [hexec]
    exact ⟨fun hok hfix => congrArg done (doStreamConfig_takes (q := q) hi ha hst ho hr hok hfix),
      fun hbad => congrArg done (doStreamConfig_refused (q := q) hi ha hst ho hr hbad)⟩
  case control =>
    intro t i x hi hmay hst
    let q := inflightOfPacket s r p
    exact ⟨fun hop hdesc => (exec_streamStart h hop).trans
        (congrArg done (doStreamStart_starts (q := q) hi hmay hst hdesc)),
      fun hop hw => (exec_streamPause h hop).trans (congrArg done (doStreamHalt_waits (q := q) hi hmay hst _ hw)),
      fun hop hs hj hf => (exec_streamPause h hop).trans
        (congrArg done (doStreamHalt_acts (q := q) hi hmay hst _ hs hj hf)),
      fun hop hw => (exec_streamStop h hop).trans (congrArg done (doStreamHalt_waits (q := q) hi hmay hst _ hw)),
      fun hop hs hj hf => (exec_streamStop h hop).trans
        (congrArg done (doStreamHalt_acts (q := q) hi hmay hst _ hs hj hf))⟩
  case channel =>
    intro t i fl hi hfl hcls hstop
    exact congrArg done ((frontRow_runs (size := oneUnit) h _).trans
      (doChannelConfig_sets (q := inflightOfPacket s r p) ho hi hfl hcls hstop))
  case cls =>
    intro t i c res sum k hi hc hen hq hst ho
    have hexec : exec (.classConfig r) s = done (doClassConfig (inflightOfPacket s r p) t) :=
      congrArg done (frontRow_runs (size := oneUnit) h _)
    rw [hexec]
    exact ⟨fun hsum => congrArg done (doClassConfig_sets (q := inflightOfPacket s r p) hi hc hen hq hst ho hsum),
      fun hsum => congrArg done (doClassConfig_overfull (q := inflightOfPacket s r p) hsum)⟩

end Sys2Proof.Proofs
end

section
/-! Chapter 9: a stream's steps fire and end, and what its sequences wait for comes (R253, R256, R257, R261, R265,
R267). -/

namespace Sys2Proof.Proofs

open Sys2Proof Sys2Proof.Machine Sys2Proof.Safety Sys2Proof.Laws

/-- An event that changes nothing in state ON changes nothing. -/
theorem whenOn_same {f : State → State} {s : State} (h : f s = s) : whenOn f s = s := by
  rw [whenOn, h, ite_self]

/-! The end of a step (R253, R256) -/

/-- Without a status that waits, there is nothing to take. -/
theorem stepPacketComplete_idle {s : State} {i : Nat} (h : (strm s i).dones = []) (ec : Nat) :
    stepPacketComplete i ec s = s := by
  simp only [stepPacketComplete, h]

section Complete

variable {s : State} {i st : Nat} {rest : List Nat} (hd : (strm s i).dones = st :: rest) (hok : st / 256 = 0)
  (hf : (strm (startPackets i 4096 (updStrm i (fun y => { y with dones := rest }) s)) i).failed = none)
include hd hok hf

/-- A good status lets the next packets start; the step has ended when nothing of it is left. -/
theorem stepPacketComplete_good (ec : Nat) : stepPacketComplete i ec s =
    let u := startPackets i 4096 (updStrm i (fun y => { y with dones := rest }) s)
    if (strm u i).left.isEmpty && (strm u i).dones.isEmpty && (inflightOf u (1024 + i)).isEmpty then
      updStrm i (fun z => { z with ended := true }) u
    else u := by
  simp only [stepPacketComplete, hd, hok, hf, bne_self_eq_false, Bool.false_and, Bool.false_eq_true, if_false,
    Option.isSome_none]

end Complete

section Boundary

variable {s : State} {i : Nat} (ec uj : Nat)

theorem stepBoundary_begins (hs : (strm s i).stepping = true) (he : (strm s i).ended = true) :
    stepBoundary i ec uj s = runJobs i ec jobFuel (govBoundary i uj (updStrm i (fun y => { y with
      stepping := false, ended := false
      jobs := y.jobs ++ (List.range y.batch.length).map StreamJob.result ++ [.apply true] }) s)) := by
  unfold stepBoundary
  exact if_neg (by simp [hs, he])

theorem stepBoundary_idle (h : (strm s i).stepping = false ∨ (strm s i).ended = false) : stepBoundary i ec uj s = s := by
  unfold stepBoundary
  exact if_pos (by simpa using h)

end Boundary

/-! STEP_FIRE (R245, R256, R275) -/

section Fire

variable {s : State} {i : Nat} (ec : Nat)

/-- A stream that does not run, or runs a step already, fires nothing. -/
theorem stepFire_idle (h : (strm s i).st ≠ .running ∨ (strm s i).stepping = true ∨ (strm s i).desc = none) :
    stepFire i ec s = s := by
  unfold stepFire
  dsimp only
  cases hd : (strm s i).desc with
  | none => rfl
  | some d =>
    refine if_pos ?_
    rcases h with h | h | h
    · simp [h]
    · simp [h]
    · cases hd.symm.trans h

variable {d : StreamDesc} {b : List SlotPlan} (hd : (strm s i).desc = some d) (hst : (strm s i).st = .running)
  (hstep : (strm s i).stepping = false) (hj : (strm s i).jobs = []) (hw : (strm s i).wait = .none)
  (hctl : (strm s i).ctl = []) (hfl : inflightOf s (1024 + i) = []) (haw : awaits s (· == .streamWrite i) = false)
  (hnext : (strm s i).next = some b)
include hd hst hstep hj hw hctl hfl haw hnext

/-- A stream at rest with a prepared batch fires it, or waits for its phase gate. -/
theorem stepFire_prepared : stepFire i ec s =
    if d.pace && !(gateReady s i) then
      if (strm s i).gateWait then s else putStatus i (updStrm i (fun z => { z with gateWait := true }) s)
    else fireStep i d b s := by
  simp [stepFire, hd, hst, hstep, hj, hw, hctl, hfl, haw, hnext]

end Fire

/-- Without pace the batch is fired past no gate: the step's packets start with its metadata's address. -/
theorem fireStep_unpaced {s : State} {i : Nat} {d : StreamDesc} (b : List SlotPlan) (hp : d.pace = false) :
    let n := if (strm s i).again then (strm s i).step else (strm s i).step + 1
    let l := ((Tbl.get none s.sqe.programs d.program).map (·.packets)).getD []
    fireStep i d b s = startPackets i 4096 (govFire i (otherSteps s i) (updStrm i (fun y => { y with
      step := n, stepping := true, batch := b, next := none, again := false, gateWait := false, ended := l.isEmpty
      failed := none, dones := []
      left := l.map (fun x => stepPacket x (if n % 2 = 0 then d.meta0 else d.meta1) y.clusters) }) s)) := by
  simp only [fireStep, hp, Bool.false_eq_true, if_false]

/-! Prompt tokens (R257) -/

section Journal

variable {s : State} {id : Nat} {x : Seq} {jr : JournalRead} (hx : findSeq s id = some x) (hr : x.reading = some jr)
  (ec : Nat)
include hx hr

/-- Tokens that come are those of the read when the sequence still stands where the read began. -/
theorem journalReadDone_tokens (l : List Nat) : journalReadDone id (some l) ec s = updSeq x.slot (fun y => { y with
    have_ := if x.committed + x.have_.length = jr.first then y.have_ ++ l.take jr.count else y.have_ })
    (updSeq x.slot (fun y => { y with reading := none }) s) := by
  simp only [journalReadDone, hx, hr]

theorem journalReadDone_fails : journalReadDone id none ec s = failStream x.stream 0x0461 ec
    (hostError 1 (strm s x.stream).owner (x.journal + 64 + 4 * jr.first) 4 0
      (updSeq x.slot (fun y => { y with reading := none }) s)) := by
  simp only [journalReadDone, hx, hr]

end Journal

/-! Swap copies (R265, R267) -/

section SwapOut

variable {s : State} {id : Nat} {x : Seq} (hx : findSeq s id = some x) (hst : x.st = .ending)
  (hcopy : x.copying = true) (hjobs : ∀ j ∈ (strm s x.stream).jobs, j ≠ .swapOut x.slot) (ec : Nat)
include hx hst hcopy hjobs

/-- A victim whose pages have all been read leaves with its copy's end. -/
theorem swapCopyDone_ends (ok : Bool) : swapCopyDone id ok ec s =
    if ok then flushBoundary x.stream ec (endSeq x 0x0690 x.pages.length s)
    else flushBoundary x.stream ec (endSeq x 0x0691 0 (hostError 1 (strm s x.stream).owner x.swap 4 0 s)) := by
  have hread : (strm s x.stream).jobs.any (fun j => j == .swapOut x.slot) = false := by
    simpa [List.any_eq_false] using hjobs
  simp [swapCopyDone, hx, hst, hcopy, hread]

end SwapOut

section SwapIn

variable {s : State} {id : Nat} {x : Seq} {d : StreamDesc} (hx : findSeq s id = some x)
  (hd : (strm s x.stream).desc = some d) (hin : x.swapIn = true) (hneed : x.need = 0) (hcopy : x.copying = false)
  (hst : x.st ≠ .queued) (ec : Nat)
include hx hd hin hneed hcopy hst

theorem swapInCopyDone_fails : swapInCopyDone id none ec s = flushBoundary x.stream ec
    (endSeq x 0x0691 0 (hostError 1 (strm s x.stream).owner x.swap 4 0 s)) := by
  simp [swapInCopyDone, hx, hd, hin, hneed, hcopy, hst]

/-- The image's pages are committed ones, and the walk writes them where the pool has them. -/
theorem swapInCopyDone_writes (b : List Byte) :
    let n := pagesFor d.tpp x.committed
    let w := (x.pages.take n).mapIdx (fun j k => StreamJob.write
      (d.kv + (k.page - (strm s x.stream).pageFirst) * kvPageSize s) (slice b (j * kvPageSize s) (kvPageSize s)))
    swapInCopyDone id (some b) ec s = runJobs x.stream ec jobFuel
      (updStrm x.stream (fun y => { y with jobs := y.jobs ++ w ++ [.swapIn x.slot] })
        (updSeq x.slot (fun y => { y with
          copying := true, pages := y.pages.mapIdx (fun j k => if j < n then { k with prov := false } else k) }) s)) := by
  simp [swapInCopyDone, hx, hd, hin, hneed, hcopy, hst]

end SwapIn

/-! The tokens that stand (R261) -/

section Cut

variable {stops : List Nat} {stopLast : Bool} {limit t gen : Nat} {rest : List Nat}

theorem cutTokens_stop (h : stops.contains t = true ∨ stopLast = true ∧ rest = []) :
    cutTokens stops stopLast limit (t :: rest) gen = ([t], 0x0090) := if_pos h

variable (hgo : ¬ (stops.contains t = true ∨ stopLast = true ∧ rest = []))
include hgo

theorem cutTokens_limit (h : limit ≤ gen + 1) :
    cutTokens stops stopLast limit (t :: rest) gen = ([t], 0x0091) := (if_neg hgo).trans (if_pos h)

theorem cutTokens_more (h : ¬ limit ≤ gen + 1) : cutTokens stops stopLast limit (t :: rest) gen =
    (t :: (cutTokens stops stopLast limit rest (gen + 1)).1, (cutTokens stops stopLast limit rest (gen + 1)).2) :=
  (if_neg hgo).trans (if_neg h)

end Cut

/-- What stands before the last element of a list with a head is the head, or stands before the tail's last. -/
theorem mem_dropLast_cons {k t : Nat} {l : List Nat} (h : k ∈ (t :: l).dropLast) : k = t ∨ k ∈ l.dropLast := by
  cases l with
  | nil => cases h
  | cons _ _ => exact List.mem_cons.1 h

/-- R261: of tokens that the length allows, those up to the first stop stand; a length end is the limit reached. -/
theorem cutTokens_spec (stops : List Nat) (stopLast : Bool) (limit : Nat) (l : List Nat) (gen : Nat)
    (h : gen + l.length ≤ limit) :
    let c := cutTokens stops stopLast limit l gen
    c.1 = l.take c.1.length ∧ (c.2 = 0 → c.1 = l) ∧ (∀ k ∈ c.1.dropLast, stops.contains k = false) ∧
    (c.2 ≠ 0 → c.2 = 0x0090 ∨ c.2 = 0x0091 ∧ gen + c.1.length = limit) := by
  induction l generalizing gen with
  | nil => simp [cutTokens]
  | cons t rest ih =>
    rw [List.length_cons] at h
    by_cases hstop : stops.contains t = true ∨ stopLast = true ∧ rest = []
    · rw [cutTokens_stop hstop]
      simp
    by_cases hlim : limit ≤ gen + 1
    · rw [cutTokens_limit hstop hlim]
      exact ⟨rfl, nofun, nofun, fun _ => .inr ⟨rfl, by rw [List.length_singleton]; omega⟩⟩
    rw [cutTokens_more hstop hlim]
    obtain ⟨hpre, hall, hno, hend⟩ := ih (gen + 1) (by omega)
    refine ⟨?front, fun h0 => congrArg (t :: ·) (hall h0), ?noStop, fun hne => ?ends⟩
    case front => exact congrArg (t :: ·) hpre
    case noStop =>
      intro k hk
      rcases mem_dropLast_cons hk with rfl | hk
      · exact Bool.eq_false_iff.2 fun h => hstop (.inl h)
      · exact hno k hk
    case ends =>
      exact (hend hne).imp_right (And.imp_right fun hl => by simp only [List.length_cons]; omega)

/-- Settles O40: each event of a stream, by what the stream and the sequence hold; the tokens that stand, by induction
on the new tokens. -/
theorem stepsFireAndEnd : Obligations.StepsFireAndEnd := by
  refine ⟨fun s i ec st rest hclk hd hok _ => ?complete,
    fun s i ec hd => congrArg done (whenClocked_same (stepPacketComplete_idle hd ec)),
    fun s i ec uj hclk => ⟨fun hs he => congrArg done ((whenClocked_pos hclk).trans (stepBoundary_begins ec uj hs he)),
      fun h => congrArg done ((whenClocked_pos hclk).trans (stepBoundary_idle ec uj h))⟩,
    fun s i ec d b hon hd hst hstep hj hw hctl hfl haw hnext => ?fire,
    fun s i ec h => congrArg done (whenOn_same (stepFire_idle ec h)), fun s i d b hp => fireStep_unpaced b hp,
    fun s id ec x jr l hclk hx hr => ⟨congrArg done ((whenClocked_pos hclk).trans (journalReadDone_tokens hx hr ec l)),
      congrArg done ((whenClocked_pos hclk).trans (journalReadDone_fails hx hr ec))⟩,
    fun s id ec x hclk hx hst hcopy hjobs => ?swapOut,
    fun s id ec x d b hclk hx hd hin hneed hcopy hst =>
      ⟨congrArg done ((whenClocked_pos hclk).trans (swapInCopyDone_fails hx hd hin hneed hcopy hst ec)),
        congrArg done ((whenClocked_pos hclk).trans (swapInCopyDone_writes hx hd hin hneed hcopy hst ec b))⟩,
    fun stops stopLast limit gen l h => cutTokens_spec stops stopLast limit l gen h⟩
  case complete =>
    intro u hf
    have hgood := (whenClocked_pos hclk).trans (stepPacketComplete_good hd hok hf ec)
    refine ⟨fun hl hdn hq => congrArg done (hgood.trans (if_pos ?_)),
      fun hopen => congrArg done (hgood.trans (if_neg ?_))⟩
    · simp [u, hl, hdn, hq]
    · simp only [Bool.and_eq_true, List.isEmpty_iff]
      exact fun ⟨⟨hl, hdn⟩, hq⟩ => hopen.elim (· hl) (·.elim (· hdn) (· hq))
  case fire =>
    have hfire : exec (.stepFire i ec) s = done _ := congrArg done
      ((if_pos hon).trans (stepFire_prepared ec hd hst hstep hj hw hctl hfl haw hnext))
    rw [hfire]
    exact ⟨fun h => congrArg done (if_neg (by rcases h with h | h <;> simp [h])),
      fun hp hg hw => congrArg done (by simp [hp, hg, hw]), fun hp hg hw => congrArg done (by simp [hp, hg, hw])⟩
  case swapOut =>
    exact ⟨congrArg done ((whenClocked_pos hclk).trans (swapCopyDone_ends hx hst hcopy hjobs ec true)),
      congrArg done ((whenClocked_pos hclk).trans (swapCopyDone_ends hx hst hcopy hjobs ec false))⟩

end Sys2Proof.Proofs
end

section
/-! Chapter 10: what the sweep engine's packets do (R278, R280, R282, R303, R306). -/

namespace Sys2Proof.Proofs

open Sys2Proof Sys2Proof.Machine Sys2Proof.Safety Sys2Proof.Laws

/-- RUNNING and WAIT_PHASE are the active states (R278). -/
theorem sweepActive_iff {x : Sweep} : sweepActive x = true ↔ x.st = .running ∨ x.st = .waitPhase := by
  simp only [sweepActive, Bool.or_eq_true, beq_iff_eq]

theorem sweepActive_eq_false_iff {x : Sweep} : sweepActive x = false ↔ ¬ (x.st = .running ∨ x.st = .waitPhase) := by
  rw [← sweepActive_iff, Bool.not_eq_true]

/-! SWEEP_BIND (R306) -/

section Bind

variable {q : Inflight} {s : State}

/-- A reserved channel or flag, and a channel in any state but the one that the packet needs. -/
theorem doSweepBind_reserved (h : 8 ≤ q.fld 16 1 ∨ 1 < q.fld 18 1 ∨
    q.fld 18 1 = 1 ∧ (sweepAt s (q.fld 16 1)).st ≠ .idle ∨ q.fld 18 1 = 0 ∧ (sweepAt s (q.fld 16 1)).st ≠ .unbound) :
    doSweepBind q s = finishPkt q.id 0x0303 0 0 s := by
  unfold doSweepBind
  dsimp only
  by_cases hbad : 8 ≤ q.fld 16 1 ∨ 1 < q.fld 18 1
  · exact if_pos hbad
  rw [if_neg hbad]
  rcases (or_assoc.2 h).resolve_left hbad with ⟨hfl, hst⟩ | ⟨hfl, hst⟩
  · rw [if_pos hfl, if_neg (by simpa using hst)]
  · rw [if_neg (by omega), if_pos (.inr (.inr (by simpa using hst)))]

variable (hc : q.fld 16 1 < 8)
include hc

theorem doSweepBind_unbinds (hfl : q.fld 18 1 = 1) (hst : (sweepAt s (q.fld 16 1)).st = .idle) :
    doSweepBind q s = finishPkt q.id 0 0 0 (updSweep (q.fld 16 1) (fun _ => {}) s) := by
  unfold doSweepBind
  dsimp only
  rw [if_neg (by omega), if_pos hfl, if_pos (by simp [hst])]

/-- A legal binding turns on the owner alone. -/
theorem doSweepBind_legal (hfl : q.fld 18 1 = 0) (h0 : 0 < q.fld 17 1) (ho : q.fld 17 1 ≤ 63)
    (hst : (sweepAt s (q.fld 16 1)).st = .unbound) : doSweepBind q s =
      if ownerActive s (q.fld 17 1) = true then
        finishPkt q.id 0 0 0 (updSweep (q.fld 16 1) (fun _ => { st := .idle, owner := q.fld 17 1 }) s)
      else finishPkt q.id 0x0225 0 0 s := by
  have hlegal : ¬ (q.fld 17 1 = 0 ∨ 63 < q.fld 17 1 ∨ ((sweepAt s (q.fld 16 1)).st != .unbound) = true) := by
    simp [hst]
    omega
  unfold doSweepBind
  dsimp only
  rw [if_neg (by omega), if_neg (by omega), if_neg hlegal]
  cases ownerActive s (q.fld 17 1) <;> rfl

end Bind

/-! SWEEP_CONFIG (R280) -/

section Config

variable {q : Inflight} {s : State} (hm : sweepMine s q = true) (ha : q.fld 24 8 % 64 = 0)
include hm ha

theorem doSweepConfig_busy (hst : (sweepAt s (q.fld 16 1)).st ≠ .idle) :
    doSweepConfig q s = finishPkt q.id 0x02B0 0 0 s := by
  unfold doSweepConfig
  dsimp only
  rw [if_neg (by simp [hm, ha]), if_pos (by simpa using hst)]

variable {u : State} {b : List Byte} (hst : (sweepAt s (q.fld 16 1)).st = .idle)
  (hr : engRead (.packetRead q.id) q.who q.far (q.fld 24 8) 256 s = .ok b u)
include hst hr

theorem doSweepConfig_refused (h : sweepDescOk b (parseSweep b []) = false) :
    doSweepConfig q s = finishPkt q.id 0x0303 0 0 u := by
  unfold doSweepConfig
  dsimp only
  rw [if_neg (by simp [hm, ha]), if_neg (by simp [hst]), pktRead_ok hr, if_pos (by simp [h])]

/-- The beams of a legal descriptor decide whether both are applied or nothing is. -/
theorem doSweepConfig_reads {e : List Byte} {v : State} (h : sweepDescOk b (parseSweep b []) = true)
    (he : engRead (.packetRead q.id) q.who q.far (getLe b 96 8) (16 * getLe b 6 2) u = .ok e v) :
    let l := (List.range (getLe b 6 2)).map (fun i => parseBeam (slice e (16 * i) 16))
    doSweepConfig q s = if none ∈ l then finishPkt q.id 0x0303 0 0 v
      else finishPkt q.id 0 0 0
        (updSweep (q.fld 16 1) (fun x => { x with desc := some (parseSweep b (l.filterMap id)) }) v) := by
  intro l
  have hany : l.any (·.isNone) = true ↔ none ∈ l := by simp [List.any_eq_true]
  unfold doSweepConfig
  dsimp only
  rw [if_neg (by simp [hm, ha]), if_neg (by simp [hst]), pktRead_ok hr, if_neg (by simp [h]), pktRead_ok he]
  exact ite_congr (propext hany) (fun _ => rfl) fun _ => rfl

end Config

/-! SWEEP_CTRL (R303) -/

/-- Both START and the OP values outside R303's table come here; the latter name no operation. -/
theorem doSweepStart_reserved {q : Inflight} {s : State} (h : q.fld 17 1 ≠ 1) :
    doSweepStart q s = finishPkt q.id 0x0303 0 0 s := if_pos (.inr h)

/-- SNAPSHOT and VOX_RESET are reserved values where the channel does not accumulate. -/
theorem doSweepTable_reserved {q : Inflight} {s : State} {d : SweepDesc}
    (hd : (sweepAt s (q.fld 16 1)).desc = some d) (hacc : d.accum = false) (any : Bool) (job : Nat → SweepJob)
    (cons : Nat) : doSweepTable any job cons q s = finishPkt q.id 0x0303 0 0 s := if_pos (.inr (by simp [hd, hacc]))

section Control

variable {q : Inflight} {s : State} (hm : sweepMine s q = true)
include hm

theorem doSweepStart_starts {d : SweepDesc} (hop : q.fld 17 1 = 1) (hd : (sweepAt s (q.fld 16 1)).desc = some d)
    (hst : (sweepAt s (q.fld 16 1)).st = .idle) : doSweepStart q s =
      finishPkt q.id 0 0 0 (updSweep (q.fld 16 1) (fun y => { y with
        st := if phaseKnown s d.phase then .running else .waitPhase, offset := none, lastDone := none }) s) := by
  simp [doSweepStart, hm, hop, hd, hst]

/-- START needs a described channel in IDLE. -/
theorem doSweepStart_refused (hop : q.fld 17 1 = 1)
    (h : (sweepAt s (q.fld 16 1)).desc = none ∨ (sweepAt s (q.fld 16 1)).st ≠ .idle) :
    doSweepStart q s = finishPkt q.id 0x02B0 0 0 s := by
  unfold doSweepStart
  dsimp only
  rw [if_neg (by simp [hm, hop])]
  cases hd : (sweepAt s (q.fld 16 1)).desc with
  | none => rfl
  | some d => exact if_pos (by simpa [hd] using h)

theorem doSweepStop_refused (h : sweepActive (sweepAt s (q.fld 16 1)) = false) (cons : Nat) :
    doSweepStop cons q s = finishPkt q.id 0x02B0 0 0 s := by
  unfold doSweepStop
  dsimp only
  rw [if_neg (by simp [hm]), if_pos (by simp [h])]

/-- STOP drops the open revolutions, ends the packets that the channel holds, and leaves it IDLE. -/
theorem doSweepStop_stops (h : sweepActive (sweepAt s (q.fld 16 1)) = true) (cons : Nat) :
    let c := q.fld 16 1
    let x := sweepAt s c
    let u := x.revs.foldl (fun u v => dropRev c v.rev 0x05B0 cons u) s
    let ids := x.held.map (·.1) ++ x.jobs.filterMap (fun j => match j with
      | .snapshot id _ => some id
      | .clear id => some id
      | _ => none)
    doSweepStop cons q s = finishPkt q.id 0 ((lowRev x).getD 0) 0 (updSweep c (fun y => { y with
      st := .idle, offset := none, held := [], jobs := [], parked := false, remote := false, far := []
      stamped := false }) (updOwner x.owner (fun w => { w with
        parks := w.parks.filter (fun k => !(k.agent == .sweep c)) })
        (ids.foldl (fun u id => finishPkt id 0x02B0 0 0 u) u))) := by
  intro c x u ids
  unfold doSweepStop
  dsimp only
  exact (if_neg (by simp [hm])).trans (if_neg (by simp [h]))

theorem doSweepFlush_refused (h : sweepActive (sweepAt s (q.fld 16 1)) = false) :
    doSweepFlush q s = finishPkt q.id 0x02B0 0 0 s := by
  unfold doSweepFlush
  dsimp only
  rw [if_neg (by simp [hm]), if_pos (by simp [h])]

/-- FLUSH has nothing to close, and completes at once, where the channel holds no revolution. -/
theorem doSweepFlush_empty (h : sweepActive (sweepAt s (q.fld 16 1)) = true)
    (hr : (sweepAt s (q.fld 16 1)).revs = []) : doSweepFlush q s = finishPkt q.id 0 0 0 s := by
  unfold doSweepFlush forceAll
  dsimp only
  rw [if_neg (by simp [hm]), if_neg (by simp [h]), hr]
  rfl

/-- FLUSH closes every open slice and waits for the revolutions that it found. -/
theorem doSweepFlush_waits (h : sweepActive (sweepAt s (q.fld 16 1)) = true)
    (hr : (sweepAt s (q.fld 16 1)).revs ≠ []) : doSweepFlush q s =
      updSweep (q.fld 16 1) (fun y => { y with
        flushing := y.flushing ++ [(q.id, (sweepAt s (q.fld 16 1)).revs.map (·.rev))] })
        (forceAll (q.fld 16 1) s) := by
  unfold doSweepFlush
  dsimp only
  rw [if_neg (by simp [hm]), if_neg (by simp [h]), if_neg (by simpa using hr)]

variable {d : SweepDesc} (hd : (sweepAt s (q.fld 16 1)).desc = some d) (hacc : d.accum = true) (any : Bool)
  (job : Nat → SweepJob) (cons : Nat)
include hd hacc

theorem doSweepTable_refused (h : sweepActive (sweepAt s (q.fld 16 1)) = false) :
    doSweepTable false job cons q s = finishPkt q.id 0x02B0 0 0 s := by
  unfold doSweepTable
  dsimp only
  rw [if_neg (by simp [hm, hd, hacc]), if_pos (by simp [h])]

/-- The table's job joins the channel's, and the channel runs. -/
theorem doSweepTable_runs (h : any = true ∨ sweepActive (sweepAt s (q.fld 16 1)) = true) :
    doSweepTable any job cons q s = runSweep (q.fld 16 1) cons jobFuel
      (updSweep (q.fld 16 1) (fun y => { y with jobs := y.jobs ++ [job q.id] }) s) := by
  unfold doSweepTable
  dsimp only
  rw [if_neg (by simp [hm, hd, hacc]), if_neg (by rcases h with h | h <;> simp [h])]

end Control

section ControlRow

variable {s : State} {r : Nat} {p : Packet} {rest : List Packet} (h : frontReady s r 0x42 1 [(16, 2)] p rest)
include h

/-- A ready SWEEP_CTRL packet of a row's OP runs that row's body. -/
theorem sweepCtrl_runs {sel : Nat → Bool} (hop : sel (getLe p.bytes 17 1) = true)
    (body : Inflight → State → State) :
    runPacket r (fun b => opIs 0x42 b && sel (getLe b 17 1)) oneUnit [(16, 2)] body s =
      body (inflightOfPacket s r p) (startedBy s r p rest) :=
  runPacket_ready (size := oneUnit) h (Bool.and_eq_true_iff.2 ⟨opIs_of h.2.1, hop⟩)

theorem exec_sweepStart (hop : getLe p.bytes 17 1 < 2 ∨ 5 < getLe p.bytes 17 1) :
    exec (.sweepStart r) s = done (doSweepStart (inflightOfPacket s r p) (startedBy s r p rest)) :=
  congrArg done (sweepCtrl_runs (sel := fun op => op < 2 || 5 < op) h (by simpa using hop) _)

theorem exec_sweepStop (hop : getLe p.bytes 17 1 = 2) (cons : Nat) :
    exec (.sweepStop r cons) s = done (doSweepStop cons (inflightOfPacket s r p) (startedBy s r p rest)) :=
  congrArg done (sweepCtrl_runs (sel := (· == 2)) h (beq_iff_eq.2 hop) _)

theorem exec_sweepFlush (hop : getLe p.bytes 17 1 = 3) :
    exec (.sweepFlush r) s = done (doSweepFlush (inflightOfPacket s r p) (startedBy s r p rest)) :=
  congrArg done (sweepCtrl_runs (sel := (· == 3)) h (beq_iff_eq.2 hop) _)

theorem exec_snapshot (hop : getLe p.bytes 17 1 = 4) (cons : Nat) :
    exec (.snapshot r cons) s = done (doSnapshot cons (inflightOfPacket s r p) (startedBy s r p rest)) :=
  congrArg done (sweepCtrl_runs (sel := (· == 4)) h (beq_iff_eq.2 hop) _)

theorem exec_voxReset (hop : getLe p.bytes 17 1 = 5) (cons : Nat) :
    exec (.voxReset r cons) s = done (doVoxReset cons (inflightOfPacket s r p) (startedBy s r p rest)) :=
  congrArg done (sweepCtrl_runs (sel := (· == 5)) h (beq_iff_eq.2 hop) _)

end ControlRow

/-! SWEEP_SUBMIT and POSE_PUSH (R278, R282, R306) -/

section Submit

variable {q : Inflight} {s : State} (hm : sweepMine s q = true) (ha : q.fld 24 8 % 8 = 0)
include hm ha

theorem doSweepSubmit_refused (hfl : q.fld 17 1 < 2) (h : sweepActive (sweepAt s (q.fld 16 1)) = false)
    (host : Option (List Byte)) : doSweepSubmit host q s = finishPkt q.id 0x02B0 0 0 s := by
  unfold doSweepSubmit
  dsimp only
  rw [if_neg (by simp [hm, ha]; omega), if_pos (by simp [h])]

variable (h : sweepActive (sweepAt s (q.fld 16 1)) = true)
include h

/-- A record in device memory is held until it is read in its turn. -/
theorem doSweepSubmit_device (hdev : q.fld 17 1 = 0) (host : Option (List Byte)) : doSweepSubmit host q s =
    updSweep (q.fld 16 1) (fun y => { y with held := y.held ++ [(q.id, none)] }) s := by
  unfold doSweepSubmit
  dsimp only
  rw [if_neg (by simp [hm, ha]; omega), if_neg (by simp [h]), if_pos hdev]

/-- A HOST record is read at once: held with its bytes, or a host error of the packet. -/
theorem doSweepSubmit_host (hhost : q.fld 17 1 = 1) (host : Option (List Byte)) :
    let u := emit (.hostRead q.owner (q.fld 24 8) (q.fld 32 4)) s
    doSweepSubmit host q s = host.elim
      (finishPkt q.id 0x0461 0 0 (markLogged q.id (hostError 1 q.owner (q.fld 24 8) 5 q.tag u)))
      (fun b => updSweep (q.fld 16 1) (fun y => { y with
        held := y.held ++ [(q.id, some (slice b 0 (min 32801 (q.fld 32 4))))] }) u) := by
  unfold doSweepSubmit
  dsimp only
  rw [if_neg (by simp [hm, ha]; omega), if_neg (by simp [h]), if_neg (by omega)]
  cases host <;> rfl

end Submit

section Poses

variable {q : Inflight} {s : State} (hm : sweepMine s q = true) (h0 : 0 < q.fld 17 1) (hn : q.fld 17 1 ≤ 3)
  (h : sweepActive (sweepAt s (q.fld 16 1)) = true)
include hm h0 hn h

/-- Legal poses that rise in time all join the last 256; otherwise none does. -/
theorem doPosePush_judged :
    let x := sweepAt s (q.fld 16 1)
    let l := (List.range (q.fld 17 1)).map (fun i => slice q.bytes (64 + 64 * i) 64)
    let kept := (x.poses ++ l.map parsePose).drop ((x.poses ++ l.map parsePose).length - 256)
    doPosePush q s =
      if (l.all poseOk && rising ((x.poses.getLast?).map (·.dts)) ((l.map parsePose).map (·.dts))) = true then
        finishPkt q.id 0 kept.length 0 (updSweep (q.fld 16 1) (fun y => { y with poses := kept }) s)
      else finishPkt q.id 0x03B1 0 0 s := by
  unfold doPosePush
  dsimp only
  rw [if_neg (by simp [hm]; omega), if_neg (by simp [h])]

end Poses

/-- Settles O41: a ready packet runs its row's body, and the body by the packet's fields and the channel's state. -/
theorem sweepChannelsAreBoundFedAndControlled : Obligations.SweepChannelsAreBoundFedAndControlled := by
  refine ⟨fun s r p rest h => ?bind, fun s r p rest h => ?config, fun s r cons p rest h => ?control,
    fun s r p rest host h => ?submit, fun s r p rest h => ?poses⟩
  case bind =>
    intro t c o fl
    have hexec : exec (.sweepBind r) s = done (doSweepBind (inflightOfPacket s r p) t) :=
      congrArg done (frontRow_runs (size := oneUnit) h _)
    rw [hexec]
    refine ⟨fun hc hfl h0 ho hst => ?_,
      fun hc hfl hst => congrArg done (doSweepBind_unbinds (q := inflightOfPacket s r p) hc hfl hst),
      fun hbad => congrArg done (doSweepBind_reserved (q := inflightOfPacket s r p) hbad)⟩
    rw [doSweepBind_legal (q := inflightOfPacket s r p) hc hfl h0 ho hst]
    exact ⟨fun hact => congrArg done (if_pos hact), fun hact => congrArg done (if_neg (Bool.eq_false_iff.1 hact))⟩
  case config =>
    intro t q c hm ha
    have hexec : exec (.sweepConfig r) s = done (doSweepConfig q t) :=
      congrArg done (frontRow_runs (size := oneUnit) h _)
    rw [hexec]
    refine ⟨fun hst => congrArg done (doSweepConfig_busy hm ha hst), fun b u hst hr =>
      ⟨fun hbad => congrArg done (doSweepConfig_refused hm ha hst hr hbad), fun e v hok he => ?_⟩⟩
    rw [doSweepConfig_reads hm ha hst hr hok he]
    exact ⟨fun hall => congrArg done (if_neg fun hmem => hall none hmem rfl), fun hmem => congrArg done (if_pos hmem)⟩
  case control =>
    intro t q c op x active refused
    refine ⟨fun hop => ?reserved, fun hm => ⟨fun d hop hd hst => ?start, fun hop hbad => ?noStart, fun hop ha => ?stop,
      fun hop ha => ?noStop, fun hop ha hr => ?flushEmpty, fun hop ha hr => ?flush, fun hop ha => ?noFlush,
      fun d hd hacc => ⟨fun hop ha => ?snapshot, fun hop ha => ?noSnapshot, fun hop => ?clear⟩,
      fun d hd hacc => ⟨fun hop => ?copyReserved, fun hop => ?clearReserved⟩⟩⟩
    case reserved =>
      exact (exec_sweepStart h (by omega)).trans
        (congrArg done (doSweepStart_reserved (q := q) (show op ≠ 1 by omega)))
    case start => exact (exec_sweepStart h (by omega)).trans (congrArg done (doSweepStart_starts hm hop hd hst))
    case noStart => exact (exec_sweepStart h (by omega)).trans (congrArg done (doSweepStart_refused hm hop hbad))
    case stop =>
      exact (exec_sweepStop h hop cons).trans (congrArg done (doSweepStop_stops hm (sweepActive_iff.2 ha) cons))
    case noStop =>
      exact (exec_sweepStop h hop cons).trans
        (congrArg done (doSweepStop_refused hm (sweepActive_eq_false_iff.2 ha) cons))
    case flushEmpty =>
      exact (exec_sweepFlush h hop).trans (congrArg done (doSweepFlush_empty hm (sweepActive_iff.2 ha) hr))
    case flush =>
      exact (exec_sweepFlush h hop).trans (congrArg done (doSweepFlush_waits hm (sweepActive_iff.2 ha) hr))
    case noFlush =>
      exact (exec_sweepFlush h hop).trans (congrArg done (doSweepFlush_refused hm (sweepActive_eq_false_iff.2 ha)))
    case snapshot =>
      exact (exec_snapshot h hop cons).trans
        (congrArg done (doSweepTable_runs hm hd hacc _ _ cons (.inr (sweepActive_iff.2 ha))))
    case noSnapshot =>
      exact (exec_snapshot h hop cons).trans
        (congrArg done (doSweepTable_refused hm hd hacc _ cons (sweepActive_eq_false_iff.2 ha)))
    case clear =>
      exact (exec_voxReset h hop cons).trans (congrArg done (doSweepTable_runs hm hd hacc _ _ cons (.inl rfl)))
    case copyReserved =>
      exact (exec_snapshot h hop cons).trans (congrArg done (doSweepTable_reserved hd hacc _ _ cons))
    case clearReserved =>
      exact (exec_voxReset h hop cons).trans (congrArg done (doSweepTable_reserved hd hacc _ _ cons))
  case submit =>
    intro t q c a n active hm hfl halign
    have hexec : exec (.sweepSubmit r host) s = done (doSweepSubmit host q t) :=
      congrArg done (frontRow_runs (size := oneUnit) h _)
    rw [hexec]
    refine ⟨fun ha => congrArg done (doSweepSubmit_refused hm halign hfl (sweepActive_eq_false_iff.2 ha) host),
      fun ha hdev => congrArg done (doSweepSubmit_device hm halign (sweepActive_iff.2 ha) hdev host),
      fun ha hhost => ?_⟩
    rw [doSweepSubmit_host hm halign (sweepActive_iff.2 ha) hhost host]
    exact ⟨fun b hb => hb ▸ rfl, fun hb => hb ▸ rfl⟩
  case poses =>
    intro t c n x l ok kept hm h0 hn ha
    have hexec : exec (.posePush r) s = done (doPosePush (inflightOfPacket s r p) t) :=
      congrArg done (frontRow_runs (size := poseUnits) h _)
    rw [hexec, doPosePush_judged hm h0 hn (sweepActive_iff.2 ha)]
    exact ⟨fun hok => congrArg done (if_pos hok), fun hbad => congrArg done (if_neg (Bool.eq_false_iff.1 hbad))⟩

end Sys2Proof.Proofs
end

section
/-! Chapter 10: revolutions open, their slices close and are processed, points are binned, and done records are written
(R285–R288, R292, R293, R297, R302). -/

namespace Sys2Proof.Proofs

open Sys2Proof Sys2Proof.Machine Sys2Proof.Safety Sys2Proof.Laws

/-! REVOLUTION_OPEN (R286, R287) -/

/-- The revolution that opens next: after the highest that the channel holds, else after the last done one. -/
def nextRev (x : Sweep) (l : Nat) : Nat :=
  match x.revs.getLast? with
  | some v => (v.rev + 1) % 2 ^ 32
  | none => (l + 1) % 2 ^ 32

section Open

variable {s : State} {c : Nat} (cons : Nat)

/-- A channel without a cycle offset, or not RUNNING, opens nothing. -/
theorem revolutionOpen_idle (h : (sweepAt s c).offset = none ∨ (sweepAt s c).st ≠ .running) :
    revolutionOpen c cons s = s := by
  unfold revolutionOpen
  dsimp only
  split
  next d off _ hoff =>
    have hst : (sweepAt s c).st ≠ .running := h.resolve_left (by simp [hoff])
    split
    · rfl
    · exact if_pos (by simpa using hst)
  next => rfl

variable {d : SweepDesc} {off l t : Nat} (hd : (sweepAt s c).desc = some d) (hoff : (sweepAt s c).offset = some off)
  (hl : (sweepAt s c).lastDone = some l) (hst : (sweepAt s c).st = .running)
  (ht : reachAt s d.phase (cycleOf s d off (nextRev (sweepAt s c) l) * 65536) = some t)
include hd hoff hl hst ht

/-- At its phase cycle a revolution opens, or the one that holds its buffers is given up. -/
theorem revolutionOpen_reached : revolutionOpen c cons s =
    if 2 ≤ (sweepAt s c).revs.length then giveUp c ((lowRev (sweepAt s c)).getD 0) (advanceTo t s)
    else if ((sweepAt s c).parked || (sweepAt s c).remote) = true then advanceTo t s
    else runSweep c cons jobFuel (openRev c (nextRev (sweepAt s c) l) d off (advanceTo t s)) := by
  cases hlast : (sweepAt s c).revs.getLast? <;>
    · simp only [nextRev, hlast] at ht ⊢
      simp only [revolutionOpen, hd, hoff, hl, hst, hlast, add32, ht]
      rfl

end Open

/-! SLICE_CLOSE (R285) -/

/-- The open slices of a revolution: REV, index and closing phase. -/
def openSlices (d : SweepDesc) (v : Rev) : List (Nat × Nat × Nat) :=
  (List.range v.slices.length).filterMap (fun i =>
    if ((v.slices[i]?).getD {}).closed.isNone then some (v.rev, i, closePhase d v i) else none)

theorem openSlices_closed {v : Rev} (h : ∀ y ∈ v.slices, y.closed.isSome = true) (d : SweepDesc) :
    openSlices d v = [] := by
  refine List.filterMap_eq_nil_iff.2 fun i hi => ?_
  have hlt := List.mem_range.1 hi
  have hy := h v.slices[i] (List.getElem_mem hlt)
  rw [List.getElem?_eq_getElem hlt, Option.getD_some, if_neg (by simpa [Option.isSome_iff_ne_none] using hy)]

/-- Of different elements only one is picked. -/
theorem filterMap_eq_singleton {α β : Type} {f : α → Option β} {l : List α} {a : α} {b : β} (hl : l.Nodup)
    (ha : a ∈ l) (hf : f a = some b) (hn : ∀ x ∈ l, x ≠ a → f x = none) : l.filterMap f = [b] := by
  obtain ⟨l₁, l₂, rfl⟩ := List.append_of_mem ha
  obtain ⟨_, hcons, hdisj⟩ := List.nodup_append.1 hl
  have h₁ : l₁.filterMap f = [] := List.filterMap_eq_nil_iff.2 fun x hx =>
    hn x (List.mem_append_left _ hx) (hdisj x hx a List.mem_cons_self)
  have h₂ : l₂.filterMap f = [] := List.filterMap_eq_nil_iff.2 fun x hx =>
    hn x (List.mem_append_right _ (List.mem_cons_of_mem _ hx)) fun e => (List.nodup_cons.1 hcons).1 (e ▸ hx)
  rw [List.filterMap_append, List.filterMap_cons_some hf, h₁, h₂, List.nil_append]

/-- A revolution whose only open slice is slice `i`. -/
theorem openSlices_single {v : Rev} {i : Nat} (hi : i < v.slices.length)
    (h : ∀ j < v.slices.length, ((v.slices[j]?).getD {}).closed = none ↔ j = i) (d : SweepDesc) :
    openSlices d v = [(v.rev, i, closePhase d v i)] :=
  filterMap_eq_singleton List.nodup_range (List.mem_range.2 hi) (if_pos (Option.isNone_iff_eq_none.2 ((h i hi).2 rfl)))
    fun j hj hne => if_neg fun ho => hne ((h j (List.mem_range.1 hj)).1 (Option.isNone_iff_eq_none.1 ho))

section Close

variable {s : State} {c : Nat}

/-- A channel with no open slice closes none. -/
theorem sliceClose_idle (h : ∀ v ∈ (sweepAt s c).revs, ∀ y ∈ v.slices, y.closed.isSome = true) :
    sliceClose c s = s := by
  cases hd : (sweepAt s c).desc with
  | none => simp only [sliceClose, hd]
  | some d =>
    have hnone : (sweepAt s c).revs.flatMap (openSlices d) = [] :=
      List.flatMap_eq_nil_iff.2 fun v hv => openSlices_closed (h v hv) d
    unfold openSlices at hnone
    simp only [sliceClose, hd, hnone, List.head?_nil]

/-- The only open slice closes when its phase is reached. -/
theorem sliceClose_single {d : SweepDesc} {v : Rev} {i t : Nat} (hd : (sweepAt s c).desc = some d)
    (hr : (sweepAt s c).revs = [v]) (ho : openSlices d v = [(v.rev, i, closePhase d v i)])
    (ht : reachAt s d.phase (closePhase d v i) = some t) : sliceClose c s =
      if closePhase d v i ≤ phaseAt (latchRevs c d (advanceTo t s)) d.phase then
        closeSlice c v.rev i false (latchRevs c d (advanceTo t s))
      else latchRevs c d (advanceTo t s) := by
  unfold openSlices at ho
  simp only [sliceClose, hd, hr, List.flatMap_cons, List.flatMap_nil, List.append_nil, ho, List.head?_cons, ht,
    List.foldl_cons, List.foldl_nil]

end Close

/-! Poses and processing (R292, R293) -/

section Process

variable {s : State} {c : Nat} {d : SweepDesc} {v : Rev} {i : Nat} {y : Slice}
  (hd : (sweepAt s c).desc = some d) (hn : nextSlice (sweepAt s c) = some (v, i, y))
include hd hn

/-- The wait for a pose ends with the slice pose-missing, unless it is ready. -/
theorem poseWaitExpiry_next : poseWaitExpiry c s =
    if sliceReady (sweepAt s c) d v i y = true then s
    else updSlice c v.rev i (fun z => { z with missing := true })
      (advanceTo (y.closed.getD s.dts + d.poseWait * 1000) s) := by
  simp only [poseWaitExpiry, hd, hn]

/-- The engine takes the ready slice: it stands as missing or not, and counts from the points kept so far. -/
theorem sliceProcess_ready (hc : readyChannel s = some c) (cons : Nat) :
    let miss := y.missing || (poseTooOld (sweepAt s c) d v i && (slicePose (sweepAt s c) d v i).isNone)
    let t := updSlice c v.rev i (fun z => { z with missing := miss, first := v.kept }) s
    let u := if miss then updRev c v.rev (fun w => { w with poseDrop := w.poseDrop + y.stored }) t else t
    sliceProcess cons s = runSweep c cons jobFuel (updSweep c (fun z => { z with jobs := [.slice v.rev i 0] }) u) := by
  simp only [sliceProcess, hc, hd, hn]

end Process

theorem sliceProcess_none {s : State} (h : readyChannel s = none) (cons : Nat) : sliceProcess cons s = s := by
  simp only [sliceProcess, h]

/-! Points (R285, R288) -/

/-- The range of a point word. -/
def pointRange (w : Nat) : Nat := w / 2 ^ 32 % 2 ^ 24

/-- The slice that a point word belongs to. -/
def pointSlice (d : SweepDesc) (w : Nat) : Nat := (w % 65536 + d.azOff) % 65536 / (65536 / d.slices)

theorem fld_pointRange (w : Nat) : fld w 55 32 = pointRange w := fld_div w 55 32

theorem fld_pointSlice (d : SweepDesc) (w : Nat) : (fld w 15 0 + d.azOff) % 65536 / d.width = pointSlice d w := by
  rw [fld_div, Nat.pow_zero, Nat.div_one]
  rfl

section Bin

variable {s : State} {c r : Nat} {d : SweepDesc} {v : Rev} {w : Nat} (hv : revAt s c r = some v)
  (cons id : Nat) (rest : List Nat) (stored dropped : Nat)
include hv

theorem binPoint_filtered (h : pointRange w < d.minRange ∨ d.maxRange < pointRange w) :
    binPoint c cons id r w rest stored dropped d s = putSweep c (.bin id r rest stored dropped)
      (updRev c r (fun q => { q with filtered := (q.filtered + 1) % 2 ^ 32 }) s) := by
  simp only [binPoint, hv, fld_pointRange]
  exact if_pos h

variable (hlo : d.minRange ≤ pointRange w) (hhi : pointRange w ≤ d.maxRange)
include hlo hhi

theorem binPoint_late (h : ((v.slices[pointSlice d w]?).getD {}).closed.isSome = true) :
    binPoint c cons id r w rest stored dropped d s = putSweep c (.bin id r rest stored (dropped + 1))
      (updSlice c r (pointSlice d w) (fun q => { q with late := q.late + 1 }) s) := by
  simp only [binPoint, hv, fld_pointRange, fld_pointSlice]
  rw [if_neg (by omega), if_pos h]

variable (hopen : ((v.slices[pointSlice d w]?).getD {}).closed = none) (himg : d.rimg = false)
include hopen himg

/-- A slice whose quota is full drops the point. -/
theorem binPoint_capped (h : (d.quota (pointSlice d w)).1 ≤ ((v.slices[pointSlice d w]?).getD {}).stored) :
    binPoint c cons id r w rest stored dropped d s = putSweep c (.bin id r rest stored (dropped + 1))
      (updSlice c r (pointSlice d w) (fun z => { z with capDrop := z.capDrop + 1 }) s) := by
  simp only [binPoint, hv, fld_pointRange, fld_pointSlice, enterImage, himg]
  rw [if_neg (by omega), if_neg (by simp [hopen]), if_pos (by decide), if_pos h]

/-- Otherwise the point takes the next place of its slice's quota in the staging half. -/
theorem binPoint_stored {z : Unit} {u : State}
    (h : ((v.slices[pointSlice d w]?).getD {}).stored < (d.quota (pointSlice d w)).1)
    (hw : engWrite (.sweepWrite c) (sweepWho s c) (d.stage + (r % 2) * d.cap * 8 +
      ((d.quota (pointSlice d w)).2 + ((v.slices[pointSlice d w]?).getD {}).stored) * 8) (leBytes 8 w) s = .ok z u) :
    binPoint c cons id r w rest stored dropped d s = putSweep c (.bin id r rest (stored + 1) dropped)
      (updSlice c r (pointSlice d w) (fun k => { k with stored := k.stored + 1 }) u) := by
  simp only [binPoint, hv, fld_pointRange, fld_pointSlice, enterImage, himg]
  rw [if_neg (by omega), if_neg (by simp [hopen]), if_pos (by decide), if_neg (Nat.not_le.2 h), hw]
  rfl

end Bin

/-! Quotas and voxels (R288, R297) -/

theorem quota_zero (d : SweepDesc) : (d.quota 0).2 = 0 := by simp [SweepDesc.quota]

/-- The places past the last slice's quota begin at the half's end. -/
theorem quota_slices {d : SweepDesc} (h : 0 < d.slices) : (d.quota d.slices).2 = d.cap := by
  rw [SweepDesc.quota, Nat.min_eq_right (Nat.le_of_lt (Nat.mod_lt d.cap h)), Nat.div_add_mod]

/-- A slice's places end where the next slice's begin. -/
theorem quota_succ (d : SweepDesc) (i : Nat) : (d.quota i).2 + (d.quota i).1 = (d.quota (i + 1)).2 := by
  simp only [SweepDesc.quota, Nat.succ_mul]
  split <;> omega

/-- Floor division splits a coordinate into its voxel and the offset in it. -/
theorem voxCoord_spec {size : Nat} (h : 0 < size) (v : Nat) :
    toInt 21 v = (voxCoord size v).1 * size + (voxCoord size v).2 ∧ (voxCoord size v).2 < size := by
  have hpos : (0 : Int) < size := Int.natCast_pos.2 h
  have hoff : toInt 21 v - toInt 21 v / size * size = toInt 21 v % size := by
    rw [Int.emod_def, Int.mul_comm (size : Int)]
  have hlo := Int.emod_nonneg (toInt 21 v) (Int.ne_of_gt hpos)
  have hhi := Int.emod_lt_of_pos (toInt 21 v) hpos
  simp only [voxCoord, hoff]
  omega

/-! Done records (R302) -/

section Done

variable {s : State} {c : Nat} {d : SweepDesc} (hd : (sweepAt s c).desc = some d) (cons : Nat) (rec_ : List Byte)
include hd

theorem putDone_room (h : sub32 (sweepAt s c).doneProd (sweepAt s c).doneCons < 2 ^ d.doneLog2) :
    let x := sweepAt s c
    putDone c cons rec_ s = sendVec x.owner d.vector
      (updSweep c (fun y => { y with doneCons := x.doneCons, doneProd := (y.doneProd + 1) % 2 ^ 32 }) (hostWrite x.owner
        (d.doneBase + x.doneProd % 2 ^ d.doneLog2 * 32)
        (rec_ ++ leBytes 1 (if x.doneProd / 2 ^ d.doneLog2 % 2 = 0 then 128 else 0)) false s)) := by
  simp only [putDone, hd, decide_eq_true_eq, if_neg (Nat.not_le.2 h), add32]

/-- A ring that is full as cached and as read again loses the record. -/
theorem putDone_full (h : 2 ^ d.doneLog2 ≤ sub32 (sweepAt s c).doneProd (sweepAt s c).doneCons)
    (hc : 2 ^ d.doneLog2 ≤ sub32 (sweepAt s c).doneProd cons) :
    putDone c cons rec_ s = bumpFld (0x2401018 + c * 0x100) 31 0 (updSweep c (fun y => { y with doneCons := cons })
      (emit (.hostRead (sweepAt s c).owner d.doneCons 4) s)) := by
  simp only [putDone, hd, decide_eq_true_eq, if_pos h, if_pos hc]

end Done

/-- Settles O42: each event goes by the channel's state and its next slice; a point by its range, its slice and that
slice's quota; quotas and voxels by division with remainder. -/
theorem revolutionsOpenFillAndClose : Obligations.RevolutionsOpenFillAndClose := by
  refine ⟨fun s c cons off l t d hclk => ?opens, fun s c cons hoff hcl => ?idle,
    fun s c t d v i hclk hd hr hi ho ht => ?close, fun s c d v i y hclk hd hn => ?poseWait,
    fun s cons c d v i y hclk hc hd hn => congrArg done ((whenClocked_pos hclk).trans (sliceProcess_ready hd hn hc cons)),
    fun s cons h => congrArg done (whenClocked_same (sliceProcess_none h cons)),
    fun s c cons id r w rest stored dropped d v hv => ?point,
    fun d h => ⟨quota_zero d, quota_slices h, fun i _ => quota_succ d i⟩, fun size v h => voxCoord_spec h v,
    fun s c cons rec_ d => ?doneRec⟩
  case opens =>
    intro x n hd hoff hl hst ht
    have hopen := (whenClocked_pos hclk).trans (revolutionOpen_reached cons hd hoff hl hst ht)
    refine ⟨fun hlen hp hrem => congrArg done ((hopen.trans (if_neg (Nat.not_le.2 hlen))).trans (if_neg ?_)),
      fun hlen => congrArg done (hopen.trans (if_pos hlen))⟩
    change ¬ (x.parked || x.remote) = true
    simp [hp, hrem]
  case idle =>
    exact ⟨congrArg done (whenClocked_same (revolutionOpen_idle cons hoff)),
      congrArg done (whenClocked_same (sliceClose_idle hcl))⟩
  case close =>
    exact congrArg done ((whenClocked_pos hclk).trans (sliceClose_single hd hr (openSlices_single hi ho d) ht))
  case poseWait =>
    have hwait := (whenClocked_pos hclk).trans (poseWaitExpiry_next hd hn)
    exact ⟨fun hno => congrArg done (hwait.trans (if_neg (Bool.eq_false_iff.1 hno))),
      fun hready => congrArg done (hwait.trans (if_pos hready))⟩
  case point =>
    intro rng i y
    exact ⟨fun hout => binPoint_filtered hv cons id rest stored dropped hout,
      fun hlo hhi hclosed => binPoint_late hv cons id rest stored dropped hlo hhi hclosed,
      fun hlo hhi hopen himg =>
        ⟨fun hfull => binPoint_capped hv cons id rest stored dropped hlo hhi hopen himg hfull,
          fun z u hroom hw => binPoint_stored hv cons id rest stored dropped hlo hhi hopen himg hroom hw⟩⟩
  case doneRec =>
    intro x hd
    exact ⟨fun hroom => putDone_room hd cons rec_ hroom, fun hfull hcons => putDone_full hd cons rec_ hfull hcons⟩

end Sys2Proof.Proofs
end

section
/-! The block between commands (chapters 1 and 2): one queue, one edge of the reference, and rest. -/

namespace Sys2Proof.Proofs

open Sys2Proof Sys2Proof.Machine Sys2Proof.Safety Sys2Proof.Laws

/-! A step (R15, R16) -/

theorem step_idle {s : State} (h : s.pending = []) : step s = .next (tick s) := by
  simp only [step, h]

/-- With FCLK stopped an edge leaves the cycle count. -/
theorem tickFclk_stopped {s : State} (h : fclkRuns s = false) : (tickFclk s).fab.fclkMilli = s.fab.fclkMilli := by
  simp [tickFclk, tickCycles, h]

/-- An edge without slew or trim is 10 ns. -/
theorem tickDts_untrimmed {s : State} (hacc : s.trimAcc = 0) (hslew : s.mgp.ptp.slewing = false)
    (htrim : s.mgp.ptp.trim = 0) : tickDts s = { s with dts := s.dts + 10 } := by
  have hrate : tickRate s = 0 := by simp [tickRate, hslew, htrim]
  simp only [tickDts, hrate, hacc, hslew]
  obtain ⟨⟩ := s
  subst hacc
  rfl

/-- While a backward offset is absorbed an edge trims 100 ppm, a count less once the fraction has grown to one. -/
theorem tickDts_slewing {s : State} (hslew : s.mgp.ptp.slewing = true) :
    (tickDts s).dts = s.dts + (10 + Int.tdiv (s.trimAcc - 10000) 10000000).toNat ∧
    (tickDts s).trimAcc = s.trimAcc - 10000 - Int.tdiv (s.trimAcc - 10000) 10000000 * 10000000 := by
  simp [tickDts, tickRate, hslew, Int.sub_eq_add_neg]

/-- Settles O57: the queue's front runs as the definition says; an edge moves device time by the rate in force. -/
theorem stepTakesTheFrontCommand : Obligations.StepTakesTheFrontCommand := by
  refine ⟨fun _ _ _ => rfl, exec_settles, fun s hp hs => ?unpowered,
    fun s hp hs hacc => ⟨fun hslew htrim hclk => ?plain, fun hslew => ?slewing⟩, fun s hacc hslew => ?count,
    fun _ _ _ => rfl⟩
  case unpowered => rw [step_idle hp, tick, hs]; rfl
  case plain =>
    rw [step_idle hp, tick, if_pos hs, tickDts_untrimmed hacc hslew htrim]
    exact ⟨_, rfl, rfl, tickFclk_stopped hclk, rfl, rfl, rfl⟩
  case slewing =>
    rw [step_idle hp, tick, if_pos hs]
    obtain ⟨hdts, hleft⟩ := tickDts_slewing hslew
    rw [hacc] at hdts hleft
    exact ⟨_, rfl, hdts, hleft⟩
  case count =>
    obtain ⟨hdts, hleft⟩ := tickDts_slewing hslew
    rw [hacc] at hdts hleft
    exact ⟨hdts, hleft⟩

/-! Rest -/

theorem drainMirror_rest {s : State} (h : s.mirror = []) (cons : Cons) (n : Nat) : drainMirror cons n s = s := by
  cases n with
  | zero => rfl
  | succ n => simp only [drainMirror, h]

/-- With no packet started none goes on or completes. -/
theorem settlePackets_rest {s : State} (h : s.hif.started = []) : settleUnmaps (settlePackets s) = s := by
  have hp : settlePackets s = s := by simp only [settlePackets, h, List.foldl_nil]
  rw [hp, settleUnmaps, h, List.filter_nil, List.foldl_nil]

/-- With no thread none waits or sleeps. -/
theorem settleThreads_rest {s : State} (h : s.fab.threads = []) (rr : RegReader) :
    settleDormant rr (settleWaits s) = s := by
  have hw : settleWaits s = s := by simp only [settleWaits, h, List.foldl_nil]
  rw [hw, settleDormant, h, List.foldl_nil]

theorem drainFlushes_rest {s : State} (h : s.ptu.flushes = []) : drainFlushes s = s := by
  simp only [drainFlushes, h, List.foldl_nil, updPtu]
  rw [← h]

theorem settleSweep_unconfigured {s : State} {c : Nat} (h : (sweepAt s c).desc = none) : settleSweep c s = s := by
  simp only [settleSweep, h]

/-- A fold whose steps each leave the state alone. -/
theorem foldl_same {α : Type} {f : State → α → State} {s : State} {l : List α} (h : ∀ a ∈ l, f s a = s) :
    l.foldl f s = s := by
  induction l with
  | nil => rfl
  | cons a l ih =>
    rw [List.foldl_cons, h a List.mem_cons_self]
    exact ih fun b hb => h b (List.mem_cons_of_mem a hb)

/-- A sweep engine without a flush or a configured channel has nothing to do. -/
theorem settleSweeps_rest {s : State} (hf : s.ptu.flushes = []) (hd : ∀ c, c < 8 → (sweepAt s c).desc = none) :
    settleSweeps s = s := by
  rw [settleSweeps, drainFlushes_rest hf]
  exact foldl_same (fun c hc => settleSweep_unconfigured (hd c (List.mem_range.1 hc)))

theorem settleMmp_rest {s : State} (h : s.mgp.queue = []) (n : Nat) : settleMmp n s = s := by
  cases n with
  | zero => rfl
  | succ n => simp only [settleMmp, takeRequest, h]

theorem settleEvents_rest {s : State} (h : s.mgp.events = []) : settleEvents s = s := by
  unfold settleEvents
  split
  · rfl
  · simp only [h, List.filter_nil, List.foldl_nil, updMgp, updWhere, List.map_nil]
    rw [← h]

theorem settleElk_rest {s : State} (h : s.elk.selfFence = false) : settleElk s = s := by
  simp [settleElk, h]

/-- Settles O58: each part of `settle` finds nothing of its own waiting. -/
theorem restIsStill : Obligations.RestIsStill := by
  rintro s ⟨hmirror, hstarted, hthreads, hflushes, hdescs, hfbc, hqueue, hevents, hfence⟩
  have hsame : { s with mirror := [] } = s := by rw [← hmirror]
  have hclocked : (if fclkRuns s then
      settleSweeps (settleDormant mirrorRead (settleWaits (settleUnmaps (settlePackets s)))) else s) = s := by
    rw [settlePackets_rest hstarted, settleThreads_rest hthreads, settleSweeps_rest hflushes hdescs, ite_self]
  have hbus : settleFbc s = s := if_pos hfbc
  have hmmp : (if romRuns s then settleMmp 17 s else s) = s := by rw [settleMmp_rest hqueue, ite_self]
  simp only [settle, drainMirror_rest hmirror, hclocked, hbus, hmmp, hsame, settleEvents_rest hevents,
    settleElk_rest hfence]

end Sys2Proof.Proofs
end

section
/-! Chapter 11: phase channels lock, hold over and lose lock (R308, R310–R314, R329). -/

namespace Sys2Proof.Proofs

open Sys2Proof Sys2Proof.Machine Sys2Proof.Safety Sys2Proof.Laws

/-! Channel registers -/

theorem chReg_cfg (c : Nat) : chReg c 0 = 0x2601000 + 0x40 * c := by unfold chReg; omega
theorem chReg_len (c : Nat) : chReg c 4 = 0x2601004 + 0x40 * c := by unfold chReg; omega
theorem chReg_hold (c : Nat) : chReg c 8 = 0x2601008 + 0x40 * c := by unfold chReg; omega

/-- A write of PTU_CH_CFG acts on its channel. -/
theorem writeHook_chCfg (cons : Cons) (r : Requester) {c : Nat} (old new : Nat) (l : Bool) (t : State) (hc : c < 8) :
    writeHook cons r (0x2601000 + 0x40 * c) old new l t = chCfgWritten c old t := by
  have hch : (0x2601000 + 0x40 * c - 0x2601000) / 0x40 = c := by omega
  have hk : (0x2601000 + 0x40 * c - 0x2601000) % 0x40 = 0 := by omega
  rw [writeHook, if_neg (by omega), if_neg (by omega), if_pos (by omega), phaseHook, if_neg (by omega),
    if_neg (by omega), if_neg (by omega), if_neg (by omega), if_neg (by omega), if_pos (by omega), hch]

section Enable

variable {s : State} {c old : Nat}

theorem chCfgWritten_enables (hw : bitOf old 31 = false) (he : regBit s (0x2601000 + 0x40 * c) 31 = true) :
    chCfgWritten c old s = enableCh c s := by
  simp [chCfgWritten, chReg_cfg, hw, he]

theorem chCfgWritten_disables (hw : bitOf old 31 = true) (he : regBit s (0x2601000 + 0x40 * c) 31 = false) :
    chCfgWritten c old s = disableCh c s := by
  simp [chCfgWritten, chReg_cfg, hw, he]

theorem chCfgWritten_same (h : bitOf old 31 = regBit s (0x2601000 + 0x40 * c) 31) : chCfgWritten c old s = s := by
  simp [chCfgWritten, chReg_cfg, h]

end Enable

/-! Edges (R308, R310) -/

theorem inRange_iff (s : State) (c p : Nat) : inRange s c p = true ↔
    regFld s (0x2601004 + 0x40 * c) 15 0 * 10000 ≤ p ∧ p ≤ regFld s (0x2601004 + 0x40 * c) 31 16 * 10000 := by
  simp [inRange, chReg_len]

theorem within2_iff (p q : Nat) : within2 p q = true ↔ ((p - q) + (q - p)) * 50 ≤ q := by simp [within2]

/-- A period is steady: within 2 % of the last one where there was one. -/
def steady (p : Nat) (last : Option Nat) : Bool := last.all (within2 p)

theorem steady_iff (p : Nat) (last : Option Nat) :
    steady p last = true ↔ ∀ q, last = some q → ((p - q) + (q - p)) * 50 ≤ q := by
  cases last with
  | none => simp [steady]
  | some q => simp [steady, within2_iff]

section Edge

variable {s : State} {c : Nat} (e : Nat)

theorem cycleEdge_off (h : (phaseCh s c).st = .off) : cycleEdge c e s = s := by
  simp only [cycleEdge, h]

theorem cycleEdge_acquire (h : (phaseCh s c).st = .acquire) : cycleEdge c e s = acquireEdge c e s := by
  simp only [cycleEdge, h]

/-- Without lock an edge begins an acquisition again. -/
theorem cycleEdge_unlocked (h : (phaseCh s c).st = .holdover ∨ (phaseCh s c).st = .lost) :
    cycleEdge c e s = chChanged (updCh c (fun x => { x with
      st := .acquire, acqFrom := if (phaseCh s c).st = .lost then .lost else .holdover, lastEdge := some e, good := 0
      since := e }) (holdPhase c (catchUp c s))) := by
  rcases h with h | h <;> simp only [cycleEdge, h] <;> rfl

theorem cycleEdge_good (h : (phaseCh s c).st = .locked) (hr : inRange s c (e - (phaseCh s c).start) = true)
    (hw : within2 (e - (phaseCh s c).start) (phaseCh s c).period = true) :
    cycleEdge c e s = chChanged (
      let p := e - (phaseCh s c).start
      let u := updCh c (fun x => { x with
        floor := phaseAt s c, cycle := x.cycle + 1, start := e, period := p, lastEdge := some e, lastPeriod := some p
        since := e, recent := (p :: x.recent).take 8, latchDts := e, latchPeriod := p, latchCycle := x.cycle + 1 }) s
      if c = refCh s then freqUpdate u else u) := by
  simp only [cycleEdge, h, hr, hw, Bool.and_self, if_true]

theorem cycleEdge_bad (h : (phaseCh s c).st = .locked)
    (hb : ¬ (inRange s c (e - (phaseCh s c).start) = true ∧
      within2 (e - (phaseCh s c).start) (phaseCh s c).period = true)) :
    cycleEdge c e s = enterHoldover c (updCh c (fun x => { x with
      lastPeriod := if inRange s c (e - (phaseCh s c).start) then some (e - (phaseCh s c).start)
        else x.lastPeriod }) s) := by
  simp only [cycleEdge, h, Bool.and_eq_true, if_neg hb]

/-- Every edge of an enabled tach channel counts, and each PPR-th one is a cycle's. -/
theorem tachEdge_counts (h : (phaseCh s c).st ≠ .off) : tachEdge c e s =
    if (phaseCh s c).edges % (regFld s (0x2601000 + 0x40 * c) 27 25 + 1) = 0 then
      cycleEdge c e (updCh c (fun x => { x with edges := x.edges + 1 }) s)
    else updCh c (fun x => { x with edges := x.edges + 1 }) s := by
  simp only [tachEdge, chReg_cfg, beq_iff_eq, if_neg h]

theorem tachEdge_off (h : (phaseCh s c).st = .off) : tachEdge c e s = s := by
  simp only [tachEdge, h, beq_self_eq_true, if_true]

end Edge

/-! The first acquisition (R310) -/

section Acquire

variable {s : State} {c e f : Nat} (ha : (phaseCh s c).acqFrom = .first) (hf : (phaseCh s c).lastEdge = some f)
include ha hf

/-- An edge of the first acquisition counts when its period is in range and steady; enough of them lock. -/
theorem acquireEdge_first : acquireEdge c e s =
    let p := e - f
    let t := updCh c (fun x => { x with
      lastEdge := some e, starts := x.starts + 1, lastPeriod := if inRange s c p then some p else x.lastPeriod }) s
    let u := updCh c (fun x => { x with good := x.good + 1, since := e, recent := (p :: x.recent).take 8 }) t
    if (inRange s c p && steady p (phaseCh s c).lastPeriod) = true then
      if regFld s (0x2601000 + 0x40 * c) 18 16 ≤ (phaseCh s c).good + 1 then lockEdge c e p u else u
    else updCh c (fun x => { x with good := 0 }) (bumpBad c t) := by
  simp only [acquireEdge, hf, ha, lockNeed, chReg_cfg, beq_self_eq_true, if_true, Bool.and_true]
  cases (phaseCh s c).lastPeriod <;> rfl

end Acquire

/-! Missing and predicted cycle starts, and the end of a holdover (R310, R311, R313) -/

section Missing

variable {s : State} {c : Nat}

theorem enterHoldover_lost (h : regFld s (0x2601008 + 0x40 * c) 31 16 = 0) :
    enterHoldover c s = chChanged (catchUp c (updCh c (fun ch => { ch with st := .lost, since := s.dts, good := 0 })
      (holdPhase c (bumpBad c s)))) := by
  have h0 : holdNs s c = 0 := by rw [holdNs, chReg_hold, h, Nat.zero_mul]
  rw [enterHoldover, if_pos h0]
  rfl

theorem enterHoldover_holds (h : regFld s (0x2601008 + 0x40 * c) 31 16 ≠ 0) :
    enterHoldover c s = chChanged (catchUp c (updCh c (fun ch => { ch with
      st := .holdover, since := s.dts, good := 0, badRun := 0 }) (holdPhase c (bumpBad c s)))) := by
  have h0 : holdNs s c ≠ 0 := by
    rw [holdNs, chReg_hold]
    exact Nat.mul_ne_zero h (by decide)
  rw [enterHoldover, if_neg h0]

theorem cycleMissing_unlocked (h : (phaseCh s c).st ≠ .locked) : cycleMissing c s = s :=
  if_pos (by simpa using h)

theorem cycleMissing_input (h : (phaseCh s c).st = .locked) (hc : c < 6) :
    cycleMissing c s = enterHoldover c { s with dts := max s.dts ((phaseCh s c).start +
      ceilDiv ((65536 + regFld s (0x2601008 + 0x40 * c) 15 0) * (phaseCh s c).period) 65536) } := by
  have hsoft : isSoft c = false := decide_eq_false (by omega)
  simp only [cycleMissing, h, hsoft, missAngle, chReg_hold, advanceTo, bne_self_eq_false, Bool.false_eq_true, if_false]

theorem cycleMissing_soft {t p : Nat} (h : (phaseCh s c).st = .locked) (hc : 6 ≤ c)
    (hs : (phaseCh s c).stamp = some (t, p)) (hr : (phaseCh s c).rateNum ≠ 0) :
    cycleMissing c s = enterHoldover c { s with dts := max s.dts (t +
      ceilDiv ((16384 + regFld s (0x2601008 + 0x40 * c) 15 0) * (phaseCh s c).rateDen) (phaseCh s c).rateNum) } := by
  have hsoft : isSoft c = true := decide_eq_true hc
  simp only [cycleMissing, h, hsoft, hs, if_neg hr, missAngle, chReg_hold, advanceTo, bne_self_eq_false,
    Bool.false_eq_true, if_false, if_true]

theorem predictedStart_none (h : hasPhase (phaseCh s c) = false) : predictedStart c s = s := by
  simp [predictedStart, h]

theorem predictedStart_input (hp : hasPhase (phaseCh s c) = true) (h : (phaseCh s c).st ≠ .locked) (hc : c < 6) :
    predictedStart c s =
      chChanged (catchUp c { s with dts := max s.dts ((phaseCh s c).start + (phaseCh s c).period) }) := by
  have hsoft : isSoft c = false := decide_eq_false (by omega)
  have hst : ((phaseCh s c).st == .locked) = false := by simpa using h
  simp only [predictedStart, hp, hst, hsoft]
  rfl

theorem predictedStart_soft {t : Nat} (hp : hasPhase (phaseCh s c) = true) (hc : 6 ≤ c)
    (hr : reachAt s c (((phaseCh s c).cycle + 1) * 65536) = some t) :
    predictedStart c s = chChanged (catchUp c { s with dts := max s.dts t }) := by
  have hsoft : isSoft c = true := decide_eq_true hc
  simp only [predictedStart, hp, hsoft, hr, Bool.not_true, Bool.and_false, Bool.or_false, if_true]
  rfl

theorem holdExpiry_ends
    (h : (phaseCh s c).st = .holdover ∨ (phaseCh s c).st = .acquire ∧ (phaseCh s c).acqFrom ≠ .first) :
    holdExpiry c s = enterLost c { s with
      dts := max s.dts ((phaseCh s c).since + regFld s (0x2601008 + 0x40 * c) 31 16 * 1000000) } := by
  rw [← chReg_hold]
  exact if_pos (by simpa using h)

theorem holdExpiry_ignored (h : (phaseCh s c).st = .off ∨ (phaseCh s c).st = .locked ∨ (phaseCh s c).st = .lost) :
    holdExpiry c s = s :=
  if_neg (by rcases h with h | h | h <;> simp [h])

end Missing

/-! Stamps and queries (R314, R329) -/

section Packet

variable {q : Inflight} {s : State}

theorem doPhaseStamp_refused (h : q.fld 16 1 < 6 ∨ 7 < q.fld 16 1 ∨ q.fld 17 1 = 0 ∨ 12 < q.fld 17 1 ∨
    regFld s (0x2601000 + q.fld 16 1 * 0x40) 30 28 ≠ 1 ∨ stampsOk s.dts (packetStamps q) = false) :
    doPhaseStamp q s = finishPkt q.id 0x0303 0 0 s := by
  refine if_pos ?_
  rcases h with h | h | h | h | h | h
  · exact .inl h
  · exact .inr (.inl h)
  · exact .inr (.inr (.inl h))
  · exact .inr (.inr (.inr (.inl h)))
  · exact .inr (.inr (.inr (.inr (.inr (.inl h)))))
  · exact .inr (.inr (.inr (.inr (.inr (.inr (.inr (by rw [h]; rfl)))))))

/-- Stamps that are in order go to the channel one by one; the packet counts those taken. -/
theorem doPhaseStamp_takes (hc : q.fld 16 1 = 6 ∨ q.fld 16 1 = 7) (hn : 0 < q.fld 17 1) (hn' : q.fld 17 1 ≤ 12)
    (hpad : ∀ i < q.fld 17 1, allZero (slice q.bytes (74 + 16 * i) 6) = true)
    (hsrc : regFld s (0x2601000 + q.fld 16 1 * 0x40) 30 28 = 1)
    (ho : q.owner = 0 ∨ q.owner = regFld s (0x2601000 + q.fld 16 1 * 0x40) 24 19)
    (hok : stampsOk s.dts (packetStamps q) = true) :
    doPhaseStamp q s =
      let z := (packetStamps q).foldl (fun (acc : State × Nat) x =>
        ((softStamp (q.fld 16 1) x.1 x.2 acc.1).1,
          if (softStamp (q.fld 16 1) x.1 x.2 acc.1).2 then acc.2 + 1 else acc.2)) (s, 0)
      finishPkt q.id 0 z.2 (q.fld 17 1 - z.2) z.1 := by
  refine if_neg ?_
  have hall : (List.range (q.fld 17 1)).all (fun i => allZero (slice q.bytes (74 + 16 * i) 6)) = true :=
    List.all_eq_true.2 fun i hi => hpad i (List.mem_range.1 hi)
  have hcfg : regFld s (chReg (q.fld 16 1) 0) 30 28 = 1 := hsrc
  have hown : q.owner = 0 ∨ q.owner = regFld s (chReg (q.fld 16 1) 0) 24 19 := ho
  simp only [hall, hcfg, hok]
  simp
  omega

theorem doPhaseQuery_reserved (h : 8 ≤ q.fld 16 1) : doPhaseQuery q s = finishPkt q.id 0x0303 0 0 s := if_pos h

theorem doPhaseQuery_answers (h : q.fld 16 1 < 8) : doPhaseQuery q s = finishPkt q.id 0
    (phaseAt s (q.fld 16 1) % 2 ^ 48 + (phaseCh s (q.fld 16 1)).st.code * 2 ^ 48)
    (phaseCh s (q.fld 16 1)).latchPeriod s := if_neg (Nat.not_le.2 h)

end Packet

/-! Phase time never falls (R312) -/

theorem phaseCh_updCh_same (c : Nat) (f : PhaseCh → PhaseCh) (s : State) :
    phaseCh (updCh c f s) c = f (phaseCh s c) := get_upd_same _ _ _ _

/-- A channel with phase time reports its floor at least. -/
theorem floor_le_phaseAt {s : State} {c : Nat} (he : (phaseCh s c).everLocked = true) (ho : (phaseCh s c).st ≠ .off) :
    (phaseCh s c).floor ≤ phaseAt s c := by
  have hp : hasPhase (phaseCh s c) = true := by simp [hasPhase, he, ho]
  simp only [phaseAt, hp, if_true]
  exact Nat.le_max_left _ _

/-- The held phase is the channel's floor. -/
theorem phaseCh_holdPhase (c : Nat) (s : State) :
    phaseCh (holdPhase c s) c = { phaseCh s c with floor := phaseAt s c } := phaseCh_updCh_same _ _ _

/-- Settles O43: a write of EN by its edge; an edge or event by the channel's state; a packet by its checks; the floor
bounds phase time from below. -/
theorem phaseChannelsLockAndHold : Obligations.PhaseChannelsLockAndHold := by
  refine ⟨fun s r c v d hc h => ?enable, fun s c e hc hs => ?edge, fun s i e hi hs => ?tachInput,
    fun s c e => ⟨tachEdge_off e, tachEdge_counts e⟩, fun s c e ha f hf => ?acquire, fun s c hs => ?missing,
    fun s c => ⟨enterHoldover_lost, enterHoldover_holds⟩, fun s c hs => ?expiry, fun s r p rest h => ?stamp,
    fun s r p rest h => ?query, fun s c t ht ho he => ?floor⟩
  case enable =>
    intro t was is
    have hexec : Machine.exec (.channelEnable r c v) s =
        .next (settle (chCfgWritten c (rawAt s (0x2601000 + 0x40 * c)) t)) := by
      refine congrArg done ((regWrite_written h (by omega) (by omega)).trans ?_)
      exact writeHook_chCfg _ _ _ _ _ _ hc
    rw [hexec]
    exact ⟨fun hw hi => congrArg done (chCfgWritten_enables hw hi),
      fun hw hi => congrArg done (chCfgWritten_disables hw hi), fun hw => congrArg done (chCfgWritten_same hw)⟩
  case edge =>
    intro t ch p good
    have hexec : Machine.exec (.mainsEdge c e) s = .next (settle (cycleEdge c e t)) :=
      congrArg done ((whenStandby_pos hs).trans (if_pos hc))
    have hgood : good ↔ inRange t c p = true ∧ within2 p ch.period = true := by
      rw [inRange_iff, within2_iff, and_assoc]
      rfl
    rw [hexec]
    exact ⟨fun h => congrArg done (cycleEdge_off e h), fun h => congrArg done (cycleEdge_acquire e h),
      fun h => congrArg done (cycleEdge_unlocked e h),
      fun h hg => congrArg done (cycleEdge_good e h (hgood.1 hg).1 (hgood.1 hg).2),
      fun h hb => congrArg done (cycleEdge_bad e h (fun hg => hb (hgood.2 hg)))⟩
  case tachInput =>
    intro t
    simp only [← chReg_cfg]
    exact congrArg done ((whenStandby_pos hs).trans (if_neg (Nat.not_lt.2 hi)))
  case acquire =>
    intro ch p ok t u
    have hok : ok ↔ (inRange s c p && steady p ch.lastPeriod) = true := by
      rw [Bool.and_eq_true, steady_iff]
    rw [acquireEdge_first ha hf, hok]
    exact ⟨fun h hn => (if_pos h).trans (if_pos hn), fun h hn => (if_pos h).trans (if_neg (Nat.not_le.2 hn)),
      fun h => if_neg h⟩
  case missing =>
    exact ⟨fun h hc => congrArg done ((whenStandby_pos hs).trans (cycleMissing_input h hc)),
      fun t p h hc hst hr => congrArg done ((whenStandby_pos hs).trans (cycleMissing_soft h hc hst hr)),
      fun h => congrArg done ((whenStandby_pos hs).trans (cycleMissing_unlocked h))⟩
  case expiry =>
    exact ⟨fun hp h hc => congrArg done ((whenStandby_pos hs).trans (predictedStart_input hp h hc)),
      fun t hp hc hr => congrArg done ((whenStandby_pos hs).trans (predictedStart_soft hp hc hr)),
      fun h => congrArg done ((whenStandby_pos hs).trans (predictedStart_none h)),
      fun h => congrArg done ((whenStandby_pos hs).trans (holdExpiry_ends h)),
      fun h => congrArg done ((whenStandby_pos hs).trans (holdExpiry_ignored h))⟩
  case stamp =>
    have hrun := frontRow_runs (size := stampUnits) h doPhaseStamp
    exact ⟨fun hc hn hn' hpad hsrc ho hok => congrArg done (hrun.trans (doPhaseStamp_takes hc hn hn' hpad hsrc ho hok)),
      fun hbad => congrArg done (hrun.trans (doPhaseStamp_refused hbad))⟩
  case query =>
    have hrun := frontRow_runs (size := oneUnit) h doPhaseQuery
    exact ⟨fun hc => congrArg done (hrun.trans (doPhaseQuery_answers hc)),
      fun hc => congrArg done (hrun.trans (doPhaseQuery_reserved hc))⟩
  case floor =>
    have hheld := phaseCh_holdPhase c s
    refine ⟨?_, fun f hev hst hfl => ?_⟩
    · have hlater : phaseCh { holdPhase c s with dts := t } c = { phaseCh s c with floor := phaseAt s c } := hheld
      have := floor_le_phaseAt (s := { holdPhase c s with dts := t }) (c := c) (by rw [hlater]; exact he)
        (by rw [hlater]; exact ho)
      rwa [hlater] at this
    · have hnew := phaseCh_updCh_same c f (holdPhase c s)
      have := floor_le_phaseAt (s := updCh c f (holdPhase c s)) (c := c) (by rw [hnew]; exact hev)
        (by rw [hnew]; exact hst)
      rwa [hnew, hfl, hheld] at this

end Sys2Proof.Proofs
end

section
/-! Chapter 11: phase events, step gates, pulses and the site state (R316–R323, R327, R329, R330). -/

namespace Sys2Proof.Proofs

open Sys2Proof Sys2Proof.Machine Sys2Proof.Safety Sys2Proof.Laws

/-! EVENT_SET (R330) -/

section EventSet

variable {q : Inflight} {s : State}

/-- The packet's fields are in range and its ARG fits its action. -/
def EventLegal (q : Inflight) : Prop :=
  q.fld 18 1 < 8 ∧ q.fld 17 1 ∈ [1, 2, 3, 5] ∧ q.fld 16 1 < 8 ∧ argLegal (q.fld 17 1) (q.fld 28 4) = true

theorem eventLegal_iff (q : Inflight) : EventLegal q ↔
    ¬ (q.fld 18 1 / 8 ≠ 0 ∨ (!([1, 2, 3, 5].contains (q.fld 17 1))) = true ∨
    8 ≤ q.fld 16 1 ∨ (!(argLegal (q.fld 17 1) (q.fld 28 4))) = true) := by
  have hdiv : q.fld 18 1 / 8 ≠ 0 ↔ ¬ q.fld 18 1 < 8 := by omega
  rw [EventLegal, hdiv]
  simp only [not_or, not_not, Bool.not_eq_true, Bool.not_eq_false', List.contains_iff_mem, Nat.not_le]

theorem doEventSet_illegal (h : ¬ EventLegal q) : doEventSet q s = finishPkt q.id 0x0303 0 0 s :=
  if_pos (not_not.1 ((eventLegal_iff q).not.1 h))

/-- The base cycle of the event a packet arms. -/
def eventCycle (q : Inflight) (s : State) : Nat :=
  if bitOf (q.fld 18 1) 2 then
    nextOcc s (q.fld 16 1) ((q.fld 24 2 + (if bitOf (q.fld 18 1) 0 then s.ptu.offset else 0)) % 65536) + q.fld 20 4
  else ((phaseAt s (q.fld 16 1) : Int) +
    phaseDist (q.fld 20 4 * 65536 + q.fld 24 2) (phaseAt s (q.fld 16 1))).toNat / 65536

/-- The phase at which it fires. -/
def eventTarget (q : Inflight) (s : State) : Nat :=
  if bitOf (q.fld 18 1) 2 then eventCycle q s * 65536 +
    (q.fld 24 2 + (if bitOf (q.fld 18 1) 0 then s.ptu.offset else 0)) % 65536
  else eventCycle q s * 65536 + q.fld 24 2 + (if bitOf (q.fld 18 1) 0 then s.ptu.offset else 0)

/-- The entry that a packet puts in the table. -/
def packetEvent (q : Inflight) (s : State) : PhaseEvent :=
  { chan := q.fld 16 1, action := q.fld 17 1, repeats := q.fld 19 1, stagger := bitOf (q.fld 18 1) 0
    relative := bitOf (q.fld 18 1) 2, owner := q.owner, cycle := eventCycle q s, angle := q.fld 24 2
    target := eventTarget q s, arg := q.fld 28 4 }

/-- RESULT1: the target's cycle, and whether it lies behind. -/
def eventResult (q : Inflight) (s : State) : Nat :=
  eventTarget q s / 65536 % 2 ^ 31 + (if bitOf (eventTarget q s / 65536) 31 ||
    (!bitOf (q.fld 18 1) 2 && decide (eventTarget q s ≤ phaseAt s (q.fld 16 1))) then 2 ^ 31 else 0)

variable (hl : EventLegal q)
include hl

theorem doEventSet_foreign (ha : q.fld 17 1 = 1 ∨ q.fld 17 1 = 5) (ho : q.owner ≠ 0) :
    doEventSet q s = finishPkt q.id 0x0328 0 0 s :=
  (if_neg ((eventLegal_iff q).1 hl)).trans (if_pos (by simpa using ⟨ha, ho⟩))

variable (ho : q.owner = 0 ∨ q.fld 17 1 = 2 ∨ q.fld 17 1 = 3)
include ho

/-- The checks of the target's owner, the target and the channel, in R330's order, before an entry is sought. -/
theorem doEventSet_allowed : doEventSet q s =
    if eventForeign s q.owner (q.fld 17 1) (q.fld 28 4) then finishPkt q.id 0x0303 0 0 s
    else if eventVoid s (q.fld 17 1) (q.fld 28 4) then finishPkt q.id 0x03C0 0 0 s
    else if !(phaseKnown s (q.fld 16 1)) then finishPkt q.id 0x02C1 0 0 s
    else match freeEvent s with
      | none => finishPkt q.id 0x02C0 0 0 s
      | some i =>
        if phaseAt s (q.fld 16 1) + 2 ^ 24 * 65536 < eventTarget q s then finishPkt q.id 0x0303 0 0 s
        else if bitOf (q.fld 18 1) 1 then
          fireEvents (updPkt q.id (fun x => { x with wait := .event })
            (setEvent i (some { packetEvent q s with wait := some (q.id, eventResult q s) }) s))
        else fireEvents (finishPkt q.id 0 i (eventResult q s) (setEvent i (some (packetEvent q s)) s)) := by
  have hown : ¬ ((q.fld 17 1 == 1 || q.fld 17 1 == 5) && q.owner != 0) = true := by
    rcases ho with h | h | h <;> simp [h]
  exact (if_neg ((eventLegal_iff q).1 hl)).trans (if_neg hown)

end EventSet

/-! EVENT_CLEAR and the firing of entries (R316–R320, R329) -/

section EventClear

variable {q : Inflight} {s : State}

theorem doEventClear_all (h : q.fld 16 2 = 0xFFFF) : doEventClear q s =
    let l := (List.range 248).filter (fun k => ((eventAt s k).map (fun e => e.owner == q.owner)).getD false)
    finishPkt q.id 0 0 l.length (l.foldl (fun u k => discardEvent k u) s) := by
  refine (if_pos h).trans ?_
  have hown : (fun k => match eventAt s k with
      | some e => e.owner == q.owner
      | none => false) = fun k => ((eventAt s k).map (fun e => e.owner == q.owner)).getD false := by
    funext k
    cases eventAt s k <;> rfl
  exact congrArg (fun f : Nat → Bool => finishPkt q.id 0 0 ((List.range 248).filter f).length
    (((List.range 248).filter f).foldl (fun u k => discardEvent k u) s)) hown

theorem doEventClear_beyond (h : 248 ≤ q.fld 16 2) (hall : q.fld 16 2 ≠ 0xFFFF) :
    doEventClear q s = finishPkt q.id 0x0303 0 0 s := (if_neg hall).trans (if_pos h)

variable (hi : q.fld 16 2 < 248)
include hi

theorem doEventClear_empty (h : eventAt s (q.fld 16 2) = none) : doEventClear q s = finishPkt q.id 0 0 0 s := by
  refine (if_neg (by omega)).trans ((if_neg (by omega)).trans ?_)
  simp only [h]

variable {e : PhaseEvent} (he : eventAt s (q.fld 16 2) = some e)
include he

theorem doEventClear_own (h : q.owner = 0 ∨ e.owner = q.owner) :
    doEventClear q s = finishPkt q.id 0 0 1 (discardEvent (q.fld 16 2) s) := by
  refine (if_neg (by omega)).trans ((if_neg (by omega)).trans ?_)
  simp only [he]
  exact if_neg fun hf => h.elim hf.1 hf.2

theorem doEventClear_foreign (h : q.owner ≠ 0) (hne : e.owner ≠ q.owner) :
    doEventClear q s = finishPkt q.id 0x0303 0 0 s := by
  refine (if_neg (by omega)).trans ((if_neg (by omega)).trans ?_)
  simp only [he]
  exact if_pos ⟨h, hne⟩

end EventClear

section Fire

variable {s : State} {i : Nat}

theorem eventFire_empty (h : eventAt s i = none) : eventFire i s = s := by simp only [eventFire, h]

theorem eventFire_reached {e : PhaseEvent} {t : Nat} (h : eventAt s i = some e)
    (ht : reachAt s e.chan e.target = some t) : eventFire i s = fireEvents { s with dts := max s.dts t } := by
  simp only [eventFire, h, ht, advanceTo]

/-- A channel has lost its phase: LOST, or in ACQUIRE after it had one. -/
def phaseLost (ch : PhaseCh) : Prop := ch.st = .lost ∨ ch.st = .acquire ∧ ch.acqFrom ≠ .first

theorem mutedOn_iff (ch : PhaseCh) (a : Nat) : mutedOn ch a = true ↔ phaseLost ch ∧ (a = 3 ∨ a = 4) := by
  simp [mutedOn, phaseLost, and_comm]

variable {e : PhaseEvent} (he : eventAt s i = some e)
include he

theorem reachEvent_discards (hm : mutedOn (phaseCh s e.chan) e.action = true) (hr : e.repeats = 0) :
    reachEvent i s = discardEvent i s := by
  simp only [reachEvent, he, hm, hr, beq_self_eq_true, Bool.and_self, if_true]

theorem reachEvent_skips (hm : mutedOn (phaseCh s e.chan) e.action = true) (hr : e.repeats ≠ 0) :
    reachEvent i s = setEvent i (some { e with
      cycle := e.cycle + e.repeats, target := armedTarget s { e with cycle := e.cycle + e.repeats } }) s := by
  have hr' : (e.repeats == 0) = false := by simpa using hr
  simp only [reachEvent, he, hm, hr', Bool.and_false, Bool.false_eq_true, if_false, if_true, if_neg hr]
  cases e.wait <;> rfl

theorem reachEvent_fires (hm : mutedOn (phaseCh s e.chan) e.action = false) (hr : e.repeats = 0) :
    reachEvent i s = setEvent i none (match e.wait with
      | some (id, r1) => finishPkt id 0 s.dts r1 (fireAction i e s)
      | none => fireAction i e s) := by
  simp only [reachEvent, he, hm, hr, Bool.false_and, Bool.false_eq_true, if_false, if_true] <;>
    cases e.wait <;> rfl

end Fire

/-! Gates, pulses and the site's events (R319, R322, R324, R326, R327) -/

section Site

variable {s : State}

theorem closeGate_none {i : Nat} (h : s.ptu.gates.find? (·.stream == i) = none) : closeGate i s = s := by
  simp only [closeGate, h]

theorem closeGate_reached {i t : Nat} {w : GateWindow} (h : s.ptu.gates.find? (·.stream == i) = some w)
    (ht : reachAt s w.chan w.close = some t) : closeGate i s =
      let u := { s with dts := max s.dts t }
      { u with ptu := { u.ptu with
        gates := u.ptu.gates.filter (fun x => !(x.stream == i && decide (x.close ≤ phaseAt u x.chan))) } } := by
  simp only [closeGate, h, ht]
  rfl

theorem endPulse_idle {i : Nat} (h : Tbl.get none s.ptu.pulses i = none) : endPulse i s = s := by
  simp only [endPulse, h]

theorem endPulse_ends {i e : Nat} (h : Tbl.get none s.ptu.pulses i = some e) : endPulse i s =
    { s with dts := max s.dts e, out := s.out ++ [.pulse i false]
             ptu := { s.ptu with pulses := Tbl.set none s.ptu.pulses i none } } := by
  simp only [endPulse, h, pulseOff, advanceTo, updPtu, emit]

theorem clearExpiry_evaluates {t : Nat} (h : s.ptu.clearSince = some t)
    (hs : s.ptu.site = .sag ∨ s.ptu.site = .bridge) : clearExpiry s =
      siteEval { s with dts := max s.dts (t + regFld s 0x2600018 15 0 * 1000000) } := by
  simp only [clearExpiry, h]
  exact if_pos (by simpa using hs)

theorem clearExpiry_ignored (h : s.ptu.clearSince = none ∨ s.ptu.site ≠ .sag ∧ s.ptu.site ≠ .bridge) :
    clearExpiry s = s := by
  unfold clearExpiry
  split
  · next ht => exact if_neg (by simpa [ht] using h)
  · rfl

theorem restoreExpiry_evaluates (h : s.ptu.site = .restore) : restoreExpiry s =
    siteEval { s with dts := max s.dts (s.ptu.restoreSince + regFld s 0x2600018 31 16 * 1000000) } :=
  if_pos (by simpa using h)

theorem restoreExpiry_ignored (h : s.ptu.site ≠ .restore) : restoreExpiry s = s := if_neg (by simpa using h)

theorem allMissExpiry_evaluates {t : Nat} (h : s.ptu.allMissSince = some t) :
    allMissExpiry s = siteEval { s with dts := max s.dts (t + 2 * refPeriod s) } := by
  simp only [allMissExpiry, h, advanceTo]

theorem allMissExpiry_ignored (h : s.ptu.allMissSince = none) : allMissExpiry s = s := by
  simp only [allMissExpiry, h]

/-! The site's next state, the first row of R327 that applies -/

theorem nextSite_bridge (hb : bridgeCause s = true) (hst : s.ptu.site ≠ .bridge) : nextSite s = some .bridge := by
  simp [nextSite, hb, hst]

variable (hb : bridgeCause s = false)
include hb

theorem nextSite_sag (hg : sagCause s = true) (hst : s.ptu.site ≠ .sag) : nextSite s = some .sag := by
  simp [nextSite, hb, hg, hst]

variable (hg : sagCause s = false)
include hg

theorem nextSite_normal (hst : s.ptu.site = .normal) :
    nextSite s = if wanderCause s then some .wander else none := by
  simp [nextSite, hb, hg, hst]

theorem nextSite_wander (hst : s.ptu.site = .wander) :
    nextSite s = if wanderCause s then none else some .normal := by
  cases hw : wanderCause s <;> simp [nextSite, hb, hg, hst, hw]

theorem nextSite_clear {t : Nat} (hst : s.ptu.site = .sag ∨ s.ptu.site = .bridge) (ht : s.ptu.clearSince = some t) :
    nextSite s = if t + regFld s 0x2600018 15 0 * 1000000 ≤ s.dts then some .restore else none := by
  rcases hst with hst | hst <;> simp [nextSite, hb, hg, hst, ht]

end Site

/-! The bus lock (R321) -/

theorem eventAt_setEvent_same (i : Nat) (e : Option PhaseEvent) (s : State) : eventAt (setEvent i e s) i = e :=
  get_set_same _ _ _ _

theorem eventAt_setEvent_other {i j : Nat} (h : j ≠ i) (e : Option PhaseEvent) (s : State) :
    eventAt (setEvent i e s) j = eventAt s j := get_set_other _ _ _ _ _ h

/-- Entries emptied one after another are empty. -/
theorem eventAt_foldl_clear (l : List Nat) (j : Nat) (s : State) :
    eventAt (l.foldl (fun t i => setEvent i none t) s) j = if j ∈ l then none else eventAt s j := by
  induction l generalizing s with
  | nil => simp
  | cons i l ih =>
    rw [List.foldl_cons, ih]
    by_cases hj : j = i
    · subst hj
      simp [eventAt_setEvent_same]
    · simp [hj, eventAt_setEvent_other hj]

/-- An entry is one of the bus lock's: an over start on its channel at an angle, once a cycle. -/
def busEntry (c angle : Nat) (e : PhaseEvent) : Prop :=
  e.chan = c ∧ e.action = 4 ∧ e.repeats = 1 ∧ e.stagger = false ∧ e.angle = angle

/-- Arming `n` entries from 248 on fills those and leaves the rest. -/
theorem eventAt_foldl_arm (c : Nat) (a : Nat → Nat) (s : State) (n : Nat) :
    let t := (List.range n).foldl (fun t k => armSystem (248 + k) c 4 (a k) 0 false 1 t) s
    (∀ k < n, ∃ e, eventAt t (248 + k) = some e ∧ busEntry c (a k) e) ∧
      ∀ k, n ≤ k → eventAt t (248 + k) = eventAt s (248 + k) := by
  induction n with
  | zero => exact ⟨fun k hk => absurd hk (Nat.not_lt_zero k), fun _ _ => rfl⟩
  | succ n ih =>
    obtain ⟨harmed, hrest⟩ := ih
    simp only [List.range_succ, List.foldl_append, List.foldl_cons, List.foldl_nil]
    refine ⟨fun k hk => ?_, fun k hk => ?_⟩
    · by_cases h : k = n
      · subst h
        exact ⟨_, eventAt_setEvent_same _ _ _, rfl, rfl, rfl, rfl, rfl⟩
      · obtain ⟨e, he, hbus⟩ := harmed k (by omega)
        exact ⟨e, (eventAt_setEvent_other (by omega) _ _).trans he, hbus⟩
    · exact (eventAt_setEvent_other (by omega) _ _).trans (hrest k (by omega))

/-- With the lock on and the channel in phase, the four entries are emptied and the first `n` armed. -/
theorem armBuslock_on {s : State} (hen : regBit s 0x2600038 31 = true)
    (hp : hasPhase (phaseCh s (regFld s 0x2600038 25 24)) = true) : armBuslock s =
      (List.range (2 ^ regFld s 0x2600038 17 16)).foldl (fun t k => armSystem (248 + k) (regFld s 0x2600038 25 24) 4
        ((regFld s 0x2600038 15 0 + k * 65536 / 2 ^ regFld s 0x2600038 17 16) % 65536) 0 false 1 t)
        ((run 248 4).foldl (fun t i => setEvent i none t) s) :=
  if_pos (by rw [hen]; exact hp)

/-- Settles O44: a packet by its checks in R330's order; an event, gate or pulse by what waits; the site by R327's rows;
the bus lock by the entries it arms. -/
theorem phaseEventsAndSitePower : Obligations.PhaseEventsAndSitePower := by
  refine ⟨fun s r p rest h => ?eventSet, fun s r p rest h => ?eventClear, fun s i hs => ?fire, fun s i e he => ?reach,
    fun s i hs => ?gates, fun s i high hs => ?site, fun s => ?next, fun s r d v => ?registers,
    fun s c k n hen hc hc3 hp hn hn4 => ?buslock⟩
  case eventSet =>
    intro t o c act fl angle arg ends
    have hrun : Machine.exec (.eventSet r) s = done (doEventSet (inflightOfPacket s r p) t) :=
      congrArg done (frontRow_runs (size := oneUnit) h doEventSet)
    refine ⟨fun hbad => ?_, fun h1 h2 h3 h4 => ?_⟩
    · refine hrun.trans (congrArg done (doEventSet_illegal fun hl => ?_))
      obtain ⟨h1, h2, h3, h4⟩ := hl
      rcases hbad with hb | hb | hb | hb
      · exact absurd h1 (Nat.not_lt.2 hb)
      · exact hb h2
      · exact absurd h3 (Nat.not_lt.2 hb)
      · exact Bool.false_ne_true (hb.symm.trans h4)
    · have hl : EventLegal (inflightOfPacket s r p) := ⟨h1, h2, h3, h4⟩
      refine ⟨fun ha ho => hrun.trans (congrArg done (doEventSet_foreign hl ha ho)), fun ho => ?_⟩
      have hall := hrun.trans (congrArg done (doEventSet_allowed hl ho))
      refine ⟨fun hf => hall.trans (congrArg done (if_pos hf)), fun hf => ?_⟩
      replace hall := hall.trans (congrArg done (if_neg (Bool.eq_false_iff.1 hf)))
      refine ⟨fun hv => hall.trans (congrArg done (if_pos hv)), fun hv => ?_⟩
      replace hall := hall.trans (congrArg done (if_neg (Bool.eq_false_iff.1 hv)))
      refine ⟨fun hk => hall.trans (congrArg done (if_pos (by rw [Bool.not_eq_true']; exact hk))), fun hk => ?_⟩
      replace hall := hall.trans (congrArg done (if_neg (by rw [Bool.not_eq_true', Bool.not_eq_false]; exact hk)))
      refine ⟨fun hfree => ?_, fun i hfree => ?_⟩
      · rw [hfree] at hall
        exact hall
      · rw [hfree] at hall
        exact ⟨fun hfar => hall.trans (congrArg done (if_pos hfar)),
          fun hnear hw => hall.trans (congrArg done
            ((if_neg (Nat.not_lt.2 hnear)).trans (if_neg (Bool.eq_false_iff.1 hw)))),
          fun hnear hw => hall.trans (congrArg done ((if_neg (Nat.not_lt.2 hnear)).trans (if_pos hw)))⟩
  case eventClear =>
    have hrun := frontRow_runs (size := oneUnit) h doEventClear
    exact ⟨fun hall => congrArg done (hrun.trans (doEventClear_all hall)),
      fun hb hall => congrArg done (hrun.trans (doEventClear_beyond hb hall)),
      fun hi he => congrArg done (hrun.trans (doEventClear_empty hi he)),
      fun e hi he => ⟨fun ho => congrArg done (hrun.trans (doEventClear_own hi he ho)),
        fun ho hne => congrArg done (hrun.trans (doEventClear_foreign hi he ho hne))⟩⟩
  case fire =>
    exact ⟨fun he => congrArg done ((whenStandby_pos hs).trans (eventFire_empty he)),
      fun e t he ht => congrArg done ((whenStandby_pos hs).trans (eventFire_reached he ht))⟩
  case reach =>
    intro lost
    have hfree : ¬ lost ∨ e.action ≠ 3 ∧ e.action ≠ 4 → mutedOn (phaseCh s e.chan) e.action = false :=
      fun h => Bool.eq_false_iff.2 fun hm => by
        obtain ⟨hl, ha⟩ := (mutedOn_iff _ _).1 hm
        exact h.elim (fun hn => hn hl) (fun hn => ha.elim hn.1 hn.2)
    refine ⟨fun hl ha hr => reachEvent_discards he ((mutedOn_iff _ _).2 ⟨hl, ha⟩) hr,
      fun hl ha hr => reachEvent_skips he ((mutedOn_iff _ _).2 ⟨hl, ha⟩) hr, fun hn hw hr => ?_,
      fun hn id r1 hw hr => ?_⟩
    · rw [reachEvent_fires he (hfree hn) hr, hw]
    · rw [reachEvent_fires he (hfree hn) hr, hw]
  case gates =>
    exact ⟨fun w t h ht => congrArg done ((whenStandby_pos hs).trans (closeGate_reached h ht)),
      fun h => congrArg done ((whenStandby_pos hs).trans (closeGate_none h)),
      fun e h => congrArg done ((whenStandby_pos hs).trans (endPulse_ends h)),
      fun h => congrArg done ((whenStandby_pos hs).trans (endPulse_idle h))⟩
  case site =>
    exact ⟨fun hi => congrArg done ((whenStandby_pos hs).trans (if_neg (Nat.not_le.2 hi))),
      fun hi => congrArg done ((whenStandby_pos hs).trans (if_pos hi)),
      fun t ht hst => congrArg done ((whenStandby_pos hs).trans (clearExpiry_evaluates ht hst)),
      fun h => congrArg done ((whenStandby_pos hs).trans (clearExpiry_ignored h)),
      fun h => congrArg done ((whenStandby_pos hs).trans (restoreExpiry_evaluates h)),
      fun h => congrArg done ((whenStandby_pos hs).trans (restoreExpiry_ignored h)),
      fun t ht => congrArg done ((whenStandby_pos hs).trans (allMissExpiry_evaluates ht)),
      fun h => congrArg done ((whenStandby_pos hs).trans (allMissExpiry_ignored h))⟩
  case next =>
    exact ⟨nextSite_bridge, nextSite_sag, nextSite_normal, nextSite_wander,
      fun t hb hg hst ht => nextSite_clear hb hg hst ht⟩
  case registers =>
    refine ⟨fun h => ?_, fun h => congrArg done ((regWrite_written h (by decide) (by decide)).trans rfl),
      fun h => ?_⟩
    · intro t hen
      have hexec : Machine.exec (.siteEnable r v) s = done (siteCfgWritten (rawAt s 0x2600010) t) :=
        congrArg done ((regWrite_written h (by decide) (by decide)).trans rfl)
      rw [hexec]
      refine ⟨fun hwas => congrArg done (if_pos ?_), fun hwas => congrArg done ((if_neg ?_).trans (if_neg ?_))⟩
      · rw [hen]
        exact congrArg not hwas
      · rw [hen]
        exact fun hc => Bool.false_ne_true ((congrArg not hwas).symm.trans hc)
      · rw [hen]
        exact Bool.false_ne_true
    · intro t
      have hexec : Machine.exec (.staggerLocalWrite r v) s = done (staggerWritten t) :=
        congrArg done ((regWrite_written h (by decide) (by decide)).trans rfl)
      rw [hexec]
      exact ⟨fun ha => congrArg done (if_pos ha), fun ha => congrArg done (if_neg (Bool.eq_false_iff.1 ha))⟩
  case buslock =>
    subst hc hn
    intro a
    obtain ⟨harmed, hrest⟩ := eventAt_foldl_arm (regFld s 0x2600038 25 24) a
      ((run 248 4).foldl (fun t i => setEvent i none t) s) (2 ^ regFld s 0x2600038 17 16)
    have harm := armBuslock_on hen hp
    refine ⟨fun hk => ?_, fun hk hk4 => ?_⟩
    · rw [harm]
      exact harmed k hk
    · rw [harm]
      refine (hrest k hk).trans ((eventAt_foldl_clear _ _ _).trans (if_pos ?_))
      have hkeys : k = 0 ∨ k = 1 ∨ k = 2 ∨ k = 3 := by omega
      rcases hkeys with rfl | rfl | rfl | rfl <;> decide

end Sys2Proof.Proofs
end

section
/-! Chapter 12: the sources of the cap, its target and limiter, and the ramp (R332, R333, R335, R350). -/

namespace Sys2Proof.Proofs

open Sys2Proof Sys2Proof.Machine Sys2Proof.Safety Sys2Proof.Laws

/-! The target (R333) -/

/-- The five sources by their codes: HOST, HUDDLE, SITE, THERMAL, BOARD. -/
def capSources (s : State) : List Nat := [srcHost s, s.pgv.huddle, srcSite s, s.pgv.thermal, srcBoard s]

theorem targetCap_le (s : State) : ∀ w ∈ capSources s, targetCap s ≤ w := by
  simp only [capSources, targetCap, List.forall_mem_cons, List.not_mem_nil, false_imp_iff, implies_true, and_true]
  omega

theorem targetCap_mem (s : State) : targetCap s ∈ capSources s := by
  simp only [capSources, targetCap, List.mem_cons, List.not_mem_nil, or_false]
  omega

/-- The limiter gives the target, and no source before it in R333's order does. -/
theorem limiterOf_first (s : State) : (capSources s)[limiterOf s]? = some (targetCap s) ∧
    ∀ j ∈ [3, 4, 2, 1, 0].takeWhile (· != limiterOf s), (capSources s)[j]? ≠ some (targetCap s) := by
  have hmem := targetCap_mem s
  simp only [capSources, List.mem_cons, List.not_mem_nil, or_false] at hmem
  simp only [limiterOf, capSources]
  by_cases h3 : s.pgv.thermal = targetCap s
  · simp [h3]
  by_cases h4 : srcBoard s = targetCap s
  · simp [h3, h4]
  by_cases h2 : srcSite s = targetCap s
  · simp [h3, h4, h2]
  by_cases h1 : s.pgv.huddle = targetCap s
  · simp [h3, h4, h2, h1]
  have h0 : srcHost s = targetCap s := by
    rcases hmem with h | h | h | h | h
    · exact h.symm
    · exact absurd h.symm h1
    · exact absurd h.symm h2
    · exact absurd h.symm h3
    · exact absurd h.symm h4
  simp [h3, h4, h2, h1, h0]

/-! SITE and BOARD (R332, R335) -/

section Sources

variable {s : State}

theorem srcSite_quorum (h : s.pgv.quorum = true) : srcSite s = siteCapOf s s.pgv.siteState := if_pos h

theorem srcSite_uncoordinated (h : s.pgv.quorum = false) :
    srcSite s = min (siteCapOf s s.pgv.siteState) (regFld s 0x2700028 26 16) := if_neg (Bool.eq_false_iff.1 h)

theorem srcBoard_throttled (h : s.pgv.brdThrot = true) :
    srcBoard s = min (regFld s 0x2700030 10 0) (regFld s 0x2700030 26 16) := if_pos h

theorem srcBoard_free (h : s.pgv.brdThrot = false) : srcBoard s = regFld s 0x2700030 10 0 :=
  if_neg (Bool.eq_false_iff.1 h)

end Sources

/-! Rows -/

theorem capLegal_iff (w : Nat) : capLegal w = true ↔ 250 ≤ w ∧ w ≤ 1500 := by simp [capLegal]

/-- A write of a SITE cap register determines the target anew. -/
theorem writeHook_siteCap (cons : Cons) (r : Requester) {ix : Nat} (old new : Nat) (l : Bool) (t : State) (hix : ix < 3) :
    writeHook cons r (0x2700020 + 4 * ix) old new l t = retarget t := by
  have h : ix = 0 ∨ ix = 1 ∨ ix = 2 := by omega
  rcases h with rfl | rfl | rfl <;> rfl

/-- Without VSTBY an event of the standby domain does nothing. -/
theorem whenStandby_neg {f : State → State} {s : State} (h : standby s = false) : whenStandby f s = s :=
  if_neg (Bool.eq_false_iff.1 h)

theorem rampTick_rises {s : State} (h : s.pgv.applied < s.pgv.target * 1000) : rampTick s = { s with pgv :=
    { s.pgv with applied := min (s.pgv.target * 1000) (s.pgv.applied + regFld s 0x2700038 15 0 * 10) } } :=
  if_pos (decide_eq_true h)

theorem rampTick_reached {s : State} (h : s.pgv.target * 1000 ≤ s.pgv.applied) : rampTick s = s :=
  if_neg (by rw [ramping, decide_eq_true_eq]; omega)

/-- Settles O45: the target by its minimum, the limiter by R333's order of ties, each row by the source it changes. -/
theorem capSourcesMakeTheAppliedCap : Obligations.CapSourcesMakeTheAppliedCap := by
  refine ⟨fun s => ?target, fun s r p rest => ?packets, fun s r v d => ?registers, fun s hs => ?ramp, fun s hi => ?quorum,
    fun s => ⟨srcSite_uncoordinated, srcSite_quorum, srcBoard_throttled, srcBoard_free⟩,
    fun s hs low => ⟨congrArg done (whenStandby_neg hs), congrArg done (whenStandby_neg hs)⟩⟩
  case target =>
    obtain ⟨hlim, hties⟩ := limiterOf_first s
    have happ : (retarget s).pgv.applied = min s.pgv.applied (targetCap s * 1000) := rfl
    refine ⟨rfl, targetCap_mem s, targetCap_le s, hlim, hties, ?_⟩
    change (retarget s).pgv.applied ≤ 1000 * targetCap s ∧ (s.pgv.applied ≤ 1000 * targetCap s → _) ∧
      (1000 * targetCap s < s.pgv.applied → (retarget s).pgv.applied = 1000 * targetCap s)
    rw [happ]
    omega
  case packets =>
    intro t w
    refine ⟨fun h => ?_, fun h => congrArg done (frontRow_runs (size := oneUnit) h doPowerQuery)⟩
    have hrun := frontRow_runs (size := oneUnit) h doCapSet
    refine ⟨fun hlo hhi => congrArg done (hrun.trans (if_pos ((capLegal_iff w).2 ⟨hlo, hhi⟩))),
      fun hout => congrArg done (hrun.trans (if_neg fun hl => ?_))⟩
    have := (capLegal_iff w).1 hl
    omega
  case registers =>
    exact ⟨fun h => congrArg done ((regWrite_written h (by decide) (by decide)).trans rfl),
      fun ix hix h => congrArg done ((regWrite_written h (by omega) (by omega)).trans (writeHook_siteCap _ _ _ _ _ _ hix)),
      fun h => congrArg done ((regWrite_written h (by decide) (by decide)).trans rfl)⟩
  case ramp =>
    exact ⟨fun h => congrArg done ((whenStandby_pos hs).trans (rampTick_rises h)),
      fun h => congrArg done ((whenStandby_pos hs).trans (rampTick_reached h)),
      fun low => congrArg done (whenStandby_pos hs)⟩
  case quorum =>
    exact ⟨congrArg done (whenIsland_pos hi), congrArg done (whenIsland_pos hi)⟩

end Sys2Proof.Proofs
end

section
/-! Chapter 12: the DVFS loop while an error storm isolates the chip (R341, R343, R494, R496). -/

namespace Sys2Proof.Proofs

open Sys2Proof Sys2Proof.Machine Sys2Proof.Safety Sys2Proof.Laws

/-- FCLK stands still, and nothing of the standby domain waits. -/
abbrev StandsStill (s : State) : Prop :=
  fclkRuns s = false ∧ s.mirror = [] ∧
  (s.fbc.busy = 0 ∧ s.fbc.loading = 0 ∧ s.ptu.overStarts = [] ∧ s.fbc.clkHoldEnd = none ∧ s.fbc.refDue = none) ∧
  s.mgp.queue = [] ∧ s.mgp.dest = none

/-- Such a block stays as it is between commands. -/
theorem settle_standsStill {s : State} (h : StandsStill s) : settle s = s := by
  obtain ⟨hclk, hmirror, hbus, hqueue, hdest⟩ := h
  have hsame : { s with mirror := [] } = s := by rw [← hmirror]
  have hfbc : settleFbc s = s := if_pos hbus
  have hmmp : (if romRuns s then settleMmp 17 s else s) = s := by rw [settleMmp_rest hqueue, ite_self]
  have hevents : settleEvents s = s := if_pos (by rw [hdest]; rfl)
  have hlink : settleElk s = s := if_pos (by simp [linkRuns, hclk])
  simp only [settle, drainMirror_rest hmirror, hclk, Bool.false_eq_true, if_false, hfbc, hmmp, hsame, hevents, hlink]

/-- VCORE set to another value than it has is set after the command too. -/
theorem vcoreSet_settle_setVcore {s : State} (h : StandsStill s) {mv : Nat} (hv : s.pgv.vcoreSet ≠ mv) :
    (settle (setVcore mv s)).pgv.vcoreSet = mv := by
  have hset : setVcore mv s = emit (.vout 0 mv) { s with pgv := { s.pgv with vcoreSet := mv } } := if_neg hv
  have hstill : StandsStill (emit (.vout 0 mv) { s with pgv := { s.pgv with vcoreSet := mv } }) := h
  rw [hset, settle_standsStill hstill]
  rfl

/-- VCORE's points lie at 0.60 V or above (R341). -/
theorem vfMv_pos (f : Nat) : 0 < vfMv f := Nat.lt_of_lt_of_le (by decide) (Nat.le_max_left 600 _)

/-- A chip in ON at its lowest setting and above its cap, with a FATAL error in handling and class 15 one SECONDARY
entry short of its storm limit. -/
def stormNear : State :=
  { State.reset with
    pwr := { State.reset.pwr with vstby := .qualified, st := .on }
    pgv := { State.reset.pgv with applied := 0, pOther := 1, fclkMhz := 400, duty := 3, vcoreSet := 0 }
    err := { State.reset.err with classes :=
      [(0, { handling := true, sev := sevFatal }), (15, { handling := true, sev := sevContained, secondary := 63 })] } }

/-- FLOOR_UNMET's entry raises class 15 to a second FATAL (R494), which isolates the chip (R496): FCLK stops, and the
loop ends with VCORE as it was. -/
theorem dvfsTick_stormNear : StandsStill (dvfsTick 0 0 stormNear) ∧ (dvfsTick 0 0 stormNear).pgv.vcoreSet = 0 := by
  decide +kernel

/-- Refutes O46: a DVFS tick whose FLOOR_UNMET entry completes an error storm stops FCLK before VCORE is commanded,
where the statement, judging FCLK before the entry, has VCORE moved. -/
theorem not_theGovernorMeasuresAndClamps : ¬ Obligations.TheGovernorMeasuresAndClamps := by
  rintro ⟨-, -, -, -, hdvfs, -⟩
  have hclaim := ((hdvfs stormNear 0 0 (by decide)).2 (by decide)).1 (by decide +kernel)
  obtain ⟨hstill, hkept⟩ := dvfsTick_stormNear
  have hsame := congrArg (fun t => t.pgv.vcoreSet) (Host.Outcome.next.inj hclaim)
  have hvcore := hsame.trans (vcoreSet_settle_setVcore (by decide +kernel) (Nat.ne_of_lt (vfMv_pos _)))
  have hact : whenStandby (dvfsTick 0 0) stormNear = dvfsTick 0 0 stormNear := whenStandby_pos (by decide)
  simp only [hact, settle_standsStill hstill, hkept] at hvcore
  exact absurd hvcore (Nat.ne_of_lt (vfMv_pos _))

end Sys2Proof.Proofs
end

section
/-! Chapter 13, fans and pumps: the duty that leaves, the speed loop, the tachometer and ageing (R354–R360). -/

namespace Sys2Proof.Proofs

open Sys2Proof Sys2Proof.Machine Sys2Proof.Safety Sys2Proof.Laws

/-! A channel's registers -/

theorem pwmReg_ctrl (c : Nat) : pwmReg c 0 = 0x2800100 + c * 0x20 := rfl

theorem pwmReg_target (c : Nat) : pwmReg c 4 = 0x2800104 + c * 0x20 := by rw [pwmReg]; omega

theorem pwmReg_tach (c : Nat) : pwmReg c 0xC = 0x280010C + c * 0x20 := by rw [pwmReg]; omega

/-! The requested and the output duty (R355–R357) -/

section Duty

variable {s : State} {c d : Nat}

theorem reqDuty_released (h : regBit s (pwmReg c 0) 31 = false) : reqDuty s c = none := by
  simp [reqDuty, h]

theorem reqDuty_duty (h : regBit s (pwmReg c 0) 31 = true) (hm : regBit s (pwmReg c 0) 30 = false) :
    reqDuty s c = some (regFld s (pwmReg c 0) 26 16) := by
  simp [reqDuty, h, hm]

theorem reqDuty_speed (h : regBit s (pwmReg c 0) 31 = true) (hm : regBit s (pwmReg c 0) 30 = true) :
    reqDuty s c = some (if regFld s (pwmReg c 4) 15 0 = 0 then 0 else (pwmAt s c).req) := by
  simp [reqDuty, h, hm]

theorem outDuty_released (h : regBit s (pwmReg c 0) 31 = false) : outDuty s c = (1024, false) := by
  rw [outDuty, reqDuty_released h]

theorem outDuty_below (h : reqDuty s c = some d) (h0 : 0 < d) (hm : d < regFld s (pwmReg c 0) 10 0) :
    outDuty s c = (if regBit s (pwmReg c 0) 29 then regFld s (pwmReg c 0) 10 0 else 0, true) := by
  simp only [outDuty, h, if_pos (And.intro h0 hm)]

theorem outDuty_asked (h : reqDuty s c = some d) (hd : d = 0 ∨ regFld s (pwmReg c 0) 10 0 ≤ d) :
    outDuty s c = (d, false) := by
  simp only [outDuty, h]
  exact if_neg (by omega)

end Duty

/-! The speed loop (R357) -/

/-- One iteration changes the request by a sixteenth of the speed's distance, 32 counts at most, within 0 to 1024. -/
def speedStep (req rpm target : Nat) : Nat :=
  (max 0 (min 1024 ((req : Int) + max (-32) (min 32 (Int.tdiv ((target : Int) - rpm) 16))))).toNat

theorem speedStep_up {req rpm target : Nat} (h : rpm ≤ target) :
    speedStep req rpm target = min 1024 (req + min 32 ((target - rpm + (rpm - target)) / 16)) := by
  have hd : Int.tdiv ((target : Int) - rpm) 16 = (((target - rpm) / 16 : Nat) : Int) := by
    rw [Int.tdiv_eq_ediv_of_nonneg (by omega)]
    omega
  rw [speedStep, hd]
  omega

theorem speedStep_down {req rpm target : Nat} (h : target < rpm) :
    speedStep req rpm target = min 1024 (req - min 32 ((target - rpm + (rpm - target)) / 16)) := by
  have hd : Int.tdiv ((target : Int) - rpm) 16 = -(((rpm - target) / 16 : Nat) : Int) := by
    rw [show (target : Int) - rpm = -((rpm : Int) - target) by omega, Int.neg_tdiv,
      Int.tdiv_eq_ediv_of_nonneg (by omega)]
    omega
  rw [speedStep, hd]
  omega

/-- The channel is enabled in MODE 1 and its speed stands more than 1 % from a TARGET above 0. -/
def speedLoopActs (s : State) (c : Nat) : Prop :=
  let target := regFld s (pwmReg c 4) 15 0
  regBit s (pwmReg c 0) 31 = true ∧ regBit s (pwmReg c 0) 30 = true ∧ target ≠ 0 ∧
    target < 100 * ((target - (pwmAt s c).rpm) + ((pwmAt s c).rpm - target))

theorem speedTick_condition (s : State) (c : Nat) :
    (regBit s (pwmReg c 0) 31 && regBit s (pwmReg c 0) 30 &&
      decide ((regFld s (pwmReg c 4) 15 0 : Int) <
        100 * ((regFld s (pwmReg c 4) 15 0 : Int) - (pwmAt s c).rpm).natAbs) &&
      (regFld s (pwmReg c 4) 15 0 : Int) != 0) = true ↔ speedLoopActs s c := by
  simp only [Bool.and_eq_true, decide_eq_true_eq, bne_iff_ne, ne_eq, speedLoopActs, and_assoc, and_congr_right_iff]
  intro _ _
  omega

theorem speedTick_acts {s : State} {c : Nat} (h : speedLoopActs s c) : speedTick c s = driveFan c (updPwm c (fun p =>
    { p with req := speedStep p.req (pwmAt s c).rpm (regFld s (pwmReg c 4) 15 0) }) s) :=
  if_pos ((speedTick_condition s c).2 h)

theorem speedTick_rests {s : State} {c : Nat} (h : ¬ speedLoopActs s c) : speedTick c s = s :=
  if_neg fun hc => h ((speedTick_condition s c).1 hc)

/-- Only the channel's own state decides what a change of it gives. -/
theorem updPwm_congr {c : Nat} {f g : Pwm → Pwm} {s : State} (h : f (pwmAt s c) = g (pwmAt s c)) :
    updPwm c f s = updPwm c g s := by
  have h' : f (Tbl.get {} s.tfu.pwm c) = g (Tbl.get {} s.tfu.pwm c) := h
  simp only [updPwm, updTfu, Tbl.upd, h']

/-! The tachometer and ageing (R358–R360) -/

theorem rpmOf_measured {es : List Nat} {ppr a b : Nat} (ha : es[0]? = some a) (hb : es[ppr]? = some b) (h : b < a) :
    rpmOf es ppr = some (min 65535 (60000000000 / (a - b))) := by
  simp only [rpmOf, ha, hb, if_neg (Nat.not_le.2 h)]

theorem tachStall_silent {s : State} {c : Nat} (h : (pwmAt s c).out ≠ 0) (hs : (pwmAt s c).stall = false) :
    tachStall c s = tfuEvent 2 (judgeHeld c false (updPwm c (fun p => { p with stall := true, rpm := 0 })
      (advanceTo (quietSince (pwmAt s c) + regFld s (pwmReg c 0xC) 15 8 * 100000000) s))) :=
  if_neg (by simp [h, hs])

theorem tachStall_known {s : State} {c : Nat} (h : (pwmAt s c).out = 0 ∨ (pwmAt s c).stall = true) :
    tachStall c s = s := if_pos h

/-- The channel is held, the ageing task is enabled and a day has passed since its last check. -/
def ageingDue (s : State) (c : Nat) : Prop :=
  (pwmAt s c).heldSince + 60000000000 ≤ s.dts ∧ regBit s 0x2D00000 5 = true ∧ (pwmAt s c).ageDue ≤ s.dts

theorem ageing_condition (s : State) (c : Nat) :
    (!(isHeld s c) || !(regBit s 0x2D00000 5) || decide (s.dts < (pwmAt s c).ageDue)) = true ↔ ¬ ageingDue s c := by
  simp only [isHeld, ageingDue, Bool.or_eq_true, Bool.not_eq_true', decide_eq_true_eq, ← Bool.not_eq_true,
    ← Nat.not_le, not_and_or, or_assoc]

theorem ageingCheck_rests {s : State} {c : Nat} (h : ¬ ageingDue s c) : ageingCheck c s = s :=
  if_pos ((ageing_condition s c).2 h)

theorem ageingCheck_skipped {s : State} {c : Nat} (h : ageingDue s c)
    (hb : baseDuty (basePoints s c) (pwmAt s c).rpm = none ∨ baseDuty (basePoints s c) (pwmAt s c).rpm = some 0) :
    ageingCheck c s = updPwm c (fun p => { p with skipped := true })
      (updPwm c (fun p => { p with ageDue := s.dts + 86400000000000 }) s) := by
  refine (if_neg fun hc => (ageing_condition s c).1 hc h).trans ?_
  rcases hb with hb | hb <;> rw [hb]

theorem ageingCheck_compared {s : State} {c b : Nat} (h : ageingDue s c)
    (hb : baseDuty (basePoints s c) (pwmAt s c).rpm = some (b + 1)) :
    ageingCheck c s =
      let p := pwmAt s c
      let t := updPwm c (fun p => { p with ageDue := s.dts + 86400000000000 }) s
      let i := min 65535 (1024 * p.out / (b + 1))
      let w := decide (regFld s 0x2800030 15 0 ≤ i)
      let a := decide (regFld s 0x2800030 31 16 ≤ i)
      let u := updPwm c (fun p => { p with index := i, valid := true, warn := w, alarm := a, skipped := false }) t
      let x := if w && !p.warn then tfuEvent 3 u else u
      if a && !p.alarm then tfuEvent 4 x else x := by
  refine (if_neg fun hc => (ageing_condition s c).1 hc h).trans ?_
  rw [hb]

/-- Settles O47: the duty by what the channel asks, each row by its tick, edge or check. -/
theorem fansFollowTheirSettings : Obligations.FansFollowTheirSettings := by
  refine ⟨fun s c => ?duty, fun s c h => ?asked, fun s r c v d hc h => ?written, fun s c => ?drive, fun s c hs => ?speed,
    fun s c e hs => ?edge, fun s c hs => ?stall, fun s c hs => ?ageing⟩
  case duty =>
    exact ⟨outDuty_released, fun d h => ⟨outDuty_below h, outDuty_asked h⟩⟩
  case asked =>
    rw [← pwmReg_ctrl, ← pwmReg_target]
    exact ⟨reqDuty_duty h, reqDuty_speed h⟩
  case written =>
    have hrun := (regWrite_written (cons := {}) h (by omega) (by omega)).trans (pwm_hook _ _ _ _ _ _ _ hc)
    intro lo t u
    have hdrive : pwmWritten c (rawAt s lo) t = u := by
      have hlo : pwmReg c 0 = lo := by simp only [pwmReg, lo]; omega
      simp only [pwmWritten, hlo, u, Bool.and_eq_true, Bool.not_eq_true']
      rfl
    rw [hdrive] at hrun
    exact ⟨fun he => congrArg done (hrun.trans (if_pos he)), fun hn => congrArg done (hrun.trans (if_neg hn))⟩
  case drive =>
    intro d t
    exact ⟨fun h => if_pos h, fun h => if_neg h⟩
  case speed =>
    rw [← pwmReg_ctrl, ← pwmReg_target]
    intro target p off on step drives
    have hacts := fun h : speedLoopActs s c => (whenStandby_pos hs).trans (speedTick_acts h)
    refine ⟨fun h hle => congrArg done ((hacts h).trans (congrArg (driveFan c) (updPwm_congr ?_))),
      fun h hlt => congrArg done ((hacts h).trans (congrArg (driveFan c) (updPwm_congr ?_))),
      fun h => congrArg done ((whenStandby_pos hs).trans (speedTick_rests h))⟩
    · rw [speedStep_up hle]
    · rw [speedStep_down hlt]
  case edge =>
    rw [← pwmReg_tach]
    exact ⟨congrArg done (whenStandby_pos hs), fun a b => rpmOf_measured⟩
  case stall =>
    rw [← pwmReg_tach]
    exact ⟨fun h hst => congrArg done ((whenStandby_pos hs).trans (tachStall_silent h hst)),
      fun h => congrArg done ((whenStandby_pos hs).trans (tachStall_known h))⟩
  case ageing =>
    exact ⟨fun h => congrArg done ((whenStandby_pos hs).trans (ageingCheck_rests h)),
      fun h hb => congrArg done ((whenStandby_pos hs).trans (ageingCheck_skipped h hb)),
      fun b h hb => congrArg done ((whenStandby_pos hs).trans (ageingCheck_compared h hb))⟩

end Sys2Proof.Proofs
end

section
/-! Chapter 13, valves, inputs, ropes, flow meters and the leak response (R361–R375). -/

namespace Sys2Proof.Proofs

open Sys2Proof Sys2Proof.Machine Sys2Proof.Safety Sys2Proof.Laws

/-! The switching leg (R362, R363) -/

/-- The on-times of one leg in a period, each as gate, start and end. -/
abbrev LegTimes := List (Nat × Nat × Nat)

/-- Every on-time lies in the period, and the high gate falls DT before the low gate rises. -/
def legSafe (hi lo dt : Nat) (l : LegTimes) : Prop :=
  ∀ a ∈ l, ∀ b ∈ l, a.2.1 ≤ a.2.2 ∧ a.2.2 ≤ 10000 ∧ (a.1 = hi ∨ a.1 = lo) ∧
    (a.1 = hi → b.1 = lo → a.2.2 + dt ≤ b.2.1 ∧ (b.2.2 = 10000 → dt ≤ a.2.1))

/-- One gate on for the whole period never meets the other. -/
theorem legSafe_one {hi lo dt g : Nat} (hne : hi ≠ lo) (hg : g = hi ∨ g = lo) : legSafe hi lo dt [(g, 0, 10000)] := by
  simp only [legSafe, List.mem_singleton, forall_eq]
  exact ⟨Nat.zero_le _, Nat.le_refl _, hg, fun h h' => absurd (h.symm.trans h') hne⟩

/-- Both gates on once, with DT before each. -/
theorem legSafe_two {hi lo dt e b : Nat} (hne : hi ≠ lo) (he : dt ≤ e) (hb : e + dt ≤ b) (h : b ≤ 10000) :
    legSafe hi lo dt [(hi, dt, e), (lo, b, 10000)] := by
  simp only [legSafe, List.mem_cons, List.not_mem_nil, or_false, forall_eq_or_imp, forall_eq]
  simp only [hne, hne.symm, true_or, or_true, true_and, false_imp_iff, true_imp_iff, imp_true_iff, and_true]
  omega

theorem legPeriod_safe {hi lo onT dt mp : Nat} (hne : hi ≠ lo) (hon : onT ≤ 10000) (hdt : dt ≤ 400) (hmp : mp ≤ 1000) :
    legSafe hi lo dt (legPeriod hi lo onT dt mp).1 := by
  rw [legPeriod]
  split
  · exact legSafe_one hne (.inr rfl)
  split
  · exact legSafe_one hne (.inl rfl)
  split
  · exact legSafe_one hne (.inr rfl)
  split
  · exact legSafe_two hne (by omega) (by omega) (by omega)
  split
  · exact legSafe_one hne (.inl rfl)
  · exact legSafe_two hne (by omega) (by omega) (by omega)

/-! Valves (R364, R365) -/

theorem valveReg_ctrl (n : Nat) : valveReg n 0 = 0x2800300 + n * 0x20 := rfl

theorem valveReg_leak (n : Nat) : valveReg n 8 = 0x2800308 + n * 0x20 := by rw [valveReg]; omega

section Valve

variable {s : State} {n : Nat}

theorem driveValve_fault (h : (valveAt s n).fault = true) (gap : Bool) : driveValve n gap s = s := if_pos h

theorem valveFault_again (h : (valveAt s n).fault = true) :
    valveFault n s = updValve n (fun y => { y with fltLow := true }) s := if_pos h

theorem valveFault_first (h : (valveAt s n).fault = false) :
    valveFault n s =
      let t := updValve n (fun y => { y with fltLow := true }) s
      logErr { cls := 16, cause := 3, sev := sevContained, source := 0x28, index := n } (tfuEvent 5
        (updValve n (fun y => { y with
          fault := true, mode := 0, gates := [], live := 0, spoilt := y.spoilt || y.closing.isSome })
          (if (valveAt s n).gates = [] then t else { t with out := t.out ++ [.gates n []] }))) :=
  if_neg (Bool.eq_false_iff.1 h)

theorem leakCloseEnd_none (h : (valveAt s n).closing = none) : leakCloseEnd n s = s := by
  simp only [leakCloseEnd, h]

theorem leakCloseEnd_written {e : Nat} (h : (valveAt s n).closing = some e) (hw : (valveAt s n).written = true) :
    leakCloseEnd n s = driveValve n false (updValve n (fun y => { y with closing := none, written := false })
      { s with dts := max s.dts e }) := by
  simp only [leakCloseEnd, h, hw, if_true, advanceTo]

theorem leakCloseEnd_holds {e : Nat} (h : (valveAt s n).closing = some e) (hw : (valveAt s n).written = false) :
    leakCloseEnd n s = driveValve n false (updValve n (fun y => { y with closed := !y.spoilt })
      (setRegFld (valveReg n 0) 13 0 0 (setRegFld (valveReg n 0) 29 28 (regFld s (valveReg n 8) 27 26)
        (updValve n (fun y => { y with closing := none, written := false }) { s with dts := max s.dts e })))) := by
  simp only [leakCloseEnd, h, hw, Bool.false_eq_true, if_false, advanceTo]

theorem valveStatusWritten_cleared {r : Requester} (hf : (valveAt s n).fault = true)
    (hl : (valveAt s n).fltLow = false) :
    valveStatusWritten r n (2 ^ 31) s = tfuWrote r (driveValve n false (updValve n (fun y => { y with fault := false })
      (updValve n (fun y => { y with sticky := y.sticky &&& 7 ||| y.live }) s))) := by
  refine if_pos ?_
  rw [hf, hl]
  rfl

theorem valveStatusWritten_kept {r : Requester} (h : (valveAt s n).fault = false ∨ (valveAt s n).fltLow = true) :
    valveStatusWritten r n (2 ^ 31) s = updValve n (fun y => { y with sticky := y.sticky &&& 7 ||| y.live }) s := by
  refine if_neg ?_
  rcases h with h | h <;> simp [h]

end Valve

/-! Analog inputs and standings (R367, R368) -/

theorem standing_same {now other : Bool} {n lim : Nat} (h : now = other) : standing now other n lim = (now, 0) :=
  if_pos (by simp [h])

theorem standing_counts {now other : Bool} {n lim : Nat} (h : now ≠ other) (hl : n + 1 < lim) :
    standing now other n lim = (now, n + 1) := by
  rw [standing, if_neg (by simpa using h), if_neg (by omega)]

theorem standing_turns {now other : Bool} {n lim : Nat} (h : now ≠ other) (hl : lim ≤ n + 1) :
    standing now other n lim = (other, 0) := by
  rw [standing, if_neg (by simpa using h), if_pos hl]

section Adc

variable {s : State} {i code : Nat}

theorem adcReg_pair (i : Nat) : adcReg i 4 = 0x2800404 + i * 0x20 ∧ adcReg i 8 = 0x2800408 + i * 0x20 := by
  simp only [adcReg]
  omega

theorem adcSample_off (h : regFld s (adcReg i 0) 31 30 = 0) : adcSample i code s = s := if_pos h

theorem adcSample_linear (h : regFld s (adcReg i 0) 31 30 = 1) :
    adcSample i code s = adcJudge i code (max (-32767) (min 32767 (toInt 16 (rawAt s (adcReg i 8)) +
      Int.tdiv (toInt 16 (fld (rawAt s (adcReg i 4)) 15 0) * code) 4096))) s := by
  simp only [adcSample, h, adcValue, if_true, Nat.one_ne_zero, if_false]

theorem adcSample_outside (h : 1 < regFld s (adcReg i 0) 31 30) (hc : code ≤ 15 ∨ 4080 ≤ code) :
    adcSample i code s = updTfu (fun u => { u with adc := Tbl.upd {} u.adc i (fun x => { x with
      code, value := 0x8000, opened := decide (4080 ≤ code), shorted := decide (code ≤ 15) }) }) s := by
  simp only [adcSample, adcValue, if_neg (show ¬ regFld s (adcReg i 0) 31 30 = 0 by omega),
    if_neg (show ¬ regFld s (adcReg i 0) 31 30 = 1 by omega), if_pos hc]

end Adc

/-! The leak response (R369, R370, R373–R375) and the flow condition (R372) -/

section Leak

variable {s : State}

theorem leakClear_kept (h : s.tfu.latch = false ∨ wetResponder s = true) : leakClear s = s :=
  if_pos (by rcases h with h | h <;> simp [h])

theorem leakClear_ends (hl : s.tfu.latch = true) (hw : wetResponder s = false) :
    leakClear s = tfuEvent 8 (setLeakFloor false { s with tfu := { s.tfu with latch := false, remote := false } }) :=
  if_neg (by simp [hl, hw])

theorem leakTrigger_latched {rope : Option Nat} (h : s.tfu.latch = true) : leakTrigger rope s = s := if_pos h

theorem leakTrigger_starts {rope : Option Nat} (h : s.tfu.latch = false) :
    leakTrigger rope s =
      let t := setLeakFloor true { s with tfu := { s.tfu with latch := true, remote := rope.isNone } }
      let u := tfuEvent 0 (leakFan 5 (leakFan 4 (leakFan 3 (leakFan 2 (leakFan 1 (leakFan 0
        (closeValve 1 (closeValve 0 t))))))))
      let x := logErr { cls := 16, cause := 1, sev := sevContained, source := 0x28, index := rope.getD 0
                        info := rope.getD 0 } u
      queueEvent sevContained 0x0900 (leBytes 4 (tfuStatus x)) x :=
  if_neg (Bool.eq_false_iff.1 h)

theorem ratioOf_excited {sns exc : Nat} (h : exc ≠ 0) : ratioOf sns exc s = (min 1024 (1024 * sns / exc), s) := if_neg h

theorem ropeSample_excited {i sns exc : Nat} (h : exc ≠ 0) :
    ropeSample i sns exc s =
      let ratio := min 1024 (1024 * sns / exc)
      let cfg := rawAt s (0x2800500 + i * 0x10)
      let x := Tbl.get {} s.tfu.ropes i
      let w := standing x.wet (decide (ratio < fld cfg 9 0)) x.nWet (if x.wet then 1000 else fld cfg 15 10)
      let o := standing x.opened (decide (fld cfg 25 16 < ratio)) x.nOpen 100
      let y : Rope := { ratio, wet := w.1, nWet := w.2, opened := o.1, nOpen := o.2 }
      let t := { s with tfu := { s.tfu with ropes := Tbl.set {} s.tfu.ropes i y } }
      let u := if o.1 && !x.opened then logErr { cls := 16, cause := 4, sev := sevNotice, source := 0x28, index := i }
        (tfuEvent 1 t) else t
      if w.1 && !x.wet && bitOf cfg 31 then leakTrigger (some i) u else u := by
  simp only [ropeSample, ratioOf_excited h, updTfu]

theorem flowOk_iff (s : State) : flowOk s = true ↔ regBit s 0x2800028 31 = false ∨
    regFld s 0x2800028 15 0 ≤ (Tbl.get {} s.tfu.flows (regFld s 0x2800028 16 16)).mlpm := by
  simp [flowOk]

/-- A write of 1 to TFU_LEAK_REMOTE or TFU_LEAK_CLEAR. -/
theorem writeHook_leakRemote (cons : Cons) (r : Requester) (old : Nat) (l : Bool) (t : State) :
    writeHook cons r 0x2800018 old 1 l t = leakTrigger none t := rfl

theorem writeHook_leakClear (cons : Cons) (r : Requester) (old : Nat) (l : Bool) (t : State) :
    writeHook cons r 0x2800014 old 1 l t = leakClear t := rfl

end Leak

/-- Settles O48: the leg by its five cases, each row by the branch its state picks. -/
theorem valvesSensorsAndLeaks : Obligations.ValvesSensorsAndLeaks := by
  refine ⟨fun hi lo onT dt mp hne hon hdt hmp => legPeriod_safe hne hon hdt hmp, fun s r n v d hn => ?writes,
    fun s n hs => ?fault, fun s n h gap => driveValve_fault h gap, fun s i code hs => ?adc, fun s i sns exc hs he => ?rope,
    fun now other n lim => ⟨standing_same, standing_counts, standing_turns⟩, fun s r d => ?leak, fun s rope => ?response,
    fun s i n span two e hs => ?flow, flowOk_iff⟩
  case writes =>
    refine ⟨fun h => ?ctrl, fun h => ?timing, fun h => ?status⟩
    case ctrl =>
      have hrun := (regWrite_written (cons := {}) h (by omega) (by omega)).trans (valve_hook _ _ _ _ _ _ hn)
      exact congrArg done hrun
    case timing =>
      have hrun := (regWrite_written (cons := {}) h (by omega) (by omega)).trans (valve_timing_hook _ _ _ _ _ _ _ hn)
      have hlo : 0x2800300 + 0x20 * n + b2n true * 4 = 0x2800304 + 0x20 * n := by
        rw [b2n, if_pos rfl]
        omega
      exact congrArg done ((congrArg (fun a => regWrite {} r a 4 v s) hlo).trans hrun)
    case status =>
      have hrun := (regWrite_written (cons := {}) h (by omega) (by omega)).trans (valve_status_hook _ _ _ _ _ _ _ hn)
      exact ⟨fun hf hl => congrArg done (hrun.trans (valveStatusWritten_cleared hf hl)),
        fun hk => congrArg done (hrun.trans (valveStatusWritten_kept hk))⟩
  case fault =>
    rw [← valveReg_ctrl, ← valveReg_leak]
    refine ⟨fun h => congrArg done ((whenStandby_pos hs).trans (valveFault_again h)),
      fun h => congrArg done ((whenStandby_pos hs).trans (valveFault_first h)),
      fun h => congrArg done ((whenStandby_pos hs).trans (leakCloseEnd_none h)), fun e h => ?_⟩
    exact ⟨fun hw => congrArg done ((whenStandby_pos hs).trans (leakCloseEnd_written h hw)),
      fun hw => congrArg done ((whenStandby_pos hs).trans (leakCloseEnd_holds h hw))⟩
  case adc =>
    rw [← (adcReg_pair i).1, ← (adcReg_pair i).2]
    exact ⟨fun h => congrArg done ((whenStandby_pos hs).trans (adcSample_off h)),
      fun h => congrArg done ((whenStandby_pos hs).trans (adcSample_linear h)),
      fun h hc => congrArg done ((whenStandby_pos hs).trans (adcSample_outside h hc))⟩
  case rope =>
    exact congrArg done ((whenStandby_pos hs).trans (ropeSample_excited he))
  case leak =>
    refine ⟨fun h => ?_, fun h => ?_⟩
    · exact congrArg done ((regWrite_written h (by decide) (by decide)).trans (writeHook_leakRemote _ _ _ _ _))
    · have hrun := (regWrite_written (cons := {}) h (by decide) (by decide)).trans (writeHook_leakClear _ _ _ _ _)
      exact ⟨fun hk => congrArg done (hrun.trans (leakClear_kept hk)),
        fun hl hw => congrArg done (hrun.trans (leakClear_ends hl hw))⟩
  case response =>
    exact ⟨leakTrigger_latched, fun h => ⟨rfl, rfl, leakTrigger_starts h⟩⟩
  case flow =>
    exact congrArg done (whenStandby_pos hs)

end Sys2Proof.Proofs
end

section
/-! Chapter 14, the node on the fluid bus: INIT, filters, queues, sending, errors and bus-off (R380–R398). -/

namespace Sys2Proof.Proofs

open Sys2Proof Sys2Proof.Machine Sys2Proof.Safety Sys2Proof.Laws

/-! INIT (R380, R381) -/

section Init

variable {s t : State} {r : Requester} {old : Nat}

/-- What a change of FBC_CTRL.RESTRICTED raises. -/
def restrictNoted (old : Nat) (s : State) : State :=
  if regBit s 0x2900000 25 = bitOf old 25 then s else fbcEvent 20 s

theorem fbcCtrlWritten_leaves (ho : bitOf old 31 = true) (hn : regBit t 0x2900000 31 = false) :
    fbcCtrlWritten r old t = initLeave r (restrictNoted old t) := by
  simp only [fbcCtrlWritten, ho, hn, restrictNoted, beq_iff_eq, Bool.not_false, Bool.and_self, if_true]

theorem fbcCtrlWritten_enters (ho : bitOf old 31 = false) (hn : regBit t 0x2900000 31 = true) :
    fbcCtrlWritten r old t = initEnter (restrictNoted old t) := by
  simp only [fbcCtrlWritten, ho, hn, restrictNoted, beq_iff_eq, Bool.not_true, Bool.not_false, Bool.and_self,
    Bool.false_eq_true, if_true, if_false]

theorem initLeave_passed (h : fbcCheck s = none) :
    initLeave r s = updFbc (fun b => { b with
      cfgErr := none, integrated := s.dts + bitsNs s 11, sync := 0, curOver := none, misses := 0, lastSync := none
      corr := 0, good := 0, lastErr := 0 }) s := by
  simp only [initLeave, h]

theorem initLeave_failed {off : Nat} (h : fbcCheck s = some off) :
    initLeave r s = logCfg 1 (0x2908000 + off) r (updFbc (fun b => { b with cfgErr := some off })
      { setRegFld 0x2900000 31 31 1 s with free := s.free + 1 }) := by
  simp only [initLeave, h]

end Init

/-! Reception (R390–R394) -/

section Receive

variable {s : State} {f : CanFrame} {sof up : Nat}

/-- The node takes frames whose start of frame it can judge. -/
def nodeListens (s : State) (sof : Nat) : Prop :=
  fbcRuns s = true ∧ s.fbc.clkHold = false ∧ s.fbc.busOff = false ∧ s.fbc.integrated ≤ sof

/-- The state after the receive counter has taken a frame. -/
def frameCounted (sof up : Nat) (s : State) : State :=
  countRx up (updFbc (fun b => { b with lastErr := 0 }) { s with dts := max s.dts sof })

theorem frameReceive_deaf (h : ¬ nodeListens s sof) : frameReceive f sof up s = s := by
  refine if_pos ?_
  simp only [nodeListens, not_and_or, Bool.not_eq_true, Bool.not_eq_false, Nat.not_le] at h
  rcases h with h | h | h | h <;> simp [h]

theorem frameReceive_idle (h : nodeListens s sof) (hs : (frameCounted sof up s).fbc.sending = none) :
    frameReceive f sof up s = filterFrame f sof (if isRef (frameCounted sof up s) f then
      receiveRef f sof (frameCounted sof up s) else frameCounted sof up s) := by
  obtain ⟨hrun, hclk, hoff, hint⟩ := h
  have hgo : (!(fbcRuns s) || s.fbc.clkHold || s.fbc.busOff || decide (sof < s.fbc.integrated)) = false := by
    simp only [hrun, hclk, hoff, Nat.not_lt.2 hint, decide_false, Bool.not_true, Bool.or_self]
  have hc : countRx up (updFbc (fun b => { b with lastErr := 0 }) (advanceTo sof s)) = frameCounted sof up s := rfl
  simp only [frameReceive, hgo, Bool.false_eq_true, if_false, hc, hs]

theorem filterOf_iff (s : State) (f : CanFrame) (k : Nat) :
    filterOf s f = some k ↔ k < 96 ∧ filterHits s f k = true ∧ ∀ j < k, filterHits s f j = false := by
  simp only [filterOf, List.find?_range_eq_some, List.mem_range, Bool.not_eq_true']
  tauto

theorem filterHits_enabled {k : Nat} (h : filterHits s f k = true) :
    bitOf (ramWord s (16 * k)) 31 = true ∧ bitOf (ramWord s (16 * k)) 30 = f.ide := by
  simp only [filterHits] at h
  split at h
  · rename_i hc
    simpa using hc
  · exact absurd h Bool.false_ne_true

/-- The node keeps remote frames of this format. -/
def takesFormat (s : State) (f : CanFrame) : Prop :=
  regBit s 0x2900018 (if f.ide then 9 else 8) = false ∨ f.rtr = false

theorem filterFrame_remote (hm : fbcMode s = 0) (hr : f.rtr = true)
    (hb : regBit s 0x2900018 (if f.ide then 9 else 8) = true) : filterFrame f sof s = s := by
  simp only [filterFrame, hm, hr, hb, bne_self_eq_false, Bool.false_and, Bool.and_self, Bool.false_eq_true, if_true,
    if_false]

theorem takesFormat_kept (h : takesFormat s f) : (f.rtr && regBit s 0x2900018 (if f.ide then 9 else 8)) = false := by
  rcases h with h | h <;> simp only [h, Bool.and_false, Bool.false_and]

/-- Where the action of a filter element puts a received element (R389–R393). -/
def placeByAction (act buf : Nat) (e : List Byte) (s : State) : State :=
  match act with
  | 1 => storeQueue false e s
  | 2 => storeQueue true e s
  | 3 => storeBuffer buf e s
  | 4 => storeUrgent e s
  | _ => s

theorem filterFrame_hit {k : Nat} (hm : fbcMode s = 0) (h : takesFormat s f) (hk : filterOf s f = some k) :
    filterFrame f sof s = placeByAction (fld (ramWord s (16 * k)) 26 24) (fld (ramWord s (16 * k)) 20 16)
      (rxElement f false (some k) 0 0 sof) s := by
  simp only [filterFrame, hm, takesFormat_kept h, hk, bne_self_eq_false, Bool.false_and, Bool.false_eq_true, if_true,
    if_false]
  rfl

/-- Where a frame that no element matches goes (R390). -/
def placeUnmatched (dest : Nat) (e : List Byte) (s : State) : State :=
  match dest with
  | 1 => storeQueue false e s
  | 2 => storeQueue true e s
  | _ => s

theorem filterFrame_missed (hm : fbcMode s = 0) (h : takesFormat s f) (hk : filterOf s f = none) :
    filterFrame f sof s = placeUnmatched (if f.ide then regFld s 0x2900018 3 2 else regFld s 0x2900018 1 0)
      (rxElement f false none 0 0 sof) s := by
  simp only [filterFrame, hm, takesFormat_kept h, hk, bne_self_eq_false, Bool.false_and, Bool.false_eq_true, if_true,
    if_false]
  rfl

theorem storeQueue_full {e : List Byte} (h : s.fbc.queueA.count = 32) :
    storeQueue false e s = fbcEvent 12 (bumpFld 0x2900028 31 0 s) := if_pos h

theorem storeQueue_room {e : List Byte} (h : s.fbc.queueA.count ≠ 32) :
    storeQueue false e s = fbcEvent 11 (updFbc (fun b => { b with
      queueA := { get := s.fbc.queueA.get, count := s.fbc.queueA.count + 1 } })
      (storeRx 1 ((s.fbc.queueA.get + s.fbc.queueA.count) % 32) e s)) := if_neg h

theorem storeUrgent_free {e : List Byte} (h : regBit s 0x2900090 31 = false) :
    storeUrgent e s = fbcEvent 16 (orReg 0x2900090 (2 ^ 31) (storeRx 3 0 e s)) := if_neg (by simp [h])

end Receive

/-! Acknowledgements and selections -/

/-- A five-bit index written to an acknowledgement register is read back whole. -/
theorem fld_index {ix : Nat} (h : ix < 32) : fld ix 4 0 = ix := by
  rw [fld_div]
  omega

theorem writeHook_ackA (cons : Cons) (r : Requester) {ix : Nat} (old : Nat) (l : Bool) (t : State) (h : ix < 32) :
    writeHook cons r 0x2900024 old ix l t = updFbc (fun b => { b with queueA := fifoAck b.queueA ix }) t :=
  (show _ = updFbc (fun b => { b with queueA := fifoAck b.queueA (fld ix 4 0) }) t from rfl).trans (by rw [fld_index h])

theorem writeHook_ackB (cons : Cons) (r : Requester) {ix : Nat} (old : Nat) (l : Bool) (t : State) (h : ix < 32) :
    writeHook cons r 0x2900034 old ix l t = updFbc (fun b => { b with queueB := fifoAck b.queueB ix }) t :=
  (show _ = updFbc (fun b => { b with queueB := fifoAck b.queueB (fld ix 4 0) }) t from rfl).trans (by rw [fld_index h])

theorem writeHook_ackTxLog (cons : Cons) (r : Requester) {ix : Nat} (old : Nat) (l : Bool) (t : State) (h : ix < 32) :
    writeHook cons r 0x2900084 old ix l t = updFbc (fun b => { b with txLog := fifoAck b.txLog ix }) t :=
  (show _ = updFbc (fun b => { b with txLog := fifoAck b.txLog (fld ix 4 0) }) t from rfl).trans (by rw [fld_index h])

theorem shadowSel_word {r : Requester} {space ix : Nat} (hs : space < 4) (hi : ix < 32) (t : State) :
    shadowSel r (space * 2 ^ 6 + ix) t =
      let x : RxShadow := { bytes := ramBytes t (rxOffset space ix) 20, valid := true, space, index := ix }
      updFbc (fun b => { b with rx := Tbl.set {} b.rx (shadowOf r) x }) t := by
  have hsp : fld (space * 2 ^ 6 + ix) 7 6 = space := by
    rw [fld_div]
    omega
  have hix : fld (space * 2 ^ 6 + ix) 4 0 = ix := by
    rw [fld_div]
    omega
  simp only [shadowSel, hsp, hix]

/-! Transmission, errors and bus-off (R384, R385, R396–R398) -/

section Send

variable {s : State} {c : TxCur} {sof loop err n : Nat}

theorem frameDone_none (h : s.fbc.sending = none) : frameDone sof loop s = s := by simp only [frameDone, h]

theorem txError_none (h : s.fbc.sending = none) : txError err s = s := by simp only [txError, h]

/-- The state once a frame's end is counted, noted and put out. -/
def frameEnded (c : TxCur) (sof loop : Nat) (s : State) : State :=
  let a := max c.sof sof
  let t := { s with dts := max s.dts a }
  let w := fbcEvent 17 (orReg 0x290005C (2 ^ c.buf) (errLimits t (updFbc (fun b => { b with
    sending := none, tec := b.tec - 1, lastErr := 0, busy := b.busy - (b.busy &&& 2 ^ c.buf)
    loopDelay := if c.frame.fdf then loop % 256 else b.loopDelay }) t)))
  { w with out := w.out ++ [.frame c.frame c.buf a] }

theorem frameDone_logged (h : s.fbc.sending = some c) (hk : c.kind ≠ .reference) :
    frameDone sof loop s = logTx 1 c.buf c.word1 c.frame c.cycle c.ball (max c.sof sof) (frameEnded c sof loop s) := by
  cases he : c.kind with
  | reference => exact absurd he hk
  | event =>
    simp only [frameDone, h, he]
    rfl
  | exclusive =>
    simp only [frameDone, h, he]
    rfl

theorem frameDone_reference (h : s.fbc.sending = some c) (hk : c.kind = .reference) :
    frameDone sof loop s = fbcEvent 0 (updFbc (fun b => { b with
      curOver := b.curOver.map (fun o => if o.sync = c.sof then { o with sync := max c.sof sof } else o), sentRef := true
      lastSync := some (max c.sof sof), masterId := c.frame.ident, corrDts := max c.sof sof
      corrCycle := some (getLe c.frame.data 0 1 % 64) }) (frameEnded c sof loop s)) := by
  simp only [frameDone, h, hk]
  rfl

theorem txError_lostArbitration (h : s.fbc.sending = some c) : txError 0 s = endAttempt s := by
  simp only [txError, h, if_true]

/-- The state once an error of the frame on its way is counted and its attempt ended. -/
def errorCounted (err : Nat) (s : State) : State :=
  let up := if err = 3 ∧ (128 ≤ s.fbc.tec ∨ 128 ≤ s.fbc.rec_) then 0 else 8
  endAttempt (updFbc (fun b => { b with tec := b.tec + up, lastErr := min err 6 }) s)

theorem txError_counts (h : s.fbc.sending = some c) (he : err ≠ 0) :
    txError err s = if 255 < (errorCounted err s).fbc.tec then
      enterBusOff (errLimits s (updFbc (fun b => { b with tec := 255 }) (errorCounted err s)))
    else errLimits s (errorCounted err s) := by
  simp only [txError, h, if_neg he, errorCounted, Bool.or_eq_true, decide_eq_true_eq]
  rfl

theorem endAttempt_event (h : s.fbc.sending = some c) (hk : c.kind = .event) :
    endAttempt s = if bitOf c.word1 25 = true ∨ c.abort = true
      then failTx c.buf c.word1 c.frame c.cycle c.ball c.sof (updFbc (fun b => { b with sending := none }) s)
      else updFbc (fun b => { b with sending := none }) s := by
  simp only [endAttempt, h, hk, Bool.or_eq_true]

/-- The node waits for the bus to be idle after bus-off. -/
def recovers (s : State) : Prop := s.fbc.busOff = true ∧ fbcRuns s = true ∧ s.fbc.clkHold = false

theorem busOffRecovery_rests (h : ¬ recovers s) : busOffRecovery n s = s := by
  refine if_pos ?_
  simp only [recovers, not_and_or, Bool.not_eq_true, Bool.not_eq_false] at h
  rcases h with h | h | h <;> simp [h]

theorem busOffRecovery_acts (h : recovers s) :
    busOffRecovery n s = if min 128 (s.fbc.recovery + n) < 128 then
      updFbc (fun b => { b with recovery := min 128 (s.fbc.recovery + n) }) s
    else fbcEvent 10 (errLimits s (updFbc (fun b => { b with
      busOff := false, recovery := 128, tec := 0, rec_ := 0, sync := 0, curOver := none, integrated := s.dts
      lastErr := 0 }) s)) := by
  obtain ⟨hoff, hrun, hclk⟩ := h
  simp only [busOffRecovery, hoff, hrun, hclk, Bool.not_true, Bool.or_self, Bool.false_eq_true, if_false]

theorem txNotBefore_busy {k : Nat} (h : bitOf s.fbc.busy k = true) :
    txNotBefore k s = { s with dts := max s.dts (getLe (txShadow s k) 8 8) } := if_pos h

theorem txNotBefore_free {k : Nat} (h : bitOf s.fbc.busy k = false) : txNotBefore k s = s :=
  if_neg (Bool.eq_false_iff.1 h)

end Send

/-- Settles O49: INIT by its check, a frame by its filter, each transmission row by what is being sent. -/
theorem theBusNodeSendsAndReceives : Obligations.TheBusNodeSendsAndReceives := by
  refine ⟨fun s r v d => ⟨fun h ho => ?leave, fun h ho => ?enter⟩, fun s f sof up hs => ?receive,
    fun s f => ⟨filterOf_iff s f, fun k => filterHits_enabled⟩, fun s f sof hm hf => ?filter,
    fun s f sof hm hr hb => filterFrame_remote hm hr hb,
    fun s e => ⟨storeQueue_full, storeQueue_room, storeUrgent_free⟩, fun s r d ix hix => ?acks,
    fun s r d space ix hsp hix h => ?select, fun s r d mask => ⟨fun h => ?load, fun h => ?request, fun h => ?abort⟩,
    fun s k hs => ?notBefore, fun s sof loop err hs hn => ?idle, fun s sof loop c hs hc => ?done, fun s err c hs hc => ?error,
    fun s c hc hk => endAttempt_event hc hk, fun s n hs => ?recovery⟩
  case leave =>
    intro t u hn
    have hrun := (regWrite_stored (cons := {}) h (by decide) (by decide)).trans
      (show _ = fbcCtrlWritten r (rawAt s 0x2900000) t from rfl)
    have hleave := hrun.trans (fbcCtrlWritten_leaves ho hn)
    exact ⟨fun hp => congrArg done (hleave.trans (initLeave_passed hp)),
      fun off hf => congrArg done (hleave.trans (initLeave_failed hf))⟩
  case enter =>
    intro t u hn
    have hrun := (regWrite_stored (cons := {}) h (by decide) (by decide)).trans
      (show _ = fbcCtrlWritten r (rawAt s 0x2900000) t from rfl)
    exact congrArg done (hrun.trans (fbcCtrlWritten_enters ho hn))
  case receive =>
    refine ⟨fun h => congrArg done ((whenStandby_pos hs).trans (frameReceive_deaf h)), fun h hn hr => ?_,
      fun h hn hr => ?_⟩
    · exact congrArg done (((whenStandby_pos hs).trans (frameReceive_idle h hn)).trans
        (congrArg (filterFrame f sof) (if_neg (Bool.eq_false_iff.1 hr))))
    · exact congrArg done (((whenStandby_pos hs).trans (frameReceive_idle h hn)).trans
        (congrArg (filterFrame f sof) (if_pos hr)))
  case filter =>
    refine ⟨fun k hk => ?_, fun hk => ?_⟩
    · intro e act
      have hput : filterFrame f sof s = placeByAction act (fld (ramWord s (16 * k)) 20 16) e s := filterFrame_hit hm hf hk
      exact ⟨fun ha => hput.trans (by rw [ha]; rfl), fun ha => hput.trans (by rw [ha]; rfl),
        fun ha => hput.trans (by rw [ha]; rfl), fun ha => hput.trans (by rw [ha]; rfl),
        fun ha => hput.trans (by rw [ha]; rfl)⟩
    · intro e dest
      have hput : filterFrame f sof s = placeUnmatched dest e s := filterFrame_missed hm hf hk
      exact ⟨fun hd => hput.trans (by rw [hd]; rfl), fun hd => hput.trans (by rw [hd]; rfl),
        fun hd => hput.trans (by rw [hd]; rfl)⟩
  case acks =>
    exact ⟨fun h => congrArg done ((regWrite_stored h (by decide) (by decide)).trans (writeHook_ackA _ _ _ _ _ hix)),
      fun h => congrArg done ((regWrite_stored h (by decide) (by decide)).trans (writeHook_ackB _ _ _ _ _ hix)),
      fun h => congrArg done ((regWrite_stored h (by decide) (by decide)).trans (writeHook_ackTxLog _ _ _ _ _ hix))⟩
  case select =>
    have hrun := (regWrite_stored (cons := {}) h (by decide) (by decide)).trans
      (show _ = shadowSel r (space * 2 ^ 6 + ix) (stored s 0x2900400 d (space * 2 ^ 6 + ix)) from rfl)
    exact congrArg done (hrun.trans (shadowSel_word hsp hix _))
  case load => exact congrArg done ((regWrite_stored h (by decide) (by decide)).trans rfl)
  case request => exact congrArg done ((regWrite_stored h (by decide) (by decide)).trans rfl)
  case abort => exact congrArg done ((regWrite_stored h (by decide) (by decide)).trans rfl)
  case notBefore =>
    exact ⟨fun h => congrArg done ((whenStandby_pos hs).trans (txNotBefore_busy h)),
      fun h => congrArg done ((whenStandby_pos hs).trans (txNotBefore_free h))⟩
  case idle =>
    exact ⟨congrArg done ((whenStandby_pos hs).trans (frameDone_none hn)),
      congrArg done ((whenStandby_pos hs).trans (txError_none hn))⟩
  case done =>
    exact ⟨fun hk => congrArg done ((whenStandby_pos hs).trans (frameDone_logged hc hk)),
      fun hk => congrArg done ((whenStandby_pos hs).trans (frameDone_reference hc hk))⟩
  case error =>
    have hcounts := fun he : err ≠ 0 => (whenStandby_pos hs).trans (txError_counts hc he)
    refine ⟨fun he => ?_, fun he hle => ?_, fun he hlt => ?_⟩
    · subst he
      exact congrArg done ((whenStandby_pos hs).trans (txError_lostArbitration hc))
    · exact congrArg done ((hcounts he).trans (if_neg (Nat.not_lt.2 hle)))
    · exact congrArg done ((hcounts he).trans (if_pos hlt))
  case recovery =>
    have hacts := fun h : recovers s => (whenStandby_pos hs).trans (busOffRecovery_acts (n := n) h)
    refine ⟨fun h => congrArg done ((whenStandby_pos hs).trans (busOffRecovery_rests h)), fun h hlt => ?_, fun h hge => ?_⟩
    · refine congrArg done ((hacts h).trans ((if_pos (by omega)).trans ?_))
      rw [Nat.min_eq_right (by omega)]
    · exact congrArg done ((hacts h).trans (if_neg (by omega)))

end Sys2Proof.Proofs
end

section
/-! Chapter 14, overs, balls, references, takeover, TAKE and YIELD (R401–R411). -/

namespace Sys2Proof.Proofs

open Sys2Proof Sys2Proof.Machine Sys2Proof.Safety Sys2Proof.Laws

/-- A row of the standby domain that changes nothing, with VSTBY or without. -/
theorem done_whenStandby_same {f : State → State} {s : State} (h : f s = s) : done (whenStandby f s) = done s := by
  rw [whenStandby, h, ite_self]

section Overs

variable {s : State} {o : Over} {b sof k : Nat}

/-! The end of an over (R401, R408) -/

theorem overExpiry_none (h : s.fbc.curOver = none) : overExpiry s = s := by simp only [overExpiry, h]

theorem overExpiry_paced (h : s.fbc.curOver = some o) (hm : s.fbc.master = true) (hp : paced s = true) :
    overExpiry s = s := by
  simp only [overExpiry, h, hm, hp, if_true]

theorem overExpiry_master (h : s.fbc.curOver = some o) (hm : s.fbc.master = true) (hp : paced s = false) :
    overExpiry s = dueRef (overLen s) false (nextCycle s o.cycle) (advanceTo (overEnd s o) s) := by
  simp only [overExpiry, h, hm, hp, Bool.false_eq_true, if_true, if_false]

theorem overExpiry_take (h : s.fbc.curOver = some o) (hm : s.fbc.master = false) (ht : s.fbc.take = true)
    (hs : s.fbc.sync = 2) :
    overExpiry s = dueRef o.len false (nextCycle s o.cycle) (advanceTo (overEnd s o) s) := by
  simp only [overExpiry, h, hm, ht, hs, beq_self_eq_true, Bool.and_self, Bool.false_eq_true, if_true, if_false]

theorem overExpiry_other (h : s.fbc.curOver = some o) (hm : s.fbc.master = false)
    (hn : s.fbc.take = false ∨ s.fbc.sync ≠ 2) : overExpiry s = s := by
  simp only [overExpiry, h, hm, Bool.false_eq_true, if_false]
  exact if_neg (by simpa [Decidable.imp_iff_not_or] using hn)

theorem dueRef_sent {len cycle : Nat} {p : Bool} (hm : mayTx s = true) (hs : s.fbc.sending = none) :
    dueRef len p cycle s = sendRef s.dts { len, paced := p, cycle } s := if_pos (by simp [hm, hs])

theorem dueRef_waits {len cycle : Nat} {p : Bool} (h : mayTx s = false ∨ s.fbc.sending ≠ none) :
    dueRef len p cycle s = updFbc (fun b => { b with refDue := some { len, paced := p, cycle } }) s :=
  if_neg (by rcases h with h | h <;> simp [h])

/-! Balls (R404) -/

/-- The over has moved on to the ball after `b`, whose start has come. -/
def ballEntered (o : Over) (b : Nat) (s : State) : State :=
  updFbc (fun x => { x with curOver := some { o with nextBall := b + 1 } }) (advanceTo (ballStart s o b) s)

/-- The ball lies ahead in the over. -/
def ballAhead (s : State) (o : Over) (b : Nat) : Prop := 0 < b ∧ o.nextBall ≤ b ∧ b < balls s

theorem ballBegins_none (h : s.fbc.curOver = none) : ballBegins b sof s = s := by simp only [ballBegins, h]

theorem ballBegins_past (h : s.fbc.curOver = some o) (hb : b = 0 ∨ b < o.nextBall ∨ balls s ≤ b) :
    ballBegins b sof s = s := by
  simp only [ballBegins, h]
  exact if_pos (by tauto)

/-- A ball that lies ahead: nothing without an exclusive frame, or that frame's fate. -/
theorem ballBegins_ahead (h : s.fbc.curOver = some o) (hb : ballAhead s o b) :
    ballBegins b sof s =
      let s1 := ballEntered o b s
      match exclusiveIn s o.cycle b with
      | none => s1
      | some k =>
        if s1.fbc.busOff then lateBall o b k s1
        else if !(mayTx s1) || s1.fbc.sync != 2 || decide (2 ≤ ttLevel s1) then s1
        else
          let f := elementFrame (txShadow (loadTx s1) k)
          let at_ := max (ballStart s o b) sof
          let stop := if b + 1 < balls s then ballStart s o (b + 1) else overEnd s o
          if !(elementOk s1 (txShadow (loadTx s1) k)) then mar (failReserved k s1)
          else if s1.fbc.sending.isSome || decide (ballStart s o b + bitsNs s (txEn s) < at_) ||
              decide (stop < at_ + worstNs s f)
            then lateBall o b k s1
          else startTx k .exclusive at_ f (advanceTo at_ (loadTx s1)) := by
  obtain ⟨hpos, hnext, hlast⟩ := hb
  have hgo : ¬ (b < o.nextBall ∨ balls s ≤ b ∨ b = 0) := by omega
  simp only [ballBegins, h, if_neg hgo] <;> rfl

theorem ballBegins_free (h : s.fbc.curOver = some o) (hb : ballAhead s o b) (hk : exclusiveIn s o.cycle b = none) :
    ballBegins b sof s = ballEntered o b s := by
  simp only [ballBegins_ahead h hb, hk]

theorem ballBegins_busOff (h : s.fbc.curOver = some o) (hb : ballAhead s o b) (hk : exclusiveIn s o.cycle b = some k)
    (hoff : s.fbc.busOff = true) : ballBegins b sof s = lateBall o b k (ballEntered o b s) := by
  have hoff' : (ballEntered o b s).fbc.busOff = true := hoff
  simp only [ballBegins_ahead h hb, hk, hoff', if_true]

theorem ballBegins_barred (h : s.fbc.curOver = some o) (hb : ballAhead s o b) (hk : exclusiveIn s o.cycle b = some k)
    (hoff : s.fbc.busOff = false)
    (hbar : mayTx (ballEntered o b s) = false ∨ s.fbc.sync ≠ 2 ∨ 2 ≤ ttLevel s) :
    ballBegins b sof s = ballEntered o b s := by
  have hoff' : (ballEntered o b s).fbc.busOff = false := hoff
  have hsync : (ballEntered o b s).fbc.sync = s.fbc.sync := rfl
  have hlevel : ttLevel (ballEntered o b s) = ttLevel s := rfl
  simp only [ballBegins_ahead h hb, hk, hoff', hsync, hlevel, Bool.false_eq_true, if_false]
  refine if_pos ?_
  rcases hbar with hbar | hbar | hbar <;> simp [hbar]

/-- A ball whose frame may go: reserved, LATE or sent. -/
theorem ballBegins_sends (h : s.fbc.curOver = some o) (hb : ballAhead s o b) (hk : exclusiveIn s o.cycle b = some k)
    (hoff : s.fbc.busOff = false) (hmay : mayTx (ballEntered o b s) = true) (hsync : s.fbc.sync = 2)
    (hlevel : ttLevel s < 2) :
    ballBegins b sof s =
      let t := ballEntered o b s
      let e := txShadow (loadTx t) k
      let at_ := max (ballStart s o b) sof
      let stop := if b + 1 < balls s then ballStart s o (b + 1) else overEnd s o
      if elementOk t e = false then mar (failReserved k t)
      else if s.fbc.sending ≠ none ∨ ballStart s o b + bitsNs s (txEn s) < at_ ∨
          stop < at_ + worstNs s (elementFrame e) then lateBall o b k t
      else startTx k .exclusive at_ (elementFrame e) (advanceTo at_ (loadTx t)) := by
  have hoff' : (ballEntered o b s).fbc.busOff = false := hoff
  have hsync' : (ballEntered o b s).fbc.sync = 2 := hsync
  have hlevel' : ¬ 2 ≤ ttLevel (ballEntered o b s) := Nat.not_le.2 hlevel
  have hsend : (ballEntered o b s).fbc.sending = s.fbc.sending := rfl
  simp only [ballBegins_ahead h hb, hk, hoff', hsync', hmay, hlevel', hsend, decide_false, bne_self_eq_false,
    Bool.not_true, Bool.or_self, Bool.false_eq_true, if_false, Bool.or_eq_true, decide_eq_true_eq, Bool.not_eq_true',
    Option.isSome_iff_ne_none, or_assoc]

/-! Missing references (R406, R407, R410) -/

/-- A node in step that is not master waits for a reference. -/
def awaitsRef (s : State) : Prop :=
  s.fbc.master = false ∧ s.fbc.sync = 2 ∧ fbcRuns s = true ∧ s.fbc.clkHold = false

/-- The predicted over has begun and the miss is counted. -/
def missCounted (o : Over) (s : State) : State :=
  mar (fbcEvent 1 (bumpFld 0x2900128 15 8 (updFbc (fun b => { b with misses := min 3 (s.fbc.misses + 1), take := false })
    (beginOver { sync := overEnd s o, len := o.len, cycle := nextCycle s o.cycle, predicted := true }
      (advanceTo (overEnd s o + bitsNs s (regFld s 0x2900100 10 0)) s)))))

theorem refMissing_none (h : s.fbc.curOver = none) : refMissing s = s := by simp only [refMissing, h]

theorem refMissing_idle (h : s.fbc.curOver = some o) (hn : ¬ awaitsRef s) : refMissing s = s := by
  simp only [refMissing, h]
  refine if_pos ?_
  simp only [awaitsRef, not_and_or, Bool.not_eq_true, Bool.not_eq_false] at hn
  rcases hn with hn | hn | hn | hn <;> simp [hn]

theorem refMissing_counts (h : s.fbc.curOver = some o) (hon : awaitsRef s) :
    refMissing s =
      let t := missCounted o s
      if min 3 (s.fbc.misses + 1) < 3 ∨ s.fbc.misses = 3 then t
      else if takesOver t then updFbc (fun b => { b with takeAt := some (t.dts + takeOffset t) }) t
      else levelled (updFbc (fun b => { b with level3 := true, sync := 0 })) t := by
  obtain ⟨hm, hsync, hrun, hclk⟩ := hon
  have hgo : ¬ (s.fbc.master || s.fbc.sync != 2 || !(fbcRuns s) || s.fbc.clkHold) = true := by
    simp [hm, hsync, hrun, hclk]
  simp only [refMissing, h]
  exact if_neg hgo

theorem refMissing_third (h : s.fbc.curOver = some o) (hon : awaitsRef s) (hm : s.fbc.misses = 2) :
    refMissing s =
      let t := missCounted o s
      if takesOver t then updFbc (fun b => { b with takeAt := some (t.dts + takeOffset t) }) t
      else levelled (updFbc (fun b => { b with level3 := true, sync := 0 })) t :=
  (refMissing_counts h hon).trans (if_neg (by omega))

theorem takeover_due {e : Nat} (ht : s.fbc.takeAt = some e) (h : s.fbc.curOver = some o) :
    takeover s =
      let t := updFbc (fun b => { b with takeAt := none }) (advanceTo e s)
      if mayTx t then dueRef o.len false o.cycle t else t := by
  simp only [takeover, ht, h]

theorem takeover_none (ht : s.fbc.takeAt = none) : takeover s = s := by simp only [takeover, ht]

/-- The instant at which a node out of step begins the first over. -/
def unsyncDue (s : State) : State := advanceTo (s.fbc.integrated + 3 * overLen s * 10 + takeOffset s) s

theorem unsyncTakeover_begins (h0 : s.fbc.sync = 0) (ht : takesOver s = true) (hm : mayTx (unsyncDue s) = true) :
    unsyncTakeover s = dueRef (overLen s) false 0 (unsyncDue s) := by
  refine if_pos ?_
  rw [show mayTx (advanceTo _ s) = true from hm, h0, ht]
  rfl

theorem unsyncTakeover_rests (h : s.fbc.sync ≠ 0 ∨ takesOver s = false ∨ mayTx (unsyncDue s) = false) :
    unsyncTakeover s = s := by
  refine if_neg ?_
  change ¬ (s.fbc.sync == 0 && takesOver s && mayTx (unsyncDue s)) = true
  rcases h with h | h | h <;> simp [h]

/-! References received (R408, R409) -/

theorem receiveRef_node {f : CanFrame} (h : s.fbc.master = false) : receiveRef f sof s = acceptRef f sof s :=
  if_neg (Bool.eq_false_iff.1 h)

theorem receiveRef_yields {f : CanFrame} (h : s.fbc.master = true)
    (hf : f.ident < (elementFrame (txShadow s (refBuf s))).ident) :
    receiveRef f sof s = acceptRef f sof (setMaster false s) := (if_pos h).trans (if_pos hf)

theorem receiveRef_conflict {f : CanFrame} (h : s.fbc.master = true)
    (hf : (elementFrame (txShadow s (refBuf s))).ident ≤ f.ident) : receiveRef f sof s = conflict s :=
  (if_pos h).trans (if_neg (Nat.not_lt.2 hf))

theorem measure_taken {prev t : Nat} (h : s.fbc.lastSync = some t) (hp : prev ≠ 0) (ht : t < sof) :
    measure sof prev s =
      let i : Int := sof - t
      let m : Int := 10 * prev
      let rate := Int.tdiv ((i - m) * 1000000) m
      let phase := i - Int.tdiv (m * (1000000 + s.fbc.corr)) 1000000
      (some (decide (rate.natAbs ≤ regFld s 0x2900108 31 16) && decide (phase.natAbs ≤ bitsNs s (regFld s 0x2900108 7 0))),
        { s with fbc := { s.fbc with rate, phase, corr := rate } }) := by
  have hgo : ¬ (prev = 0 ∨ sof ≤ t) := by omega
  simp only [Machine.measure, h, if_neg hgo, updFbc]

end Overs

/-! TAKE and YIELD (R408) -/

section TtCmd

variable {s : State} {r : Requester}

/-- TAKE has effect on a potential master in step. -/
def mayTake (s : State) : Prop := fbcMode s = 2 ∧ s.fbc.sync = 2 ∧ s.fbc.master = false ∧ fbcRuns s = true

theorem writeHook_take (cons : Cons) (old : Nat) (l : Bool) :
    writeHook cons r 0x2900114 old 1 l s = ttCmd 1 r s := rfl

theorem writeHook_yield (cons : Cons) (old : Nat) (l : Bool) :
    writeHook cons r 0x2900114 old 2 l s = ttCmd 2 r s := rfl

theorem ttCmd_take (h : mayTake s) : ttCmd 1 r s = updFbc (fun b => { b with take := true }) s :=
  (if_pos rfl).trans (if_pos h)

theorem ttCmd_take_refused (h : ¬ mayTake s) : ttCmd 1 r s = logCfg 1 0x2900114 r s := (if_pos rfl).trans (if_neg h)

theorem ttCmd_yield (h : s.fbc.master = true) : ttCmd 2 r s = setMaster false s := by
  simp only [ttCmd, h, OfNat.ofNat_ne_one, if_false, if_true]

theorem ttCmd_yield_refused (h : s.fbc.master = false) : ttCmd 2 r s = logCfg 1 0x2900114 r s := by
  simp only [ttCmd, h, OfNat.ofNat_ne_one, Bool.false_eq_true, if_false, if_true]

end TtCmd

/-- Settles O50: each row by the over, the ball, the miss or the role it judges. -/
theorem oversKeepTime : Obligations.OversKeepTime := by
  refine ⟨fun s o hs ho => ?expiry, fun s b sof ho => ?none, fun s len cycle p => ⟨dueRef_sent, dueRef_waits⟩,
    fun s b sof o hs ho => ?ball, fun s o hs ho => ?missing, fun s hs => ?takeover, fun s r d => ?command,
    fun s f sof => ⟨receiveRef_node, receiveRef_yields, receiveRef_conflict⟩, fun s sof prev t h hp ht => measure_taken h hp ht⟩
  case expiry =>
    exact ⟨fun hm hp => congrArg done ((whenStandby_pos hs).trans (overExpiry_paced ho hm hp)),
      fun hm hp => congrArg done ((whenStandby_pos hs).trans (overExpiry_master ho hm hp)),
      fun hm ht h2 => congrArg done ((whenStandby_pos hs).trans (overExpiry_take ho hm ht h2)),
      fun hm hn => congrArg done ((whenStandby_pos hs).trans (overExpiry_other ho hm hn))⟩
  case none =>
    exact ⟨done_whenStandby_same (overExpiry_none ho), done_whenStandby_same (ballBegins_none ho),
      done_whenStandby_same (refMissing_none ho)⟩
  case ball =>
    refine ⟨fun hb => congrArg done ((whenStandby_pos hs).trans (ballBegins_past ho hb)), fun hpos hnext hlast => ?_⟩
    have hb : ballAhead s o b := ⟨hpos, hnext, hlast⟩
    refine ⟨fun hk => congrArg done ((whenStandby_pos hs).trans (ballBegins_free ho hb hk)), fun k hk => ?_⟩
    refine ⟨fun hoff => congrArg done ((whenStandby_pos hs).trans (ballBegins_busOff ho hb hk hoff)),
      fun hoff hbar => congrArg done ((whenStandby_pos hs).trans (ballBegins_barred ho hb hk hoff hbar)),
      fun hoff hmay hsync hlevel => ?_⟩
    have hsend := (whenStandby_pos hs).trans (ballBegins_sends (sof := sof) ho hb hk hoff hmay hsync hlevel)
    refine ⟨fun he => congrArg done (hsend.trans (if_pos he)), fun he hl => ?_, fun he hl => ?_⟩
    · exact congrArg done (hsend.trans ((if_neg (Bool.not_eq_false _ |>.mpr he)).trans (if_pos hl)))
    · exact congrArg done (hsend.trans ((if_neg (Bool.not_eq_false _ |>.mpr he)).trans (if_neg hl)))
  case missing =>
    refine ⟨fun hn => congrArg done ((whenStandby_pos hs).trans (refMissing_idle ho hn)), fun hon hn => ?_,
      fun hon hm ht => ?_, fun hon hm ht => ?_⟩
    · exact congrArg done ((whenStandby_pos hs).trans ((refMissing_counts ho hon).trans (if_pos hn)))
    · exact congrArg done ((whenStandby_pos hs).trans ((refMissing_third ho hon hm).trans (if_pos ht)))
    · exact congrArg done ((whenStandby_pos hs).trans ((refMissing_third ho hon hm).trans
        (if_neg (Bool.eq_false_iff.1 ht))))
  case takeover =>
    refine ⟨fun e o ht ho => congrArg done ((whenStandby_pos hs).trans (takeover_due ht ho)),
      fun ht => congrArg done ((whenStandby_pos hs).trans (takeover_none ht)), ?_⟩
    exact ⟨fun h0 ht hm => congrArg done ((whenStandby_pos hs).trans (unsyncTakeover_begins h0 ht hm)),
      fun h => congrArg done ((whenStandby_pos hs).trans (unsyncTakeover_rests h))⟩
  case command =>
    refine ⟨fun h => ?_, fun h => ?_⟩
    · have hrun := (regWrite_stored (cons := {}) h (by decide) (by decide)).trans (writeHook_take _ _ _)
      exact ⟨fun hc => congrArg done (hrun.trans (ttCmd_take hc)),
        fun hc => congrArg done (hrun.trans (ttCmd_take_refused hc))⟩
    · have hrun := (regWrite_stored (cons := {}) h (by decide) (by decide)).trans (writeHook_yield _ _ _)
      exact ⟨fun hm => congrArg done (hrun.trans (ttCmd_yield hm)),
        fun hm => congrArg done (hrun.trans (ttCmd_yield_refused hm))⟩

end Sys2Proof.Proofs
end

section
/-! Chapters 15, 16 and 18, the management commands: what each does once it is served (R415, R462–R464, R474–R478,
R511). -/

namespace Sys2Proof.Proofs

open Sys2Proof Sys2Proof.Machine Sys2Proof.Safety Sys2Proof.Laws

/-! Serving a request -/

section Serving

variable {s u : State} {cmd n st : Nat} {q : MmpRequest} {rest : List MmpRequest} {payload : List Byte}

/-- A request of the right length, served where it must be, is answered with what its command gives. -/
theorem runMmp_serves {size : Nat → Bool} {lead : Bool} {f : List Byte → State → Nat × List Byte × State}
    (h : mmpFront s cmd n q rest) (hn : size n = true) (hl : lead = false ∨ isTrayLead s = true)
    (hf : f (reqPayload q) (takenFrom s q rest) = (st, payload, u)) :
    runMmp cmd size lead f s = answerReq q st payload u := by
  have hlead : (lead && !(isTrayLead s)) = false := by rcases hl with hl | hl <;> simp [hl]
  rw [runMmp_front h, hn, hlead, hf]
  rfl

theorem exec_serves {i : Instr} {size : Nat → Bool} {lead : Bool} {f : List Byte → State → Nat × List Byte × State}
    (hi : Sys2Proof.Machine.exec i s = done (runMmp cmd size lead f s)) (h : mmpFront s cmd n q rest)
    (hn : size n = true) (hl : lead = false ∨ isTrayLead s = true)
    (hf : f (reqPayload q) (takenFrom s q rest) = (st, payload, u)) :
    Sys2Proof.Machine.exec i s = .next (settle (answerReq q st payload u)) :=
  hi.trans (congrArg done (runMmp_serves h hn hl hf))

/-- The same for a command whose effect follows its answer. -/
theorem exec_servesAfter {i : Instr} {size : Nat → Bool} {f : List Byte → State → Nat}
    {after : List Byte → State → State} (hi : Sys2Proof.Machine.exec i s = done (runMmpAfter cmd size f after s))
    (h : mmpFront s cmd n q rest) (hn : size n = true) (hf : f (reqPayload q) (takenFrom s q rest) = 0) :
    Sys2Proof.Machine.exec i s =
      .next (settle (after (reqPayload q) (answerReq q 0 [] (takenFrom s q rest)))) := by
  refine hi.trans (congrArg done ?_)
  rw [runMmpAfter_front h, hn, hf]
  rfl

theorem exec_refusedAfter {i : Instr} {size : Nat → Bool} {f : List Byte → State → Nat}
    {after : List Byte → State → State} (hi : Sys2Proof.Machine.exec i s = done (runMmpAfter cmd size f after s))
    (h : mmpFront s cmd n q rest) (hn : size n = true) (hf : f (reqPayload q) (takenFrom s q rest) = st)
    (hst : st ≠ 0) : Sys2Proof.Machine.exec i s = .next (settle (answerReq q st [] (takenFrom s q rest))) := by
  refine hi.trans (congrArg done ?_)
  rw [runMmpAfter_front h, hn, hf, if_neg hst]
  rfl

theorem sizeIs_self (n : Nat) : sizeIs n n = true := beq_self_eq_true n

end Serving

/-! Registers, log and events (R474–R476) -/

section Commands

variable {s u : State} {p : List Byte}

/-- A reserved value in the words that REG_READ and REG_WRITE name. -/
def runReserved (p : List Byte) : Prop :=
  getLe p 4 2 = 0 ∨ 64 < getLe p 4 2 ∨ getLe p 6 2 ≠ 0 ∨ getLe p 0 4 % 4 ≠ 0

theorem mmpRegRead_reserved (h : runReserved p) : mmpRegRead p s = (0x0303, [], s) := if_pos h

theorem mmpRegRead_shut (h : ¬ runReserved p) (hs : mmpShut s (getLe p 0 4) (getLe p 4 2) = true) :
    mmpRegRead p s = (0x02F0, [], s) := (if_neg h).trans (if_pos hs)

theorem mmpRegRead_stops (h : ¬ runReserved p) (hs : mmpShut s (getLe p 0 4) (getLe p 4 2) = false)
    (hr : mmpReads (getLe p 4 2) (getLe p 0 4) s = (u, none)) : mmpRegRead p s = (0x0303, [], u) := by
  refine (if_neg h).trans ((if_neg (Bool.eq_false_iff.1 hs)).trans ?_)
  rw [hr]

theorem mmpRegRead_reads {l : List Byte} (h : ¬ runReserved p) (hs : mmpShut s (getLe p 0 4) (getLe p 4 2) = false)
    (hr : mmpReads (getLe p 4 2) (getLe p 0 4) s = (u, some l)) : mmpRegRead p s = (0, l, u) := by
  refine (if_neg h).trans ((if_neg (Bool.eq_false_iff.1 hs)).trans ?_)
  rw [hr]

/-- The payload holds the words its header counts. -/
def runSized (p : List Byte) : Prop := p.length = 8 + 4 * getLe p 4 2

section RegWrite

variable {cons : Cons}

theorem mmpRegWrite_length (h : ¬ runSized p) : mmpRegWrite cons p s = (0x0304, [], s) := by
  have hl : p.length ≠ 8 + 4 * getLe p 4 2 := h
  refine (if_pos (by tauto)).trans ?_
  rw [if_pos hl]

theorem mmpRegWrite_reserved (h : runReserved p) (hl : runSized p) : mmpRegWrite cons p s = (0x0303, [], s) := by
  have hl' : ¬ p.length ≠ 8 + 4 * getLe p 4 2 := not_not.2 hl
  refine (if_pos ?_).trans ?_
  · rw [runReserved] at h
    tauto
  · rw [if_neg hl']

theorem mmpRegWrite_named (h : ¬ runReserved p) (hl : runSized p) :
    mmpRegWrite cons p s = if mmpShut s (getLe p 0 4) (getLe p 4 2) then (0x02F0, [], s)
      else (if (mmpWrites cons (getLe p 4 2) (getLe p 0 4) (p.drop 8) s).2 then 0x0303 else 0, [],
        (mmpWrites cons (getLe p 4 2) (getLe p 0 4) (p.drop 8) s).1) := by
  refine if_neg fun hb => ?_
  have hl' : p.length = 8 + 4 * getLe p 4 2 := hl
  rw [runReserved] at h
  tauto

end RegWrite

theorem mmpLogRead_reserved (h : getLe p 8 2 = 0 ∨ 16 < getLe p 8 2 ∨ allZero (slice p 10 6) = false) :
    mmpLogRead p s = (0x0303, [], s) := if_pos (by simpa using h)

theorem mmpLogRead_reads (h : ¬ (getLe p 8 2 = 0 ∨ 16 < getLe p 8 2 ∨ allZero (slice p 10 6) = false)) :
    mmpLogRead p s = (0, (((readableLog s).filter (fun e => decide (getLe p 0 8 ≤ e.seq))).take
      (min (getLe p 8 2) 15)).flatMap entryBytes, s) := if_neg (by simpa using h)

theorem mmpEventCfg_reserved (h : getLe p 18 2 ≠ 0 ∨ 2 ^ 11 ≤ getLe p 20 4) : mmpEventCfg p s = (0x0303, [], s) :=
  if_pos h

theorem mmpEventCfg_sets (h : getLe p 18 2 = 0) (hm : getLe p 20 4 < 2 ^ 11) :
    mmpEventCfg p s = (0, [], { s with mgp := { s.mgp with dest := some (slice p 0 18), mask := getLe p 20 4 } }) :=
  if_neg (by rw [not_or, not_not, Nat.not_le]; exact ⟨h, hm⟩)

theorem mmpEventAck_reserved (h : getLe p 4 4 ≠ 0) : mmpEventAck p s = (0x0303, [], s) := if_pos h

theorem mmpEventAck_drops (h : getLe p 4 4 = 0) : mmpEventAck p s = (0, [],
    { s with mgp := { s.mgp with events := s.mgp.events.filter (fun e => decide (getLe p 0 4 < e.seq)) } }) :=
  if_neg (not_not.2 h)

/-! Topology, records and the row configuration (R415, R462–R464, R474) -/

/-- The payload holds the sites its header counts. -/
def topologySized (p : List Byte) : Prop := 16 ≤ p.length ∧ p.length = 16 + 16 * getLe p 6 1

theorem mmpTopoLoad_length (h : ¬ topologySized p) : mmpTopoLoad p s = (0x0304, [], s) := by
  refine if_pos ?_
  rw [topologySized] at h
  omega

theorem topologySized_named (h : topologySized p) : ¬ (p.length < 16 ∨ p.length ≠ 16 + 16 * getLe p 6 1) := by
  rw [topologySized] at h
  omega

theorem mmpTopoLoad_reserved (h : topologySized p) (ht : topologyOk p = false) :
    mmpTopoLoad p s = (0x0303, [], s) :=
  (if_neg (topologySized_named h)).trans (if_neg (Bool.eq_false_iff.1 ht))

theorem mmpTopoLoad_loads (h : topologySized p) (ht : topologyOk p = true) :
    mmpTopoLoad p s = (0, [], { s with tmg := { s.tmg with topology := p, accepted := [], sites := [] } }) :=
  (if_neg (topologySized_named h)).trans (if_pos ht)

theorem mmpTopoAccept_reserved (h : allZero (slice p 2 6) = false) : mmpTopoAccept p s = (0x0303, [], s) :=
  if_pos (by simp [h])

theorem mmpTopoAccept_accepts (h : allZero (slice p 2 6) = true) :
    mmpTopoAccept p s =
      let named := (List.range 16).filter (fun n => bitOf (getLe p 0 2) n)
      let r := named.foldl (fun (a : Bool × State) n => let x := acceptSite n a.2; (a.1 && x.1, x.2)) (true, s)
      (if r.1 then 0 else 0x02E1, [], r.2) := if_neg (by simp [h])

section Fir

variable {reads : List (Option (List Byte))}

/-- FIR_READ names no site, or holds a reserved value. -/
def firReadReserved (s : State) (p : List Byte) : Prop :=
  siteCount s ≤ getLe p 0 1 ∨ allZero (slice p 1 7) = false

theorem mmpFirRead_reserved (h : firReadReserved s p) : mmpFirRead reads p s = (0x0303, [], s) := by
  rw [firReadReserved] at h
  exact if_pos (by simpa using h)

theorem mmpFirRead_unreadable (h : ¬ firReadReserved s p) (hr : firRead 3 reads = none) :
    mmpFirRead reads p s = (0x02E1, [], s) := by
  rw [firReadReserved] at h
  refine (if_neg (by simpa using h)).trans ?_
  rw [hr]

theorem mmpFirRead_reads {x : List Byte} (h : ¬ firReadReserved s p) (hr : firRead 3 reads = some x) :
    mmpFirRead reads p s = (0, slice x 0 256, s) := by
  rw [firReadReserved] at h
  refine (if_neg (by simpa using h)).trans ?_
  rw [hr]

/-- FIR_WRITE names no site, holds a reserved value or a record that does not stand for the site. -/
def firWriteReserved (s : State) (p : List Byte) : Prop :=
  siteCount s ≤ getLe p 0 1 ∨ allZero (slice p 1 7) = false ∨ firValid (slice p 8 256) = false ∨
    getLe (slice p 8 256) 6 1 ≠ (siteDef s (getLe p 0 1)).kind

theorem mmpFirWrite_reserved (h : firWriteReserved s p) : mmpFirWrite reads p s = (0x0303, [], s) := by
  rw [firWriteReserved] at h
  exact if_pos (by simpa using h)

theorem mmpFirWrite_writes (h : ¬ firWriteReserved s p) :
    mmpFirWrite reads p s = (if firRead 3 reads = some (slice p 8 256) then 0 else 0x02E1, [],
      verifySite (getLe p 0 1) reads { s with out := s.out ++ [.i2c0 (getLe p 0 1) true 0 (slice p 8 256)] }) := by
  rw [firWriteReserved] at h
  refine (if_neg (by simpa using h)).trans ?_
  simp only [beq_iff_eq, emit]

end Fir

/-- The payload holds the trays and entries its header counts. -/
def rowConfigSized (p : List Byte) : Prop := p.length = 128 + 8 * getLe p 7 1 + 16 * getLe p 6 1

theorem mmpRowConfig_length (h : ¬ rowConfigSized p) : mmpRowConfig p s = (0x0304, [], s) := if_pos h

theorem mmpRowConfig_refused (h : rowConfigSized p) (hc : rowConfigOk p = false ∨ getLe p 8 4 ≤ heldEpoch s) :
    mmpRowConfig p s = (0x0303, [], s) := by
  have ha : acceptConfig p s = (false, s) := if_neg (by rcases hc with hc | hc <;> simp [hc])
  refine (if_neg (not_not.2 h)).trans ?_
  rw [ha]
  rfl

theorem mmpRowConfig_accepted (h : rowConfigSized p) (hc : rowConfigOk p = true) (he : heldEpoch s < getLe p 8 4) :
    mmpRowConfig p s = (0, [], { s with hud := { s.hud with accepted := p } }) := by
  have ha : acceptConfig p s = (true, { s with hud := { s.hud with accepted := p } }) := if_pos (by simp [hc, he])
  refine (if_neg (not_not.2 h)).trans ?_
  rw [ha]
  rfl

/-! Images and keys (R477, R511) -/

theorem mmpFwBlock_reserved (h : getLe p 1 3 ≠ 0) : mmpFwBlock p s = (0x0303, [], s) := if_pos h

theorem mmpFwBlock_block (h : getLe p 1 3 = 0) :
    mmpFwBlock p s = ((fwBlock (getLe p 0 1) (getLe p 4 4) (p.drop 8) s).1, [],
      (fwBlock (getLe p 0 1) (getLe p 4 4) (p.drop 8) s).2) := if_neg (not_not.2 h)

theorem mmpFwCommit_reserved {sig : Bool} (h : getLe p 1 3 ≠ 0) : mmpFwCommit sig p s = (0x0303, [], s) := if_pos h

theorem mmpFwCommit_commit {sig : Bool} (h : getLe p 1 3 = 0) :
    mmpFwCommit sig p s = ((fwCommit (getLe p 0 1) (getLe p 4 4) sig s).1, [],
      (fwCommit (getLe p 0 1) (getLe p 4 4) sig s).2) := if_neg (not_not.2 h)

/-- KEY_SET names no slot, holds a reserved value, or its point is not on the curve. -/
def keySetReserved (onCurve : Bool) (p : List Byte) : Prop :=
  2 ≤ getLe p 0 1 ∨ allZero (slice p 1 7) = false ∨ onCurve = false

theorem keySetStatus_reserved {onCurve : Bool} (h : keySetReserved onCurve p) : keySetStatus onCurve p s = 0x0303 := by
  rw [keySetReserved] at h
  exact if_pos (by simpa using h)

theorem keySetStatus_good {onCurve : Bool} (h : ¬ keySetReserved onCurve p) : keySetStatus onCurve p s = 0 := by
  rw [keySetReserved] at h
  exact if_neg (by simpa using h)

theorem keySet_zero (h : getLe p 0 1 = 0) : keySet p s =
    { s with mgp := { s.mgp with key0 := (List.range 32).map (Config.mmpKey (slice p 8 96) 0) } } := by
  simp only [keySet, updMgp, h, if_true]

theorem keySet_one (h : getLe p 0 1 = 1) : keySet p s =
    { s with mgp := { s.mgp with key1 := (List.range 32).map (Config.mmpKey (slice p 8 96) 1) } } := by
  simp only [keySet, updMgp, h, Nat.one_ne_zero, if_false]

end Commands

section Images

variable {s : State} {k off len : Nat} {data : List Byte} {sig : Bool}

theorem slotAt_updSlot_same (k : Nat) (f : Slot → Slot) (b : Boot) : slotAt (updSlot k f b) k = f (slotAt b k) :=
  get_upd_same _ _ _ _

theorem slotAt_updSlot_other {j : Nat} (h : j ≠ k) (f : Slot → Slot) (b : Boot) :
    slotAt (updSlot k f b) j = slotAt b j := get_upd_other _ _ _ h

/-- FW_BLOCK names no slot, one in use, or bytes beyond its size. -/
def blockRefused (s : State) (k off : Nat) (data : List Byte) : Prop :=
  4 ≤ k ∨ slotBusyBoot s k = true ∨ (if k < 2 then 8388608 else 262144) < off + data.length

theorem blockRefused_condition :
    (decide (4 ≤ k) || slotBusyBoot s k || decide ((if k < 2 then 8388608 else 262144) < off + data.length)) = true ↔
      blockRefused s k off data := by
  simp only [blockRefused, Bool.or_eq_true, decide_eq_true_eq, or_assoc]

theorem fwBlock_refused (h : blockRefused s k off data) : fwBlock k off data s = (0x0303, s) :=
  if_pos (blockRefused_condition.2 h)

/-- The boot record with a slot's new contents, of which `n` bytes have been written. -/
def blockWritten (k n : Nat) (x : Slot) (b : Boot) : Boot :=
  { updSlot k (fun _ => x) b with written := Tbl.set 0 b.written k n }

theorem blockWritten_slot (k n : Nat) (x : Slot) (b : Boot) :
    slotAt (blockWritten k n x b) k = x ∧ Tbl.get 0 (blockWritten k n x b).written k = n ∧
      ∀ j, j ≠ k → slotAt (blockWritten k n x b) j = slotAt b j :=
  ⟨slotAt_updSlot_same k (fun _ => x) b, get_set_same _ _ _ _, fun _ hj => slotAt_updSlot_other hj (fun _ => x) b⟩

theorem fwBlock_first (h : ¬ blockRefused s k off data) (ho : off = 0) :
    fwBlock k off data s = (0, updBoot (blockWritten k data.length { bytes := data }) s) :=
  (if_neg fun hb => h (blockRefused_condition.1 hb)).trans (if_pos ho)

theorem fwBlock_gap (h : ¬ blockRefused s k off data) (ho : off ≠ 0) (hw : off ≠ Tbl.get 0 s.boot.written k) :
    fwBlock k off data s = (0x0303, s) :=
  (if_neg fun hb => h (blockRefused_condition.1 hb)).trans ((if_neg ho).trans (if_pos hw))

theorem fwBlock_next (h : ¬ blockRefused s k off data) (ho : off ≠ 0) (hw : off = Tbl.get 0 s.boot.written k) :
    fwBlock k off data s = (0, updBoot (blockWritten k (off + data.length)
      { slotAt s.boot k with bytes := (slotAt s.boot k).bytes ++ data, st := .empty }) s) :=
  (if_neg fun hb => h (blockRefused_condition.1 hb)).trans ((if_neg ho).trans (if_neg (not_not.2 hw)))

/-- FW_COMMIT names no slot, one in use, or not the bytes written. -/
def commitRefused (s : State) (k len : Nat) : Prop :=
  4 ≤ k ∨ slotBusyBoot s k = true ∨ len ≠ Tbl.get 0 s.boot.written k

theorem commitRefused_condition :
    (decide (4 ≤ k) || slotBusyBoot s k || decide (len ≠ Tbl.get 0 s.boot.written k)) = true ↔
      commitRefused s k len := by
  simp only [commitRefused, Bool.or_eq_true, decide_eq_true_eq, or_assoc]

theorem fwCommit_refused (h : commitRefused s k len) : fwCommit k len sig s = (0x0303, s) :=
  if_pos (commitRefused_condition.2 h)

theorem fwCommit_unverified (h : ¬ commitRefused s k len) (hr : inRecovery s = false)
    (hv : verifies s (k / 2) (slotAt s.boot k).bytes sig false = false) :
    fwCommit k len sig s =
      (0x02F2, updBoot (updSlot k (fun x => if x.bytes = [] then x else { x with st := .invalid })) s) := by
  refine (if_neg fun hb => h (commitRefused_condition.1 hb)).trans (if_neg ?_)
  rw [hr, Bool.false_and, hv]
  exact Bool.false_ne_true

/-- The boot record after a verified image was committed: the slot is on trial, its partner is not. -/
def committedBoot (k : Nat) (b : Boot) : Boot :=
  let other := k / 2 * 2 + (1 - k % 2)
  let b0 := updSlot other (fun x => if x.st = .trial then { x with st := .valid } else x) { b with count := b.count + 1 }
  let b1 := updSlot k (fun x => { x with st := .trial }) b0
  if k / 2 = 0 then { b1 with fw := { b1.fw with trial := k, tried := false } }
  else { b1 with cfg := { b1.cfg with trial := k - 2, tried := false } }

theorem fwCommit_verified (h : ¬ commitRefused s k len) (hr : inRecovery s = false)
    (hv : verifies s (k / 2) (slotAt s.boot k).bytes sig false = true) :
    fwCommit k len sig s = (0, updBoot (committedBoot k) s) := by
  refine (if_neg fun hb => h (commitRefused_condition.1 hb)).trans ((if_pos ?_).trans ?_)
  · rw [hr, Bool.false_and, hv]
  · rw [hr, Bool.and_false, if_neg Bool.false_ne_true]
    rfl

theorem committedBoot_slot (k : Nat) (b : Boot) :
    slotAt (committedBoot k b) k = { slotAt b k with st := .trial } := by
  have hne : k ≠ k / 2 * 2 + (1 - k % 2) := by omega
  have hslot : slotAt (committedBoot k b) k = slotAt (updSlot k (fun x => { x with st := .trial })
      (updSlot (k / 2 * 2 + (1 - k % 2)) (fun x => if x.st = .trial then { x with st := .valid } else x)
        { b with count := b.count + 1 })) k := by
    rw [committedBoot]
    split <;> rfl
  rw [hslot, slotAt_updSlot_same, slotAt_updSlot_other hne]
  rfl

theorem committedBoot_count (k : Nat) (b : Boot) : (committedBoot k b).count = b.count + 1 := by
  rw [committedBoot]
  split <;> rfl

theorem committedBoot_firmware (hk : k < 2) (b : Boot) :
    (committedBoot k b).fw = { b.fw with trial := k, tried := false } ∧ (committedBoot k b).cfg = b.cfg := by
  rw [committedBoot, if_pos (by omega)]
  exact ⟨rfl, rfl⟩

theorem committedBoot_config (hk : 2 ≤ k) (b : Boot) :
    (committedBoot k b).cfg = { b.cfg with trial := k - 2, tried := false } ∧ (committedBoot k b).fw = b.fw := by
  rw [committedBoot, if_neg (by omega)]
  exact ⟨rfl, rfl⟩

end Images

/-! TOPO_ACCEPT of one site (R464) -/

section Accept

variable {s : State} {n : Nat}

theorem acceptSite_none (h : siteCount s ≤ n) : acceptSite n s = (false, s) := if_pos h

/-- The site's serial is accepted and the site reads OK. -/
def siteAccepted (n : Nat) (s : State) : State :=
  updTmg (fun t => { t with
    accepted := Tbl.set 0 t.accepted n (siteAt s n).serial
    sites := Tbl.set {} t.sites n { siteAt s n with result := 1 } }) s

theorem acceptSite_takes (hn : n < siteCount s)
    (hr : (siteAt s n).result = 1 ∨ (siteAt s n).result = 7 ∨ (siteAt s n).result = 8) :
    (acceptSite n s).1 = true ∧ (acceptSite n s).2.tmg = (siteAccepted n s).tmg := by
  have hgo : acceptSite n s = _ := (if_neg (Nat.not_le.2 hn)).trans (if_pos hr)
  rw [hgo]
  refine ⟨rfl, ?_⟩
  by_cases h1 : (siteAt s n).result = 1
  · simp only [if_pos h1]
    rfl
  · simp only [if_neg h1]
    rfl

theorem acceptSite_empty (hn : n < siteCount s) (hr : (siteAt s n).result = 2) :
    acceptSite n s = (true, { s with tmg := { s.tmg with accepted := Tbl.erase s.tmg.accepted n } }) :=
  (if_neg (Nat.not_le.2 hn)).trans ((if_neg (by omega)).trans (if_pos hr))

theorem acceptSite_keeps (hn : n < siteCount s) (h1 : (siteAt s n).result ≠ 1) (h7 : (siteAt s n).result ≠ 7)
    (h8 : (siteAt s n).result ≠ 8) (h2 : (siteAt s n).result ≠ 2) : acceptSite n s = (false, s) :=
  (if_neg (Nat.not_le.2 hn)).trans ((if_neg (by omega)).trans (if_neg h2))

end Accept

/-- Settles O54: each command by what it gives for its payload, answered by the lemma on a served request. -/
theorem managementCommandsAct : Obligations.ManagementCommandsAct := by
  refine ⟨fun s q rest => ?general, fun s q rest hl => ?lead, fun s q rest => ?images, fun s k off data => ?block,
    fun s k len sig => ?commit, fun s n => ?accept⟩
  case general =>
    intro t p
    refine ⟨fun h => ?identify, fun h => ?status, fun h => ?regRead, fun cons m h hm => ?regWrite, fun h => ?reset,
      fun h => ?logRead, fun h => ?eventCfg, fun h => ?eventAck⟩
    case identify => exact exec_serves rfl h rfl (.inl rfl) rfl
    case status => exact exec_serves rfl h rfl (.inl rfl) rfl
    case regRead =>
      intro off n bad
      exact ⟨fun hb => exec_serves rfl h rfl (.inl rfl) (mmpRegRead_reserved hb),
        fun hb hs => exec_serves rfl h rfl (.inl rfl) (mmpRegRead_shut hb hs),
        fun u hb hs hr => exec_serves rfl h rfl (.inl rfl) (mmpRegRead_stops hb hs hr),
        fun u l hb hs hr => exec_serves rfl h rfl (.inl rfl) (mmpRegRead_reads hb hs hr)⟩
    case regWrite =>
      intro off n bad w
      have hm' : decide (8 ≤ m) = true := decide_eq_true hm
      refine ⟨fun hn => exec_serves rfl h hm' (.inl rfl) (mmpRegWrite_length hn),
        fun hb hn => exec_serves rfl h hm' (.inl rfl) (mmpRegWrite_reserved hb hn),
        fun hb hn hs => exec_serves rfl h hm' (.inl rfl) ((mmpRegWrite_named hb hn).trans (if_pos hs)),
        fun hb hn hs => exec_serves rfl h hm' (.inl rfl)
          ((mmpRegWrite_named hb hn).trans (if_neg (Bool.eq_false_iff.1 hs)))⟩
    case reset =>
      exact exec_servesAfter (size := sizeIs 0) (f := fun _ _ => 0) (after := fun _ u => applyReset .mmp u) rfl h rfl rfl
    case logRead =>
      exact ⟨fun hb => exec_serves rfl h rfl (.inl rfl) (mmpLogRead_reserved hb),
        fun hb => exec_serves rfl h rfl (.inl rfl) (mmpLogRead_reads hb)⟩
    case eventCfg =>
      exact ⟨fun hb => exec_serves rfl h rfl (.inl rfl) (mmpEventCfg_reserved hb),
        fun h0 hm => exec_serves rfl h rfl (.inl rfl) (mmpEventCfg_sets h0 hm)⟩
    case eventAck =>
      exact ⟨fun hb => exec_serves rfl h rfl (.inl rfl) (mmpEventAck_reserved hb),
        fun hb => exec_serves rfl h rfl (.inl rfl) (mmpEventAck_drops hb)⟩
  case lead =>
    intro t p
    refine ⟨fun reads h => ?topoGet, fun n h => ?topoLoad, fun h => ?topoAccept, fun reads h => ?firRead,
      fun reads h => ?firWrite, fun n h => ?rowConfig⟩
    case topoGet => exact exec_serves rfl h rfl (.inr hl) rfl
    case topoLoad =>
      exact ⟨fun hn => exec_serves rfl h rfl (.inr hl) (mmpTopoLoad_length hn),
        fun hn ht => exec_serves rfl h rfl (.inr hl) (mmpTopoLoad_reserved hn ht),
        fun hn ht => exec_serves rfl h rfl (.inr hl) (mmpTopoLoad_loads hn ht)⟩
    case topoAccept =>
      exact ⟨fun hz => exec_serves rfl h rfl (.inr hl) (mmpTopoAccept_reserved hz),
        fun hz => exec_serves rfl h rfl (.inr hl) (mmpTopoAccept_accepts hz)⟩
    case firRead =>
      exact ⟨fun hb => exec_serves rfl h rfl (.inr hl) (mmpFirRead_reserved hb),
        fun hb hr => exec_serves rfl h rfl (.inr hl) (mmpFirRead_unreadable hb hr),
        fun x hb hr => exec_serves rfl h rfl (.inr hl) (mmpFirRead_reads hb hr)⟩
    case firWrite =>
      exact ⟨fun hb => exec_serves rfl h rfl (.inr hl) (mmpFirWrite_reserved hb),
        fun hb => exec_serves rfl h rfl (.inr hl) (mmpFirWrite_writes hb)⟩
    case rowConfig =>
      exact ⟨fun hn => exec_serves rfl h rfl (.inr hl) (mmpRowConfig_length hn),
        fun hn hc => exec_serves rfl h rfl (.inr hl) (mmpRowConfig_refused hn hc),
        fun hn hc he => exec_serves rfl h rfl (.inr hl) (mmpRowConfig_accepted hn hc he)⟩
  case images =>
    intro t p
    refine ⟨fun n h hn => ?fwBlock, fun sig h => ?fwCommit, fun onCurve h => ?keySet⟩
    case fwBlock =>
      exact ⟨fun hb => exec_serves rfl h (decide_eq_true hn) (.inl rfl) (mmpFwBlock_reserved hb),
        fun hb => exec_serves rfl h (decide_eq_true hn) (.inl rfl) (mmpFwBlock_block hb)⟩
    case fwCommit =>
      exact ⟨fun hb => exec_serves rfl h rfl (.inl rfl) (mmpFwCommit_reserved hb),
        fun hb => exec_serves rfl h rfl (.inl rfl) (mmpFwCommit_commit hb)⟩
    case keySet =>
      refine ⟨fun hb => exec_refusedAfter rfl h rfl (keySetStatus_reserved hb) (by decide), fun hb h0 => ?_,
        fun hb h1 => ?_⟩
      · exact (exec_servesAfter rfl h rfl (keySetStatus_good hb)).trans (congrArg done (keySet_zero h0))
      · exact (exec_servesAfter rfl h rfl (keySetStatus_good hb)).trans (congrArg done (keySet_one h1))
  case block =>
    exact ⟨fwBlock_refused, fun hb ho => ⟨_, fwBlock_first hb ho, blockWritten_slot _ _ _ _⟩, fwBlock_gap,
      fun hb ho hw => ⟨_, fwBlock_next hb ho hw, blockWritten_slot _ _ _ _⟩⟩
  case commit =>
    refine ⟨fwCommit_refused, fun hb hr hv => ?_, fun hb hr hv => ⟨_, fwCommit_verified hb hr hv, ?_⟩⟩
    · rw [fwCommit_unverified hb hr hv]
      exact ⟨rfl, rfl, rfl⟩
    · have hslot := committedBoot_slot k s.boot
      exact ⟨congrArg Slot.st hslot, (congrArg Slot.bytes hslot).trans rfl, committedBoot_count k s.boot,
        fun hk => committedBoot_firmware hk s.boot, fun hk => committedBoot_config hk s.boot⟩
  case accept =>
    refine ⟨acceptSite_none, fun hn hr => ?_, acceptSite_empty, acceptSite_keeps⟩
    obtain ⟨htaken, htmg⟩ := acceptSite_takes hn hr
    refine ⟨htaken, ?_, ?_⟩
    · rw [htmg]
      exact get_set_same _ _ _ _
    · rw [siteAt, htmg]
      exact congrArg SiteRes.result (get_set_same {} s.tmg.sites n { siteAt s n with result := 1 })

end Sys2Proof.Proofs
end

section
/-! Chapter 16, presence, site verification, the tray SMBus and relaying (R450–R457, R463, R464, R473). -/

namespace Sys2Proof.Proofs

open Sys2Proof Sys2Proof.Machine Sys2Proof.Safety Sys2Proof.Laws

/-- Without the island's firmware its actions do nothing. -/
theorem whenIsland_neg {f : State → State} {s : State} (h : islandRuns s = false) : whenIsland f s = s :=
  if_neg (Bool.eq_false_iff.1 h)

/-- The island runs and this chip is tray lead. -/
def leadRuns (s : State) : Prop := islandRuns s = true ∧ isTrayLead s = true

theorem whenLead_pos {f : State → State} {s : State} (h : leadRuns s) : whenLead f s = f s := by
  obtain ⟨hi, hl⟩ := h
  exact if_pos (by rw [hi, hl]; rfl)

theorem whenLead_neg {f : State → State} {s : State} (h : ¬ leadRuns s) : whenLead f s = s :=
  if_neg fun hc => h (by simpa [leadRuns] using hc)

/-! Presence (R450, R451) -/

section Presence

variable {s : State} {n : Nat} {here : Bool} {reads : List (Nat × List (Option (List Byte)))}

/-- The presence input and its change bit. -/
def presenceNoted (n : Nat) (here : Bool) (s : State) : State :=
  updTmg (fun t => { t with pres := setFld t.pres n n (b2n here) }) (orReg 0x2A00008 (2 ^ n) s)

/-- The presence event. -/
def presenceSent (t : State) : State := queueEvent 0 0x0400 (leBytes 4 t.tmg.pres ++ leBytes 4 (rawAt t 0x2A00008)) t

theorem presenceChange_same (h : bitOf s.tmg.pres n = here) : presenceChange n here reads s = s :=
  if_pos (beq_iff_eq.2 h)

theorem presenceChange_silent (h : bitOf s.tmg.pres n ≠ here) (hi : islandRuns (presenceNoted n here s) = false) :
    presenceChange n here reads s = presenceNoted n here s := by
  have hi' : islandRuns (updTmg (fun t => { t with pres := setFld t.pres n n (b2n here) })
    (orReg 0x2A00008 (2 ^ n) s)) = false := hi
  simp only [presenceChange, beq_iff_eq, if_neg h, hi', Bool.and_false, Bool.false_eq_true, if_false]
  rfl

theorem presenceChange_sent (h : bitOf s.tmg.pres n ≠ here) (hi : islandRuns (presenceNoted n here s) = true) :
    presenceChange n here reads s =
      let u := presenceSent (presenceNoted n here s)
      if isTrayLead u && islandRuns u then
        (List.range (siteCount u)).foldl (fun x k =>
          if (siteDef x k).kind ≠ 0 ∧ (siteDef x k).noPres = false ∧ (siteDef x k).pres = n
          then verifySite k (readsOf reads k) x else x) u
      else u := by
  have hi' : islandRuns (updTmg (fun t => { t with pres := setFld t.pres n n (b2n here) })
    (orReg 0x2A00008 (2 ^ n) s)) = true := hi
  simp only [presenceChange, beq_iff_eq, if_neg h, hi', if_true, Bool.and_eq_true, bne_iff_ne, Bool.not_eq_true',
    and_assoc]
  rfl

theorem presenceChange_chip (h : bitOf s.tmg.pres n ≠ here) (hi : islandRuns (presenceNoted n here s) = true)
    (hl : isTrayLead (presenceSent (presenceNoted n here s)) = false) :
    presenceChange n here reads s = presenceSent (presenceNoted n here s) :=
  (presenceChange_sent h hi).trans (if_neg (by rw [hl]; exact Bool.false_ne_true))

theorem presenceChange_lead (h : bitOf s.tmg.pres n ≠ here) (hi : islandRuns (presenceNoted n here s) = true)
    (hl : isTrayLead (presenceSent (presenceNoted n here s)) = true)
    (hu : islandRuns (presenceSent (presenceNoted n here s)) = true) :
    presenceChange n here reads s =
      let u := presenceSent (presenceNoted n here s)
      (List.range (siteCount u)).foldl (fun x k =>
        if (siteDef x k).kind ≠ 0 ∧ (siteDef x k).noPres = false ∧ (siteDef x k).pres = n
        then verifySite k (readsOf reads k) x else x) u :=
  (presenceChange_sent h hi).trans (if_pos (by rw [hl, hu]; rfl))

end Presence

/-! Site verification (R463) -/

section Verify

variable {s : State} {n : Nat} {reads : List (Option (List Byte))}

/-- The result of a site is stored and its verification is over. -/
def siteStored (n : Nat) (res : SiteRes) (s : State) : State :=
  { s with tmg := { s.tmg with sites := Tbl.set {} s.tmg.sites n res, verifying := s.tmg.verifying.filter (· != n) } }

/-- The data of a site's event. -/
def siteData (n old : Nat) (res : SiteRes) : List Byte :=
  leBytes 1 n ++ leBytes 1 old ++ leBytes 1 res.result ++ zeros 5 ++ leBytes 8 res.serial

theorem verifySite_none (h : siteCount s ≤ n) : verifySite n reads s = s := if_pos h

theorem verifySite_same (hn : n < siteCount s) (h : (siteResult s n reads).result = (siteAt s n).result) :
    verifySite n reads s = siteStored n (siteResult s n reads) s :=
  (if_neg (Nat.not_le.2 hn)).trans (if_pos h)

theorem verifySite_changed (hn : n < siteCount s) (h : (siteResult s n reads).result ≠ (siteAt s n).result) :
    verifySite n reads s =
      let res := siteResult s n reads
      let u := queueEvent (if isMismatch res.result then sevNotice else 0) 0x0300 (siteData n (siteAt s n).result res)
        (siteStored n res s)
      if isMismatch res.result then logErr { cls := 19, cause := 3, sev := sevNotice, source := 0x2A, index := n } u
      else u :=
  (if_neg (Nat.not_le.2 hn)).trans (if_neg h)

theorem isMismatch_below {k : Nat} (h : k < 3) : isMismatch k = false := decide_eq_false (Nat.not_le.2 h)

theorem isMismatch_from {k : Nat} (h : 3 ≤ k) : isMismatch k = true := decide_eq_true h

theorem verifySite_match (hn : n < siteCount s) (h : (siteResult s n reads).result ≠ (siteAt s n).result)
    (hr : (siteResult s n reads).result < 3) :
    verifySite n reads s = queueEvent 0 0x0300 (siteData n (siteAt s n).result (siteResult s n reads))
      (siteStored n (siteResult s n reads) s) := by
  simp only [verifySite_changed hn h, isMismatch_below hr, Bool.false_eq_true, if_false]

theorem verifySite_mismatch (hn : n < siteCount s) (h : (siteResult s n reads).result ≠ (siteAt s n).result)
    (hr : 3 ≤ (siteResult s n reads).result) :
    verifySite n reads s = logErr { cls := 19, cause := 3, sev := sevNotice, source := 0x2A, index := n }
      (queueEvent sevNotice 0x0300 (siteData n (siteAt s n).result (siteResult s n reads))
        (siteStored n (siteResult s n reads) s)) := by
  simp only [verifySite_changed hn h, isMismatch_from hr, if_true]

/-- TMG_VERIFY_CMD begins the verification of every site on a tray lead. -/
theorem writeHook_verify (cons : Cons) (r : Requester) (old : Nat) (l : Bool) (t : State) :
    writeHook cons r 0x2A00014 old 1 l t = if isTrayLead t = true ∧ islandRuns t = true then
      updTmg (fun x => { x with verifying := List.range (siteCount t) }) t else t := by
  have hhook : writeHook cons r 0x2A00014 old 1 l t = if (isTrayLead t && islandRuns t) = true then
    updTmg (fun x => { x with verifying := List.range (siteCount t) }) t else t := rfl
  rw [hhook]
  simp only [Bool.and_eq_true]

theorem verifyBusy_idle {all : List (Nat × List (Option (List Byte)))} (h : s.tmg.verifying = []) :
    verifyBusy all s = s := if_pos (by rw [h]; rfl)

theorem verifyBusy_runs {all : List (Nat × List (Option (List Byte)))} (h : s.tmg.verifying ≠ []) :
    verifyBusy all s = updTmg (fun t => { t with verifying := [] }) (verifyAll all s) :=
  if_neg (by simpa using h)

/-- The site's presence, from its input or from its memory. -/
def sitePresent (s : State) (n : Nat) (reads : List (Option (List Byte))) : Bool :=
  if (siteDef s n).noPres then firAnswers reads else bitOf s.tmg.pres (siteDef s n).pres

theorem siteResult_unused (h : (siteDef s n).kind = 0) : (siteResult s n reads).result = 0 := by
  simp only [siteResult, h, if_true]

theorem siteResult_absent (h : (siteDef s n).kind ≠ 0) (hh : sitePresent s n reads = false) :
    (siteResult s n reads).result = if firAnswers reads then 10 else if (siteDef s n).required then 3 else 2 := by
  rw [sitePresent] at hh
  simp only [siteResult, h, hh, if_false, Bool.not_false, Bool.true_and, if_true]
  split <;> rfl

theorem siteResult_unreadable (h : (siteDef s n).kind ≠ 0) (hh : sitePresent s n reads = true)
    (hr : firRead 3 reads = none) : (siteResult s n reads).result = 4 := by
  rw [sitePresent] at hh
  simp only [siteResult, h, hh, hr, if_false, Bool.not_true, Bool.false_and, Bool.false_eq_true, Option.isNone_none,
    if_true]

theorem siteResult_invalid {x : List Byte} (h : (siteDef s n).kind ≠ 0) (hh : sitePresent s n reads = true)
    (hr : firRead 3 reads = some x) (hv : firValid x = false) : (siteResult s n reads).result = 5 := by
  rw [sitePresent] at hh
  simp only [siteResult, h, hh, hr, hv, if_false, Bool.not_true, Bool.not_false, Bool.false_and, Bool.false_eq_true,
    Option.isNone_some, Option.getD_some, if_true]

/-- A valid record: its kind, its limits and its serial decide. -/
theorem siteResult_valid {x : List Byte} (h : (siteDef s n).kind ≠ 0) (hh : sitePresent s n reads = true)
    (hr : firRead 3 reads = some x) (hv : firValid x = true) :
    (siteResult s n reads).result =
      if getLe x 6 1 ≠ (siteDef s n).kind then 6
      else if (siteDef s n).kind = 4 ∧ (200 < getLe x 40 2 ∨ 12 < getLe x 42 2 ∨ getLe x 44 2 < 25) then 9
      else if Tbl.get 0 s.tmg.accepted n = 0 then 7
      else if Tbl.get 0 s.tmg.accepted n = getLe x 8 8 then 1 else 8 := by
  rw [sitePresent] at hh
  simp only [siteResult, h, hh, hr, hv, if_false, Bool.not_true, Bool.false_and, Bool.false_eq_true,
    Option.isNone_some, Option.getD_some, bne_iff_ne, apply_ite SiteRes.result]

theorem firValid_header {x : List Byte} (h : firValid x = true) : getLe x 0 4 = 0x52494E46 ∧ getLe x 4 2 = 1 ∧
    getLe x 252 4 = crc32 (slice x 0 252) ∧ getLe x 7 1 = 0 ∧ getLe x 8 8 ≠ 0 := by
  simp only [firValid, Bool.and_eq_true, beq_iff_eq, bne_iff_ne] at h
  obtain ⟨⟨⟨⟨⟨⟨hmagic, hver⟩, hcrc⟩, hzero⟩, hserial⟩, -⟩, -⟩ := h
  exact ⟨hmagic, hver, hcrc, hzero, hserial⟩

end Verify

/-! The tray SMBus target (R453–R456, R473) -/

section Target

variable {s : State}

theorem tsbLeak_other {v : Nat} (h1 : v ≠ 1) (h2 : v ≠ 2) : tsbLeak v s = heardLead s :=
  (if_neg h1).trans (if_neg h2)

theorem tsbQuorum_other {v : Nat} (h : 1 < v) : tsbQuorum v s = heardLead s :=
  (if_neg (by omega)).trans (if_neg (by omega))

section Fragments

variable {block : List Byte}

/-- A fragment's payload, after what has come before. -/
def requestSoFar (s : State) (block : List Byte) : List Byte :=
  (if getLe block 0 1 % 128 = 0 then [] else s.tmg.inFrag) ++ block.drop 1

/-- No fragment of a request is kept. -/
def requestCleared (s : State) : State := updTmg (fun t => { t with inFrag := [], inNext := 0 }) (heardLead s)

theorem proxyReq_length (h : block.length < 2 ∨ 242 < block.length) : proxyReq block s = s := if_pos h

theorem proxyReq_gap (h2 : 2 ≤ block.length) (h : block.length ≤ 242) (h0 : getLe block 0 1 % 128 ≠ 0)
    (hn : getLe block 0 1 % 128 ≠ s.tmg.inNext) : proxyReq block s = requestCleared s :=
  (if_neg (by omega)).trans (if_pos ⟨h0, hn⟩)

theorem proxyReq_follows (h2 : 2 ≤ block.length) (h : block.length ≤ 242)
    (hn : getLe block 0 1 % 128 = 0 ∨ getLe block 0 1 % 128 = s.tmg.inNext) :
    proxyReq block s = if bitOf (getLe block 0 1) 7 then
        mmpReceive (zeros 18) (requestSoFar s block) true (requestCleared s)
      else updTmg (fun t => { t with inFrag := requestSoFar s block, inNext := getLe block 0 1 % 128 + 1 })
        (heardLead s) :=
  (if_neg (by omega)).trans (if_neg fun hc => hn.elim hc.1 hc.2)

theorem proxyRsp_empty (h : s.tmg.outbox = []) :
    proxyRsp s = emit (.smbus (0x60 + s.pwr.straps.pos) 0x41 []) (heardLead s) := by
  have h' : (heardLead s).tmg.outbox = [] := h
  simp only [proxyRsp, h']

/-- A packet of the outbox as its fragments carry it. -/
def outboxWhole (p : OutPacket) : List Byte := (if p.kind = 2 then slice p.dest 0 18 else []) ++ p.bytes

/-- The next 240 bytes of it. -/
def outboxPiece (s : State) (p : OutPacket) : List Byte := ((outboxWhole p).drop (s.tmg.outFrag * 240)).take 240

theorem proxyRsp_last {p : OutPacket} {rest : List OutPacket} (h : s.tmg.outbox = p :: rest)
    (hl : (outboxWhole p).length ≤ (s.tmg.outFrag + 1) * 240) :
    proxyRsp s = emit (.smbus (0x60 + s.pwr.straps.pos) 0x41
      (leBytes 1 (s.tmg.outFrag + 128) ++ leBytes 1 p.kind ++ outboxPiece s p))
      (updTmg (fun t => { t with outbox := rest, outFrag := 0 }) (heardLead s)) := by
  have h' : (heardLead s).tmg.outbox = p :: rest := h
  have hf : (heardLead s).tmg.outFrag = s.tmg.outFrag := rfl
  rw [outboxWhole] at hl
  simp only [proxyRsp, h', hf, hl, decide_true, if_true]
  rfl

theorem proxyRsp_more {p : OutPacket} {rest : List OutPacket} (h : s.tmg.outbox = p :: rest)
    (hl : (s.tmg.outFrag + 1) * 240 < (outboxWhole p).length) :
    proxyRsp s = emit (.smbus (0x60 + s.pwr.straps.pos) 0x41
      (leBytes 1 s.tmg.outFrag ++ leBytes 1 p.kind ++ outboxPiece s p))
      (updTmg (fun t => { t with outFrag := s.tmg.outFrag + 1 }) (heardLead s)) := by
  have h' : (heardLead s).tmg.outbox = p :: rest := h
  have hf : (heardLead s).tmg.outFrag = s.tmg.outFrag := rfl
  rw [outboxWhole] at hl
  simp only [proxyRsp, h', hf, Nat.not_le.2 hl, decide_false, Bool.false_eq_true, if_false]
  rfl

end Fragments

theorem trayLeadSilence_lead (h : isTrayLead s = true) : trayLeadSilence s = s := if_pos h

theorem trayLeadSilence_never (h : isTrayLead s = false) (hl : s.tmg.lastLead = none) :
    trayLeadSilence s = writeQuorum false s := by
  simp only [trayLeadSilence, h, hl, Bool.false_eq_true, if_false]

theorem trayLeadSilence_since {t : Nat} (h : isTrayLead s = false) (hl : s.tmg.lastLead = some t) :
    trayLeadSilence s = writeQuorum false { s with dts := max s.dts (t + 100000000) } := by
  simp only [trayLeadSilence, h, hl, Bool.false_eq_true, if_false, advanceTo]

theorem proxyTimeout_none (h : s.tmg.proxies = []) : proxyTimeout s = s := by simp only [proxyTimeout, h]

theorem proxyTimeout_oldest {w : ProxyWait} {rest : List ProxyWait} (h : s.tmg.proxies = w :: rest) :
    proxyTimeout s =
      let t := nextCounter { s with dts := max s.dts (w.since + 100000000), tmg := { s.tmg with proxies := rest } }
      { t with out := t.out ++ [.mmp w.src (mmpPacket t 2 w.key w.seq w.command 0x0781 (leBytes 8 t.dts))] } := by
  simp only [proxyTimeout, h]
  rfl

/-! Polling an outbox (R453, R473) -/

section Poll

variable {pos : Nat} {block : List Byte}

/-- What has been read of a position's packet, with this block. -/
def packetSoFar (s : State) (pos : Nat) (block : List Byte) : List Byte :=
  Tbl.get [] s.tmg.readFrag pos ++ (if getLe block 0 1 % 128 = 0 then block.drop 1 else block.drop 2)

/-- The position's packet is complete. -/
def packetRead (pos : Nat) (s : State) : State :=
  updTmg (fun t => { t with readFrag := Tbl.erase t.readFrag pos }) s

theorem outboxPoll_none (h : isTrayLead s = false ∨ block.length < 2) : outboxPoll pos block s = s :=
  if_pos (by rcases h with h | h <;> simp [h])

theorem outboxPoll_block (h : isTrayLead s = true) (hb : 2 ≤ block.length) :
    outboxPoll pos block s =
      let part := packetSoFar s pos block
      if !(bitOf (getLe block 0 1) 7) then updTmg (fun t => { t with readFrag := Tbl.set [] t.readFrag pos part }) s
      else
        let s1 := packetRead pos s
        if getLe part 0 1 = 2 then emit (.mmp (slice part 1 18) (part.drop 19)) s1
        else
          match s.tmg.proxies.find? (fun w => w.pos == pos && w.seq == getLe (part.drop 1) 20 4) with
          | some w => emit (.mmp w.src (part.drop 1)) (updTmg (fun t => { t with proxies := t.proxies.filter (· != w) }) s1)
          | none => s1 := by
  refine (if_neg ?_).trans rfl
  simp only [h, Bool.not_true, Bool.false_or, decide_eq_true_eq, Nat.not_lt, hb]

theorem outboxPoll_part (h : isTrayLead s = true) (hb : 2 ≤ block.length) (hf : bitOf (getLe block 0 1) 7 = false) :
    outboxPoll pos block s = updTmg (fun t =>
      { t with readFrag := Tbl.set [] t.readFrag pos (packetSoFar s pos block) }) s := by
  simp only [outboxPoll_block h hb, hf, Bool.not_false, if_true]

theorem outboxPoll_event (h : isTrayLead s = true) (hb : 2 ≤ block.length) (hf : bitOf (getLe block 0 1) 7 = true)
    (hk : getLe (packetSoFar s pos block) 0 1 = 2) :
    outboxPoll pos block s = emit (.mmp (slice (packetSoFar s pos block) 1 18) ((packetSoFar s pos block).drop 19))
      (packetRead pos s) := by
  simp only [outboxPoll_block h hb, hf, hk, Bool.not_true, Bool.false_eq_true, if_false, if_true]

theorem outboxPoll_answer {w : ProxyWait} (h : isTrayLead s = true) (hb : 2 ≤ block.length)
    (hf : bitOf (getLe block 0 1) 7 = true) (hk : getLe (packetSoFar s pos block) 0 1 ≠ 2)
    (hw : s.tmg.proxies.find? (fun w => w.pos == pos && w.seq == getLe ((packetSoFar s pos block).drop 1) 20 4) = some w) :
    outboxPoll pos block s = emit (.mmp w.src ((packetSoFar s pos block).drop 1))
      (updTmg (fun t => { t with proxies := t.proxies.filter (· != w) }) (packetRead pos s)) := by
  simp only [outboxPoll_block h hb, hf, hk, hw, Bool.not_true, Bool.false_eq_true, if_false]

theorem outboxPoll_unknown (h : isTrayLead s = true) (hb : 2 ≤ block.length)
    (hf : bitOf (getLe block 0 1) 7 = true) (hk : getLe (packetSoFar s pos block) 0 1 ≠ 2)
    (hw : s.tmg.proxies.find? (fun w => w.pos == pos && w.seq == getLe ((packetSoFar s pos block).drop 1) 20 4) = none) :
    outboxPoll pos block s = packetRead pos s := by
  simp only [outboxPoll_block h hb, hf, hk, hw, Bool.not_true, Bool.false_eq_true, if_false]

end Poll

/-- One position of the over's reads: read when something answers for it (R455). -/
theorem readAnswer_eq (answers : List (Nat × Nat × Option (List Byte))) :
    (fun (t : State) (p : Nat) => match answers.find? (fun a => a.1 == p) with
      | some a => readPosition p a.2.1 a.2.2 t
      | none => t) =
    fun x p => if (answers.find? (fun a => a.1 == p)).isSome
      then readPosition p ((answers.find? (fun a => a.1 == p)).getD (0, 0, none)).2.1
        ((answers.find? (fun a => a.1 == p)).getD (0, 0, none)).2.2 x else x := by
  funext x p
  cases answers.find? (fun a => a.1 == p) <;> rfl

/-- A position whose state was read (R425, R455). -/
theorem posAt_refreshEntry (s : State) (p : Nat) (bytes : List Byte) :
    posAt (refreshEntry p bytes s) p = { posAt s p with
      seq := ((posAt s p).seq + 1) % 256, answered := true, fails := 0, state := bytes, readAt := s.dts
      entry := slice bytes 0 10 ++ leBytes 1 (((posAt s p).seq + 1) % 256) ++ leBytes 1 (getLe bytes 10 1) } := by
  rw [posAt, refreshEntry, updTmg, get_upd_same]
  rfl

theorem traySmbusOver_chip {answers : List (Nat × Nat × Option (List Byte))} (h : isTrayLead s = false) :
    traySmbusOver answers s = s := if_pos (by rw [h]; rfl)

theorem traySmbusOver_lead (answers : List (Nat × Nat × Option (List Byte))) (h : isTrayLead s = true) :
    traySmbusOver answers s =
      let t := tsbWrites (fun p => answers.any (fun a => a.1 == p && a.2.2.isNone)) (sendLeak (judgeHuddle s))
      let others := (List.range 4).filter
        (fun p => p != s.pwr.straps.pos && (bitOf (fittedMask t) p || (trayRecord t).isNone))
      let u := others.foldl (fun x p => if (answers.find? (fun a => a.1 == p)).isSome
        then readPosition p ((answers.find? (fun a => a.1 == p)).getD (0, 0, none)).2.1
          ((answers.find? (fun a => a.1 == p)).getD (0, 0, none)).2.2 x else x) t
      let v := refreshEntry s.pwr.straps.pos (chipState u) u
      if takesPart v = true ∧ fbcRuns v = true then putTrayReport v else v := by
  rw [← readAnswer_eq]
  refine (if_neg (by rw [h]; exact Bool.false_ne_true)).trans ?_
  simp only [Bool.and_eq_true] <;> rfl

end Target

/-- Settles O52: presence and sites by what changed, the target's codes by their value, relaying by the block read. -/
theorem theTrayVerifiesReportsAndRelays : Obligations.TheTrayVerifiesReportsAndRelays := by
  refine ⟨fun s n here reads => ?presence, fun s n reads all => ?site, fun s r d all h => ?command,
    fun s n reads => ?result, fun x h => firValid_header h, fun s v code angle byLead block pos answers hi => ?still,
    fun s hi => ?target, fun s hi => ?silence, fun s pos block hi => ?poll, fun s answers hi => ?round,
    fun s p bytes => posAt_refreshEntry s p bytes⟩
  case presence =>
    intro t u
    refine ⟨fun h => ?_, fun hs hne hi => congrArg done ((whenStandby_pos hs).trans (presenceChange_silent hne hi)),
      fun hs hne hi hl => ?_, fun hs hne hi hl hu => ?_⟩
    · rcases h with h | h
      · exact congrArg done (if_neg (Bool.eq_false_iff.1 h))
      · exact congrArg done ((congrArg (fun x => if standby s then x else s) (presenceChange_same h)).trans (ite_self s))
    · exact congrArg done ((whenStandby_pos hs).trans (presenceChange_chip hne hi hl))
    · exact congrArg done ((whenStandby_pos hs).trans (presenceChange_lead hne hi hl hu))
  case site =>
    intro lead
    refine ⟨fun h => ⟨congrArg done (whenLead_neg h), congrArg done (whenLead_neg h)⟩,
      fun h hn => congrArg done ((whenLead_pos h).trans (verifySite_none hn)), fun h hn => ?_,
      fun h => congrArg done (whenLead_pos h)⟩
    exact ⟨fun he => congrArg done ((whenLead_pos h).trans (verifySite_same hn he)),
      fun he hr => congrArg done ((whenLead_pos h).trans (verifySite_match hn he hr)),
      fun he hr => congrArg done ((whenLead_pos h).trans (verifySite_mismatch hn he hr))⟩
  case command =>
    intro t u
    have hrun : Sys2Proof.Machine.exec (.verifyCmd r all) s = done (verifyBusy all _) := congrArg
      (fun x => done (verifyBusy all x)) ((regWrite_written h (by decide) (by decide)).trans (writeHook_verify _ _ _ _ _))
    refine ⟨fun hl hi hc => ?_, fun hn hv => ?_⟩
    · rw [if_pos ⟨hl, hi⟩] at hrun
      exact hrun.trans (congrArg done (verifyBusy_runs (by simpa [updTmg] using hc)))
    · rw [if_neg (by rcases hn with hn | hn <;> simp [t, hn])] at hrun
      exact hrun.trans (congrArg done (verifyBusy_idle hv))
  case result =>
    intro d here acc
    refine ⟨siteResult_unused, fun h hh ha => (siteResult_absent h hh).trans (if_pos ha),
      fun h hh ha => (siteResult_absent h hh).trans (if_neg (Bool.eq_false_iff.1 ha)), siteResult_unreadable,
      fun x h hh hr => ?_⟩
    intro limits
    have hvalid := fun hv : firValid x = true => siteResult_valid h hh hr hv
    refine ⟨siteResult_invalid h hh hr, fun hv hk => (hvalid hv).trans (if_pos hk), fun hv hk hl => ?_,
      fun hv hk hl ha => ?_, fun hv hk hl ha hs => ?_, fun hv hk hl ha hs => ?_⟩
    · exact (hvalid hv).trans ((if_neg (not_not.2 hk)).trans (if_pos hl))
    · exact (hvalid hv).trans ((if_neg (not_not.2 hk)).trans ((if_neg hl).trans (if_pos ha)))
    · exact (hvalid hv).trans ((if_neg (not_not.2 hk)).trans ((if_neg hl).trans ((if_neg ha).trans (if_neg hs))))
    · exact (hvalid hv).trans ((if_neg (not_not.2 hk)).trans ((if_neg hl).trans ((if_neg ha).trans (if_pos hs))))
  case still =>
    have hstill : ∀ f, done (whenIsland f s) = done s := fun f => congrArg done (whenIsland_neg hi)
    simp only [List.forall_mem_cons, List.not_mem_nil, false_imp_iff, implies_true, and_true]
    exact ⟨hstill _, hstill _, hstill _, hstill _, hstill _, hstill _, hstill _, hstill _, hstill _, hstill _, hstill _,
      hstill _⟩
  case target =>
    intro h role
    have hrun : ∀ f, done (whenIsland f s) = done (f s) := fun f => congrArg done (whenIsland_pos hi)
    refine ⟨hrun _, hrun _, hrun _, hrun _, fun v => ⟨?_, ?_, fun h1 h2 => (hrun _).trans (congrArg done (tsbLeak_other h1 h2))⟩,
      fun v => ⟨?_, ?_, fun hv => (hrun _).trans (congrArg done (tsbQuorum_other hv))⟩, fun v => hrun _,
      fun code angle => ⟨fun hc => (hrun _).trans (congrArg done (if_pos hc)),
        fun hc => (hrun _).trans (congrArg done (if_neg (Nat.not_le.2 hc)))⟩, fun block => ?_,
      fun ho => (hrun _).trans (congrArg done (proxyRsp_empty ho)), fun p rest ho => ?_⟩
    · rintro rfl
      exact hrun _
    · rintro rfl
      exact hrun _
    · rintro rfl
      exact hrun _
    · rintro rfl
      exact hrun _
    · refine ⟨fun hl => (hrun _).trans (congrArg done (proxyReq_length hl)),
        fun h2 hl h0 hn => (hrun _).trans (congrArg done (proxyReq_gap h2 hl h0 hn)), fun h2 hl hn => ?_⟩
      exact ⟨fun hb => (hrun _).trans (congrArg done ((proxyReq_follows h2 hl hn).trans (if_pos hb))),
        fun hb => (hrun _).trans (congrArg done ((proxyReq_follows h2 hl hn).trans (if_neg (Bool.eq_false_iff.1 hb))))⟩
    · exact ⟨fun hl => (hrun _).trans (congrArg done (proxyRsp_last ho hl)),
        fun hl => (hrun _).trans (congrArg done (proxyRsp_more ho hl))⟩
  case silence =>
    have hrun : ∀ f, done (whenIsland f s) = done (f s) := fun f => congrArg done (whenIsland_pos hi)
    exact ⟨fun hl => (hrun _).trans (congrArg done (trayLeadSilence_lead hl)),
      fun hl hn => (hrun _).trans (congrArg done (trayLeadSilence_never hl hn)),
      fun t hl ht => (hrun _).trans (congrArg done (trayLeadSilence_since hl ht)),
      fun hp => (hrun _).trans (congrArg done (proxyTimeout_none hp)),
      fun w rest hp => (hrun _).trans (congrArg done (proxyTimeout_oldest hp))⟩
  case poll =>
    intro frag part t
    have hrun : ∀ f, done (whenIsland f s) = done (f s) := fun f => congrArg done (whenIsland_pos hi)
    refine ⟨fun h => (hrun _).trans (congrArg done (outboxPoll_none h)),
      fun hl hb hf => (hrun _).trans (congrArg done (outboxPoll_part hl hb hf)),
      fun hl hb hf hk => (hrun _).trans (congrArg done (outboxPoll_event hl hb hf hk)), fun hl hb hf hk => ?_⟩
    exact ⟨fun w hw => (hrun _).trans (congrArg done (outboxPoll_answer hl hb hf hk hw)),
      fun hw => (hrun _).trans (congrArg done (outboxPoll_unknown hl hb hf hk hw))⟩
  case round =>
    have hrun : ∀ f, done (whenIsland f s) = done (f s) := fun f => congrArg done (whenIsland_pos hi)
    exact ⟨fun hl => (hrun _).trans (congrArg done (traySmbusOver_chip hl)),
      fun hl => (hrun _).trans (congrArg done (traySmbusOver_lead answers hl))⟩

end Sys2Proof.Proofs
end

section
/-! Chapter 16, management packets, their answers, events, the PHY and PTP (R466–R481). -/

namespace Sys2Proof.Proofs

open Sys2Proof Sys2Proof.Machine Sys2Proof.Safety Sys2Proof.Laws

/-- Without the island an action of its ROM or firmware does nothing. -/
theorem whenRom_neg {f : State → State} {s : State} (h : romRuns s = false) : whenRom f s = s :=
  if_neg (Bool.eq_false_iff.1 h)

theorem whenRom_pos {f : State → State} {s : State} (h : romRuns s = true) : whenRom f s = f s := if_pos h

/-! Packets (R469–R471, R473) -/

section Packet

variable {s : State} {src p : List Byte} {q : MmpRequest}

/-- The header and the length stand. -/
def packetFormed (p : List Byte) : Prop :=
  getLe p 0 4 = 0x31504D4D ∧ getLe p 4 1 = 1 ∧ getLe p 5 1 = 1 ∧ getLe p 28 2 ≤ 1024 ∧
    p.length = 48 + getLe p 28 2 ∧ getLe p 6 1 < 4 ∧ getLe p 7 1 < 2 ∧ getLe p 30 2 = 0

theorem mmpFormed_iff : mmpFormed p = true ↔ packetFormed p := by
  simp only [mmpFormed, packetFormed, Bool.and_eq_true, beq_iff_eq, decide_eq_true_eq, and_assoc]

theorem mmpReceive_unserved {proxied : Bool} (h : romRuns s = false) : mmpReceive src p proxied s = s :=
  if_pos (by rw [h]; rfl)

theorem mmpReceive_malformed {proxied : Bool} (h : romRuns s = true) (hf : ¬ packetFormed p) :
    mmpReceive src p proxied s = bumpFld 0x2B00010 15 0 s := by
  have hf' : mmpFormed p = false := Bool.eq_false_iff.2 fun hc => hf (mmpFormed_iff.1 hc)
  simp only [mmpReceive, h, hf', Bool.not_true, Bool.not_false, Bool.false_eq_true, if_false, if_true, mmpCount]

/-- A well-formed packet of the port: relayed, discarded or checked by its position. -/
theorem mmpReceive_formed (h : romRuns s = true) (hf : packetFormed p) :
    mmpReceive src p false s =
      if getLe p 6 1 ≠ s.pwr.straps.pos then
        if isTrayLead s then proxyForward (getLe p 6 1) { src, proxied := false, packet := p } s
        else bumpFld 0x2B00014 15 0 s
      else mmpChecked { src, proxied := false, packet := p } s := by
  have hf' : mmpFormed p = true := mmpFormed_iff.2 hf
  simp only [mmpReceive, h, hf', Bool.not_true, Bool.not_false, Bool.and_true, Bool.false_eq_true, if_false, mmpCount]

theorem proxyForward_silent {pos : Nat} (hq : q.proxied = false) (h : 4 ≤ (posAt s pos).fails) :
    proxyForward pos q s = respond q 0x0781 [] s := by
  obtain ⟨src, proxied, packet⟩ := q
  cases hq
  exact if_pos (decide_eq_true h)

theorem proxyForward_relays {pos : Nat} (h : (posAt s pos).fails < 4) :
    proxyForward pos q s =
      { s with
        out := s.out ++ (proxyFrags 5 q.packet 0).map (fun b => .smbus (0x60 + pos) 0x40 b)
        tmg := { s.tmg with proxies := s.tmg.proxies ++ [
          { pos, seq := reqField q 20 4, key := reqField q 7 1, command := reqCommand q, src := q.src, since := s.dts }] } } := by
  have hgo : ¬ decide (4 ≤ (posAt s pos).fails) = true := by simpa using h
  have hsent : (proxyFrags 5 q.packet 0).foldl (fun t b => emit (.smbus (0x60 + pos) 0x40 b) t) s =
      { s with out := s.out ++ (proxyFrags 5 q.packet 0).map (fun b => .smbus (0x60 + pos) 0x40 b) } := by
    rw [← foldl_emit, List.foldl_map]
  refine (if_neg hgo).trans ?_
  rw [hsent]
  rfl

/-- KEY_SET to an empty unit in recovery needs no tag. -/
def requestBare (s : State) (q : MmpRequest) : Prop :=
  s.boot.path = 1 ∧ s.mgp.key0 = [] ∧ s.mgp.key1 = [] ∧ reqCommand q = 0x60 ∧ getLe (reqPayload q) 0 1 = 0

/-- The request carries the tag of a key this chip holds. -/
def requestTagged (s : State) (q : MmpRequest) : Prop :=
  mmpKeyAt s (reqField q 7 1) ≠ [] ∧
    mmpTag (mmpKeyAt s (reqField q 7 1)) (slice q.packet 0 (32 + reqField q 28 2)) = reqTag q

/-- The request names this chip's serial, or IDENTIFYs any. -/
def requestMine (q : MmpRequest) : Prop :=
  reqField q 16 4 = serialLo ∨ (reqField q 16 4 = 0xFFFFFFFF ∧ reqCommand q = 1)

/-- What a request that passes the key and the serial meets: the floor, and the queue's room. -/
def requestJudged (q : MmpRequest) (s : State) : State :=
  let c := reqField q 8 8
  if c ≤ s.mgp.floor then
    if s.mgp.lastTag = some (c, reqTag q) ∧ c = s.mgp.floor then resendKept q s
    else respond q 0x0303 (leBytes 8 s.mgp.floor) (bumpFld 0x2B00014 31 16 s)
  else if 16 ≤ s.mgp.queue.length then bumpFld 0x2B00014 15 0 s
  else { s with mgp := { s.mgp with floor := c, queue := s.mgp.queue ++ [q] } }

theorem mmpChecked_eq (q : MmpRequest) (s : State) [Decidable (¬ requestBare s q ∧ ¬ requestTagged s q)]
    [Decidable (¬ requestMine q)] :
    mmpChecked q s = if ¬ requestBare s q ∧ ¬ requestTagged s q then bumpFld 0x2B00010 31 16 s
      else if ¬ requestMine q then bumpFld 0x2B00014 15 0 s else requestJudged q s := by
  have hkey : (!(s.boot.path == 1 && s.mgp.key0 == [] && s.mgp.key1 == [] && reqCommand q == 0x0060 &&
      getLe (reqPayload q) 0 1 == 0) && (mmpKeyAt s (reqField q 7 1) == [] ||
      mmpTag (mmpKeyAt s (reqField q 7 1)) (slice q.packet 0 (32 + reqField q 28 2)) != reqTag q)) = true ↔
      ¬ requestBare s q ∧ ¬ requestTagged s q := by
    rw [requestBare, requestTagged, Bool.and_eq_true, Bool.not_eq_true', ← Bool.not_eq_true]
    simp only [Bool.and_eq_true, Bool.or_eq_true, beq_iff_eq, bne_iff_ne, and_assoc, not_and_or, not_not, ne_eq]
  have hmine : (reqField q 16 4 != serialLo && !(reqField q 16 4 == 0xFFFFFFFF && reqCommand q == 1)) = true ↔
      ¬ requestMine q := by
    rw [requestMine, Bool.and_eq_true, Bool.not_eq_true', ← Bool.not_eq_true]
    simp only [Bool.and_eq_true, beq_iff_eq, bne_iff_ne, not_or, ne_eq]
  by_cases hk : ¬ requestBare s q ∧ ¬ requestTagged s q
  · rw [if_pos hk]
    exact if_pos (hkey.2 hk)
  · rw [if_neg hk]
    refine (if_neg fun hc => hk (hkey.1 hc)).trans ?_
    by_cases hm : ¬ requestMine q
    · rw [if_pos hm]
      exact if_pos (hmine.2 hm)
    · rw [if_neg hm]
      exact if_neg fun hc => hm (hmine.1 hc)

theorem mmpChecked_untagged (hb : ¬ requestBare s q) (ht : ¬ requestTagged s q) :
    mmpChecked q s = bumpFld 0x2B00010 31 16 s := by
  classical
  exact (mmpChecked_eq q s).trans (if_pos ⟨hb, ht⟩)

theorem mmpChecked_foreign (h : requestBare s q ∨ requestTagged s q) (hm : ¬ requestMine q) :
    mmpChecked q s = bumpFld 0x2B00014 15 0 s := by
  classical
  exact (mmpChecked_eq q s).trans ((if_neg (by tauto)).trans (if_pos hm))

theorem mmpChecked_mine (h : requestBare s q ∨ requestTagged s q) (hm : requestMine q) :
    mmpChecked q s = requestJudged q s := by
  classical
  exact (mmpChecked_eq q s).trans ((if_neg (by tauto)).trans (if_neg (not_not.2 hm)))

theorem requestJudged_repeated (hc : reqField q 8 8 ≤ s.mgp.floor)
    (ht : s.mgp.lastTag = some (reqField q 8 8, reqTag q)) (he : reqField q 8 8 = s.mgp.floor) :
    requestJudged q s = resendKept q s := (if_pos hc).trans (if_pos ⟨ht, he⟩)

theorem requestJudged_stale (hc : reqField q 8 8 ≤ s.mgp.floor)
    (h : s.mgp.lastTag ≠ some (reqField q 8 8, reqTag q) ∨ reqField q 8 8 ≠ s.mgp.floor) :
    requestJudged q s = respond q 0x0303 (leBytes 8 s.mgp.floor) (bumpFld 0x2B00014 31 16 s) :=
  (if_pos hc).trans (if_neg fun hb => h.elim (fun hn => hn hb.1) fun hn => hn hb.2)

theorem requestJudged_full (hc : s.mgp.floor < reqField q 8 8) (h : 16 ≤ s.mgp.queue.length) :
    requestJudged q s = bumpFld 0x2B00014 15 0 s := (if_neg (Nat.not_le.2 hc)).trans (if_pos h)

theorem requestJudged_queued (hc : s.mgp.floor < reqField q 8 8) (h : s.mgp.queue.length < 16) :
    requestJudged q s = { s with mgp := { s.mgp with floor := reqField q 8 8, queue := s.mgp.queue ++ [q] } } :=
  (if_neg (Nat.not_le.2 hc)).trans (if_neg (Nat.not_le.2 h))

end Packet

/-! Rows and answers (R470–R474) -/

section Rows

variable {s : State} {i : Instr} {cmd n : Nat} {size : Nat → Bool} {lead : Bool} {q : MmpRequest}
  {rest : List MmpRequest}

theorem mmpRow_rests (hi : mmpRow i = some (cmd, size, lead))
    (h : s.mgp.queue = [] ∨ romRuns s = false ∨ ∃ q rest, s.mgp.queue = q :: rest ∧ reqCommand q ≠ cmd) :
    Sys2Proof.Machine.exec i s = .next (settle s) := by
  rcases exec_mmpRow hi with ⟨f, hrun⟩ | ⟨-, f, after, hrun⟩
  · exact (hrun s).trans (congrArg done (runMmp_other h))
  · exact (hrun s).trans (congrArg done (runMmpAfter_other h))

theorem mmpRow_length (hi : mmpRow i = some (cmd, size, lead)) (h : mmpFront s cmd n q rest) (hn : size n = false) :
    Sys2Proof.Machine.exec i s = .next (settle (answerReq q 0x0304 [] (takenFrom s q rest))) := by
  have hn' : (!(size n)) = true := by rw [hn]; rfl
  rcases exec_mmpRow hi with ⟨f, hrun⟩ | ⟨-, f, after, hrun⟩
  · exact (hrun s).trans (congrArg done ((runMmp_front h).trans (if_pos hn')))
  · exact (hrun s).trans (congrArg done ((runMmpAfter_front h).trans (if_pos hn')))

theorem mmpRow_notLead (hi : mmpRow i = some (cmd, size, lead)) (h : mmpFront s cmd n q rest) (hn : size n = true)
    (hl : lead = true) (ht : isTrayLead s = false) :
    Sys2Proof.Machine.exec i s = .next (settle (answerReq q 0x02E0 [] (takenFrom s q rest))) := by
  have hn' : ¬ (!(size n)) = true := by rw [hn]; exact Bool.false_ne_true
  have hl' : (lead && !(isTrayLead s)) = true := by rw [hl, ht]; rfl
  rcases exec_mmpRow hi with ⟨f, hrun⟩ | ⟨hl0, -⟩
  · exact (hrun s).trans (congrArg done ((runMmp_front h).trans ((if_neg hn').trans (if_pos hl'))))
  · rw [hl] at hl0
    cases hl0

variable {status : Nat} {payload : List Byte}

theorem answerReq_port (h : q.proxied = false) :
    answerReq q status payload s =
      let m := s.mgp
      let c := m.outCounter + 1
      let u := { s with mgp := { m with
        outCounter := c, outReserve := if m.outReserve < c then c + 2 ^ 20 else m.outReserve
        lastTag := some (reqField q 8 8, reqTag q), lastResponse := leBytes 8 s.dts ++ payload
        lastKey := reqField q 7 1, lastSeq := reqField q 20 4, lastCmd := reqCommand q, lastStatus := status } }
      { u with out := s.out ++ [.mmp q.src
        (mmpPacket u 2 (reqField q 7 1) (reqField q 20 4) (reqCommand q) status (leBytes 8 s.dts ++ payload))] } := by
  simp only [answerReq, respond, sendOut, h, Bool.false_eq_true, if_false]
  rfl

theorem answerReq_relayed (h : q.proxied = true) :
    answerReq q status payload s =
      let m := s.mgp
      let c := m.outCounter + 1
      let u := { s with mgp := { m with
        outCounter := c, outReserve := if m.outReserve < c then c + 2 ^ 20 else m.outReserve
        lastTag := some (reqField q 8 8, reqTag q), lastResponse := leBytes 8 s.dts ++ payload
        lastKey := reqField q 7 1, lastSeq := reqField q 20 4, lastCmd := reqCommand q, lastStatus := status } }
      { u with tmg := { s.tmg with outbox := s.tmg.outbox ++ [{
        kind := 1, dest := q.src
        bytes := mmpPacket u 2 (reqField q 7 1) (reqField q 20 4) (reqCommand q) status (leBytes 8 s.dts ++ payload) }] } } := by
  simp only [answerReq, respond, sendOut, h, if_true]
  rfl

end Rows

/-! Events and the PHY (R466, R475) -/

section Events

variable {s : State}

/-- The entry an event makes. -/
def eventOf (sev code : Nat) (data : List Byte) (s : State) : MgpEvent :=
  { seq := s.mgp.nextEv, dts := s.dts, sev, code, data := slice data 0 16, sent := false }

theorem queueEvent_room {sev code : Nat} {data : List Byte} (h : s.mgp.events.length < 64) :
    queueEvent sev code data s = { s with mgp := { s.mgp with
      events := s.mgp.events ++ [eventOf sev code data s], nextEv := (s.mgp.nextEv + 1) % 2 ^ 32 } } := by
  have hl : decide (64 < s.mgp.events.length + 1) = false := decide_eq_false (by omega)
  simp only [queueEvent, List.length_append, List.length_singleton, hl, Bool.false_eq_true, if_false]
  rfl

theorem queueEvent_full {sev code : Nat} {data : List Byte} (h : 64 ≤ s.mgp.events.length) :
    queueEvent sev code data s = { s with mgp := { s.mgp with
      events := (s.mgp.events ++ [eventOf sev code data s]).drop 1, nextEv := (s.mgp.nextEv + 1) % 2 ^ 32
      evLost := satInc 0xFFFF s.mgp.evLost } } := by
  have hl : decide (64 < s.mgp.events.length + 1) = true := decide_eq_true (by omega)
  simp only [queueEvent, List.length_append, List.length_singleton, hl, if_true]
  rfl

variable {up v4 v6 : Bool} {speed : Nat}

theorem phyLink_held (h : s.mgp.phyReleased = false) : phyLink up speed v4 v6 s = s := if_pos (by rw [h]; rfl)

theorem phyLink_up (h : s.mgp.phyReleased = true) (hu : up = true) (hs : speed = 1 ∨ speed = 2) :
    phyLink up speed v4 v6 s =
      { s with mgp := { s.mgp with link := true, speed := speed, ipv4 := v4, ipv6 := v6 } } := by
  have hok : (up && (speed == 1 || speed == 2)) = true := by rcases hs with hs | hs <;> simp [hu, hs]
  simp only [phyLink, h, hok, Bool.not_true, Bool.false_eq_true, if_false, if_true, Bool.true_and, updMgp]

theorem phyLink_down (h : s.mgp.phyReleased = true) (hd : up = false ∨ (speed ≠ 1 ∧ speed ≠ 2)) :
    phyLink up speed v4 v6 s =
      { s with mgp := { s.mgp with link := false, speed := 0, ipv4 := false, ipv6 := false } } := by
  have hok : (up && (speed == 1 || speed == 2)) = false := by rcases hd with hd | hd <;> simp [hd]
  simp only [phyLink, h, hok, Bool.not_true, Bool.false_eq_true, if_false, Bool.false_and, updMgp]

end Events

/-! PTP (R479–R481) -/

section Ptp

variable {s : State} {t1 t2 t3 t4 gm rank : Nat} {c1 c2 : Int}

theorem ptpExchange_disabled (h : s.mgp.ptp.st = 0) : ptpExchange t1 t2 t3 t4 c1 c2 s = s := if_pos (by simp [h])

theorem ptpAnnounce_disabled (h : s.mgp.ptp.st = 0) : ptpAnnounce gm rank s = s := if_pos (by simp [h])

theorem ptpTimeout_listening (h : s.mgp.ptp.st ≤ 1) : ptpTimeout s = s := if_pos h

theorem ptpTimeout_lost (h : 1 < s.mgp.ptp.st) : ptpTimeout s =
    ptpState 1 { s with mgp := { s.mgp with ptp := { s.mgp.ptp with gmRank := none, good := 0 } } } :=
  if_neg (Nat.not_le.2 h)

/-- The offset that an exchange measures. -/
def ptpOffset (s : State) (t1 t2 t3 t4 : Nat) (c1 c2 : Int) : Int :=
  Int.tdiv ((((t2 : Int) - regFld s 0x2B00044 15 0) - t1 - c1) - (t4 - ((t3 : Int) + regFld s 0x2B00044 31 16) - c2)) 2

/-- The largest offset that is slewed. -/
def ptpStep (s : State) : Int := regFld s 0x2B00040 15 0 * 1000

/-- Consecutive exchanges within a microsecond. -/
def ptpGood (s : State) (o : Int) : Nat := if -1000 ≤ o ∧ o ≤ 1000 then s.mgp.ptp.good + 1 else 0

/-- The trim that an exchange within the step chooses. -/
def ptpTrim (s : State) : Int := (((Config.freeValue s.free).toNat % 40001 : Nat) : Int) - 20000

theorem ptpExchange_measures (hi : islandRuns s = true) (he : regBit s 0x2B00040 31 = true) (hs : s.mgp.ptp.st ≠ 0) :
    ptpExchange t1 t2 t3 t4 c1 c2 s =
      let o := ptpOffset s t1 t2 t3 t4 c1 c2
      let far := decide (o < -ptpStep s) || decide (ptpStep s < o)
      let s1 : State := { s with
        free := s.free + 1
        mgp := { s.mgp with ptp := { s.mgp.ptp with
          offset := o, good := ptpGood s o, slewing := decide (ptpStep s < o)
          slew := if ptpStep s < o then o.toNat else 0, trim := if far then s.mgp.ptp.trim else ptpTrim s } } }
      let s2 := if o < -ptpStep s then { s1 with dts := s1.dts + (-o).toNat } else s1
      ptpState (if far then 2 else if 8 ≤ ptpGood s o ∨ s.mgp.ptp.st = 3 then 3 else 2) s2 :=
  if_neg (by simp [hi, he, hs])

theorem ptpStep_nonneg (s : State) : 0 ≤ ptpStep s := by rw [ptpStep]; omega

theorem ptpTrim_bounds (s : State) : -20000 ≤ ptpTrim s ∧ ptpTrim s ≤ 20000 := by rw [ptpTrim]; omega

section Exchange

variable (hi : islandRuns s = true) (he : regBit s 0x2B00040 31 = true) (hs : s.mgp.ptp.st ≠ 0)
include hi he hs

theorem ptpExchange_behind (h : ptpOffset s t1 t2 t3 t4 c1 c2 < -ptpStep s) :
    ptpExchange t1 t2 t3 t4 c1 c2 s =
      let o := ptpOffset s t1 t2 t3 t4 c1 c2
      ptpState 2 { s with
        free := s.free + 1, dts := s.dts + (-o).toNat
        mgp := { s.mgp with ptp := { s.mgp.ptp with offset := o, good := ptpGood s o, slewing := false, slew := 0 } } } := by
  have hn : ¬ ptpStep s < ptpOffset s t1 t2 t3 t4 c1 c2 := by have := ptpStep_nonneg s; omega
  simp only [ptpExchange_measures hi he hs, h, hn, decide_true, decide_false, Bool.true_or, if_true, if_false]

theorem ptpExchange_ahead (h : ptpStep s < ptpOffset s t1 t2 t3 t4 c1 c2) :
    ptpExchange t1 t2 t3 t4 c1 c2 s =
      let o := ptpOffset s t1 t2 t3 t4 c1 c2
      ptpState 2 { s with
        free := s.free + 1
        mgp := { s.mgp with ptp := { s.mgp.ptp with offset := o, good := ptpGood s o, slewing := true, slew := o.toNat } } } := by
  have hn : ¬ ptpOffset s t1 t2 t3 t4 c1 c2 < -ptpStep s := by have := ptpStep_nonneg s; omega
  simp only [ptpExchange_measures hi he hs, h, hn, decide_true, decide_false, Bool.or_true, if_true, if_false]

theorem ptpExchange_near (hl : -ptpStep s ≤ ptpOffset s t1 t2 t3 t4 c1 c2)
    (hh : ptpOffset s t1 t2 t3 t4 c1 c2 ≤ ptpStep s) :
    ptpExchange t1 t2 t3 t4 c1 c2 s =
      let o := ptpOffset s t1 t2 t3 t4 c1 c2
      ptpState (if 8 ≤ ptpGood s o ∨ s.mgp.ptp.st = 3 then 3 else 2) { s with
        free := s.free + 1
        mgp := { s.mgp with ptp := { s.mgp.ptp with
          offset := o, good := ptpGood s o, slewing := false, slew := 0, trim := ptpTrim s } } } := by
  simp only [ptpExchange_measures hi he hs, Int.not_lt.2 hl, Int.not_lt.2 hh, decide_false, Bool.or_self,
    Bool.false_eq_true, if_false]

end Exchange

section Announce

variable (he : regBit s 0x2B00040 31 = true) (hs : s.mgp.ptp.st ≠ 0)
include he hs

theorem ptpAnnounce_same {r : Nat} (hr : s.mgp.ptp.gmRank = some r) (hg : gm = s.mgp.ptp.gm) :
    ptpAnnounce gm rank s = { s with mgp := { s.mgp with ptp := { s.mgp.ptp with gmRank := some rank } } } :=
  (if_neg (by simp [he, hs])).trans (if_pos (by simp [hr, hg]))

theorem ptpAnnounce_worse {r : Nat} (hr : s.mgp.ptp.gmRank = some r) (hg : gm ≠ s.mgp.ptp.gm) (hle : r ≤ rank) :
    ptpAnnounce gm rank s = s := by
  refine (if_neg (by simp [he, hs])).trans ((if_neg (by simp [hg])).trans (if_neg ?_))
  simp [hr, hle]

theorem ptpAnnounce_better
    (h : s.mgp.ptp.gmRank = none ∨ ∃ r, s.mgp.ptp.gmRank = some r ∧ gm ≠ s.mgp.ptp.gm ∧ rank < r) :
    ptpAnnounce gm rank s = ptpState 2
      { s with mgp := { s.mgp with ptp := { s.mgp.ptp with gm, gmRank := some rank, good := 0 } } } := by
  refine (if_neg (by simp [he, hs])).trans ?_
  rcases h with h | ⟨r, h, hg, hlt⟩
  · exact (if_neg (by simp [h])).trans (if_pos (by simp [h]))
  · exact (if_neg (by simp [hg])).trans (if_pos (by simp [h, hlt]))

end Announce

end Ptp

/-- Settles O53: packets by their checks in order, rows by the front request, PTP by where the offset lies. -/
theorem managementPacketsAreCheckedAndAnswered : Obligations.ManagementPacketsAreCheckedAndAnswered := by
  refine ⟨fun s src p => ?receive, fun s q => ?checked, fun s i cmd size lead hi => ?rows,
    fun s q status payload => ⟨answerReq_port, answerReq_relayed⟩,
    fun s => ⟨fun h => congrArg done (if_pos h), fun h => congrArg done (if_neg (Bool.eq_false_iff.1 h))⟩,
    fun sev code data s => ⟨queueEvent_room, queueEvent_full⟩, fun s up v4 v6 speed => ?phy,
    fun s t1 t2 t3 t4 gm rank c1 c2 h => ?ptpOff, fun s t1 t2 t3 t4 c1 c2 hi he hs => ?exchange,
    fun s gm rank hi he hs => ?announce, fun s hi => ?timeout⟩
  case receive =>
    intro formed target q
    have hrun := fun (h : romRuns s = true) (hf : formed) => mmpReceive_formed (src := src) h hf
    refine ⟨fun h => congrArg done (mmpReceive_unserved h), fun h hf => congrArg done (mmpReceive_malformed h hf),
      fun h hf ht hl => ?_, fun h hf ht hl hp => ?_, fun h hf ht hl hp => ?_, fun h hf ht => ?_⟩
    · exact congrArg done ((hrun h hf).trans ((if_pos ht).trans (if_neg (Bool.eq_false_iff.1 hl))))
    · exact congrArg done ((hrun h hf).trans ((if_pos ht).trans ((if_pos hl).trans (proxyForward_silent rfl hp))))
    · exact congrArg done ((hrun h hf).trans ((if_pos ht).trans ((if_pos hl).trans (proxyForward_relays hp))))
    · exact congrArg done ((hrun h hf).trans (if_neg (not_not.2 ht)))
  case checked =>
    intro key body bare tagged mine c
    refine ⟨mmpChecked_untagged, mmpChecked_foreign, fun h hm hc => ⟨fun ht he => ?_, fun hn => ?_⟩,
      fun h hm hc => ⟨fun hl => ?_, fun hl => ?_⟩⟩
    · exact (mmpChecked_mine h hm).trans (requestJudged_repeated hc ht he)
    · exact (mmpChecked_mine h hm).trans (requestJudged_stale hc hn)
    · exact (mmpChecked_mine h hm).trans (requestJudged_full hc hl)
    · exact (mmpChecked_mine h hm).trans (requestJudged_queued hc hl)
  case rows =>
    refine ⟨fun h => mmpRow_rests hi (h.imp_right Or.inl),
      fun q rest hq hc => mmpRow_rests hi (.inr (.inr ⟨q, rest, hq, hc⟩)), fun n q rest h hn => mmpRow_length hi h hn,
      fun n q rest h hn hl ht => mmpRow_notLead hi h hn hl ht⟩
  case phy =>
    refine ⟨fun h => ?_, fun h hr hu hs => congrArg done ((whenRom_pos h).trans (phyLink_up hr hu hs)),
      fun h hr hd => congrArg done ((whenRom_pos h).trans (phyLink_down hr hd))⟩
    rcases h with h | h
    · exact congrArg done (whenRom_neg h)
    · exact congrArg done ((congrArg (fun x => if romRuns s then x else s) (phyLink_held h)).trans (ite_self s))
  case ptpOff =>
    rcases h with h | ⟨hst, h⟩
    · exact ⟨congrArg done (whenIsland_neg h), congrArg done (whenIsland_neg h), congrArg done (whenIsland_neg h)⟩
    · exact ⟨congrArg done ((whenIsland_pos h).trans (ptpExchange_disabled hst)),
        congrArg done ((whenIsland_pos h).trans (ptpAnnounce_disabled hst)),
        congrArg done ((whenIsland_pos h).trans (ptpTimeout_listening (by omega)))⟩
  case exchange =>
    intro a b o step good p
    refine ⟨fun h => congrArg done ((whenIsland_pos hi).trans (ptpExchange_behind hi he hs h)),
      fun h => congrArg done ((whenIsland_pos hi).trans (ptpExchange_ahead hi he hs h)), fun hl hh => ?_⟩
    exact ⟨ptpTrim s, (ptpTrim_bounds s).1, (ptpTrim_bounds s).2,
      congrArg done ((whenIsland_pos hi).trans (ptpExchange_near hi he hs hl hh))⟩
  case announce =>
    exact ⟨fun r hr hg => congrArg done ((whenIsland_pos hi).trans (ptpAnnounce_same he hs hr hg)),
      fun r hr hg hle => congrArg done ((whenIsland_pos hi).trans (ptpAnnounce_worse he hs hr hg hle)),
      fun h => congrArg done ((whenIsland_pos hi).trans (ptpAnnounce_better he hs h))⟩
  case timeout =>
    exact ⟨fun h => congrArg done ((whenIsland_pos hi).trans (ptpTimeout_listening h)),
      fun h => congrArg done ((whenIsland_pos hi).trans (ptpTimeout_lost h))⟩

end Sys2Proof.Proofs
end

section
/-! Chapter 17, the error unit: entries, merging, closing, handling and acknowledgement (R484–R495, R500). -/

namespace Sys2Proof.Proofs

open Sys2Proof Sys2Proof.Machine Sys2Proof.Safety Sys2Proof.Laws

/-! Entries (R484–R486, R490, R491) -/

section Entry

variable {s : State} {e : ErrEvent} {x : LogEntry}

theorem logErr_unpowered (h : standby s = false) : logErr e s = s := if_neg (Bool.eq_false_iff.1 h)

theorem isSecondary_iff (h : e.secondaryTo = none) : (logEntryOf e s).secondary = true ↔
    (classAt s e.cls).handling = true ∧ e.sev ≤ (classAt s e.cls).sev := by
  simp [logEntryOf, isSecondary, h]

theorem raised_iff (h : e.secondaryTo = none) : (logEntryOf e s).raised = true ↔
    (classAt s e.cls).handling = true ∧ (classAt s e.cls).sev < e.sev := by
  simp only [logEntryOf, isSecondary, h, Option.isSome_none, Bool.false_or, Bool.and_eq_true, decide_eq_true_eq,
    Bool.not_eq_true', Bool.and_eq_false_imp, decide_eq_false_iff_not, Nat.not_le]
  exact ⟨fun ⟨hc, _⟩ => hc, fun hc => ⟨hc, fun _ => hc.2⟩⟩

theorem isolating_iff : (logEntryOf e s).isolating = true ↔ e.sev = 4 ∧ fatalHeld s = true := by
  simp [logEntryOf]

theorem logEntryOf_restored (h : s.err.restored = true) :
    (logEntryOf e s).seq = s.err.nextSeq ∧ ((logEntryOf e s).closed = true ↔ 2 ≤ e.sev) := by
  simp [logEntryOf, h]

theorem logEntryOf_unrestored (h : s.err.restored = false) :
    (logEntryOf e s).seq = 0 ∧ (logEntryOf e s).closed = false := by
  simp [logEntryOf, h]

theorem logEntryOf_primary (h : e.secondaryTo = none) (hs : (logEntryOf e s).secondary = true) :
    (logEntryOf e s).primary = (classAt s e.cls).primary := by
  have hs' : isSecondary e s = true := hs
  simp only [logEntryOf, hs', primaryOf, h, if_true]

theorem classAt_updClass_same (c : Nat) (f : ClassState → ClassState) (s : State) :
    classAt (updClass c f s) c = f (classAt s c) := get_upd_same _ _ _ _

theorem classAfter_secondary (h : x.secondary = true) : classAt (classAfter x s) x.cls =
    { classAt s x.cls with secondary := satInc 0xFFFF (classAt s x.cls).secondary } := by
  rw [classAfter, if_pos h, classAt_updClass_same]

theorem classAfter_primary (h : x.secondary = false) (hs : 2 ≤ x.sev) : classAt (classAfter x s) x.cls =
    { classAt s x.cls with
      handling := true, sev := x.sev, primary := x.seq, primaryUid := x.uid, waitHost := false, fatalDone := false } := by
  have hp : isPrimary x = true := by simp [isPrimary, h, hs]
  rw [classAfter, if_neg (Bool.eq_false_iff.1 h), if_pos hp, classAt_updClass_same]

theorem classAfter_minor (h : x.secondary = false) (hs : x.sev < 2) : classAfter x s = s := by
  have hp : ¬ isPrimary x = true := by simp [isPrimary, hs]
  rw [classAfter, if_neg (Bool.eq_false_iff.1 h), if_neg hp]

theorem storeEntry_merged (h : merging e s = true) : (storeEntry e s).err.log = s.err.log.map (fun x =>
    if mergeMatch e s x then { x with occurrences := x.occurrences + 1, merged := true } else x) := by
  rw [storeEntry, if_pos h]
  rfl

theorem storeEntry_new (h : merging e s = false) :
    (storeEntry e s).err.log = keepLog (s.err.log ++ [logEntryOf e s]) := by
  rw [storeEntry, if_neg (Bool.eq_false_iff.1 h)]

theorem keepLog_room {l : List LogEntry} (h : l.length < 4096) : keepLog (l ++ [x]) = l ++ [x] := by
  rw [keepLog, List.length_append, List.length_singleton, Nat.sub_eq_zero_of_le (by omega), List.drop_zero]

theorem keepLog_full {l : List LogEntry} (h : 4096 ≤ l.length) : (keepLog (l ++ [x])).length = 4096 := by
  rw [keepLog, List.length_drop, List.length_append, List.length_singleton]
  omega

theorem merging_severe (h : 1 < e.sev) : merging e s = false := by
  rw [merging, decide_eq_false (Nat.not_le.2 h), Bool.false_and]

end Entry

/-! Closing and flash (R486, R487) -/

section Close

variable {s : State}

/-- An entry that takes occurrences still. -/
def entryOpen (e : LogEntry) : Bool := !e.closed && e.seq != 0

theorem closeEntries_none (h : ∀ e ∈ s.err.log, e.closed = true ∨ e.seq = 0) : closeEntries s = s := by
  have hf : s.err.log.find? (fun e => !e.closed && e.seq != 0) = none := by
    refine List.find?_eq_none.2 fun e he => ?_
    rcases h e he with hc | hc <;> simp [hc]
  simp only [closeEntries, hf]

theorem closeEntries_unpowered (h : standby s = false) : closeEntries s = s := by
  rw [closeEntries]
  split
  · rfl
  · exact if_pos (by rw [h]; rfl)

theorem closeEntries_first {x : LogEntry} (hs : standby s = true)
    (hx : s.err.log.find? (fun e => !e.closed && e.seq != 0) = some x) :
    closeEntries s =
      let now := max s.dts (x.dts + 1000000)
      let due := fun (e : LogEntry) => !e.closed && e.seq != 0 && decide (e.dts + 1000000 ≤ now)
      (s.err.log.filter due).foldl (fun u e => routeEntry { e with closed := true } u)
        { s with dts := now, err := { s.err with log := updWhere due (fun y => { y with closed := true }) s.err.log } } := by
  simp only [closeEntries, hx, hs, Bool.not_true, Bool.false_eq_true, if_false]
  rfl

theorem flashCopy_none {ok : Bool} (h : islandRuns s = false ∨ flashDue s = []) : flashCopy ok s = s :=
  if_pos (by rcases h with h | h <;> simp [h])

theorem flashCopy_due {ok : Bool} (hi : islandRuns s = true) (hl : flashDue s ≠ []) :
    flashCopy ok s = if ok then { s with err := { s.err with
        flashFailing := false
        flash := s.err.flash ++ (flashDue s).take (logBlocks * 1024 - s.err.flash.length) } }
      else flashFails s :=
  if_neg (by simp [hi, hl])

theorem flashFails_again (h : s.err.flashFailing = true) : flashFails s = s := if_pos h

theorem flashFails_first (h : s.err.flashFailing = false) :
    flashFails s = logErr { cls := 17, cause := 4, sev := sevContained, source := 0x2C }
      { s with err := { s.err with flashFailing := true } } := if_neg (Bool.eq_false_iff.1 h)

end Close

/-! Handling and acknowledgement (R492–R495) -/

section Handling

variable {s : State} {c : Nat}

/-- Where a class says who acknowledges it. -/
abbrev hostAcks (s : State) (c : Nat) : Bool := regBit s (0x100104 + c * 0x10) 31

theorem handlerDone_none (h : s.err.running = none) : handlerDone s = s := by simp only [handlerDone, h]

theorem handlerDone_idle (h : s.err.running = some c) (hi : islandRuns s = false ∨ (classAt s c).handling = false) :
    handlerDone s = s := by
  simp only [handlerDone, h]
  exact if_pos (by rcases hi with hi | hi <;> simp [hi])

/-- The running class's action is done: its severity and its acknowledger decide. -/
theorem handlerDone_running (h : s.err.running = some c) (hi : islandRuns s = true)
    (hh : (classAt s c).handling = true) :
    handlerDone s =
      if (classAt s c).sev = 4 then reschedule (updClass c (fun y => { y with fatalDone := true }) (fatalSteps s))
      else if hostAcks s c then updClass c (fun y => { y with waitHost := true }) s
      else errAck .island (c + (classAt s c).primary % 2 ^ 24 * 256) s := by
  simp only [handlerDone, h, hi, hh, Bool.not_true, Bool.or_self, Bool.false_eq_true, if_false, beq_iff_eq]

theorem fld_ackClass {n : Nat} (hc : c < 32) : fld (c + n % 2 ^ 24 * 2 ^ 8) 4 0 = c := by
  rw [fld_div]
  omega

theorem fld_ackSeq {n : Nat} (hc : c < 32) : fld (c + n % 2 ^ 24 * 2 ^ 8) 31 8 = n % 2 ^ 24 := by
  rw [fld_div]
  omega

/-- The class and its primary are named. -/
def ackNames (s : State) (c seq : Nat) : Prop :=
  (classAt s c).handling = true ∧ (classAt s c).primary % 2 ^ 24 = seq % 2 ^ 24

/-- The acknowledgement comes from the class's acknowledger, the host's once it is waited for. -/
def ackCounts (s : State) (r : Requester) (c : Nat) : Prop :=
  if hostAcks s c = true then (classAt s c).waitHost = true ∧ (r = .fn 0 ∨ r = .mmp) else r = .island

theorem errAck_word {r : Requester} {seq : Nat} (hc : c < 32) :
    errAck r (c + seq % 2 ^ 24 * 2 ^ 8) s =
      if !(classAt s c).handling || (classAt s c).primary % 2 ^ 24 != seq % 2 ^ 24 then s
      else if hostAcks s c then (if (classAt s c).waitHost && (r == .fn 0 || r == .mmp) then ackClass c s else s)
      else if r == .island then ackClass c s else s := by
  simp only [errAck, fld_ackClass hc, fld_ackSeq hc]

theorem ackNames_condition {seq : Nat} :
    (!(classAt s c).handling || (classAt s c).primary % 2 ^ 24 != seq % 2 ^ 24) = true ↔ ¬ ackNames s c seq := by
  rw [ackNames, not_and_or, Bool.or_eq_true, Bool.not_eq_true', bne_iff_ne, Bool.not_eq_true]

theorem ackCounts_island (h : hostAcks s c = false) : ackCounts s .island c := by
  rw [ackCounts, if_neg (Bool.eq_false_iff.1 h)]

theorem errAck_taken {r : Requester} {seq : Nat} (hc : c < 32) (hn : ackNames s c seq) (hk : ackCounts s r c) :
    errAck r (c + seq % 2 ^ 24 * 2 ^ 8) s = ackClass c s := by
  rw [errAck_word hc, if_neg fun hb => ackNames_condition.1 hb hn]
  by_cases hhost : hostAcks s c = true
  · rw [ackCounts, if_pos hhost] at hk
    rw [if_pos hhost, if_pos (by simpa using hk)]
  · rw [ackCounts, if_neg hhost] at hk
    rw [if_neg hhost, if_pos (by simpa using hk)]

theorem errAck_ignored {r : Requester} {seq : Nat} (hc : c < 32) (h : ¬ ackNames s c seq ∨ ¬ ackCounts s r c) :
    errAck r (c + seq % 2 ^ 24 * 2 ^ 8) s = s := by
  rw [errAck_word hc]
  by_cases hn : ackNames s c seq
  · have hk : ¬ ackCounts s r c := h.resolve_left (not_not.2 hn)
    rw [if_neg fun hb => ackNames_condition.1 hb hn]
    by_cases hhost : hostAcks s c = true
    · rw [ackCounts, if_pos hhost] at hk
      rw [if_pos hhost, if_neg (by simpa using hk)]
    · rw [ackCounts, if_neg hhost] at hk
      rw [if_neg hhost, if_neg (by simpa using hk)]
  · exact if_pos (ackNames_condition.2 hn)

theorem errAck_island (hc : c < 32) (hh : (classAt s c).handling = true) (hhost : hostAcks s c = false) :
    errAck .island (c + (classAt s c).primary % 2 ^ 24 * 256) s = reschedule (updClass c (fun _ => {}) s) :=
  errAck_taken hc ⟨hh, rfl⟩ (ackCounts_island hhost)

theorem ackTimeout_none (h : s.err.running = none) : ackTimeout s = s := by simp only [ackTimeout, h]

theorem ackTimeout_idle (h : s.err.running = some c)
    (hn : standby s = false ∨ (classAt s c).handling = false ∨ 4 ≤ (classAt s c).sev) : ackTimeout s = s := by
  simp only [ackTimeout, h]
  exact if_neg (by rcases hn with hn | hn | hn <;> simp [hn])

theorem ackTimeout_raises (h : s.err.running = some c) (hs : standby s = true) (hh : (classAt s c).handling = true)
    (hv : (classAt s c).sev < 4) :
    ackTimeout s = logErr { cls := c, cause := 0xFF, sev := (classAt s c).sev + 1, source := 1 } s := by
  simp only [ackTimeout, h]
  exact if_pos (by simp [hs, hh, hv])

theorem writeHook_errAck (cons : Cons) (r : Requester) (old new : Nat) (l : Bool) :
    writeHook cons r 0x100020 old new l s = errAck r new s := rfl

theorem fatalSteps_fences (hi : s.err.isolated = false) (hp : s.err.fencePending = true)
    (hb : regBit s 0x100028 0 = true) (hl : linkRuns s = true) (hid : s.elk.hasId = true) :
    fatalSteps s = { s with err := { s.err with fencePending := false }, elk := { s.elk with selfFence := true } } :=
  if_pos (by rw [hp, hb, hi, hl, hid]; rfl)

end Handling

/-! Last-gasp records (R500) -/

section LastGasp

variable {s : State} {r : Requester} {x : GaspRecord}

theorem writeHook_lastgaspAck (cons : Cons) (r : Requester) (old : Nat) (l : Bool) (s : State) :
    writeHook cons r 0x2C00804 old 1 l s = lastgaspAck r s := rfl

theorem lastgaspAck_none (h : shownGasp s = none) : lastgaspAck r s = s := by simp only [lastgaspAck, h]

theorem lastgaspAck_unread (h : shownGasp s = some x) (hn : x.kind = 2 ∨ s.err.crcReadBy.contains r = false) :
    lastgaspAck r s = s := by
  have hgo : (x.kind != 2 && s.err.crcReadBy.contains r) = false := by
    rcases hn with hn | hn
    · rw [hn, bne_self_eq_false, Bool.false_and]
    · rw [hn, Bool.and_false]
  simp only [lastgaspAck, h, hgo, Bool.false_eq_true, if_false]

theorem lastgaspAck_acks (h : shownGasp s = some x) (hk : x.kind ≠ 2) (hc : s.err.crcReadBy.contains r = true) :
    lastgaspAck r s = { s with err := { s.err with
      crcReadBy := []
      records := s.err.records.map (fun y => if y.number = x.number
        then { y with acked := true, body := putBytes y.body 508 (zeros 4) } else y) } } := by
  have hgo : (x.kind != 2 && s.err.crcReadBy.contains r) = true := by rw [hc, Bool.and_true]; exact bne_iff_ne.2 hk
  simp only [lastgaspAck, h, hgo, if_true, ackShown, updErr, updWhere, beq_iff_eq]

end LastGasp

/-- Settles O55: the entry by its fields, the rows by the running class, the entry found or the record shown. -/
theorem errorsAreLoggedHandledAndAcknowledged : Obligations.ErrorsAreLoggedHandledAndAcknowledged := by
  refine ⟨fun s e => ?detect, fun s => ?sources, fun s e he => ?entry,
    fun s x => ⟨classAfter_secondary, classAfter_primary, classAfter_minor⟩, fun s e => ?stored, fun s => ?closes,
    fun s => ?flash, fun s => ?handling, fun s r d c seq hc h => ?ack, fun s r d h => ?gasp,
    fun s hi hp hb hl hid => fatalSteps_fences hi hp hb hl hid⟩
  case detect =>
    intro t
    refine ⟨fun h => congrArg done (logErr_unpowered h), fun h => ⟨rfl, ?_⟩⟩
    exact ⟨logErr_pwr s e, logErr_boot s e, logErr_fab s e, logErr_mov s e, logErr_elk s e, logErr_sqe s e, logErr_swe s e,
      logErr_ptu s e, logErr_pgv s e, logErr_tfu s e, logErr_fbc s e, logErr_tmg s e, logErr_hud s e, logErr_dts s e⟩
  case sources =>
    exact ⟨fun h => congrArg done (if_pos (by rw [h]; rfl)),
      fun h => congrArg done (if_neg (by rw [h]; exact Bool.false_ne_true)), fun o => rfl, rfl⟩
  case entry =>
    exact ⟨isSecondary_iff he, raised_iff he, isolating_iff, rfl, rfl, rfl, rfl, rfl, logEntryOf_restored,
      logEntryOf_unrestored, logEntryOf_primary he⟩
  case stored =>
    exact ⟨storeEntry_merged, fun h hl => (storeEntry_new h).trans (keepLog_room hl),
      fun h hl => (congrArg List.length (storeEntry_new h)).trans (keepLog_full hl), merging_severe⟩
  case closes =>
    intro due
    refine ⟨fun h => congrArg done ?_, fun x hs hx => congrArg done (closeEntries_first hs hx)⟩
    rcases h with h | h
    · exact closeEntries_unpowered h
    · exact closeEntries_none h
  case flash =>
    intro l
    have hcopy := fun (ok : Bool) (hi : islandRuns s = true) (hl : l ≠ []) =>
      (whenIsland_pos hi).trans (flashCopy_due (ok := ok) hi hl)
    refine ⟨fun h ok => ?_, fun hi hl => congrArg done ((hcopy true hi hl).trans (if_pos rfl)), fun hi hl hf => ?_,
      fun hi hl hf => ?_⟩
    · exact congrArg done ((congrArg (fun x => if islandRuns s then x else s) (flashCopy_none h)).trans (ite_self s))
    · exact congrArg done ((hcopy false hi hl).trans ((if_neg Bool.false_ne_true).trans (flashFails_again hf)))
    · exact congrArg done ((hcopy false hi hl).trans ((if_neg Bool.false_ne_true).trans (flashFails_first hf)))
  case handling =>
    refine ⟨fun h => ⟨congrArg done (handlerDone_none h), congrArg done (ackTimeout_none h)⟩, fun c h => ?_⟩
    intro x host ack
    refine ⟨fun hi => congrArg done (handlerDone_idle h hi), fun hi hh hv => ?_, fun hi hh hv hhost => ?_,
      fun hi hh hv hhost hc => ⟨?_, errAck_island (by omega) hh hhost⟩, fun hn => congrArg done (ackTimeout_idle h hn),
      fun hs hh hv => congrArg done (ackTimeout_raises h hs hh hv)⟩
    · exact congrArg done ((handlerDone_running h hi hh).trans (if_pos hv))
    · exact congrArg done ((handlerDone_running h hi hh).trans ((if_neg hv).trans (if_pos hhost)))
    · exact congrArg done ((handlerDone_running h hi hh).trans ((if_neg hv).trans (if_neg (Bool.eq_false_iff.1 hhost))))
  case ack =>
    intro t x host named counts
    have hrun := (regWrite_written (cons := {}) h (by decide) (by decide)).trans (writeHook_errAck _ _ _ _ _)
    exact ⟨fun hn hk => congrArg done (hrun.trans (errAck_taken hc hn hk)),
      fun hn => congrArg done (hrun.trans (errAck_ignored hc hn))⟩
  case gasp =>
    intro t
    have hrun := (regWrite_written (cons := {}) h (by decide) (by decide)).trans (writeHook_lastgaspAck _ _ _ _ _)
    refine ⟨fun hn => congrArg done (hrun.trans (lastgaspAck_none hn)), fun x hx => ?_⟩
    exact ⟨fun hn => congrArg done (hrun.trans (lastgaspAck_unread hx hn)),
      fun hk hc => congrArg done (hrun.trans (lastgaspAck_acks hx hk hc))⟩

end Sys2Proof.Proofs
end

section
/-! Chapter 18, the choice of a slot, the island's boot and chip initialization (R509–R518). -/

namespace Sys2Proof.Proofs

open Sys2Proof Sys2Proof.Machine Sys2Proof.Safety Sys2Proof.Laws

/-! The choice of a slot (R510) -/

section Choose

variable {base a b : Nat} {p : PairRec} {slots : Tbl Slot} {ok : Nat → Bool}

theorem find_first (h : ok a = true) : [a, b].find? ok = some a := by simp [List.find?, h]

theorem find_second (ha : ok a = false) (hb : ok b = true) : [a, b].find? ok = some b := by simp [List.find?, ha, hb]

theorem find_neither (ha : ok a = false) (hb : ok b = false) : [a, b].find? ok = none := by simp [List.find?, ha, hb]

/-- The slot the record prefers and its partner. -/
def slotOrder (k : Nat) : List Nat := if k = 0xFF then [0, 1] else [k, 1 - k]

/-- The slots after the failed checks before the first good one. -/
def slotsChecked (base k : Nat) (ok : Nat → Bool) (t : Tbl Slot) : Tbl Slot :=
  ((slotOrder k).takeWhile (fun j => !(ok j))).foldl (fun t j => markInvalid (base + j) t) t

theorem chooseSlot_trial (ht : p.trial ≠ 0xFF) (hf : p.tried = false) :
    chooseSlot base p slots ok = {
      pair := { p with tried := true }, slots := slotsChecked base p.trial ok slots, writes := 1
      pick := (slotOrder p.trial).find? ok, trial := (slotOrder p.trial).find? ok == some p.trial } := by
  have hb : (p.trial != 0xFF) = true := bne_iff_ne.2 ht
  simp only [chooseSlot, hb, hf, Bool.not_false, Bool.and_self, Bool.and_false, Bool.false_eq_true, if_true, if_false,
    Bool.true_and, slotsChecked, slotOrder, b2n]

theorem chooseSlot_rejected (ht : p.trial ≠ 0xFF) (hf : p.tried = true) :
    chooseSlot base p slots ok = {
      pair := { p with trial := 0xFF }
      slots := slotsChecked base p.active ok (Tbl.upd {} slots (base + p.trial) (fun x => { x with st := .rejected }))
      writes := 1, pick := (slotOrder p.active).find? ok, trial := false } := by
  have hb : (p.trial != 0xFF) = true := bne_iff_ne.2 ht
  simp only [chooseSlot, hb, hf, Bool.not_true, Bool.and_self, Bool.and_false, Bool.false_eq_true, if_true, if_false,
    Bool.false_and, slotsChecked, slotOrder, b2n]

theorem chooseSlot_active (ht : p.trial = 0xFF) :
    chooseSlot base p slots ok = {
      pair := p, slots := slotsChecked base p.active ok slots, writes := 0
      pick := (slotOrder p.active).find? ok, trial := false } := by
  have hb : (p.trial != 0xFF) = false := by rw [ht]; rfl
  simp only [chooseSlot, hb, Bool.false_eq_true, if_false, Bool.false_and, slotsChecked, slotOrder, b2n]

theorem slotOrder_known {k : Nat} (h : k ≠ 0xFF) : slotOrder k = [k, 1 - k] := if_neg h

theorem slotsChecked_good {k : Nat} (h : k ≠ 0xFF) (hk : ok k = true) (t : Tbl Slot) :
    slotsChecked base k ok t = t := by
  rw [slotsChecked, slotOrder_known h, List.takeWhile_cons_of_neg (by simp [hk]), List.foldl_nil]

end Choose

/-! The ROM and stage 2 (R510, R513, R514) -/

section Rom

variable {s : State} {sigs : Nat}

/-- The ROM boots when VSTBY has qualified and the island is neither up nor restarting. -/
def bootsNow (s : State) : Prop :=
  standby s = true ∧ s.pwr.islandUp = false ∧ s.pwr.restarting = false ∧ s.pwr.vstby = .qualified ∧
    s.pwr.straps.test = false

theorem islandBoot_not (h : standby s = false ∨ s.pwr.islandUp = true ∨ s.pwr.restarting = true ∨
    s.pwr.vstby ≠ .qualified ∨ s.pwr.straps.test = true) : islandBoot sigs s = s :=
  if_pos (by rcases h with h | h | h | h | h <;> simp [h])

theorem islandBoot_rom (h : bootsNow s) : islandBoot sigs s = romBoot sigs s := by
  obtain ⟨hs, hup, hre, hv, ht⟩ := h
  exact if_neg (by simp [hs, hup, hre, hv, ht])

/-- The ROM's choice among the firmware slots. -/
def romChoice (sigs : Nat) (f : State) : Choice :=
  chooseSlot 0 f.boot.fw f.boot.slots (fun k => verifies f 0 (slotAt f.boot k).bytes (bitOf sigs k) false)

/-- The boot record after the choice. -/
def choiceStored (c : Choice) (f : State) : State :=
  updBoot (fun b => { b with fw := c.pair, slots := c.slots, count := f.boot.count + c.writes }) f

theorem romBoot_recovery (ht : s.pwr.straps.test = false) (hr : s.pwr.straps.recovery = true) :
    romBoot sigs s = recoveryStarts 1 (islandFresh s) :=
  (if_neg (Bool.eq_false_iff.1 ht)).trans (if_pos hr)

theorem romBoot_none (ht : s.pwr.straps.test = false) (hr : s.pwr.straps.recovery = false)
    (hk : (romChoice sigs (islandFresh s)).pick = none) :
    romBoot sigs s = recoveryStarts 2 (choiceStored (romChoice sigs (islandFresh s)) (islandFresh s)) := by
  refine (if_neg (Bool.eq_false_iff.1 ht)).trans ((if_neg (Bool.eq_false_iff.1 hr)).trans ?_)
  rw [romChoice] at hk
  simp only [hk]
  rfl

theorem romBoot_slot {k : Nat} (ht : s.pwr.straps.test = false) (hr : s.pwr.straps.recovery = false)
    (hk : (romChoice sigs (islandFresh s)).pick = some k) :
    romBoot sigs s = firmwareStarts k (romChoice sigs (islandFresh s)).trial
      (choiceStored (romChoice sigs (islandFresh s)) (islandFresh s)) := by
  refine (if_neg (Bool.eq_false_iff.1 ht)).trans ((if_neg (Bool.eq_false_iff.1 hr)).trans ?_)
  rw [romChoice] at hk
  simp only [hk]
  rfl

/-- What stage 2 sets, before it tells the regulators. -/
def firmwareUp (k : Nat) (trial : Bool) (s : State) : State :=
  let img := (slotAt s.boot k).bytes
  updTmg (fun t => { t with role := if s.pwr.straps.lead then 1 else 0 })
    (updPwr (fun p => { p with islandUp := true, restarting := false, autoOnDone := false })
      (updBoot (fun b => { b with
        fwSlot := k, fwTrial := trial, fwMajor := getLe img 12 1, fwMinor := getLe img 13 1, stage := 2
        bootDts := s.dts }) s))

/-- The seven main regulators are told to be off. -/
def railsOff : List Emit := [.operation 0 false, .operation 1 false, .operation 2 false, .operation 3 false,
  .operation 4 false, .operation 5 false, .operation 6 false]

theorem firmwareStarts_eq (s : State) (k : Nat) (trial : Bool) : firmwareStarts k trial s =
    { firmwareUp k trial s with out := s.out ++ if railsIdle s then railsOff else [] } := by
  have hout : (firmwareUp k trial s).out = s.out := rfl
  by_cases h : railsIdle s = true
  · refine (if_pos h).trans ?_
    rw [if_pos h]
    exact forEach_emit (fun i => .operation i false) mainRails (firmwareUp k trial s)
  · refine (if_neg h).trans ?_
    rw [if_neg h, List.append_nil]
    rfl

theorem railsIdle_iff (s : State) : railsIdle s = true ↔ s.pwr.st = .off ∨ s.pwr.st = .lockedOut := by
  simp [railsIdle]

end Rom

/-! The stages (R514) -/

section Stage

variable {s : State} {cons : Cons} {sigs : Nat} {reads : List (Nat × List (Option (List Byte)))}

/-- The stage after the last one reached. -/
def stageReached (n : Nat) (t : State) : State := { t with boot := { t.boot with stage := n } }

theorem bootStage_halted (h : islandRuns s = false) : bootStage cons sigs reads s = s := if_pos (by rw [h]; rfl)

theorem bootStage_outside (h : s.boot.stage < 2 ∨ 8 ≤ s.boot.stage) : bootStage cons sigs reads s = s := by
  rw [bootStage]
  split
  · rfl
  split
  case h_7 => rfl
  all_goals omega

section Running

variable (hi : islandRuns s = true)
include hi

theorem bootStage_config (h : s.boot.stage = 2) :
    bootStage cons sigs reads s = stageReached 3 (stageConfig sigs s) := by
  simp only [bootStage, hi, h, Bool.not_true, Bool.false_eq_true, if_false]
  rfl

theorem bootStage_restore (h : s.boot.stage = 3) : bootStage cons sigs reads s = stageReached 4 (stageRestore s) := by
  simp only [bootStage, hi, h, Bool.not_true, Bool.false_eq_true, if_false]
  rfl

theorem bootStage_services (h : s.boot.stage = 4) :
    bootStage cons sigs reads s = stageReached 5 (stageServices cons s) := by
  simp only [bootStage, hi, h, Bool.not_true, Bool.false_eq_true, if_false]
  rfl

theorem bootStage_network (h : s.boot.stage = 5) : bootStage cons sigs reads s = stageReached 6 (stageNetwork s) := by
  simp only [bootStage, hi, h, Bool.not_true, Bool.false_eq_true, if_false]
  rfl

theorem bootStage_tray (h : s.boot.stage = 6) (ht : s.tmg.settled = true) :
    bootStage cons sigs reads s = stageReached 7 (stageTray reads s) := by
  simp only [bootStage, hi, h, ht, Bool.not_true, Bool.false_eq_true, if_false, if_true]
  rfl

theorem bootStage_waits (h : s.boot.stage = 6) (ht : s.tmg.settled = false) : bootStage cons sigs reads s = s := by
  simp only [bootStage, hi, h, ht, Bool.not_true, Bool.false_eq_true, if_false]

theorem bootStage_last (h : s.boot.stage = 7) : bootStage cons sigs reads s = stageReached 8 s := by
  simp only [bootStage, hi, h, Bool.not_true, Bool.false_eq_true, if_false]
  rfl

end Running

theorem configInForce_none (h : s.boot.noConfig = true) : configInForce s = [] := if_pos h

theorem stageServices_none (h : s.boot.noConfig = true) :
    stageServices cons s = updBoot (fun b => { b with pcieIds := [] }) s := by
  simp only [stageServices, configInForce_none h, List.filter_nil, List.foldl_nil]
  rfl

theorem stageNetwork_none (h : s.boot.noConfig = true) :
    stageNetwork s = queueEvent 0 0x0A00 (leBytes 8 s.mgp.floor ++ leBytes 1 s.boot.fwMajor ++ leBytes 1 s.boot.fwMinor)
      (releasePhy (updBoot (fun b => { b with net := [1, 1] ++ zeros 14 }) s)) := by
  simp only [stageNetwork, h, if_true]
  rfl

theorem restoreLog_done (h : s.err.restored = true) : restoreLog s = s := if_pos h

theorem restoreLog_empty (h : s.err.restored = false) (hl : s.err.log = []) :
    (restoreLog s).err.restored = true ∧ (restoreLog s).err.nextSeq = s.err.reserve ∧
      (restoreLog s).err.reserve = s.err.reserve + 1048576 := by
  simp only [restoreLog, h, hl, Bool.false_eq_true, if_false, List.filter_nil, List.foldl_nil, List.length_nil,
    Nat.add_zero, updErr, seqReserve, and_self]

end Stage

/-! RESTART and CONFIRM (R512) -/

section Confirm

variable {s : State} {raise : Bool}

theorem writeHook_bootCtrl (cons : Cons) (r : Requester) (old new : Nat) (l : Bool) (t : State) :
    writeHook cons r 0x2C00C08 old new l t = bootCtrl new t := rfl

theorem bootCtrl_restart (s : State) : bootCtrl 1 s = islandDown false s := rfl

theorem bootCtrl_confirm (raise : Bool) (s : State) :
    bootCtrl (2 + b2n raise * 4) s = if islandRuns s then confirm raise s else s := by
  cases raise <;> rfl

theorem confirm_none (hf : s.boot.fwTrial = false) (hc : s.boot.cfgTrial = false) : confirm raise s = s :=
  if_pos (by rw [hf, hc]; rfl)

/-- The boot record after the firmware on trial alone is confirmed. -/
def firmwareConfirmed (raise : Bool) (b : Boot) : Boot :=
  let r := confirmPair 0 b.fwSlot b.fw b.slots
  { confirmFuses raise (slice (slotAt b b.fwSlot).bytes 0 256) { b with fw := r.1, slots := r.2, fwTrial := false } with
    count := b.count + 1 }

theorem confirm_firmware (hf : s.boot.fwTrial = true) (hc : s.boot.cfgTrial = false) :
    confirm raise s = { s with boot := firmwareConfirmed raise s.boot } := by
  refine (if_neg (by rw [hf]; exact Bool.false_ne_true)).trans ?_
  dsimp only
  rw [if_pos hf, if_neg (Bool.eq_false_iff.1 hc)]
  rfl

theorem firmwareConfirmed_slot (raise : Bool) (b : Boot) : (slotAt (firmwareConfirmed raise b) b.fwSlot).st = .active := by
  have hkey : 0 + b.fwSlot = b.fwSlot := Nat.zero_add _
  have hslots : (firmwareConfirmed raise b).slots = (confirmPair 0 b.fwSlot b.fw b.slots).2 := rfl
  rw [slotAt, hslots, confirmPair]
  simp only [hkey, get_upd_same]

end Confirm

/-! The island's fall (R502, R512) -/

section Down

variable {s : State}

theorem islandDown_not (h : romRuns s = false) : islandDown false s = s := if_pos (by rw [h]; rfl)

/-- The state in which the island has met its restart, logged when initialization was under way. -/
def restartLogged (s : State) : State :=
  if initRuns s then logErr { cls := 17, cause := 1, sev := sevContained, source := 0x2C } s else s

theorem restartLogged_keeps (s : State) : (restartLogged s).mem.cells = s.mem.cells ∧ (restartLogged s).fbc = s.fbc ∧
    (restartLogged s).tfu = s.tfu ∧ (restartLogged s).pwr = s.pwr := by
  rw [restartLogged]
  split
  · exact ⟨logErr_cells _ _, logErr_fbc _ _, logErr_tfu _ _, logErr_pwr _ _⟩
  · exact ⟨rfl, rfl, rfl, rfl⟩

theorem islandDown_rom (h : romRuns s = true) : islandDown false s =
    { restartLogged s with
      pwr := { (restartLogged s).pwr with
        islandUp := false, restarting := true
        initInterrupted := (restartLogged s).pwr.initInterrupted || initRuns s, autoOnDone := false }
      boot := { (restartLogged s).boot with stage := 1 } } := by
  simp only [islandDown, h, Bool.not_true, Bool.not_false, Bool.and_true, Bool.false_eq_true, if_false]
  rfl

end Down

/-! Chip initialization (R40, R155, R517) -/

section Init

variable {s : State} {ok : Bool} {mask : Nat}

/-- FCLK and the island's firmware run. -/
def initGoes (s : State) : Prop := fclkRuns s = true ∧ islandRuns s = true

theorem initGoes_condition {p : Bool} : (p || !(fclkRuns s) || !(islandRuns s)) = true ↔ p = true ∨ ¬ initGoes s := by
  rw [initGoes, not_and_or, Bool.or_eq_true, Bool.or_eq_true, Bool.not_eq_true', Bool.not_eq_true', ← Bool.not_eq_true,
    ← Bool.not_eq_true, or_assoc]

theorem chipInit_not (h : s.pwr.init ≠ .started ∨ ¬ initGoes s) : chipInit ok s = s :=
  if_pos (initGoes_condition.2 (h.imp_left bne_iff_ne.2))

/-- Owner 0's first key is drawn. -/
def keysDrawn (s : State) : State :=
  let u := updOwner 0 (fun w => { w with keyGen := (w.keyGen + 1) % 1024, key := some s.mem.nextKey }) s
  updPwr (fun p => { p with init := .keys }) { u with mem := { u.mem with rngOk := true, nextKey := u.mem.nextKey + 1 } }

theorem chipInit_passes (hn : s.pwr.init = .started) (h : initGoes s) : chipInit true s = keysDrawn s := by
  refine (if_neg fun hc => ?_).trans (if_pos rfl)
  exact (initGoes_condition.1 hc).elim (fun hb => bne_iff_ne.1 hb hn) (fun hg => hg h)

theorem chipInit_fails (hn : s.pwr.init = .started) (h : initGoes s) : chipInit false s =
    logErr { cls := 18, cause := 1, sev := sevFatal, source := 2 } { s with pwr := { s.pwr with init := .failed } } := by
  refine (if_neg fun hc => ?_).trans (if_neg Bool.false_ne_true)
  exact (initGoes_condition.1 hc).elim (fun hb => bne_iff_ne.1 hb hn) (fun hg => hg h)

theorem ownerAt_updOwner_same (o : Nat) (f : Owner → Owner) (s : State) :
    ownerAt (updOwner o f s) o = f (ownerAt s o) := get_upd_same _ _ _ _

theorem keysDrawn_owner (s : State) : ownerAt (keysDrawn s) 0 = { ownerAt s 0 with
    keyGen := ((ownerAt s 0).keyGen + 1) % 1024, key := some s.mem.nextKey } :=
  ownerAt_updOwner_same 0 (fun w => { w with keyGen := (w.keyGen + 1) % 1024, key := some s.mem.nextKey }) s

theorem hbmTrained_not (h : s.pwr.init ≠ .keys ∨ ¬ initGoes s) : hbmTrained mask s = s :=
  if_pos (initGoes_condition.2 (h.imp_left bne_iff_ne.2))

/-- What training gave is noted. -/
def trainingNoted (good : Nat) (s : State) : State :=
  updMov (fun m => { m with hbmTrained := good, hbmFailed := 255 - good, refresh2x := 0 }) s

/-- Memory is cleared and owner 0 is ACTIVE. -/
def memoryReadied (s : State) : State :=
  patrolStart (updPwr (fun p => { p with init := .memory }) (updOwner 0 (fun w => { w with st := .active })
    { s with mem := { s.mem with cells := [], tags := [], poison := [], poisonScratch := [], leases := [] } }))

/-- Each failed stack is logged. -/
def stacksLogged (good : Nat) (s : State) : State :=
  ((List.range 8).filter (fun k => !(bitOf good k))).foldl (fun t k =>
    logErr { cls := 6, cause := 1, sev := sevFatal, source := 0x18, index := k } t) s

theorem hbmTrained_ends (hn : s.pwr.init = .keys) (h : initGoes s) : hbmTrained mask s =
    if mask % 256 = 255 then memoryReadied (trainingNoted (mask % 256) s)
    else stacksLogged (mask % 256) (updPwr (fun p => { p with init := .failed }) (trainingNoted (mask % 256) s)) := by
  refine if_neg fun hc => ?_
  exact (initGoes_condition.1 hc).elim (fun hb => bne_iff_ne.1 hb hn) (fun hg => hg h)

theorem memoryReadied_owner (s : State) : (ownerAt (memoryReadied s) 0).st = .active :=
  congrArg Owner.st (ownerAt_updOwner_same 0 (fun w => { w with st := .active }) s)

theorem stacksLogged_keeps (good : Nat) (s : State) : (stacksLogged good s).pwr = s.pwr ∧
    (stacksLogged good s).mov = s.mov ∧ (stacksLogged good s).mem.cells = s.mem.cells := by
  rw [stacksLogged]
  generalize (List.range 8).filter (fun k => !(bitOf good k)) = l
  induction l generalizing s with
  | nil => exact ⟨rfl, rfl, rfl⟩
  | cons k l ih =>
    obtain ⟨hpwr, hmov, hcells⟩ := ih (logErr { cls := 6, cause := 1, sev := sevFatal, source := 0x18, index := k } s)
    exact ⟨hpwr.trans (logErr_pwr _ _), hmov.trans (logErr_mov _ _), hcells.trans (logErr_cells _ _)⟩

theorem hostReady_ready (hn : s.pwr.init = .memory) (h : chipReady s = true) :
    hostReady s = { s with pwr := { s.pwr with init := .ready } } := if_pos (by rw [hn, h]; rfl)

theorem hostReady_not (h : s.pwr.init ≠ .memory ∨ chipReady s = false) : hostReady s = s :=
  if_neg (by rcases h with h | h <;> simp [h])

end Init

/-- Settles O56: the choice by the boot record, each row by the stage, the trial or the initialization it finds. -/
theorem theIslandBootsAndTheChipInitializes : Obligations.TheIslandBootsAndTheChipInitializes := by
  refine ⟨fun base p slots ok => ?choice, fun s sigs => ?boot, fun s path => ⟨rfl, rfl, rfl, rfl, rfl, rfl, rfl⟩,
    fun s k trial => ?firmware, fun s cons sigs reads => ?stages,
    fun s h => ⟨stageServices_none h, stageNetwork_none h⟩, fun s h => restoreLog_done h,
    fun s => fun h hl => restoreLog_empty h hl, fun s r d => ⟨fun h => ?restart, fun raise h => ?confirm⟩,
    fun s raise => ⟨confirm_none, fun hf hc => ?trial⟩, fun s => ?down, fun s => ?init⟩
  case choice =>
    intro c
    refine ⟨fun ht hf => ?_, fun ht hf => ?_, fun ht => ?_⟩
    · have hc : c = _ := chooseSlot_trial ht hf
      rw [hc]
      refine ⟨rfl, rfl, fun hok => ?_⟩
      have hfind : (slotOrder p.trial).find? ok = some p.trial := by rw [slotOrder_known ht, find_first hok]
      exact ⟨hfind, by simp only [hfind, beq_self_eq_true], slotsChecked_good ht hok slots⟩
    · have hc : c = _ := chooseSlot_rejected ht hf
      rw [hc]
      refine ⟨rfl, rfl, rfl, fun ha hok => ⟨by rw [slotOrder_known ha]; exact find_first hok, ?_⟩⟩
      simp only [slotsChecked_good ha hok, get_upd_same]
    · have hc : c = _ := chooseSlot_active ht
      rw [hc]
      refine ⟨rfl, rfl, rfl, fun ha hok => ⟨by rw [slotOrder_known ha]; exact find_first hok, slotsChecked_good ha hok slots⟩,
        fun a ha hpa hno hok => ?_, fun a ha hpa hno hno' => ?_⟩
      · rw [hpa, slotOrder_known (by omega)]
        exact find_second hno hok
      · rw [hpa, slotOrder_known (by omega)]
        exact find_neither hno hno'
  case boot =>
    refine ⟨fun h => congrArg done (islandBoot_not h), fun hs hup hre hv ht => ?_⟩
    intro f c t
    have hrom := islandBoot_rom (sigs := sigs) (s := s) ⟨hs, hup, hre, hv, ht⟩
    exact ⟨fun hr => congrArg done (hrom.trans (romBoot_recovery ht hr)),
      fun hr hk => congrArg done (hrom.trans (romBoot_none ht hr hk)),
      fun k hr hk => congrArg done (hrom.trans (romBoot_slot ht hr hk))⟩
  case firmware =>
    intro t
    have hout : t.out = s.out ++ if railsIdle s then railsOff else [] := congrArg State.out (firmwareStarts_eq s k trial)
    have ht : t = _ := firmwareStarts_eq s k trial
    refine ⟨?_, ?_, ?_, ?_, ?_, ?_, ?_, ?_, ?_, ?_, fun h => ?_, fun ho hl => ?_⟩
    · rw [ht]; rfl
    · rw [ht]; rfl
    · rw [ht]; rfl
    · rw [ht]; rfl
    · rw [ht]; rfl
    · rw [ht]; rfl
    · rw [ht]; rfl
    · rw [ht]; rfl
    · rw [ht]; rfl
    · rw [ht]; rfl
    · rw [hout, if_pos ((railsIdle_iff s).2 h)]
      rfl
    · rw [hout, if_neg fun h => ((railsIdle_iff s).1 h).elim ho hl, List.append_nil]
  case stages =>
    intro at_
    refine ⟨fun h => congrArg done (h.elim bootStage_halted bootStage_outside), fun hi => ?_⟩
    exact ⟨fun h => congrArg done (bootStage_config hi h), fun h => congrArg done (bootStage_restore hi h),
      fun h => congrArg done (bootStage_services hi h), fun h => congrArg done (bootStage_network hi h),
      fun h ht => congrArg done (bootStage_tray hi h ht), fun h ht => congrArg done (bootStage_waits hi h ht),
      fun h => congrArg done (bootStage_last hi h)⟩
  case restart =>
    exact congrArg done (((regWrite_written h (by decide) (by decide)).trans (writeHook_bootCtrl _ _ _ _ _ _)).trans
      (bootCtrl_restart _))
  case confirm =>
    intro t
    have hrun := ((regWrite_written (cons := {}) h (by decide) (by decide)).trans (writeHook_bootCtrl _ _ _ _ _ _)).trans
      (bootCtrl_confirm raise t)
    exact ⟨fun hi => congrArg done (hrun.trans (if_pos hi)),
      fun hi => congrArg done (hrun.trans (if_neg (Bool.eq_false_iff.1 hi)))⟩
  case trial =>
    intro hdr b
    have hb : b = firmwareConfirmed raise s.boot := congrArg State.boot (confirm_firmware hf hc)
    rw [hb]
    exact ⟨rfl, rfl, rfl, rfl, rfl, rfl, firmwareConfirmed_slot raise s.boot⟩
  case down =>
    intro t
    refine ⟨islandDown_not, fun h => ?_⟩
    have ht : t = _ := islandDown_rom h
    obtain ⟨hcells, hfbc, htfu, hpwr⟩ := restartLogged_keeps s
    have hst := congrArg Power.st hpwr
    have hrails := congrArg Power.rails hpwr
    rw [ht]
    refine ⟨rfl, rfl, rfl, hcells, hfbc, htfu, hst, hrails, fun hn => ?_⟩
    have hl : restartLogged s = s := if_neg (Bool.eq_false_iff.1 hn)
    have herr := congrArg State.err hl
    have hout := congrArg State.out hl
    exact ⟨herr, hout⟩
  case init =>
    intro run
    refine ⟨fun ok h => congrArg done (chipInit_not h), fun hn h => ⟨⟨_, congrArg done (chipInit_passes hn h), ?_⟩,
      congrArg done (chipInit_fails hn h)⟩, fun mask h => congrArg done (hbmTrained_not h), fun mask hn h hm => ?_,
      fun mask hn h hm => ?_, fun hn h => congrArg done (hostReady_ready hn h), fun h => congrArg done (hostReady_not h)⟩
    · exact ⟨rfl, rfl, congrArg Owner.key (keysDrawn_owner s), congrArg Owner.keyGen (keysDrawn_owner s), rfl, rfl⟩
    · refine ⟨_, congrArg done ((hbmTrained_ends hn h).trans (if_pos hm)), rfl, rfl, rfl, rfl, memoryReadied_owner _, ?_, ?_⟩
      · exact hm
      · exact congrArg (255 - ·) hm
    · obtain ⟨hpwr, hmov, hcells⟩ := stacksLogged_keeps (mask % 256)
        (updPwr (fun p => { p with init := .failed }) (trainingNoted (mask % 256) s))
      exact ⟨_, congrArg done ((hbmTrained_ends hn h).trans (if_neg hm)), congrArg Power.init hpwr,
        congrArg Movers.hbmTrained hmov, congrArg Movers.hbmFailed hmov, hcells⟩

end Sys2Proof.Proofs
end
